-- ==== Sys2Proof/Word.lean ====
section
/-! DEFINITION. The word types of the model: bytes, registers, instruction words and 64-byte lines. -/

namespace Sys2Proof

/-- One byte. -/
abbrev Byte := BitVec 8
/-- A 32-bit operand word (R107). -/
abbrev W32 := BitVec 32
/-- A 64-bit register (R8). -/
abbrev W64 := BitVec 64
/-- A 128-bit instruction or extension word (R107). -/
abbrev W128 := BitVec 128
/-- A 64-byte line as one little-endian number, byte 0 in bits 7..0 (R143). -/
abbrev Line := BitVec 512

end Sys2Proof
end

