-- ==== Sys2Proof/Syntax.lean ====
section
/-! DEFINITION. The commands of the device: one constructor of Instr per row of spec/opcode_table.json, with the row's operands.
What a unit outside the model decides (a sensor reading, an analogue result, data that arrives on a link) is an operand of the row
at which it acts. -/

namespace Sys2Proof

/-- Who sent a control instruction (R106). -/
inductive Src where
  | port (n : BitVec 6)
  | conductor
  deriving DecidableEq, Repr

/-- Header of a control instruction as its source took it (R107, R94): ordinal and the flags CREQ, FENCE, LAST. -/
structure CtlHdr where
  src : Src
  ord : W32
  creq : Bool
  fence : Bool
  last : Bool
  deriving DecidableEq, Repr

/-- Header of a tile instruction (R107): the physical tile that runs it, its word index and its hitch fields. -/
structure TileHdr where
  tile : BitVec 8
  widx : W32
  fence : Bool
  last : Bool
  wen : Bool
  wctr : BitVec 6
  sen : Bool
  sctr : BitVec 6
  deriving DecidableEq, Repr

/-- The rails of R29. -/
inductive Rail where
  | vcore0 | vcore1 | vsram | vio | vhbm | vfls | vopt | vaon | v3p3
  deriving DecidableEq, Repr

/-- What causes a hot reset (R62). -/
inductive HotCause where
  | hotReset | linkDisable | dataLinkDown
  deriving DecidableEq, Repr

/-- Packet Error Checking byte of an SMBus write: absent, valid or wrong (R42, R437). -/
inductive Pec where
  | absent | good | bad
  deriving DecidableEq, Repr

/-- What a debug read names (R493). -/
inductive DbgTarget where
  | register (off : BitVec 22)
  | errRecord (ring : Bool) (m : Nat)
  | sequence (s : BitVec 22)
  | object (h : BitVec 24)
  | tileLine (t : BitVec 8) (line : Nat)
  | stagingLine (die : Bool) (line : Nat)
  | dramLine (line : Nat)
  | systemFrame (stack : BitVec 3) (frame : Nat)
  deriving DecidableEq, Repr

/-- Attributes of a memory write on the host link: its EP bit and Relaxed Ordering (R92, R104). -/
structure WriteAttr where
  poisoned : Bool := false
  relaxed : Bool := false
  deriving DecidableEq, Repr

/-- What a read of the configuration space asks for (R87): a feature the function advertises, a setting host software made, or, as notOffered,
a feature of the table's last row, ASPM, MSI or INTx. -/
inductive CfgItem where
  | linkSpeeds | linkWidths | flitMode | payloadMax | payload | readRequestMax | readRequest | tagBitsMax | tagBits
  | aer | aerHeader | ecrcGenerate | ecrcCheck | msixVectors | msixEnable | functionMask | bar0Mib | bar2Mib | bar4Gib | bar4GibMax
  | functionLevelReset | busMaster | d3hot | noSoftReset | completionRanges | completionRange | relaxedOrdering | notOffered
  deriving DecidableEq, Repr

/-- A PCIe configuration request (R73, R89, R90): a read, or a write of one of the settings the device acts on. -/
inductive CfgReq where
  | read (item : CfgItem)
  | busMaster (on : Bool)
  | d3hot (on : Bool)
  | tagBits (n : Nat)
  | maxPayload (bytes : Nat)
  | maxReadRequest (bytes : Nat)
  | bar4Size (gib : Nat)
  | msixEnable (on : Bool)
  | functionMask (on : Bool)
  | completionRange (n : Nat)
  | ecrc (generate check : Bool)
  | aerClear
  deriving DecidableEq, Repr

/-- A fuse programmed through the debug port at level 3 (R474, R493). Fuses only gain bits. -/
inductive FuseWrite where
  | lifeCycle (row : BitVec 3)
  | tveddaKeyHash (v : BitVec 256)
  | operatorKeyHash (v : BitVec 256)
  | minSvn (n : BitVec 7)
  | deviceSecret (v : BitVec 256)
  deriving DecidableEq, Repr

/-- A ring whose MSI-X message is paced by R103. -/
inductive PacedRing where
  | completion (port : BitVec 6)
  | delivery (ring : BitVec 8)
  deriving DecidableEq, Repr

/-- A fabric frame as it stands on a link (R409); its CRC is checked by the link (R408). -/
structure Frame where
  dest : BitVec 12
  src : BitVec 12
  type : BitVec 8
  hops : BitVec 4
  chan : BitVec 16
  tag : W64
  offset : W64
  flags : W32
  body : List Byte
  lines : List Line
  deriving DecidableEq, Repr

/-- What the boot ROM of a start-up finds: whether its SHA-256 self-test passes, and whether the code region can be read (R72, R75). -/
structure BootReads where
  sha : Bool
  region : Bool
  deriving DecidableEq, Repr

/-- A request to a Stack Controller, by the port of R366; both: a write that covers both lines of its check burst (R359). -/
structure DramReq where
  port : BitVec 3
  /-- stack-local line address a of R361, in 64-byte lines -/
  line : Nat
  write : Bool
  both : Bool
  /-- DCLK cycles since it arrived at the controller -/
  age : Nat
  deriving DecidableEq, Repr

/-- How a read decodes (R503): bits in error in the worst word of the line; for four or more the spec promises nothing. -/
structure ReadErrors where
  bits : Nat
  /-- the stack reported a command/address or write data parity error, and the command was given once more (R355) -/
  parity : Bool
  deriving DecidableEq, Repr

/-- What a Stack Controller meets in the DCLK of a DRAM_REQUEST: the DCLK cycles since its last one, the banks of the pseudo-channel that
are busy, as bank + 16 × SID, and how the read of the access decodes. -/
structure DramCycle where
  dclks : Nat
  busy : List Nat
  err : ReadErrors
  deriving DecidableEq, Repr

/-- The frame a migration reads: its stack, and the bits in error in the worst word of each of its four lines. -/
structure FrameRead where
  stack : BitVec 3
  errs : List Nat
  deriving DecidableEq, Repr

/-- How a host-memory read ends (R105). -/
inductive ReadStatus where
  | ok | unsupportedRequest | completerAbort | poisoned
  deriving DecidableEq, Repr

/-- Readings latched by the GRAZE sampler at step 3 of R467. -/
structure GrazeReadings where
  temp : BitVec 8
  core0 : BitVec 10
  core1 : BitVec 10
  hbm : BitVec 8
  power : BitVec 11
  deriving DecidableEq, Repr

/-- The block that refuses or delays an entry handshake (R460), or the wake that ends it (R461). -/
inductive EntryStop where
  | refused (block : BitVec 8)
  | delayLimit (block : BitVec 8)
  | woken (source : BitVec 8)
  deriving DecidableEq, Repr

/-- Estimates of one fast period, one entry per step domain 0..4 (R439, R440, R442): tile power and uncore power, in mW. -/
structure FastIn where
  tilePower : List Nat
  uncore : List Nat
  tmax : BitVec 8
  deriving DecidableEq, Repr

/-- The commands, in the order of the table's rows. -/
inductive Instr where
  | vaonInRegulation (straps : BitVec 2)
  | pwrgoodRise (fuseShadowOk : Bool)
  | rootPllLock
  | pllLockTimeout
  | pwrgoodFall
  | railTrip (rail : Rail)
  | resetNLow (aclk : Nat)
  | perstNLow (aclk : Nat)
  | pcieHotReset (cause : HotCause) (boot : BootReads)
  | functionLevelReset (boot : BootReads)
  | resetRelease (boot : BootReads)
  | bootRomComplete (sramWipeOk : Bool) (journalOk : BitVec 4)
  | hbmTrainingDone (trained : BitVec 8) (dramWipeOk : Bool)
  | startupComplete
  | pcieLinkTrained (lanes : Nat) (speed : BitVec 3) (flit : Bool)
  | pcieConfigRequest (r : CfgReq)
  | thermNAssert (celsius : Nat)
  | thermNRelease (celsius : Nat)
  | thermNDemandStart
  | thermNDemandEnd
  | thermalShutdown (celsius : Nat)
  | wakeNAssert (aclk : Nat)
  | smbReadGrade (pec : Bool)
  | smbReadSetPoints (pec : Bool)
  | smbReadAonStatus (pec : Bool)
  | smbWriteAonStatus (v : Byte) (pec : Pec)
  | smbGrant (body : List Byte) (pec : Pec)
  | smbReport
  | dbgTapReset (tckHigh : Nat)
  | dbgBypass
  | dbgIdcode
  | dbgChallenge (random : BitVec 256)
  | dbgUnlock (level : BitVec 2) (publicKey : List Byte) (signature : List Byte)
  | dbgUnlockVerified
  | dbgLockoutEnd
  | dbgLock
  | dbgRecover (header : List Byte) (image : List Byte)
  | dbgRead (target : DbgTarget)
  | dbgTsHalt (tile : BitVec 8)
  | dbgTsStep (tile : BitVec 8)
  | dbgFuseProgram (f : FuseWrite)
  | bistEntry
  | bar0BadAccess (read : Bool) (offset : BitVec 22) (len : Nat)
  | bar2FeedWrite (offset : BitVec 22) (data : List Byte)
  | bar4Read (offset : Nat) (len : Nat)
  | bar4Write (offset : Nat) (data : List Byte) (attr : WriteAttr)
  | msixUnmask (vector : BitVec 11)
  | msixTimeTrigger (ring : PacedRing)
  | writebackCoalesceExpiry (port : BitVec 6)
  | glbEnable
  | consistencyCheckDone (incarnation : W32)
  | glbPartReset (bits : BitVec 4)
  | partitionResetDone (p : BitVec 2)
  | feedPortOpen (port : BitVec 6) (ctl : W64)
  | feedPortClose (port : BitVec 6)
  | feedPortClosed (port : BitVec 6)
  | feedCqHeadWrite (port : BitVec 6) (head : W32)
  | feedDrHeadWrite (ring : BitVec 8) (v : W64)
  | errRingEnable (ringO : Bool)
  | errRingDisable (ringO : Bool)
  | errRingHeadWrite (ringO : Bool) (v : W64)
  | tileStallClr (tile : BitVec 8) (v : W64)
  | tileMeClr (tile : BitVec 8) (v : W64)
  | tileNumClr (tile : BitVec 8) (v : W64)
  | tileVcClr (tile : BitVec 8) (v : W64)
  | tileAtClr (tile : BitVec 8) (v : W64)
  | pciStallClr (v : W64)
  | glbBrClr (v : W64)
  | schdClr (v : W64)
  | schdObjClr (v : W64)
  | memClr (stack : BitVec 3) (v : W64)
  | pxClr (flash : Bool) (stack : BitVec 3) (v : W64)
  | flsClr (stack : BitVec 2) (v : W64)
  | fabClr (v : W64)
  | pwrClr (v : W64)
  | secClr (v : W64)
  | errClr (v : W64)
  | registerWrite (offset : BitVec 22) (eight : Bool) (v : W64)
  | feedTake (port : BitVec 6)
  | sysNop (h : CtlHdr) (a b c : W32)
  | sysQuery (h : CtlHdr) (a b c : W32)
  | sysRingOpen (h : CtlHdr) (a b c : W32) (x : W128)
  | sysRingClose (h : CtlHdr) (a b c : W32)
  | sysCtxOpen (h : CtlHdr) (a b c : W32)
  | sysCtxClose (h : CtlHdr) (a b c : W32)
  | seqOpen (h : CtlHdr) (a b c : W32) (x : W128)
  | seqPrompt (h : CtlHdr) (a b c : W32) (x : W128)
  | seqStart (h : CtlHdr) (a b c : W32)
  | seqPause (h : CtlHdr) (a b c : W32)
  | seqResume (h : CtlHdr) (a b c : W32)
  | seqCancel (h : CtlHdr) (a b c : W32)
  | seqClose (h : CtlHdr) (a b c : W32)
  | seqStop (h : CtlHdr) (a b c : W32)
  | seqPrio (h : CtlHdr) (a b c : W32)
  | seqQuery (h : CtlHdr) (a b c : W32)
  | ptPoolOpen (h : CtlHdr) (a b c : W32)
  | ptPoolClose (h : CtlHdr) (a b c : W32)
  | ptPoolStat (h : CtlHdr) (a b c : W32)
  | ptBind (h : CtlHdr) (a b c : W32)
  | ptRead (h : CtlHdr) (a b c : W32)
  | ptEdit (h : CtlHdr) (a b c : W32) (x : W128)
  | pageEditPrepared (seq : BitVec 22)
  | acctOpen (h : CtlHdr) (a b c : W32)
  | acctSet (h : CtlHdr) (a b c : W32)
  | acctGrant (h : CtlHdr) (a b c : W32)
  | acctClose (h : CtlHdr) (a b c : W32)
  | acctStat (h : CtlHdr) (a b c : W32)
  | msetLoad (h : CtlHdr) (a b c : W32)
  | msetSwap (h : CtlHdr) (a b c : W32)
  | msetDrain (h : CtlHdr) (a b c : W32)
  | msetQuery (h : CtlHdr) (a b c : W32)
  | objAlloc (h : CtlHdr) (a b c : W32) (x : W128)
  | dramZeroComplete (handle : BitVec 24)
  | objPromote (h : CtlHdr) (a b c : W32)
  | fetchComplete (handle : BitVec 24)
  | objEvict (h : CtlHdr) (a b c : W32)
  | evictionComplete (handle : BitVec 24)
  | objPin (h : CtlHdr) (a b c : W32)
  | objUnpin (h : CtlHdr) (a b c : W32)
  | objClean (h : CtlHdr) (a b c : W32)
  | objFree (h : CtlHdr) (a b c : W32)
  | objQuery (h : CtlHdr) (a b c : W32)
  | objSched (h : CtlHdr) (a b c : W32)
  | objFlErase (h : CtlHdr) (a b c : W32)
  | objFlQuery (h : CtlHdr) (a b c : W32)
  | objFlStore (h : CtlHdr) (a b c : W32)
  | flashEraseDone (stack : BitVec 2) (unit : BitVec 16) (pulses : Nat) (marginFails : Nat)
  | flashPageProgrammed (stack : BitVec 2) (loops : Nat) (marginFails : Nat)
  | flashRead (stack : BitVec 2) (unit : BitVec 16) (page : Nat) (codeword : Nat) (bitErrors : Nat)
  | flashReadRetry (stack : BitVec 2) (unit : BitVec 16) (page : Nat) (codeword : Nat) (errors : List Nat)
  | flashOpResume (stack : BitVec 2)
  | codeRegionFetch (address : Nat) (taken : Bool) (retries : Nat)
  | dmCopy (h : TileHdr) (a b c : W32) (x : W128)
  | dmStride (h : TileHdr) (a b c : W32) (x : W128)
  | dmTrans (h : TileHdr) (a b c : W32) (x : W128)
  | dmFill (h : TileHdr) (a b c : W32) (x : W128)
  | remoteIncrementArrive (tile : BitVec 8) (ctr : BitVec 6) (amount : BitVec 16)
  | hxEnd (h : TileHdr) (a b c : W32)
  | hxSet (h : TileHdr) (a b c : W32)
  | hxAdd (h : TileHdr) (a b c : W32)
  | hxBarrier (h : TileHdr) (a b c : W32)
  | hxTset (h : TileHdr) (a b c : W32)
  | hxTadd (h : TileHdr) (a b c : W32)
  | hxTload (h : TileHdr) (a b c : W32)
  | hxJump (h : TileHdr) (a b c : W32)
  | hxBranch (h : TileHdr) (a b c : W32)
  | hxLoop (h : TileHdr) (a b c : W32)
  | programFetchReturn (tile : BitVec 8)
  | mxLoads (h : TileHdr) (a b c : W32)
  | mxLoadArmed (tile : BitVec 8) (eng : BitVec 2)
  | mxPass (h : TileHdr) (a b c : W32)
  | mxWaveIssue (tile : BitVec 8) (eng : BitVec 2)
  | oabRowWrite (tile : BitVec 8) (eng : BitVec 2)
  | mxRegisterEmpty (tile : BitVec 8) (eng : BitVec 2)
  | mxDrain (h : TileHdr) (a b c : W32) (x : W128)
  | drainRowWrite (tile : BitVec 8) (eng : BitVec 2)
  | vxAdd (h : TileHdr) (a b c : W32) (x : W128)
  | vxMul (h : TileHdr) (a b c : W32) (x : W128)
  | vxFma (h : TileHdr) (a b c : W32) (x : W128)
  | vxMax (h : TileHdr) (a b c : W32) (x : W128)
  | vxMin (h : TileHdr) (a b c : W32) (x : W128)
  | vxCvt (h : TileHdr) (a b c : W32) (x : W128)
  | vxFunc (h : TileHdr) (a b c : W32) (x : W128)
  | vxReduce (h : TileHdr) (a b c : W32) (x : W128)
  | vxMaxabs (h : TileHdr) (a b c : W32) (x : W128)
  | vxNorm (h : TileHdr) (a b c : W32) (x : W128)
  | vxSoftmax (h : TileHdr) (a b c : W32) (x : W128)
  | vxSample (h : TileHdr) (a b c : W32) (x : W128)
  | vxWhisk (h : TileHdr) (a b c : W32) (x : W128)
  | vxWindow (h : TileHdr) (a b c : W32) (x : W128)
  | cvSetup (h : TileHdr) (a b c : W32) (x : W128)
  | cvFeed (h : TileHdr) (a b c : W32)
  | atRun (h : TileHdr) (a b c : W32) (x : W128)
  | atKvput (h : TileHdr) (a b c : W32) (x : W128)
  | atMerge (h : TileHdr) (a b c : W32) (x : W128)
  | stepBoundary (dom : Fin 5)
  | idleBoundaryTimer (dom : Fin 5)
  | gateGroupRelease (dom : Fin 5)
  | softStartRise (tile : BitVec 8)
  | pageCopyDone (seq : BitVec 22)
  | waitingRecordWrite (ring : BitVec 8)
  | stepRetire (dom : Fin 5) (energy : Nat)
  | stepWatchdog (dom : Fin 5)
  | dramRequest (stack : BitVec 3) (requests : List DramReq) (pc : BitVec 5) (cycle : DramCycle)
  | recoveryLineDone (handle : BitVec 24) (line : Nat) (data : Option Line)
  | refreshDue (stack : BitVec 3) (pc : BitVec 5)
  | stackTempRead (stack : BitVec 3) (celsius : BitVec 8)
  | migrationFrame (frame : FrameRead)
  | migrationComplete (stack : BitVec 3)
  | retrainStart (stack : BitVec 3) (channel : BitVec 4)
  | retrainDone (stack : BitVec 3) (channel : BitVec 4) (ok : Bool)
  | dramScrubFrame (stack : BitVec 3) (pc : BitVec 5) (err : ReadErrors)
  | flashScrubPage (stack : BitVec 2) (retries : List Nat)
  | portTrainingDone (port : BitVec 4) (goodLanes : BitVec 8) (peer : BitVec 12)
  | portRetryTimer (port : BitVec 4)
  | linkSilence (port : BitVec 4)
  | linkResend (port : BitVec 4)
  | frameForward (port : BitVec 4) (f : Frame)
  | fabData (port : BitVec 4) (f : Frame)
  | fabAck (port : BitVec 4) (f : Frame)
  | fabNack (port : BitVec 4) (f : Frame)
  | fabCredit (port : BitVec 4) (f : Frame)
  | fabBcast (port : BitVec 4) (f : Frame)
  | bcastJoin (port : BitVec 4) (f : Frame)
  | bcastEnd (port : BitVec 4) (f : Frame)
  | bcastBitmap (port : BitVec 4) (f : Frame)
  | bcastDone (port : BitVec 4) (f : Frame)
  | bcastTimeout (session : BitVec 8)
  | fabMirror (port : BitVec 4) (f : Frame)
  | fabMirrorAck (port : BitVec 4) (f : Frame)
  | fabGrant (port : BitVec 4) (f : Frame)
  | fabPing (port : BitVec 4) (f : Frame)
  | fabPong (port : BitVec 4) (f : Frame)
  | fabDeviceDown (port : BitVec 4) (f : Frame)
  | e2eTimeout (node : BitVec 12)
  | fabRoute (h : CtlHdr) (a b c : W32)
  | fabChanOpen (h : CtlHdr) (a b c : W32) (x : W128)
  | fabChanClose (h : CtlHdr) (a b c : W32)
  | fabBcastSend (h : CtlHdr) (a b c : W32)
  | fabBcastRecv (h : CtlHdr) (a b c : W32)
  | fabTwinJoin (h : CtlHdr) (a b c : W32)
  | fabTwinLeave (h : CtlHdr) (a b c : W32)
  | fabFailrec (h : CtlHdr) (a b c : W32)
  | fabNodeQuery (h : CtlHdr) (a b c : W32)
  | fastPeriod (est : FastIn)
  | slowPeriod
  | dividerApply (tile : BitVec 8)
  | estimatorWindow (estimate measured : Nat)
  | thermalLaw (celsius : Nat)
  | complianceInterval (milliwatts : Nat)
  | leaseExpiry
  | reportPeriod (milliwatts : Nat)
  | droopFire (tile : BitVec 8)
  | droopHoldEnd (tile : BitVec 8)
  | pwrStepTarget (h : CtlHdr) (a b c : W32)
  | pwrLimit (h : CtlHdr) (a b c : W32)
  | pwrQuery (h : CtlHdr) (a b c : W32)
  | pwrEnter (h : CtlHdr) (a b c : W32)
  | entryCommit (cclk : W32)
  | entryRefused (stop : EntryStop)
  | pwrWake (h : CtlHdr) (a b c : W32)
  | powerWake (source : BitVec 8)
  | powerExitComplete (imageOk : Bool)
  | grazeSample (r : GrazeReadings)
  | secExtend (h : CtlHdr) (a b c : W32)
  | secFwStage (h : CtlHdr) (a b c : W32)
  | secFwActivate (h : CtlHdr) (a b c : W32)
  | secFwAbort (h : CtlHdr) (a b c : W32)
  | secFwCommit (h : CtlHdr) (a b c : W32)
  | secLcAdvance (h : CtlHdr) (a b c : W32)
  | secQuote (h : CtlHdr) (a b c : W32) (x : W128)
  | quoteSigned (h : CtlHdr)
  | secCtxKey (h : CtlHdr) (a b c : W32) (x : W128)
  | ctxKeyReadDone (h : CtlHdr) (ok : Bool) (key : BitVec 512)
  | maintTest (h : CtlHdr) (a b c : W32)
  | fieldTestVerified (slot : BitVec 5)
  | fieldTestDone (slot : BitVec 5) (passed : Bool) (detail : W32) (reinitOk : Bool)
  | maintScrub (h : CtlHdr) (a b c : W32)
  | maintStop (h : CtlHdr) (a b c : W32)
  | maintQuery (h : CtlHdr) (a b c : W32)
  | sysrefLoss
  | sysrefReturn
  | vaonOutOfRegulation
  | smbusTimeout
  | hostReadCompletion (tag : Nat) (status : ReadStatus) (data : List Byte)
  | completionTimeout (tag : Nat)
  | objCleanComplete (handle : BitVec 24)
  deriving DecidableEq, Repr

end Sys2Proof
end

