-- ==== Sys2Proof/Config.lean ====
section
/-! DEFINITION. What one implementation fixes, and the free values: constants without a body, so that no proof sees what they are. -/

namespace Sys2Proof.Config

/-- Values the spec leaves open; the model draws the n-th by a counter of State (assumption 1). -/
opaque freeWord : Nat → W64
/-- A free 64-byte line, drawn by the same counter (assumption 1). -/
opaque freeLine : Nat → Line
/-- A free number, drawn by the same counter (assumption 1). -/
opaque freeNat : Nat → Nat

/-- What a line the device cannot know reads as: by counter, object and line (assumptions 1 and 12). -/
opaque unreadLine : Nat → Nat → Nat → Line

/-- Where a sequence's page directory lies in the system region, in units of 64 bytes (R247, R378, assumption 1). -/
opaque dirSlot : Nat → Nat
/-- The built-in trims of a Flash Controller: read levels 1 to 7, then ΔR (R397). -/
opaque trim : Nat → Nat
/-- A byte of the boot record that holds a wipe-complete marker; the spec gives it no layout (R65, R381). -/
opaque bootByte : Nat → Nat → Byte
/-- The place inside a spare of a frame of a retired slice (R360): the stack, the slice and the frame. -/
opaque sparePlace : Nat → Nat → Nat → Nat

/-- The hash that chooses among the live ports of a route, of SRC, DEST and CHAN (R412); the spec gives no formula (assumption 13). -/
opaque fabHash : Nat → Nat → Nat → Nat

/-- FIPS 205: SLH-DSA-SHA2-192s verification of a public key, a message and a signature, in pure mode with an empty context (R475,
assumption 20). -/
opaque slhVerify : List Byte → List Byte → List Byte → Bool
/-- FIPS 205: the SLH-DSA-SHA2-192f public key of SK.seed, SK.prf and PK.seed (R483, assumption 20). -/
opaque slhPublic : List Byte → List Byte
/-- FIPS 205: the SLH-DSA-SHA2-192f signature of a message under those seeds, hedged with the n-th fresh randomness (R484,
assumption 20). -/
opaque slhSign : List Byte → List Byte → Nat → List Byte
/-- The IDCODE of the test access port (R43, assumption 1). -/
opaque idcode : W32

/-! Functions the spec bounds but does not fix (R206, R215, R226): FP32 bits to FP32 bits, left open (assumption 10). -/

opaque exp2 : W32 → W32
opaque log2 : W32 → W32
opaque recip : W32 → W32
opaque rsqrt : W32 → W32
opaque gelu : W32 → W32
opaque silu : W32 → W32
opaque sigmoid : W32 → W32
opaque tanh : W32 → W32
opaque softplus : W32 → W32
/-- The attention pipeline's exponential (R206, R256). -/
opaque apExp2 : W32 → W32
/-- Log-probability in BF16 of a logit, a maximum and a sum (R224, R226). -/
opaque logProb : W32 → W32 → W32 → BitVec 16

end Sys2Proof.Config
end

