-- ==== Sys2Proof/Machine/Map.lean ====
section
/-! DEFINITION. Finite tables kept as sorted lists, and byte memories with a poison bit for each 64-bit word (R501, R504). -/

namespace Sys2Proof.Machine

/-- A table from numbers to values; an absent key stands for a default the reader names. -/
abbrev SMap (α : Type) := List (Nat × α)

/-- The value at key n, or the default d. -/
def mget {α : Type} (d : α) : SMap α → Nat → α
  | [], _ => d
  | (k, v) :: r, n => if n = k then v else mget d r n

/-- The value at key n where the table lists it. -/
def mget? {α : Type} : SMap α → Nat → Option α
  | [], _ => none
  | (k, v) :: r, n => if n = k then some v else mget? r n

/-- Put v at key n, keeping the keys rising. -/
def mput {α : Type} : SMap α → Nat → α → SMap α
  | [], n, v => [(n, v)]
  | (k, w) :: r, n, v =>
    if n = k then (k, v) :: r
    else if n < k then (n, v) :: (k, w) :: r
    else (k, w) :: mput r n v

/-- Remove key n. -/
def mdel {α : Type} : SMap α → Nat → SMap α
  | [], _ => []
  | (k, w) :: r, n => if n = k then mdel r n else (k, w) :: mdel r n

/-- Put v at key n in a canonical table: a value equal to the default is not listed. -/
def mset {α : Type} [DecidableEq α] (d : α) (m : SMap α) (n : Nat) (v : α) : SMap α :=
  if v = d then mdel m n else mput m n v

/-- Change the value at key n. -/
def mmod {α : Type} (d : α) (m : SMap α) (n : Nat) (f : α → α) : SMap α := mput m n (f (mget d m n))

/-- Change every listed value. -/
def mmap {α : Type} (f : Nat → α → α) : SMap α → SMap α
  | [] => []
  | (k, v) :: r => (k, f k v) :: mmap f r

/-- Keep the entries that satisfy p. -/
def mfilter {α : Type} (p : Nat → α → Bool) : SMap α → SMap α
  | [] => []
  | (k, v) :: r => if p k v then (k, v) :: mfilter p r else mfilter p r

/-- Every key of the list exceeds n, and the keys rise strictly. -/
def risingFrom {α : Type} : Nat → SMap α → Bool
  | _, [] => true
  | n, (k, _) :: r => decide (n < k) && risingFrom k r

/-- The keys rise strictly. -/
def rising {α : Type} : SMap α → Bool
  | [] => true
  | (k, _) :: r => risingFrom k r

/-- No entry holds the default. -/
def noDefault {α : Type} [DecidableEq α] (d : α) : SMap α → Bool
  | [] => true
  | (_, v) :: r => decide (v ≠ d) && noDefault d r

/-- The canonical form of a table with default d. -/
def mwf {α : Type} [DecidableEq α] (d : α) (m : SMap α) : Bool := rising m && noDefault d m

/-- A sorted list of numbers used as a set: put n in. -/
def sput : List Nat → Nat → List Nat
  | [], n => [n]
  | k :: r, n => if n = k then k :: r else if n < k then n :: k :: r else k :: sput r n

/-- Take n out of the set. -/
def sdel : List Nat → Nat → List Nat
  | [], _ => []
  | k :: r, n => if n = k then sdel r n else k :: sdel r n

/-- Every member exceeds n, and the members rise strictly. -/
def srisingFrom : Nat → List Nat → Bool
  | _, [] => true
  | n, k :: r => decide (n < k) && srisingFrom k r

/-- The members rise strictly. -/
def srising : List Nat → Bool
  | [] => true
  | k :: r => srisingFrom k r

/-- A byte memory: its bytes in canonical form, and the 64-bit words whose poison bit is set (R501). -/
structure Mem where
  cells : List Host.Cell
  bad : List Nat
  deriving DecidableEq, Repr

namespace Mem

/-- A memory with every byte at its default and no poison. -/
def empty : Mem := ⟨[], []⟩

end Mem

/-- The memory's canonical form, d being what an unlisted address reads as. -/
def Mem.wf (d : Byte) (m : Mem) : Bool := mwf d m.cells && srising m.bad

/-- The byte at address a. -/
def Mem.byte (d : Byte) (m : Mem) (a : Nat) : Byte := mget d m.cells a

/-- Store one byte; poison is untouched. -/
def Mem.putByte (d : Byte) (m : Mem) (a : Nat) (b : Byte) : Mem := { m with cells := mset d m.cells a b }

/-- Set or clear the poison bit of 64-bit word w. -/
def Mem.setBad (m : Mem) (w : Nat) (p : Bool) : Mem := { m with bad := if p then sput m.bad w else sdel m.bad w }

/-- The poison bit of word w. -/
def Mem.isBad (m : Mem) (w : Nat) : Bool := m.bad.contains w

/-- The n bytes from address a. -/
def Mem.bytes (d : Byte) (m : Mem) : Nat → Nat → List Byte
  | _, 0 => []
  | a, n + 1 => m.byte d a :: Mem.bytes d m (a + 1) n

/-- Store a list of bytes from address a. -/
def Mem.putBytes (d : Byte) (m : Mem) : Nat → List Byte → Mem
  | _, [] => m
  | a, b :: r => Mem.putBytes d (m.putByte d a b) (a + 1) r

/-- n little-endian bytes of x. -/
def leBytes : Nat → Nat → List Byte
  | 0, _ => []
  | n + 1, x => BitVec.ofNat 8 x :: leBytes n (x / 256)

/-- The number whose little-endian bytes are given. -/
def ofLE : List Byte → Nat
  | [] => 0
  | b :: r => b.toNat + 256 * ofLE r

/-- Set or clear the poison of the n words from w. -/
def Mem.setBads (m : Mem) (p : Bool) : Nat → Nat → Mem
  | _, 0 => m
  | w, n + 1 => Mem.setBads (m.setBad w p) p (w + 1) n

/-- Line n of the memory (64 bytes). -/
def Mem.line (d : Byte) (m : Mem) (n : Nat) : Line := BitVec.ofNat 512 (ofLE (m.bytes d (64 * n) 64))

/-- A line with any poisoned word is poisoned whole (R504). -/
def Mem.lineBad (m : Mem) (n : Nat) : Bool := m.bad.any (fun w => decide (8 * n ≤ w ∧ w < 8 * n + 8))

/-- Write line n with the given poison in every word. -/
def Mem.putLine (d : Byte) (m : Mem) (n : Nat) (v : Line) (p : Bool) : Mem :=
  Mem.setBads (m.putBytes d (64 * n) (leBytes 64 v.toNat)) p (8 * n) 8

/-- Zero the lines from lo up to hi (exclusive): their bytes return to the default and their poison clears (R64). -/
def Mem.wipe (m : Mem) (lo hi : Nat) : Mem :=
  { cells := mfilter (fun a _ => !(decide (64 * lo ≤ a ∧ a < 64 * hi))) m.cells
    bad := m.bad.filter (fun w => !(decide (8 * lo ≤ w ∧ w < 8 * hi))) }

/-- Bit i of a number. -/
def bit (x i : Nat) : Bool := Nat.testBit x i

/-- Bits hi..lo of a number. -/
def bits (x hi lo : Nat) : Nat := (x / 2 ^ lo) % 2 ^ (hi - lo + 1)

/-- Replace bits hi..lo of a number. -/
def setBits (x hi lo v : Nat) : Nat :=
  x - bits x hi lo * 2 ^ lo + (v % 2 ^ (hi - lo + 1)) * 2 ^ lo

/-- A byte string of n bytes. -/
def padTo (n : Nat) (l : List Byte) : List Byte := (l ++ List.replicate n 0).take n
/-- The number whose bits from position p are x. -/
def atBit (p x : Nat) : Nat := x * 2 ^ p
/-- The number of a truth value. -/
def b2n (b : Bool) : Nat := if b then 1 else 0

/-- The numbers lo, lo + 1, … of a run of n. -/
def upFrom : Nat → Nat → List Nat
  | _, 0 => []
  | lo, n + 1 => lo :: upFrom (lo + 1) n

/-- Fold over 0, 1, …, n − 1. -/
def loop {β : Type} (f : β → Nat → β) (b : β) : Nat → β
  | 0 => b
  | n + 1 => f (loop f b n) n

/-- x is a power of two. -/
def isPow2 (x : Nat) : Bool := decide (x ≠ 0) && decide (Nat.land x (x - 1) = 0)

/-- Smallest multiple quotient: ⌈a / b⌉. -/
def cdiv (a b : Nat) : Nat := (a + b - 1) / b

end Sys2Proof.Machine
end

