-- ==== Sys2Proof/Machine/Numerics.lean ====
section
/-! DEFINITION. Number formats, the one rounding rule, zeros, infinities, NaN, conversion and saturation (R187 to R197), computed
on exact dyadic values. -/

namespace Sys2Proof.Machine

/-- An exact value: a NaN, an infinity, or ± m × 2^e. -/
inductive Num where
  | nan
  | inf (neg : Bool)
  | fin (neg : Bool) (m : Nat) (e : Int)
  deriving DecidableEq, Repr

/-- +0. -/
def Num.zero : Num := .fin false 0 0
/-- The integer n. -/
def Num.ofInt (n : Int) : Num := .fin (decide (n < 0)) n.natAbs 0

/-- What the exception counters of a tile count (R197). -/
structure Exc where
  sat : Nat := 0
  ftz : Nat := 0
  nanMade : Nat := 0
  nanLost : Nat := 0
  deriving DecidableEq, Repr

def Exc.addSat (c : Exc) : Exc := { c with sat := c.sat + 1 }
def Exc.addFtz (c : Exc) : Exc := { c with ftz := c.ftz + 1 }
def Exc.addMade (c : Exc) : Exc := { c with nanMade := c.nanMade + 1 }
def Exc.addLost (c : Exc) : Exc := { c with nanLost := c.nanLost + 1 }
/-- The counts c1 reached from c by an operation, unless its data is poisoned (R197). -/
def Exc.upTo (c : Exc) (bad : Bool) (c1 : Exc) : Exc := if bad then c else c1

/-- Formats by the codes of R160, and their encodings (R187). -/
inductive Fmt where
  | bf16 | e4m3 | e5m2 | int8 | fp4 | int4 | fp32
  deriving DecidableEq, Repr

/-- The format of a code; 7 is refused before it is used. -/
def Fmt.ofCode : Nat → Fmt
  | 0 => .bf16 | 1 => .e4m3 | 2 => .e5m2 | 3 => .int8 | 4 => .fp4 | 5 => .int4 | _ => .fp32

/-- Element width in bits. -/
def Fmt.width : Fmt → Nat
  | .bf16 => 16 | .fp32 => 32 | .fp4 => 4 | .int4 => 4 | _ => 8
/-- Significand bits below the hidden bit. -/
def Fmt.mant : Fmt → Nat
  | .fp32 => 23 | .bf16 => 7 | .e5m2 => 2 | .e4m3 => 3 | .fp4 => 1 | _ => 0
/-- Exponent bits. -/
def Fmt.exp : Fmt → Nat
  | .fp32 => 8 | .bf16 => 8 | .e5m2 => 5 | .e4m3 => 4 | .fp4 => 2 | _ => 0
/-- Exponent bias. -/
def Fmt.bias : Fmt → Int
  | .fp32 => 127 | .bf16 => 127 | .e5m2 => 15 | .e4m3 => 7 | .fp4 => 1 | _ => 0
/-- The format is an integer format. -/
def Fmt.isInt : Fmt → Bool
  | .int8 => true | .int4 => true | _ => false
/-- Subnormals are flushed (R191). -/
def Fmt.flushes : Fmt → Bool
  | .fp32 => true | .bf16 => true | _ => false
/-- The format has infinities. -/
def Fmt.hasInf : Fmt → Bool
  | .fp32 => true | .bf16 => true | .e5m2 => true | _ => false
/-- Largest finite magnitude as m and e (R187). -/
def Fmt.top : Fmt → Nat × Int
  | .fp32 => (2 ^ 24 - 1, 104)
  | .bf16 => (255, 120)
  | .e5m2 => (7, 13)
  | .e4m3 => (7, 6)
  | .fp4 => (3, 1)
  | .int8 => (127, 0)
  | .int4 => (7, 0)

/-- Read an element of a format; subnormal FP32 and BF16 operands read as zero (R191). -/
def Fmt.decode (f : Fmt) (x : Nat) : Num :=
  match f with
  | .int8 => .ofInt (if x % 256 < 128 then (x % 256 : Nat) else (x % 256 : Nat) - 256)
  | .int4 => .ofInt (if x % 16 < 8 then (x % 16 : Nat) else (x % 16 : Nat) - 16)
  | _ =>
    let neg := bit x (f.width - 1)
    let m := x % 2 ^ f.mant
    let e := x / 2 ^ f.mant % 2 ^ f.exp
    if e = 0 then
      if f.flushes then .fin neg 0 0 else .fin neg m (1 - f.bias - f.mant)
    else if e = 2 ^ f.exp - 1 ∧ f.hasInf = true then
      if m = 0 then .inf neg else .nan
    else if f = .e4m3 ∧ e = 15 ∧ m = 7 then .nan
    else .fin neg (m + 2 ^ f.mant) ((e : Int) - f.bias - f.mant)

/-- Magnitude m × 2^e shifted to quantum 2^q and rounded to nearest, ties away from zero (R189). -/
def roundAt (m : Nat) (e q : Int) : Nat :=
  if q ≤ e then m * 2 ^ (e - q).toNat
  else (m + 2 ^ ((q - e).toNat - 1)) / 2 ^ (q - e).toNat

/-- Round a magnitude to a floating-point format as if its exponent had no upper bound (R189, R195 step 1). -/
def Fmt.roundMag (f : Fmt) (m : Nat) (e : Int) : Nat × Int :=
  if m = 0 then (0, 0)
  else
    let q := max ((Nat.log2 m : Int) + e - f.mant) (1 - f.bias - f.mant)
    (roundAt m e q, q)

/-- a × 2^i is greater than b × 2^j. -/
def magGt (a : Nat) (i : Int) (b : Nat) (j : Int) : Bool :=
  let q := min i j
  decide (b * 2 ^ (j - q).toNat < a * 2 ^ (i - q).toNat)

/-- The magnitude is below 2^−126. -/
def isTiny (m : Nat) (e : Int) : Bool := magGt 1 (-126) m e

/-- Flush a rounded result of FP32 or BF16 (R191); a nonzero flush is counted. -/
def flushed (f : Fmt) (neg : Bool) (m : Nat) (e : Int) (c : Exc) : Num × Exc :=
  if f.flushes = true ∧ isTiny m e = true then (.fin neg 0 0, if m = 0 then c else c.addFtz) else (.fin neg m e, c)

/-- Round the result of arithmetic to a lane format: overflow gives an infinity (R194), tiny results are flushed (R191). -/
def roundArith (f : Fmt) (x : Num) (c : Exc) : Num × Exc :=
  match x with
  | .fin neg m e =>
    let (r, q) := f.roundMag m e
    if magGt r q f.top.1 f.top.2 then (.inf neg, c)
    else
      let (y, c1) := flushed f neg r q c
      match y with
      | .fin _ 0 _ => if m ≠ 0 ∧ r = 0 ∧ f.flushes then (y, c1.addFtz) else (y, c1)
      | _ => (y, c1)
  | y => (y, c)

/-- Convert to a format: saturation and NaN handling (R193, R195, R196). -/
def convert (f : Fmt) (x : Num) (c : Exc) : Num × Exc :=
  match x with
  | .nan => if f.isInt = true ∨ f = .fp4 then (.zero, c.addLost) else (.nan, c)
  | .inf neg =>
    if f.hasInf then (.inf neg, c) else (.fin neg f.top.1 f.top.2, c.addSat)
  | .fin neg m e =>
    if f.isInt then
      let r := roundAt m e 0
      if f.top.1 < r then (.fin neg f.top.1 0, c.addSat) else (.fin (neg && decide (r ≠ 0)) r 0, c)
    else
      let (r, q) := f.roundMag m e
      if magGt r q f.top.1 f.top.2 then (.fin neg f.top.1 f.top.2, c.addSat)
      else if f.flushes = true ∧ isTiny r q = true then (.fin neg 0 0, if m = 0 then c else c.addFtz)
      else (.fin neg r q, c)

/-- The bits of a value that the format represents exactly; every NaN is canonical (R193). -/
def Fmt.encode (f : Fmt) (x : Num) : Nat :=
  match x with
  | .nan => match f with | .fp32 => 0x7FC00000 | .bf16 => 0x7FC0 | .e5m2 => 0x7E | .e4m3 => 0x7F | _ => 0
  | .inf neg => b2n neg * 2 ^ (f.width - 1) + (2 ^ f.exp - 1) * 2 ^ f.mant
  | .fin neg m e =>
    match f with
    | .int8 => let r := roundAt m e 0; if neg then (256 - r) % 256 else r % 256
    | .int4 => let r := roundAt m e 0; if neg then (16 - r) % 16 else r % 16
    | _ =>
      if m = 0 then b2n neg * 2 ^ (f.width - 1)
      else
        let (r, q) := f.roundMag m e
        let lo : Int := 1 - f.bias - f.mant
        let r' := if r = 2 ^ (f.mant + 1) then 2 ^ f.mant else r
        let q' := if r = 2 ^ (f.mant + 1) then q + 1 else q
        b2n neg * 2 ^ (f.width - 1) +
          (if r' < 2 ^ f.mant then r' else ((q' - lo).toNat + 1) * 2 ^ f.mant + (r' - 2 ^ f.mant))

/-- Signed significand at quantum 2^q. -/
def sig (neg : Bool) (m : Nat) (e q : Int) : Int :=
  let v : Int := (m * 2 ^ (e - q).toNat : Nat)
  if neg then -v else v

/-- Exact sum (R192, R193). -/
def addExact (x y : Num) (c : Exc) : Num × Exc :=
  match x, y with
  | .nan, _ => (.nan, c)
  | _, .nan => (.nan, c)
  | .inf a, .inf b => if a = b then (.inf a, c) else (.nan, c.addMade)
  | .inf a, .fin _ _ _ => (.inf a, c)
  | .fin _ _ _, .inf b => (.inf b, c)
  | .fin a m e, .fin b n f =>
    if m = 0 ∧ n = 0 then (.fin (a && b) 0 0, c)
    else
      let q := min e f
      let s := sig a m e q + sig b n f q
      (if s = 0 then .zero else .fin (decide (s < 0)) s.natAbs q, c)

/-- Exact product (R192, R193). -/
def mulExact (x y : Num) (c : Exc) : Num × Exc :=
  match x, y with
  | .nan, _ => (.nan, c)
  | _, .nan => (.nan, c)
  | .inf a, .inf b => (.inf (a != b), c)
  | .inf a, .fin b m _ => if m = 0 then (.nan, c.addMade) else (.inf (a != b), c)
  | .fin a m _, .inf b => if m = 0 then (.nan, c.addMade) else (.inf (a != b), c)
  | .fin a m e, .fin b n f => (.fin (a != b) (m * n) (e + f), c)

/-- Negation; a NaN stays the canonical NaN. -/
def Num.neg : Num → Num
  | .nan => .nan
  | .inf a => .inf (!a)
  | .fin a m e => .fin (!a) m e

/-- Magnitude; |−0| is +0. -/
def Num.abs : Num → Num
  | .nan => .nan
  | .inf _ => .inf false
  | .fin _ m e => .fin false m e

/-- Sum rounded to a lane format. -/
def addR (f : Fmt) (x y : Num) (c : Exc) : Num × Exc := let (s, c1) := addExact x y c; roundArith f s c1
/-- Product rounded to a lane format. -/
def mulR (f : Fmt) (x y : Num) (c : Exc) : Num × Exc := let (s, c1) := mulExact x y c; roundArith f s c1
/-- Exact multiply-add: one operation of three operands (R193). -/
def fmaExact (x y z : Num) (c : Exc) : Num × Exc :=
  if z = .nan then (.nan, c) else let (p, c1) := mulExact x y c; addExact p z c1
/-- Fused multiply-add, rounded once (R190). -/
def fmaR (f : Fmt) (x y z : Num) (c : Exc) : Num × Exc := let (s, c1) := fmaExact x y z c; roundArith f s c1

/-- x is less than y, neither being a NaN; −0 equals +0. -/
def Num.lt (x y : Num) : Bool :=
  match x, y with
  | .nan, _ => false
  | _, .nan => false
  | .inf a, .inf b => a && !b
  | .inf a, .fin _ _ _ => a
  | .fin _ _ _, .inf b => !b
  | .fin a m e, .fin b n f => let q := min e f; decide (sig a m e q < sig b n f q)

/-- x is a NaN. -/
def Num.isNan : Num → Bool
  | .nan => true
  | _ => false
/-- x is finite. -/
def Num.isFin : Num → Bool
  | .fin _ _ _ => true
  | _ => false
/-- x is a zero. -/
def Num.isZero : Num → Bool
  | .fin _ m _ => m == 0
  | _ => false

/-- FP32 of 32 bits of memory. -/
def f32 (x : Nat) : Num := Fmt.fp32.decode x

end Sys2Proof.Machine
end

