-- ==== Sys2Proof/Machine/Functions.lean ====
section
/-! DEFINITION. Functions the spec gives with an error bound: a reference value is computed in fixed point, and the free result of
Config is held to the bound around it (R193, R194, R206, R215, R224, R226, R259; assumption 10). -/

namespace Sys2Proof.Machine

/-! ## Fixed point: integers that count 2^−192 -/

/-- Fraction bits. -/
def fxBits : Nat := 192
/-- 1. -/
def fxOne : Int := 2 ^ fxBits
/-- Product, rounded down. -/
def fxMul (a b : Int) : Int := a * b / fxOne
/-- Quotient, rounded down. -/
def fxDiv (a b : Int) : Int := a * fxOne / b
/-- A finite value in fixed point; bits below 2^−192 are dropped. -/
def toFx : Num → Int
  | .fin s m e =>
    let v : Int := if 0 ≤ e + fxBits then m * 2 ^ (e + fxBits).toNat else m / 2 ^ (-(e + fxBits)).toNat
    if s then -v else v
  | _ => 0
/-- A fixed-point number as an exact value. -/
def ofFx (v : Int) : Num := .fin (decide (v < 0)) v.natAbs (-fxBits)

/-- 1/(2j+1) + z²/(2j+3) + z⁴/(2j+5) …, n terms; w is z². -/
def atanhTerms (w : Int) : Nat → Nat → Int
  | 0, _ => 0
  | n + 1, j => fxOne / (2 * j + 1) + fxMul w (atanhTerms w n (j + 1))
/-- 2 atanh z, for |z| at most 1/3. -/
def fxAtanh2 (z : Int) : Int := 2 * fxMul z (atanhTerms (fxMul z z) 70 0)
/-- ln 2 = 2 atanh (1/3). -/
def fxLn2 : Int := fxAtanh2 (fxOne / 3)
/-- 1 + r/j (1 + r/(j+1) (…)), n factors. -/
def expTerms (r : Int) : Nat → Nat → Int
  | 0, _ => fxOne
  | n + 1, j => fxOne + fxMul r (expTerms r n (j + 1)) / j
/-- e^y as an exact value close to it. -/
def expNear (y : Int) : Num :=
  let n := (2 * y + fxLn2) / (2 * fxLn2)
  .fin false (expTerms (y - n * fxLn2) 48 1).natAbs (n - fxBits)
/-- ln of m × 2^e, m not zero: the significand is taken between 3/4 and 3/2. -/
def lnNear (m : Nat) (e : Int) : Int :=
  let l := Nat.log2 m
  let v := toFx (.fin false m (-l))
  let (v, n) : Int × Int := if 3 * fxOne < 2 * v then (v / 2, e + l + 1) else (v, e + l)
  fxAtanh2 (fxDiv (v - fxOne) (v + fxOne)) + n * fxLn2
/-- 1 / (1 + e^−z). -/
def logisticNear (z : Int) : Int := fxDiv fxOne (fxOne + toFx (expNear (-z)))

/-! ## The bound -/

/-- The value of bits of a format with its subnormals kept. -/
def Fmt.raw (f : Fmt) (x : Nat) : Num :=
  if x / 2 ^ f.mant % 2 ^ f.exp = 0 then .fin (bit x (f.width - 1)) (x % 2 ^ f.mant) (1 - f.bias - f.mant) else f.decode x
/-- Exponent of one ulp of a format at m × 2^e. -/
def Fmt.ulpExp (f : Fmt) (m : Nat) (e : Int) : Int := max ((Nat.log2 m : Int) + e - f.mant) (1 - f.bias - f.mant)
/-- r lies within h half ulps of y, and 2^a where an absolute error is given; the ulp is that of the greater magnitude. -/
def within (f : Fmt) (h : Nat) (a : Option Int) : Num → Num → Bool
  | .fin s m e, .fin t n g =>
    let u := max (f.ulpExp m e) (f.ulpExp n g)
    let q := min (min e g) (min (u - 1) (a.getD 0))
    decide ((sig s m e q - sig t n g q).natAbs ≤ h * 2 ^ (u - 1 - q).toNat + (match a with | some x => 2 ^ (x - q).toNat | none => 0))
  | _, _ => false
/-- The result of a function whose exact value is y: the free result x where it lies within the bound, and the nearest value otherwise;
a tiny result is flushed and counted (R191). -/
def bounded (f : Fmt) (h : Nat) (a : Option Int) (y : Num) (x : Nat) (c : Exc) : Num × Exc :=
  if y.isZero && a.isNone then (y, c) else roundArith f (if within f h a y (f.raw x) then f.raw x else y) c
/-- A result the rules do not state: any FP32 value (assumption 10). -/
def unstated (x : W32) (c : Exc) : Num × Exc :=
  if (f32 x.toNat).isNan then (.nan, c.addMade) else roundArith .fp32 (Fmt.fp32.raw x.toNat) c

/-! ## The functions -/

/-- 32 bits of a number. -/
def w32 (x : Num) : W32 := BitVec.ofNat 32 (Fmt.fp32.encode x)
/-- x is negative and not −0. -/
def Num.negative : Num → Bool
  | .inf s => s
  | .fin s m _ => s && decide (m ≠ 0)
  | .nan => false
/-- A magnitude below every format's range, with a sign. -/
def trace (s : Bool) : Num := .fin s 1 (-400)

/-- 2^x within 2 ulp, with the free result f (R206); it overflows from x = 128 on (R194). -/
def exp2With (f : W32 → W32) (x : Num) (c : Exc) : Num × Exc :=
  match x with
  | .nan => (.nan, c)
  | .inf s => (if s then .zero else .inf false, c)
  | .fin s m e =>
    if magGt m e 149 0 && s then roundArith .fp32 (trace false) c
    else if !s && !magGt 128 0 m e then (.inf false, c)
    else
      let v := toFx (.fin s m e)
      let n := (2 * v + fxOne) / (2 * fxOne)
      let y : Num := .fin false (expTerms (fxMul (v - n * fxOne) fxLn2) 48 1).natAbs (n - fxBits)
      bounded .fp32 4 none y (f (w32 x)).toNat c
/-- 2^x of the vector engine. -/
def exp2N (x : Num) (c : Exc) : Num × Exc := exp2With Config.exp2 x c
/-- The attention pipeline's exponential (R206, R256). -/
def apExp (x : Num) (c : Exc) : Num × Exc := exp2With Config.apExp2 x c
/-- 1 / x within 1 ulp; an infinite operand gives zero of its sign. -/
def recipN (x : Num) (c : Exc) : Num × Exc :=
  match x with
  | .nan => (.nan, c)
  | .inf s => (.fin s 0 0, c)
  | .fin s m e =>
    if m = 0 then unstated (Config.recip (w32 x)) c
    else bounded .fp32 2 none (.fin s (2 ^ fxBits / m) (-e - fxBits)) (Config.recip (w32 x)).toNat c
/-- 1 / √x within 1 ulp; NaN of a negative operand (R193). -/
def rsqrtN (x : Num) (c : Exc) : Num × Exc :=
  if x.negative then (.nan, c.addMade)
  else match x with
    | .nan => (.nan, c)
    | .inf _ => (.zero, c)
    | .fin _ m e =>
      if m = 0 then unstated (Config.rsqrt (w32 x)) c
      else
        let (n, g) : Nat × Int := if e % 2 = 0 then (m, e) else (2 * m, e - 1)
        bounded .fp32 2 none (.fin false (Nat.sqrt (2 ^ (2 * fxBits) / n)) (-(g / 2) - fxBits)) (Config.rsqrt (w32 x)).toNat c
/-- log2 x within 2 ulp; NaN of a negative operand (R193). -/
def log2N (x : Num) (c : Exc) : Num × Exc :=
  if x.negative then (.nan, c.addMade)
  else match x with
    | .nan => (.nan, c)
    | .inf _ => (.inf false, c)
    | .fin _ m e =>
      if m = 0 then unstated (Config.log2 (w32 x)) c
      else bounded .fp32 4 none (ofFx (fxDiv (lnNear m e) fxLn2)) (Config.log2 (w32 x)).toNat c
/-- √x correctly rounded (R226): the root of the magnitude scaled to an even exponent, with a sticky bit. -/
def sqrtN (x : Num) (c : Exc) : Num × Exc :=
  if x.negative then (.nan, c.addMade)
  else match x with
    | .fin s m e =>
      if m = 0 then (.fin s 0 0, c)
      else
        let sh : Nat := if e % 2 = 0 then 80 else 81
        let n := m * 2 ^ sh
        let r := Nat.sqrt n
        roundArith .fp32 (.fin false (2 * r + b2n (decide (r * r ≠ n))) ((e - (sh : Int)) / 2 - 1)) c
    | y => (y, c)
/-- x / n correctly rounded to FP32. -/
def divNat (x : Num) (n : Nat) (c : Exc) : Num × Exc :=
  match x with
  | .fin s m e =>
    let q := m * 2 ^ 80 / n
    roundArith .fp32 (.fin s (2 * q + b2n (decide (q * n ≠ m * 2 ^ 80))) (e - 81)) c
  | y => (y, c)

/-- A function of R215 within 4 ulp and 2^−30, of a finite operand. -/
def smooth (y : Num) (x : W32) (c : Exc) : Num × Exc := bounded .fp32 8 (some (-30)) y x.toNat c
/-- A fixed-point result that is not zero. -/
def ofFxNz (s : Bool) (v : Int) : Num := if v = 0 then trace s else ofFx v
/-- The magnitude of a finite x is at least n. -/
def Num.big (n : Nat) : Num → Bool
  | .fin _ m e => !magGt n 0 m e
  | _ => true
/-- GELU in its tanh form, as x / (1 + e^−2u) (R215). -/
def geluN (x : Num) (c : Exc) : Num × Exc :=
  match x with
  | .nan => (.nan, c)
  | .inf s => if s then unstated (Config.gelu (w32 x)) c else (.inf false, c)
  | .fin s m _ =>
    let v := toFx x
    let u2 := 2 * (79788456 * (v + 44715 * fxMul v (fxMul v v) / 1000000)) / 100000000
    let y := if m = 0 then x else if x.big 16 then (if s then trace true else x) else ofFxNz s (fxMul v (logisticNear u2))
    smooth y (Config.gelu (w32 x)) c
/-- SiLU (R215). -/
def siluN (x : Num) (c : Exc) : Num × Exc :=
  match x with
  | .nan => (.nan, c)
  | .inf s => if s then unstated (Config.silu (w32 x)) c else (.inf false, c)
  | .fin s m _ =>
    let v := toFx x
    let y := if m = 0 then x else if x.big 256 then (if s then trace true else x) else ofFxNz s (fxMul v (logisticNear v))
    smooth y (Config.silu (w32 x)) c
/-- Sigmoid (R215). -/
def sigmoidN (x : Num) (c : Exc) : Num × Exc :=
  match x with
  | .nan => (.nan, c)
  | .inf s => (if s then .zero else .fin false 1 0, c)
  | .fin s _ _ =>
    let y : Num := if x.big 256 then (if s then trace false else .fin false 1 0) else ofFxNz false (logisticNear (toFx x))
    smooth y (Config.sigmoid (w32 x)) c
/-- tanh (R215); below 2^−40 it is x itself to more bits than count. -/
def tanhN (x : Num) (c : Exc) : Num × Exc :=
  match x with
  | .nan => (.nan, c)
  | .inf s => (.fin s 1 0, c)
  | .fin s m e =>
    let y := if magGt 1 (-40) m e then x else if x.big 64 then .fin s 1 0 else ofFx (2 * logisticNear (2 * toFx x) - fxOne)
    smooth y (Config.tanh (w32 x)) c
/-- Softplus (R215). -/
def softplusN (x : Num) (c : Exc) : Num × Exc :=
  match x with
  | .nan => (.nan, c)
  | .inf s => (if s then .zero else .inf false, c)
  | .fin s _ _ =>
    let y :=
      if x.big 256 then (if s then trace false else x)
      else match addExact (.fin false 1 0) (expNear (toFx x)) {} with
        | (.fin _ n g, _) => ofFxNz false (lnNear n g)
        | (z, _) => z
    smooth y (Config.softplus (w32 x)) c
/-- Log-probability of R224 in BF16: x − (m + ln S), within half an ulp and 2^−14 (R226). -/
def logProbN (x m s : Num) (c : Exc) : Nat × Exc :=
  let free := (Config.logProb (w32 x) (w32 m) (w32 s)).toNat
  let out := fun (r : Num × Exc) => (Fmt.bf16.encode r.1, r.2)
  if s.negative then out (.nan, if x.isNan || m.isNan then c else c.addMade)
  else if s.isZero then (free, c)
  else
    let ln : Num := match s with | .fin _ n e => ofFx (lnNear n e) | z => z
    let (a, c1) := addExact m ln c
    match addExact x a.neg c1 with
    | (.fin t n e, c2) => out (bounded .bf16 1 (some (-14)) (.fin t n e) free c2)
    | r => out r

end Sys2Proof.Machine
end

