-- ==== Sys2Proof/Machine/State.lean ====
section
/-! DEFINITION. The state of the device as plain data, the reasons a command can stop, and the state right after power-on reset.
Each structure's default values are its reset values. -/

namespace Sys2Proof.Machine

/-- The reasons a command stops the model. -/
inductive Fault where
  /-- Raised by no meaning of the model: the spec gives every command an effect in every state (safe). -/
  | none_
  deriving DecidableEq, Repr

/-- The reasons the model gives a command no meaning. -/
inductive Refusal where
  /-- An arm of exec whose meaning is not written yet answers with it (safe: the run stops). -/
  | notModelled (mnemonic : String)
  deriving DecidableEq, Repr

/-- Device states (R58); OFF has no readable code. -/
inductive DevState where
  | off | reset | config | enabled | halted | hold | graze
  deriving DecidableEq, Repr

/-- State codes of GLB_STATUS.STATE (R58). -/
def DevState.code : DevState → Nat
  | .off => 0 | .reset => 1 | .config => 2 | .enabled => 3 | .halted => 4 | .hold => 5 | .graze => 6

/-- The fuses: what the part was sold as, and what the Security Core burns (R63, R471 to R476). -/
structure Fuses where
  grade : Nat := 1
  stepping : Nat := 0
  /-- the enabled engines: in the reference map of the AVK-C960 the 16 highest tiles of each quarter lack engine 3 (R181, assumption 2) -/
  engines : BitVec 1024 := ((0x77777777777777777777777777777777FFFFFFFFFFFFFFFFFFFFFFFFFFFFFFFFFFFFFFFFFFFFFFFFFFFFFFFFFFFFFFFFFFFFFFFFFFFFFFFFFFFFFFFFFFFFFFFF : BitVec 512) ++ (0x77777777777777777777777777777777FFFFFFFFFFFFFFFFFFFFFFFFFFFFFFFFFFFFFFFFFFFFFFFFFFFFFFFFFFFFFFFFFFFFFFFFFFFFFFFFFFFFFFFFFFFFFFFF : BitVec 512) : BitVec 1024)
  fcap : SMap Nat := []
  vcore0 : Nat := 20
  vcore1 : Nat := 20
  /-- rows 1 to 4 of the life-cycle thermometer, three fuses each from bit 0 up (R471): PROVISIONED (assumption 2) -/
  lifeRows : BitVec 12 := 7
  tveddaKeyHash : BitVec 256 := 0
  operatorKeyHash : BitVec 256 := 0
  svnMin : BitVec 64 := 0
  secret : BitVec 256 := 0
  deriving DecidableEq, Repr

/-- Pins and the always-on domain's own state (R36 to R44). -/
structure Pins where
  vaon : Bool := true
  sysref : Bool := true
  pwrgood : Bool := true
  resetN : Bool := false
  perstN : Bool := false
  smbAddr : BitVec 2 := 0
  thermDrive : Bool := false
  thermDemand : Bool := false
  thermShut : Bool := false
  railLow : Bool := false
  pwrgoodSeen : Bool := true
  /-- a rail monitor tripped since PWRGOOD last rose (R48, R77) -/
  tripped : Bool := false
  /-- instruction the test access port holds: 0 IDCODE, 1 BYPASS, 2 one of R493 (R43) -/
  tapIns : Nat := 0
  deriving DecidableEq, Repr

/-- Where start-up stands (R72). -/
structure Startup where
  fuseBad : Bool := false
  pll : Bool := false
  pllTimedOut : Bool := false
  /-- t0 has passed, and what the boot ROM of this start-up finds (R72, R75, R477) -/
  released : Bool := false
  boot : BootReads := ⟨true, true⟩
  bootRunning : Bool := false
  bootDone : Bool := false
  sramWiped : Bool := false
  hbmTrained : Bool := false
  dramWiped : Bool := false
  journalDone : Bool := false
  stopped : Bool := false
  /-- the wipe of the weight flash after a life-cycle change is under way: its marker is written at the end of step 3 (R65) -/
  lifeWiping : Bool := false
  deriving DecidableEq, Repr

/-- The GLB block (R533) and what the whole device counts. -/
structure Glb where
  st : DevState := .reset
  checking : Bool := false
  lateWrite : Bool := false
  earlyFeed : Bool := false
  reason : Nat := 0
  reasonArg : Nat := 0
  slotB : Bool := false
  fallback : Bool := false
  recovery : Bool := false
  svn : Nat := 0
  version : Nat := 0
  causeKind : Nat := 1
  wasHalted : Bool := false
  startup : Startup := {}
  resetting : List Nat := []
  incarnation : W32 := 0
  stepsRetired : Nat := 0
  idleTicks : Nat := 0
  deriving DecidableEq, Repr

/-- A read of host memory that has not completed (R90, R105): the object whose copy it fills, or the object read in place with the tile
or the instruction (its source and ordinal) it is read for, and the range it covers. One that names an object in place and no reader is
left over from an abandoned read (R350). -/
structure HostRd where
  obj : Option Nat := none
  handle : Option Nat := none
  tile : Option Nat := none
  ctl : Option (Src × W32) := none
  /-- the sequence whose prompt the Scheduler reads (R298) -/
  seq : Option Nat := none
  addr : Nat := 0
  len : Nat := 0
  /-- first line of the object's copy it fills -/
  line : Nat := 0
  deriving DecidableEq, Repr

/-- What a read in place returned, kept until its reader takes it; no data where the read failed. -/
structure HostGot where
  rd : HostRd
  data : Option (List Byte)
  deriving DecidableEq, Repr

/-- The header of the request an AER report names: a read or a write, the base address register, the offset and the length. -/
structure AerHdr where
  read : Bool
  bar : Nat
  off : Nat
  len : Nat
  deriving DecidableEq, Repr

/-- The PCIe function (R87 to R92, R105). -/
structure Pci where
  lanes : Nat := 0
  speed : Nat := 0
  flit : Bool := false
  downtrain : Nat := 0
  busMaster : Bool := false
  d3hot : Bool := false
  tagBits : Nat := 8
  maxPayload : Nat := 128
  maxReadRequest : Nat := 512
  bar4Gib : Nat := 256
  msixOn : Bool := false
  msixMaskAll : Bool := false
  msixTab : SMap W32 := []
  msixPend : List Nat := []
  /-- completion time-out range host software has set, 0 the default (R87) -/
  cplRange : Nat := 0
  /-- ECRC generation and checking (R87) -/
  ecrcGen : Bool := false
  ecrcCheck : Bool := false
  /-- AER header log: the first request reported and not cleared (R87) -/
  aerHdr : Option AerHdr := none
  reads : SMap HostRd := []
  /-- reads that have bytes still to be requested, oldest first (R89, R90) -/
  waiting : List HostRd := []
  got : List HostGot := []
  nextTag : Nat := 0
  deriving DecidableEq, Repr

/-- A request to host memory that waits (R89), or reaches the link. bulk marks data of the host-memory tier (R104); bad are the byte
offsets of its poisoned words (R326). -/
inductive HostOp where
  | write (addr : Nat) (data : List Byte) (bulk : Bool) (bad : List Nat)
  | msix (v : Nat)
  deriving DecidableEq, Repr

/-- What the device puts out on its pins and links, newest first. -/
inductive Emit where
  /-- a memory write, with its Relaxed Ordering attribute and its EP bit -/
  | hostWrite (addr : Nat) (len : Nat) (relaxed : Bool) (poisoned : Bool)
  | msix (v : Nat)
  | hostRead (tag : Nat) (addr : Nat) (len : Nat)
  | data (l : List Byte) (poisoned : Bool)
  | unsupported
  | completerAbort
  | aer
  | cfgServed
  /-- the value a configuration read returns -/
  | cfgData (v : Nat)
  | cfgRetry
  | smb (l : List Byte)
  | smbNack
  | tdo (l : List Byte)
  | frame (port : Nat) (f : Frame)
  deriving DecidableEq, Repr

/-- A control instruction as a source hands it over (R107). -/
structure Ctl where
  src : Src
  ord : W32
  /-- bits [115:112] of the word: CREQ, FENCE, LAST, reserved -/
  flags : BitVec 4
  /-- bits [111:96] of the word, all zero in a legal control instruction (R110) -/
  hdr : BitVec 16 := 0
  cls : Nat
  op : Nat
  a : W32
  b : W32
  c : W32
  x : W128
  deriving DecidableEq, Repr

/-- An instruction taken and not retired (R120), with what its later events need. -/
structure Flt where
  ins : Ctl
  stage : Nat := 0
  key : Nat := 0
  aux : Nat := 0
  aux2 : Nat := 0
  digest : BitVec 256 := 0
  data : List Byte := []
  deriving DecidableEq, Repr

/-- A member of a bundle whose records wait for each other (R122). -/
structure BRec where
  ins : Ctl
  done : Bool := false
  reason : Nat := 0
  arg : Nat := 0
  payload : List Byte := []
  deriving DecidableEq, Repr

/-- Port states (R97). -/
inductive PortSt where
  | closed | opened | closing
  deriving DecidableEq, Repr

/-- A feed port (R93 to R99). slots holds the bytes written and not consumed. -/
structure Port where
  st : PortSt := .closed
  consumed : Nat := 0
  ordinal : W32 := 0
  produced : W32 := 0
  head : W32 := 0
  slots : SMap Byte := []
  /-- BAR4 writes that had been held when a slot was last written, by slot (R104) -/
  stamps : SMap Nat := []
  overflow : Bool := false
  badHead : Bool := false
  openErr : Bool := false
  bundle : List Ctl := []
  /-- ordinal of the 16th instruction of a bundle that did not end (R123) -/
  abortTail : Option W32 := none
  fenced : Bool := false
  /-- applied bundles whose records are not written yet (R122) -/
  groups : List (List BRec) := []
  shown : Nat := 0
  wbPaced : Bool := false
  wbDue : Bool := false
  unsignalled : Nat := 0
  /-- of the unsignalled records, those a write-back has covered (R103) -/
  covered : Nat := 0
  deriving DecidableEq, Repr

/-- A delivery ring (R100, R103). -/
structure DRing where
  isOpen : Bool := false
  vec : Nat := 0
  size : Nat := 0
  count : Nat := 0
  time : Nat := 0
  base : Nat := 0
  wb : Nat := 0
  produced : W32 := 0
  head : W32 := 0
  badHead : Bool := false
  unsignalled : Nat := 0
  part : Option Nat := none
  deriving DecidableEq, Repr

/-- A context (R117, R148, R491). -/
structure Ctx where
  isOpen : Bool := false
  conf : Bool := false
  part : Option Nat := none
  key : Option (BitVec 512) := none
  deriving DecidableEq, Repr

/-- An error ring (R508). -/
structure ERing where
  en : Bool := false
  openErr : Bool := false
  badHead : Bool := false
  produced : W32 := 0
  head : W32 := 0
  loss : Bool := false
  deriving DecidableEq, Repr

/-- An error record before its serial and flags (R506). -/
structure ErrRec where
  reason : Nat := 0
  cls : Nat := 0
  source : Nat := 0
  inst : Nat := 0
  opOnly : Bool := false
  conf : Bool := false
  dom : Nat := 255
  arg : Nat := 0
  ctx : Option Nat := none
  obj : Option Nat := none
  seq : Option Nat := none
  addr : Nat := 0
  step : Nat := 0
  detail : List Byte := []
  deriving DecidableEq, Repr

/-- The ERR block. last holds ERR_LAST_FATAL once loaded; log keeps every record formed, newest first, with its serial. -/
structure Err where
  serial : Nat := 0
  last : Option ErrRec := none
  ringH : ERing := {}
  ringO : ERing := {}
  maintSeq : W32 := 0
  suppressed : SMap Nat := []
  paced : List Nat := []
  log : List (Nat × ErrRec) := []
  deriving DecidableEq, Repr

/-- Sequence states (R285). -/
inductive SeqSt where
  | free | opened | queued | running | paused | finished | cancelled | failed
  deriving DecidableEq, Repr

/-- Codes of R285. -/
def SeqSt.code : SeqSt → Nat
  | .free => 0 | .opened => 1 | .queued => 2 | .running => 3 | .paused => 4 | .finished => 5 | .cancelled => 6 | .failed => 7

/-- Kinds of delivery record (R304). -/
inductive DKind where
  | token | cancelled | failed
  deriving DecidableEq, Repr

/-- A record the Delivery unit holds for a sequence (R101, R304). -/
structure Deliv where
  kind : DKind := .token
  pos : Nat := 0
  token : W32 := 0
  logp : Nat := 0
  urgent : Bool := false
  /-- a token record that a FAILED record follows is written without FINAL (R296) -/
  plain : Bool := false
  /-- the token met a stop token of the sequence when its step was delivered (R287, R310) -/
  stop : Bool := false
  reason : Nat := 0
  /-- the SEQ.CANCEL that retires when the record is written (R307) -/
  cancel : Option Ctl := none
  /-- mirror number of its RECORD frame, whose acknowledgement it waits for in paired mode (R425) -/
  msn : Option Nat := none
  deriving DecidableEq, Repr

/-- A private copy of a shared page: the entry it is for, the page taken for it, and the entry as it stood (R266). -/
structure PageCopy where
  entry : Nat
  page : Nat
  old : W64
  deriving DecidableEq, Repr

/-- A sequence descriptor (R284, R305) with its page lists (R247 to R249). -/
structure Seq where
  st : SeqSt := .free
  acct : Nat := 0
  mset : Nat := 0
  ring : Nat := 0
  pool : Option Nat := none
  prio : Nat := 0
  follow : Bool := false
  next : Nat := 0
  pHandle : Nat := 0
  pOff : Nat := 0
  pLeft : Nat := 0
  pPinned : Bool := false
  input : Option W32 := none
  maxnew : Nat := 0
  generated : Nat := 0
  stops : List W32 := [0xFFFFFFFF, 0xFFFFFFFF, 0xFFFFFFFF, 0xFFFFFFFF]
  invt : W32 := 0
  topp : W32 := 0
  topk : Nat := 0
  seed : W64 := 0
  wait : Nat := 0
  edef : Nat := 0
  delivered : Nat := 0
  energy : Nat := 0
  pausePending : Bool := false
  urgent : Bool := false
  waiting : List Deliv := []
  /-- a sequence fault of the running step (R262) -/
  faulted : Bool := false
  /-- published page-list entries, entry number b × NL + l (R248) -/
  pages : SMap W64 := []
  /-- IDX of its directory: the frame of each index page, by e >> 19 (R247) -/
  idx : SMap Nat := []
  /-- the frame of each entry segment, by e >> 9: what its index pages hold (R248) -/
  segs : SMap Nat := []
  /-- page copies under way (R266) -/
  copying : List PageCopy := []
  /-- page copies done, remapped at the next boundary (R266) -/
  copied : List PageCopy := []
  deriving DecidableEq, Repr

/-- An account (R288, R311). -/
structure Acct where
  isOpen : Bool := false
  ctx : Nat := 0
  rate : Nat := 0
  burst : Nat := 0
  pw : Nat := 0
  hard : Bool := false
  unlim : Bool := false
  balance : Nat := 0
  bucket : Nat := 0
  energy : Nat := 0
  leftNow : Nat := 0
  leftLast : Nat := 0
  deriving DecidableEq, Repr

/-- Header of a pool page (R246). -/
structure PageHdr where
  refs : Nat := 0
  gen : Nat := 0
  deferred : Option Nat := none
  deriving DecidableEq, Repr

/-- A pool (R245, R246): freed holds returned pages, last in first out; pages from nextFresh up have not been taken. -/
structure Pool where
  isOpen : Bool := false
  ctx : Nat := 0
  obj : Nat := 0
  nl : Nat := 1
  hkv : Nat := 1
  dhc : Nat := 0
  kvfmt : Nat := 0
  pages : Nat := 0
  pl : Nat := 0
  short : Nat := 0
  hdrs : SMap PageHdr := []
  freed : List Nat := []
  nextFresh : Nat := 0
  deriving DecidableEq, Repr

/-- A staged edit of one sequence's page list (R264, R269). -/
structure Edit where
  seq : Nat
  dom : Nat := 4
  pool : Nat := 0
  /-- frames its shadow holds until publication -/
  frames : Nat := 0
  share : Bool
  b0 : Nat := 0
  nblk : Nat := 0
  /-- entries a SHARE maps -/
  set : SMap W64 := []
  ins : Option Ctl := none
  prepared : Bool := false
  deriving DecidableEq, Repr

/-- Model-set states (R293). -/
inductive MsSt where
  | none | loading | ready | draining | failed
  deriving DecidableEq, Repr

/-- Codes of R293. -/
def MsSt.code : MsSt → Nat
  | .none => 0 | .loading => 1 | .ready => 2 | .draining => 3 | .failed => 4

/-- One entry of a prefetch schedule (R329). -/
structure SchedEnt where
  handle : Nat
  cond : Bool
  hot : Bool
  layer : Nat
  deriving DecidableEq, Repr

/-- A model set (R292 to R296); words holds the program after its tile table. -/
structure MSet where
  st : MsSt := .none
  ctx : Option Nat := none
  dom : Nat := 0
  pwords : Nat := 0
  prog : Nat := 0
  pline : Nat := 0
  nl : Nat := 1
  hkv : Nat := 1
  dhc : Nat := 0
  kvfmt : Nat := 0
  eFix : Nat := 0
  eDec : Nat := 0
  eKv : Nat := 0
  eTok : Nat := 0
  chunk : Nat := 0
  objs : List Nat := []
  table : List Nat := []
  words : List W128 := []
  /-- the 4,096 bytes of the manifest, for the measurement at READY (R482) -/
  manifest : List Byte := []
  factor : Nat := 256
  succ : Option Nat := none
  /-- the manifest of a load whose lines wait for a recovery (R294, R327) -/
  man : Option Nat := none
  sched : Option (Nat × List SchedEnt) := none
  /-- a schedule replaced or cleared at the next boundary (R329) -/
  schedNext : Option (Option (Nat × List SchedEnt)) := none
  lastReason : Nat := 0
  lastBit : Nat := 0
  lastArg : Nat := 0
  deriving DecidableEq, Repr

/-- One entry of a step plan (R298). -/
structure PlanEnt where
  seq : Nat
  decode : Bool
  q : Nat
  qpos0 : Nat
  kvlen : Nat
  delivers : Bool
  urgent : Bool
  energy : Nat := 0
  deriving DecidableEq, Repr

/-- A step begun and not retired (R301). -/
structure UStep where
  num : Nat
  mset : Nat
  plan : List PlanEnt
  est : Nat
  allow : Nat := 0
  /-- the part of the estimate that no sequence caused: E_FIX × F / 256 -/
  fixed : Nat := 0
  pins : List Nat := []
  reads : List Nat := []
  ended : Bool := false
  /-- mirror number of its STEP_END frame (R425) -/
  endMsn : Option Nat := none
  deriving DecidableEq, Repr

/-- A step domain (R283, R300). Phase codes are those of SCHD_DOM_STATUS. -/
structure Dom where
  phase : Nat := 0
  mset : Nat := 0
  t0 : Nat := 0
  t1 : Nat := 0
  t2 : Nat := 0
  stepNo : Nat := 0
  running : Option UStep := none
  retiring : List UStep := []
  /-- context of the step before, and whether it is confidential (R489) -/
  lastCtx : Option Nat := none
  lastConf : Bool := false
  lastBuilt : Bool := true
  /-- events 1 to 3 of a boundary are done and event 4 waits for the delivered step to retire (R300, R301, assumption 24) -/
  opened : Bool := false
  timerDue : Bool := true
  window : Nat := 0
  /-- tiles the gate has still to release: (tile, for a barrier) (R140, R445) -/
  gates : List (Nat × Bool) := []
  target : Nat := 10000
  ceil : Nat := 16
  /-- estimated tile power and budget of the last fast period, in mW (R439, R442) -/
  power : Nat := 0
  budget : Nat := 0
  /-- the conditions of R444 have held in every fast period of the slow period so far -/
  allLow : Bool := true
  allFull : Bool := true
  /-- tiles whose divider change is still to be applied (R444) -/
  divTurns : List Nat := []
  /-- the step's prefetch window reaches this layer, when it has a schedule (R329) -/
  layer : Nat := 0
  deriving DecidableEq, Repr

/-- Phases of a copy (R317, R318); a complete copy reports RESIDENT, PINNED or DIRTY by its pins and granules. -/
inductive CopySt where
  | absent | fetching | complete | evicting
  deriving DecidableEq, Repr

/-- An object directory entry (R316). -/
structure Obj where
  alloc : Bool := false
  ctx : Option Nat := none
  dom : Nat := 4
  home : Nat := 0
  pack : Nat := 0
  direct : Bool := false
  len : Nat := 0
  haddr : Nat := 0
  base : Nat := 0
  st : CopySt := .absent
  copy : Nat := 0
  hostPins : Nat := 0
  otherPins : Nat := 0
  /-- pins that are taken when the copy completes (R326) -/
  laterPins : Nat := 0
  refs : Nat := 0
  hot : Nat := 0
  lastRead : Nat := 0
  lost : Bool := false
  /-- damaged lines under recovery, with the source each is being read from (R327) -/
  recov : SMap Nat := []
  /-- lines of a fetch that another source than the home supplied, with that source (R352) -/
  from_ : SMap Nat := []
  /-- lines of a FLASH fetch already written (R319) -/
  fetched : Nat := 0
  /-- received by broadcast, from this reader (R423) -/
  bcast : Option Nat := none
  dirty : List Nat := []
  /-- granules an OBJ.CLEAN under way writes back, and those dirtied since it began (R334) -/
  cleaning : List Nat := []
  redirty : List Nat := []
  zeroing : Bool := false
  /-- a promotion waits for space (R323) -/
  wants : Bool := false
  /-- the promotion that waits for space is a prefetch, or a hot promotion over copies with a lower HOT count: it is dropped where it
  finds none (R326, R330) -/
  wantDrop : Option (Option Nat) := none
  /-- the context's key was erased: a line reads unspecified until it is written again (R491) -/
  stale : Bool := false
  rewritten : List Nat := []
  deriving DecidableEq, Repr

/-- Pins on objects that wait for a fetch, and serving totals. -/
structure Sched where
  edits : List Edit := []
  sysUsed : Nat := 0
  apDrop : Bool := false
  deriving DecidableEq, Repr

/-- A tile instruction as its unit holds it (R107, R129). -/
structure TIns where
  widx : Nat := 0
  fence : Bool := false
  last : Bool := true
  /-- value of T[IREG] when the instruction was dispatched (R133, R151) -/
  tval : W32 := 0
  wen : Bool := false
  wctr : Nat := 0
  sen : Bool := false
  sctr : Nat := 0
  cls : Nat
  op : Nat
  a : W32 := 0
  b : W32 := 0
  c : W32 := 0
  x : W128 := 0
  deriving DecidableEq, Repr

/-- A stationary register: state code of R163, format, poison, when it was armed, and its weight lines. -/
structure SReg where
  st : Nat := 0
  fmt : Nat := 0
  bad : Bool := false
  order : Nat := 0
  lines : List Line := []
  deriving DecidableEq, Repr

/-- A wave in the grid or the deskew stage: the OAB row it writes and its column sums as FP32 bits. -/
structure Wave where
  row : Nat
  acc : Bool
  tag : Bool
  bad : Bool
  left : Bool := false
  sums : List Nat
  deriving DecidableEq, Repr

/-- An MX instruction started and not retired (R172, R173). -/
structure MxRun where
  ins : TIns
  reg : Bool := false
  done : Bool := false
  /-- rows whose wave is issued, or which a drain has read -/
  next : Nat := 0
  /-- rows written into the OAB -/
  wrote : Nat := 0
  /-- the empty slot of a BF16 row is due (R162) -/
  emptyDue : Bool := false
  deriving DecidableEq, Repr

/-- A valid row of an Output Accumulator Buffer (R168). -/
structure OabRow where
  bad : Bool := false
  vals : List Nat := []
  deriving DecidableEq, Repr

/-- A window in the stream to a matrix engine (R230). -/
structure Win where
  fmt : Nat
  lines : List Line
  bad : Bool
  deriving DecidableEq, Repr

/-- A matrix engine (R157 to R177). -/
structure Engine where
  s0 : SReg := {}
  s1 : SReg := {}
  tag : Bool := false
  armed : Nat := 0
  waves : List Wave := []
  run : List MxRun := []
  oab : SMap OabRow := []
  acc : Nat := 16
  stream : List Win := []
  deriving DecidableEq, Repr

/-- A line in the stream from the Conv Feeder to the VE (R231). -/
structure VLine where
  line : Line
  bad : Bool
  pad : Bool
  /-- lines of its window, and the divisor rule it was sent under -/
  span : Nat := 1
  avgIn : Bool := false
  deriving DecidableEq, Repr

/-- A CV.FEED whose last window is not placed; next counts windows, or lines for the VE (R233). -/
structure FeedRun where
  ins : TIns
  next : Nat := 0
  deriving DecidableEq, Repr

/-- A VX.WINDOW whose last row is not written. -/
structure WinRun where
  ins : TIns
  row : Nat := 0
  got : List VLine := []
  deriving DecidableEq, Repr

/-- What the DM queue's head waits for: its places, a barrier's release, a remote increment, or the acknowledgement of a peer. -/
inductive DmWait where
  /-- a move that started, took its count, and waits for its source or its destination in one of its transaction slots (R134, R145) -/
  | move (ins : TIns)
  | barrier (ins : TIns) (g : Nat) (ctr : Nat)
  | add (ins : TIns)
  | peer (ins : TIns) (chan : Nat) (tag : Nat)
  deriving DecidableEq, Repr

/-- The AT instruction an AP has started and which waits for a line under recovery, with its fetches and entry reads outstanding
(R134, R281, R327). -/
structure ApRun where
  ins : TIns
  fetch : Nat := 0
  entries : Nat := 0
  deriving DecidableEq, Repr

/-- A tile (R13, R128 to R142): phase 0 takes no part, 1 waits for its release, 2 runs, 3 has ended its part. Streams, registers and
buffers of its units are in their own records. -/
structure Tile where
  phase : Nat := 0
  pc : Nat := 0
  regs : SMap W32 := []
  ctrs : SMap Nat := []
  /-- arrivals on fabric channels between the tile's steps (R417) -/
  held : SMap Nat := []
  /-- increments of other tiles' instructions that came before the tile's release into the step (assumption 15) -/
  early : SMap Nat := []
  queues : SMap (List TIns) := []
  buffer : List Nat := []
  engines : SMap Engine := []
  cf : Option TIns := none
  feed : Option FeedRun := none
  veStream : List VLine := []
  win : Option WinRun := none
  dm : Option DmWait := none
  ap : Option ApRun := none
  mem : Mem := Mem.empty
  owner : Option Nat := none
  /-- soft-start rein and droop rein (R443) -/
  soft : Nat := 16
  droop : Nat := 16
  /-- the droop clamp holds: its detector fires or its hold has not ended (R448) -/
  clamped : Bool := false
  /-- divider the Power Steward requests, and the divider in use (R26, R444) -/
  reqDiv : Nat := 6
  div : Nat := 6
  /-- a FENCE instruction is dispatched and not retired (R132) -/
  fenced : Bool := false
  dbgHalt : Bool := false
  deriving DecidableEq, Repr

/-- A global hitch counter with the arrivals of R140. -/
structure Ghc where
  count : Nat := 0
  n : Nat := 0
  arrived : List (Nat × Nat) := []
  deriving DecidableEq, Repr

/-- An increment on its way to another tile (R138): target, counter, amount, the tile and the word that sent it, and the tile whose
HX.ADD waits for it. Increments stand in the order they were sent (R22). -/
structure Inc where
  tile : Nat
  ctr : Nat
  amount : Nat
  src : Nat := 0
  widx : Nat := 0
  sender : Option Nat := none
  deriving DecidableEq, Repr

/-! ## Fabric (R406 to R434) -/

/-- A channel (R414): state 0 closed, 1 OUT, 2 IN, 3 PEER_LOST. -/
structure Chan where
  st : Nat := 0
  inbound : Bool := false
  stg : Bool := false
  ctx : Nat := 0
  peer : Nat := 0
  peerChan : Nat := 0
  /-- object, or die, of an inbound channel -/
  target : Nat := 0
  base : Nat := 0
  lines : Nat := 0
  slots : Nat := 0
  reads : Nat := 0
  arrTile : Nat := 0
  arrSpan : Nat := 0
  arrCtr : Nat := 0
  /-- slot credits a sender holds, and the slot of its next instruction or of the transaction that arrives -/
  credits : Nat := 0
  slot : Nat := 0
  /-- filled slots: lines filled and reads counted -/
  filled : SMap (Nat × Nat) := []
  /-- lines of the arriving transaction written so far -/
  part : Nat := 0
  trans : Nat := 0
  nextTag : Nat := 0
  deriving DecidableEq, Repr

/-- A fabric port (R406 to R408): link 0 down, 1 training, 2 up; sent holds the frames its link may still have to resend. -/
structure FPort where
  link : Nat := 0
  width : Nat := 0
  good : Nat := 0
  peer : Nat := 0
  sent : List Frame := []
  resends : Nat := 0
  deriving DecidableEq, Repr

/-- One shard of a manifest (R420). -/
structure Shard where
  handle : Nat
  first : Nat
  lines : Nat
  digest : List Byte
  deriving DecidableEq, Repr

/-- A receiver as the reader of a broadcast sees it: joined, done, failed, and the resends of each shard (R421). -/
structure Recv where
  done : Bool := false
  failed : Bool := false
  resends : SMap Nat := []
  deriving DecidableEq, Repr

/-- A broadcast session (R421 to R423). -/
structure Session where
  reader : Bool
  peer : Nat := 0
  mask : Nat
  count : Nat := 0
  ins : Ctl
  shards : List Shard
  handles : List Nat := []
  joined : SMap Recv := []
  started : Bool := false
  /-- what the reader has still to send, in order: destination and shard, or the number of shards for an END -/
  todo : List (Nat × Nat) := []
  /-- shards verified, how often each was asked for again, and whether the reader's END has come -/
  verified : List Nat := []
  tries : SMap Nat := []
  resent : Nat := 0
  gotEnd : Bool := false
  deriving DecidableEq, Repr

/-- Another device (R412, R426). -/
structure Node where
  mask : Nat := 0
  lost : Bool := false
  /-- incarnation last seen, and the one it had when it was lost -/
  inc : W32 := 0
  /-- DEVICE_DOWN notices forwarded, by incarnation (R430) -/
  downs : List W32 := []
  /-- a PING awaits its PONG -/
  pinged : Bool := false
  deriving DecidableEq, Repr

/-- Paired mode (R424 to R429): state 0 off, 1 SYNCING, 2 ACTIVE, 3 DIVERGED, 4 TAKEN_OVER. -/
structure Twin where
  st : Nat := 0
  /-- next mirror number to send, frames not acknowledged, and which twin port sends next -/
  msn : Nat := 0
  unacked : List Frame := []
  portB : Bool := false
  /-- highest mirror number applied, frames that came before their turn, and the records applied and not covered by a COMMIT, with
  their sequences -/
  applied : Nat := 0
  early : List Frame := []
  records : List (Nat × List Byte) := []
  /-- mirror number of the last frame of a resynchronisation, and the FAB.TWIN_JOIN that waits for it -/
  syncEnd : Option Nat := none
  syncDue : Bool := false
  join : Option Ctl := none
  deriving DecidableEq, Repr

/-- The fabric. -/
structure Fab where
  ports : SMap FPort := []
  chans : SMap Chan := []
  sessions : SMap Session := []
  nodes : SMap Node := []
  twin : Twin := {}
  failrec : Option Nat := none
  written : Bool := false
  part : Bool := false
  /-- frames held in GRAZE (R459): arrival port and frame -/
  held : List (Nat × Frame) := []
  deriving DecidableEq, Repr

/-! ## Device memory controllers (R355 to R379) -/

/-- An access as a pseudo-channel made it: its request, the stack ID and bank (BG + 4 × BA), the rows activated in order, each burst
transferred as row, column and its 32 bytes (R357 to R359), and the codewords of a line delivered (R501). -/
structure Access where
  req : DramReq
  sid : Nat
  bank : Nat
  rows : List Nat
  bursts : List (Nat × Nat × List Byte)
  out : List (BitVec 80)
  deriving DecidableEq, Repr

/-- A pseudo-channel: refresh intervals owed, a make-up burst under way, its LFSR once seeded, the neighbour queue as
(bank + 16 × SID, row) pairs, oldest first, and the last access. -/
structure Pc where
  owed : Nat := 0
  burst : Bool := false
  lfsr : Option W32 := none
  nbr : List (Nat × Nat) := []
  last : Option Access := none
  deriving DecidableEq, Repr

/-- A Stack Controller. A slice is numbered PC + 32 × SID. Requests stand in their order of arrival: those in transaction slots, then those
that wait at the input (R356). -/
structure Stk where
  slots : List DramReq := []
  input : List DramReq := []
  spares : List Nat := []
  migrating : Option Nat := none
  moved : Nat := 0
  waiting : List Nat := []
  noSpare : Bool := false
  frozen : Bool := false
  badAddr : Bool := false
  temp : Nat := 0
  errAddr : Nat := 0
  ce : SMap Nat := []
  pcs : SMap Pc := []
  training : List Nat := []
  trainWait : List Nat := []
  trainTemp : SMap Nat := []
  pxLast : Nat := 0
  scrubbed : SMap Nat := []
  deriving DecidableEq, Repr

/-! ## Weight flash (R380 to R405) -/

/-- A physical unit as the unit map keeps it (R395), with the margin reads that failed since its last erase (R389); kind 0 user, 1 spare,
2 retired, 3 reserved. -/
structure PUnit where
  kind : Nat := 1
  lunit : Nat := 0xFFFF
  ecount : Nat := 0
  loops : Nat := 0
  mfail : Nat := 0
  pend : Bool := false
  deriving DecidableEq, Repr

/-- A logical unit: its frontier, whether the last start-up re-erased it, and the runs of pages skipped over since its last erase, each
from its first page to the page after its last (R388, R396). -/
structure LUnit where
  frontier : Nat := 0
  again : Bool := false
  gaps : List (Nat × Nat) := []
  deriving DecidableEq, Repr

/-- A journal entry (R393): type, logical and physical unit, page, loops, failed margin reads and erase count. -/
structure JEnt where
  typ : Nat
  seq : Nat
  lunit : Nat := 0xFFFF
  punit : Nat := 0
  page : Nat := 0
  loops : Nat := 0
  mfail : Nat := 0
  ecount : Nat := 0
  deriving DecidableEq, Repr

/-- An erase under way: the logical and the physical unit, and how often it was suspended (R387). -/
structure Erase where
  lunit : Nat
  punit : Nat
  susp : Nat := 0
  deriving DecidableEq, Repr

/-- The calibration row of a stack, as written at test: grade, read levels 1 to 7, ΔR, the offsets of the program-verify and strict erase
margins, and the physical units bad at test, ascending (R397, assumption 79). -/
structure CalRow where
  grade : Nat := 1
  levels : List Nat := [0, 0, 0, 0, 0, 0, 0]
  deltaR : Nat := 0
  verify : Nat := 0
  strict : Nat := 0
  bad : List Nat := []
  deriving DecidableEq, Repr

/-- A Flash Controller. jseq numbers journal entries; used counts the codewords used in the active journal unit. -/
structure Fls where
  lmap : SMap Nat := []
  punits : SMap PUnit := []
  lunits : SMap LUnit := []
  worn : Bool := false
  cal : CalRow := {}
  /-- the CRC of each copy of the calibration row passes -/
  calOk : List Bool := [true, true]
  calDefault : Bool := false
  /-- the read levels of the last codeword read (R386) -/
  levels : List Int := []
  suspect : Nat := 0
  journal : List JEnt := []
  jseq : Nat := 0
  junit : Nat := 1
  used : Nat := 257
  /-- erases under way, oldest first -/
  erasing : List Erase := []
  /-- logical units whose erases wait for their turn -/
  toErase : List Nat := []
  /-- suspensions of the page program under way, and the operations suspended now, earliest first: a physical unit's erase, or 65,536 for
  the page program -/
  progSusp : Nat := 0
  suspended : List Nat := []
  pxLast : Nat := 0
  scrubUnit : Nat := 0
  scrubPage : Nat := 0
  deriving DecidableEq, Repr

/-- A page a store has still to program: stack, logical unit, page, and the page's number in the domain (R383). -/
structure StPage where
  stack : Nat
  unit : Nat
  page : Nat
  dpage : Nat
  deriving DecidableEq, Repr

/-- A unit a store has announced, with the highest loop count and the failed margin reads of its pages (R393, R394). -/
structure OpenUnit where
  stack : Nat
  unit : Nat
  loops : Nat := 0
  mfail : Nat := 0
  deriving DecidableEq, Repr

/-- An OBJ.FL_ERASE or OBJ.FL_STORE under way (R401, R404). -/
structure FlOp where
  ins : Ctl
  erase : Bool
  stack : Nat := 0
  units : List Nat := []
  dest : Nat := 0
  src : Nat := 0
  off : Nat := 0
  raw : Bool := false
  base : Option Nat := none
  pages : List StPage := []
  opened : List OpenUnit := []
  programmed : Nat := 0
  loops : Nat := 0
  retired : Nat := 0
  deriving DecidableEq, Repr

/-- The Conductor's fetch path into the code region (R398): the 512-byte lines of its buffer and the branch targets it keeps, each
with its bytes. -/
structure CodePath where
  buffer : List (Nat × List Byte) := []
  targets : List (Nat × List Byte) := []
  deriving DecidableEq, Repr

/-! ## Power (R435 to R470) -/

/-- A grant body as it was accepted (R436, R437). -/
structure Grant where
  seq : Nat
  mw : Nat
  ramp : Nat
  lease : Nat
  report : Nat
  echo : W64
  deriving DecidableEq, Repr

/-- The Power Steward. Powers are in mW. -/
structure Pwr where
  /-- grant in force, what it rises from, and the fast periods since the accepted grant -/
  force : Nat := 300000
  from0 : Nat := 300000
  periods : Nat := 0
  grant : Option Grant := none
  lastSeq : Option Nat := none
  fabSrc : Option Nat := none
  lapsed : Bool := false
  /-- a grant held in GRAZE: body and its fabric source -/
  heldGrant : Option (List Byte × Nat) := none
  /-- GRANT of the latest grant held or accepted that passed its format and range checks (R467) -/
  seen : Option Nat := none
  therm : Nat := 1800
  limit : Nat := 0
  tmax : Nat := 0
  measured : Nat := 0
  ratio : Nat := 256
  /-- measured energy since reset, in mW × PCLK (R441) -/
  energy : Nat := 0
  disRun : Nat := 0
  agreeRun : Nat := 0
  disagree : Bool := false
  fastNo : Nat := 0
  shortfall : Bool := false
  cause : Nat := 0
  /-- the power in force over the current compliance interval has not changed -/
  steady : Bool := true
  deriving DecidableEq, Repr

/-- A BAR4 access held in GRAZE or behind a line that cannot be reached yet: its aperture offset, its data or a read, and its length. -/
structure ApReq where
  off : Nat
  data : Option (List Byte)
  len : Nat
  poisoned : Bool
  /-- the request carries Relaxed Ordering (R104) -/
  relaxed : Bool := false
  /-- accesses held before it -/
  no : Nat := 0
  deriving DecidableEq, Repr

/-- Power states (R457 to R470): handshake 0 none, 1 under way, 2 committed. -/
structure Pst where
  handshake : Nat := 0
  target : Nat := 0
  lastWake : Nat := 0
  hit : Nat := 0
  runs : SMap Nat := []
  last : W64 := 0
  waking : Bool := false
  /-- the exit is from GRAZE -/
  fromGraze : Bool := false
  /-- BAR4 accesses held, in their order -/
  heldBar4 : List ApReq := []
  /-- BAR4 accesses held since reset (R104) -/
  apHeld : Nat := 0
  /-- WAKE_N was seen since the handshake began -/
  wakeSeen : Bool := false
  /-- a PWR.WAKE was accepted in HOLD -/
  asked : Bool := false
  deriving DecidableEq, Repr

/-! ## Security (R471 to R500) -/

/-- A firmware slot of the code region (R476): its header page, its image and its activation count. -/
structure FwSlot where
  header : List Byte := []
  image : List Byte := []
  count : Nat := 0
  deriving DecidableEq, Repr

/-- An UNLOCK that is being verified (R494). -/
structure Unlock where
  level : Nat
  pk : List Byte
  sig : List Byte
  challenge : BitVec 256
  deriving DecidableEq, Repr

/-- The Security Core. fw is the firmware state of R481; level is the debug level held (R493). -/
structure Sec where
  lc : Nat := 1
  lcNext : Nat := 1
  pend : Option Nat := none
  mregs : SMap (List Byte) := []
  devKey : List Byte := []
  fw : Nat := 0
  fwSvn : Nat := 0
  fwVersion : Nat := 0
  level : Nat := 0
  fails : Nat := 0
  lockout : Bool := false
  challenge : Option (BitVec 256) := none
  unlock : Option Unlock := none
  partResets : Nat := 0
  recovered : Bool := false
  bist : Bool := false
  deriving DecidableEq, Repr

/-! ## Maintenance (R515 to R525) -/

/-- An activity of the maintenance arbiter: state 1 verifying, 2 running, 3 waiting, 4 suspended. -/
structure Act where
  id : Nat
  st : Nat
  order : Nat
  ins : Option Ctl := none
  period : Nat := 0
  passes : Nat := 0
  pass : Nat := 0
  done : Nat := 0
  good : Nat := 0
  bad : Nat := 0
  deriving DecidableEq, Repr

/-- The maintenance arbiter: slots by number and the count of activities registered since entry to ENABLED. -/
structure Maint where
  slots : SMap Act := []
  count : Nat := 0
  deriving DecidableEq, Repr

/-- Everything the device holds but its fuses and the queue of waiting commands. -/
structure Core where
  pins : Pins := {}
  shadow : Fuses := {}
  burn : List FuseWrite := []
  glb : Glb := {}
  regs : SMap W64 := []
  ctr : SMap Nat := []
  pci : Pci := {}
  ports : SMap Port := []
  rings : SMap DRing := []
  ctxs : SMap Ctx := []
  accts : SMap Acct := []
  seqs : SMap Seq := []
  pools : SMap Pool := []
  msets : SMap MSet := []
  objs : SMap Obj := []
  doms : SMap Dom := []
  sched : Sched := {}
  dram : Mem := Mem.empty
  stg : Mem := Mem.empty
  tiles : SMap Tile := []
  ghcs : SMap Ghc := []
  incs : List Inc := []
  fab : Fab := {}
  stks : SMap Stk := []
  flss : SMap Fls := []
  flOps : List FlOp := []
  flash : Mem := Mem.empty
  slotA : FwSlot := {}
  slotB : FwSlot := {}
  /-- life-cycle code of the wipe-complete marker in the code region (R65) -/
  lifeMarker : Nat := 1
  code : CodePath := {}
  pwr : Pwr := {}
  pst : Pst := {}
  sec : Sec := {}
  maint : Maint := {}
  err : Err := {}
  flts : List Flt := []
  host : Mem := Mem.empty
  held : List HostOp := []
  out : List Emit := []
  fresh : Nat := 0
  deriving DecidableEq, Repr

/-- The whole machine: the fuses, everything else the device holds, and the commands that wait, first in, first out. -/
structure State where
  fuse : Fuses
  core : Core
  pending : List Instr
  deriving DecidableEq, Repr

/-- The device right after power-on reset: PWRGOOD has just risen, RESET_N and PERST_N are low, nothing waits (assumption 2). -/
def State.reset : State := { fuse := {}, core := {}, pending := [] }

end Sys2Proof.Machine
end

