-- ==== Sys2Proof/Machine/Registers.lean ====
section
/-! DEFINITION. The BAR0 register map (R527 to R534): which bits of which offset can be written, what they hold after reset,
and the 48-bit counters with their CLR and FREEZE pairs (R19, R531). -/

namespace Sys2Proof.Machine

/-- One register, or an array of arrays of registers at base + i·s1 + j·s2 (i < n1, j < n2): RW bits, RWL bits, reset value. -/
structure RegRow where
  base : Nat
  s1 : Nat := 8
  n1 : Nat := 1
  s2 : Nat := 8
  n2 : Nat := 1
  rw : Nat := 0
  rwl : Nat := 0
  reset : Nat := 0
  deriving DecidableEq, Repr

/-- The row covers the offset. -/
def RegRow.covers (r : RegRow) (off : Nat) : Bool :=
  decide (r.base ≤ off) && decide ((off - r.base) / r.s1 < r.n1) &&
  decide ((off - r.base) % r.s1 % r.s2 = 0) && decide ((off - r.base) % r.s1 / r.s2 < r.n2)

/-- n ones. -/
def ones (n : Nat) : Nat := 2 ^ n - 1

/-! Offsets of the registers whose fields other definitions read. -/

def oGlbCtrl : Nat := 0x8
def oPartMode : Nat := 0x38
def oPartReset : Nat := 0x40
def oSysRegion : Nat := 0x48
def oAperture : Nat := 0x10008
def oPciCtl : Nat := 0x10010
def oPciStall : Nat := 0x10018
def oPortCtl (n : Nat) : Nat := 0x20000 + n * 0x40
def oWbAddr (n : Nat) : Nat := 0x20008 + n * 0x40
def oCqBase (n : Nat) : Nat := 0x20010 + n * 0x40
def oCqSize (n : Nat) : Nat := 0x20018 + n * 0x40
def oCqHead (n : Nat) : Nat := 0x20020 + n * 0x40
def oPortStatus (n : Nat) : Nat := 0x20028 + n * 0x40
def oDrHead (r : Nat) : Nat := 0x21000 + 8 * r
def oSeqLimit : Nat := 0x40000
def oAcctLimit : Nat := 0x40008
def oObjLimit : Nat := 0x40010
def oAgeShift : Nat := 0x40018
def oUrgentWait : Nat := 0x40020
def oStepLimit : Nat := 0x40028
def oSchdCtl : Nat := 0x40038
def oDom (d : Nat) : Nat := 0x40100 + d * 0x40
def oObjCtl : Nat := 0x40400
def oObjStatus : Nat := 0x40408
def oObjUsed (d : Nat) : Nat := 0x40500 + d * 0x40
def oMem (s : Nat) : Nat := 0x80000 + s * 0x10000
def oMapOrder (s : Nat) : Nat := oMem s
def oBankXor (s k : Nat) : Nat := oMem s + 8 + 8 * k
def oRefPostpone (s : Nat) : Nat := oMem s + 0x28
def oNbrK (s : Nat) : Nat := oMem s + 0x30
def oRetrain (s : Nat) : Nat := oMem s + 0x38
def oCeLimit (s : Nat) : Nat := oMem s + 0x40
def oMemCtl (s : Nat) : Nat := oMem s + 0x48
def oMemStatus (s : Nat) : Nat := oMem s + 0x50
def oPortTarget (s p : Nat) : Nat := oMem s + 0x80 + 8 * p
def oFls (f : Nat) : Nat := 0x100000 + f * 0x10000
def oRetireLoops : Nat := 0x100000
def oFlsCtl (f : Nat) : Nat := oFls f + 8
/-- PX set of HBM stack s (flash = false) or flash stack s. -/
def oPx (flash : Bool) (s : Nat) : Nat := (if flash then oFls s else oMem s) + 0xF000
def oNodeId : Nat := 0x140000
def oTwinCtl : Nat := 0x140008
def oFabCtl : Nat := 0x140010
def oFabTimeout : Nat := 0x140018
def oFabDrop : Nat := 0x140030
def oFabPortCtl (p : Nat) : Nat := 0x140100 + p * 0x20
def oBridgeStall (d : Nat) : Nat := 0x60 + 8 * d
def oFabStallPort (p : Nat) : Nat := 0x140110 + p * 0x20
def oFabLinkRetry (p : Nat) : Nat := 0x140118 + p * 0x20
def oGrantDefault : Nat := 0x180000
def oGrantSrc : Nat := 0x180008
def oDisagreePct : Nat := 0x180010
def oGateRamp : Nat := 0x180018
def oSoftStart : Nat := 0x180020
def oDelayMax : Nat := 0x180028
def oPartShare (p : Nat) : Nat := 0x180030 + 8 * p
def oDroop : Nat := 0x180050
def oTherm : Nat := 0x180058
def oPwrCtl : Nat := 0x180060
def oDroopCount (i : Nat) : Nat := 0x1800A0 + 8 * i
def oDisagreeCount : Nat := 0x1800B0
def oGrants : Nat := 0x1800B8
def oGrantIgnored : Nat := 0x1800C0
def oSlewHold : Nat := 0x1800C8
def oPwrOver : Nat := 0x1800D0
def oPstate : Nat := 0x180200
def oGrazeCtl : Nat := 0x180208
def oWakeCtl : Nat := 0x180210
def oGrazeCmp (n : Nat) : Nat := 0x180220 + 8 * n
def oGrazeCycles : Nat := 0x180268
def oEntryRefused : Nat := 0x180270
def oSecCtl : Nat := 0x1C0018
def oQuotes : Nat := 0x1C0300
def oQuoteRefused : Nat := 0x1C0308
def oDbgFail : Nat := 0x1C0310
def oErrCtl : Nat := 0x1E0000
def oStepWdog : Nat := 0x1E0008
def oErrBase (r : Nat) : Nat := 0x1E0100 + r * 0x40
def oErrSize (r : Nat) : Nat := 0x1E0108 + r * 0x40
def oErrWb (r : Nat) : Nat := 0x1E0110 + r * 0x40
def oErrHead (r : Nat) : Nat := 0x1E0118 + r * 0x40
def oErrRingCtl (r : Nat) : Nat := 0x1E0120 + r * 0x40
def oErrRecords : Nat := 0x1E0200
def oErrLost (r : Nat) : Nat := 0x1E0208 + 8 * r
def oErrFatal : Nat := 0x1E0218
def oTile (t : Nat) : Nat := 0x200000 + t * 0x2000
def oTileStallCtl (t : Nat) : Nat := oTile t + 0x100
def oTileStall (t n : Nat) : Nat := oTile t + 0x200 + 8 * n
def oMeCount (t k n : Nat) : Nat := oTile t + 0x408 + k * 0x40 + 8 * n
def oMeCtl (t : Nat) : Nat := oTile t + 0x500
def oNumCtl (t : Nat) : Nat := oTile t + 0x600
def oNumCount (t n : Nat) : Nat := oTile t + 0x608 + 8 * n
def oVeStarve (t : Nat) : Nat := oTile t + 0x708
def oCfVeFull (t : Nat) : Nat := oTile t + 0x710
def oVcCtl (t : Nat) : Nat := oTile t + 0x718
def oAtCount (t n : Nat) : Nat := oTile t + 0x808 + 8 * n
def oAtCtl (t : Nat) : Nat := oTile t + 0x830

/-- GLB, PCI and FEED registers with stored bits. -/
def regRowsA : List RegRow :=
  [{ base := 0x8, rw := 4 },
   { base := 0x38, rwl := 0xF },
   { base := 0x48, rwl := 0x1FF },
   { base := 0x10008, rw := 0xFF },
   { base := 0x10010, rw := 1 },
   { base := 0x20000, s1 := 0x40, n1 := 64, s2 := 0x40, rw := 0x00FFFFFF07FF000E, reset := 0x100000000 },
   { base := 0x20008, s1 := 0x40, n1 := 64, s2 := 8, n2 := 2, rw := 2 ^ 64 - 64 },
   { base := 0x20018, s1 := 0x40, n1 := 64, s2 := 0x40, rw := 0x1FFFF }]

/-- SCHD registers with stored bits. -/
def regRowsB : List RegRow :=
  [{ base := 0x40000, rwl := 0x1FFFFFF, reset := 4194304 },
   { base := 0x40008, rwl := 0x1FFFFFF, reset := 65536 },
   { base := 0x40010, rwl := 0x1FFFFFF, reset := 1048576 },
   { base := 0x40018, rwl := 0xF, reset := 4 },
   { base := 0x40020, rwl := 0xFFFF, reset := 1024 },
   { base := 0x40028, rwl := 0xFF01FFFF3FFF, reset := 8192 + 65536 * 2 ^ 16 + 2 ^ 40 },
   { base := 0x40038, rw := 2 },
   { base := 0x40400, rw := 0x2FFFF, reset := 64 }]

/-- MEM, PX and FLS registers with stored bits. -/
def regRowsC : List RegRow :=
  [{ base := 0x80000, s1 := 0x10000, n1 := 8, s2 := 0x10000, rwl := 3 },
   { base := 0x80008, s1 := 0x10000, n1 := 8, s2 := 0x10000, rwl := 0xFFFFFFFF, reset := 0x00222220 },
   { base := 0x80010, s1 := 0x10000, n1 := 8, s2 := 0x10000, rwl := 0xFFFFFFFF, reset := 0x00444440 },
   { base := 0x80018, s1 := 0x10000, n1 := 8, s2 := 0x10000, rwl := 0xFFFFFFFF, reset := 0x00888880 },
   { base := 0x80020, s1 := 0x10000, n1 := 8, s2 := 0x10000, rwl := 0xFFFFFFFF, reset := 0x01111100 },
   { base := 0x80028, s1 := 0x10000, n1 := 8, s2 := 0x10000, rwl := 0xF, reset := 8 },
   { base := 0x80030, s1 := 0x10000, n1 := 8, s2 := 0x10000, rwl := 0x1F, reset := 12 },
   { base := 0x80038, s1 := 0x10000, n1 := 8, s2 := 0x10000, rw := 0xFFFFFFFFFF, reset := 1171875 + 10 * 2 ^ 32 },
   { base := 0x80040, s1 := 0x10000, n1 := 8, s2 := 0x10000, rw := 0xFFFF, reset := 1024 },
   { base := 0x80048, s1 := 0x10000, n1 := 8, s2 := 0x10000, rw := 2 },
   { base := 0x8F000, s1 := 0x10000, n1 := 8, s2 := 0x10000, rw := 2 },
   { base := 0x100000, rwl := 0xFF, reset := 16 },
   { base := 0x100008, s1 := 0x10000, n1 := 4, s2 := 0x10000, rw := 2 },
   { base := 0x10F000, s1 := 0x10000, n1 := 4, s2 := 0x10000, rw := 2 }]

/-- MEM_PORT_TARGET[p] of every stack window. -/
def regRowsD : List RegRow :=
  [{ base := 0x80080, s1 := 0x10000, n1 := 8, s2 := 0x10000, rwl := 0xFFFF, reset := 600 },
   { base := 0x80088, s1 := 0x10000, n1 := 8, s2 := 0x10000, rwl := 0xFFFF, reset := 400 },
   { base := 0x80090, s1 := 0x10000, n1 := 8, s2 := 0x10000, rwl := 0xFFFF, reset := 300 },
   { base := 0x80098, s1 := 0x10000, n1 := 8, s2 := 0x10000, rwl := 0xFFFF, reset := 200 },
   { base := 0x800A0, s1 := 0x10000, n1 := 8, s2 := 0x10000, rwl := 0xFFFF, reset := 1200 },
   { base := 0x800A8, s1 := 0x10000, n1 := 8, s2 := 0x10000, rwl := 0xFFFF, reset := 2400 },
   { base := 0x800B0, s1 := 0x10000, n1 := 8, s2 := 0x10000, rwl := 0xFFFF, reset := 800 },
   { base := 0x800B8, s1 := 0x10000, n1 := 8, s2 := 0x10000, rwl := 0xFFFF, reset := 4800 }]

/-- FAB and PWR registers with stored bits. -/
def regRowsE : List RegRow :=
  [{ base := 0x140000, rwl := 0xFFF },
   { base := 0x140008, rwl := 0xFFF0FF3 },
   { base := 0x140010, rw := 2 },
   { base := 0x140018, rw := 0xFFFFFFFFFFFF, reset := 64 + 1758 * 2 ^ 16 + 275 * 2 ^ 32 },
   { base := 0x140100, s1 := 0x20, n1 := 16, s2 := 0x20, rw := 1, reset := 1 },
   { base := 0x180000, rwl := 0x7FF, reset := 300 },
   { base := 0x180008, rwl := 0x3FFF, reset := 0xFFF },
   { base := 0x180010, rwl := 0xFF, reset := 125 },
   { base := 0x180018, rwl := 0xFFFF01FF, reset := 32 + 512 * 2 ^ 16 },
   { base := 0x180020, rwl := 0xFFFF001F, reset := 4 + 256 * 2 ^ 16 },
   { base := 0x180028, rwl := 0xFFFF, reset := 2048 },
   { base := 0x180030, s1 := 8, n1 := 4, rwl := 0x7F, reset := 25 }]

/-- The rest of PWR, ERR, SEC and TILE registers with stored bits. -/
def regRowsF : List RegRow :=
  [{ base := 0x180050, rwl := 0x7FFFFF001F, reset := 4 + 1024 * 2 ^ 16 + 40 * 2 ^ 32 },
   { base := 0x180058, rwl := 0xFF, reset := 95 },
   { base := 0x180060, rw := 2, rwl := 4 },
   { base := 0x180208, rw := 0xFFFFFF, reset := 25000 },
   { base := 0x180210, rw := 3, reset := 1 },
   { base := 0x180220, s1 := 8, n1 := 8, rw := 0xFFFF0F3F, reset := 0x100 },
   { base := 0x1C0018, rw := 2 },
   { base := 0x1E0000, rw := 0x207FF07FF },
   { base := 0x1E0008, rwl := 0xFFFF, reset := 1024 },
   { base := 0x1E0100, s1 := 0x40, n1 := 2, s2 := 16, n2 := 2, rw := 2 ^ 64 - 64 },
   { base := 0x1E0108, s1 := 0x40, n1 := 2, s2 := 0x40, rw := 0x1FFFF },
   { base := 0x200100, s1 := 0x2000, n1 := 256, s2 := 0x100, n2 := 1, rw := 2 },
   { base := 0x200500, s1 := 0x2000, n1 := 256, s2 := 0x2000, rw := 2 },
   { base := 0x200600, s1 := 0x2000, n1 := 256, s2 := 0x2000, rw := 2 },
   { base := 0x200718, s1 := 0x2000, n1 := 256, s2 := 0x2000, rw := 2 },
   { base := 0x200830, s1 := 0x2000, n1 := 256, s2 := 0x2000, rw := 2 }]

/-- Every register with stored bits. -/
def regRows : List RegRow := regRowsA ++ regRowsB ++ regRowsC ++ regRowsD ++ regRowsE ++ regRowsF

/-- The row of an offset. -/
def regRow (off : Nat) : Option RegRow := regRows.find? (fun r => r.covers off)

/-- What the stored bits of an offset hold after reset (R532). -/
def regReset (off : Nat) : W64 := match regRow off with | some r => BitVec.ofNat 64 r.reset | none => 0

/-- The stored bits of a register. -/
def rreg (k : Core) (off : Nat) : W64 :=
  match mget? k.regs off with | some v => v | none => regReset off

/-- A field of a register's stored bits. -/
def rfld (k : Core) (off hi lo : Nat) : Nat := bits (rreg k off).toNat hi lo

/-- Store the bits of a register; a value equal to the reset value is not listed. -/
def wreg (k : Core) (off : Nat) (v : W64) : Core :=
  { k with regs := if v = regReset off then mdel k.regs off else mput k.regs off v }

/-- Replace the bits of v selected by mask. -/
def merge (old new mask : W64) : W64 := (old &&& ~~~mask) ||| (new &&& mask)

/-- A block of counters: the control register, its FREEZE bit, and the offsets it holds. -/
structure CtrBlock where
  ctl : Nat
  freeze : Nat
  deriving DecidableEq, Repr

/-- The CLR and FREEZE register of a counter, by the counter's offset (R531). -/
def ctrBlock (off : Nat) : Option CtrBlock :=
  if off < 0x10000 then some ⟨oGlbCtrl, 2⟩
  else if off < 0x20000 then none
  else if off < 0x40400 then some ⟨oSchdCtl, 1⟩
  else if off < 0x80000 then some ⟨oObjCtl, 17⟩
  else if off < 0x100000 then
    if off % 0x10000 < 0xF000 then some ⟨off / 0x10000 * 0x10000 + 0x48, 1⟩
    else some ⟨off / 0x10000 * 0x10000 + 0xF000, 1⟩
  else if off < 0x140000 then
    if off % 0x10000 < 0xF000 then some ⟨off / 0x10000 * 0x10000 + 0x8, 1⟩
    else some ⟨off / 0x10000 * 0x10000 + 0xF000, 1⟩
  else if off < 0x180000 then some ⟨oFabCtl, 1⟩
  else if off < 0x1C0000 then some ⟨oPwrCtl, 1⟩
  else if off < 0x1E0000 then some ⟨oSecCtl, 1⟩
  else if off < 0x200000 then some ⟨oErrCtl, 33⟩
  else
    let w := off / 0x2000 * 0x2000
    let r := off % 0x2000
    if r < 0x400 then some ⟨w + 0x100, 1⟩
    else if r < 0x600 then some ⟨w + 0x500, 1⟩
    else if r < 0x700 then some ⟨w + 0x600, 1⟩
    else if r < 0x800 then some ⟨w + 0x718, 1⟩
    else some ⟨w + 0x830, 1⟩

/-- The largest value of a 48-bit counter (R19). -/
def ctrMax : Nat := 0xFFFFFFFFFFFF

/-- In GRAZE no counter of the save image counts but PWR_GRAZE_CYCLES (R463, R470). -/
def gated (k : Core) (off : Nat) : Bool :=
  k.glb.st == .graze && off != oGrazeCycles && !decide (0x10000 ≤ off ∧ off < 0x20000) && !decide (0x1C0000 ≤ off ∧ off < 0x1E0000)
/-- The counter stands still: its FREEZE bit is set, or GRAZE stops it. -/
def frozen (k : Core) (off : Nat) : Bool :=
  gated k off || match ctrBlock off with
  | some b => bit (rreg k b.ctl).toNat b.freeze
  | none => false

/-- Count n events: the counter saturates, and stands still while frozen (R19, R531). -/
def bump (k : Core) (off n : Nat) : Core :=
  if frozen k off then k else { k with ctr := mset 0 k.ctr off (min ctrMax (mget 0 k.ctr off + n)) }

/-- Zero the counters at offsets lo to hi − 1. -/
def clrCtrs (k : Core) (lo hi : Nat) : Core :=
  { k with ctr := mfilter (fun a _ => !(decide (lo ≤ a ∧ a < hi))) k.ctr }

/-! Fields that many rules read. -/

/-- Quarter p is a partition (R12). -/
def isPart (k : Core) (p : Nat) : Bool := bit (rfld k oPartMode 3 0) p
/-- GLB_PART_MODE.QUARTERS. -/
def quarters (k : Core) : Nat := rfld k oPartMode 3 0
/-- Partitions are in use. -/
def partsInUse (k : Core) : Bool := decide (quarters k ≠ 0)
/-- Partition p is RESETTING (R67). -/
def isResetting (k : Core) (p : Nat) : Bool := k.glb.resetting.contains p
/-- Partition state code (R67). -/
def partCode (k : Core) (p : Nat) : Nat := if !isPart k p then 0 else if isResetting k p then 2 else 1

end Sys2Proof.Machine
end

