-- ==== Sys2Proof/Machine/Ops.lean ====
section
/-! DEFINITION. The named operations every chapter shares: free values, writes to host memory, MSI-X, completion records and
write-back lines, delivery rings and error records. -/

namespace Sys2Proof.Machine

/-! ## Reason codes (chapter Reason codes and limits) -/

def rOk : Nat := 0x0000
def rBadOpcode : Nat := 0x0101
def rBadClass : Nat := 0x0102
def rReserved : Nat := 0x0103
def rWrongState : Nat := 0x0201
def rNotEnabled : Nat := 0x0202
def rBusy : Nat := 0x0203
def rBundleAborted : Nat := 0x0204
def rAllOnes : Nat := 0x0301
def rOverrun : Nat := 0x0302
def rZero : Nat := 0x0303
def rMisaligned : Nat := 0x0304
def rNoResource : Nat := 0x0401
def rObjBusy : Nat := 0x0402
def rFeedOverflow : Nat := 0x0403
def rDeniedLife : Nat := 0x0501
def rDeniedPart : Nat := 0x0502
def rSignature : Nat := 0x0503
def rUnsettled : Nat := 0x0504
def rDeniedConf : Nat := 0x0505
def rGrantExceeded : Nat := 0x0601
def rPowerRefused : Nat := 0x0602
def rDisagree : Nat := 0x0603
def rUncorrectable : Nat := 0x0701
def rWeightUnavail : Nat := 0x0702
def rPackDamaged : Nat := 0x0703
def rRankRetired : Nat := 0x0704
def rFlashWorn : Nat := 0x0705
def rCorrected : Nat := 0x0706
def rRetrainFailed : Nat := 0x0707
def rShardDigest : Nat := 0x0801
def rPeerLost : Nat := 0x0802
def rTwinDiverged : Nat := 0x0803
def rLinkDegraded : Nat := 0x0804
def rMaintConflict : Nat := 0x0901
def rTestFailed : Nat := 0x0902
def rCancelled : Nat := 0x0B01
def rAlreadyComplete : Nat := 0x0B02
def rBudgetExhausted : Nat := 0x0B03
def rWatchdog : Nat := 0x0C01
def rThermal : Nat := 0x0C02
def rControlFault : Nat := 0x0C03
def rStartupFault : Nat := 0x0C04

/-! ## Free values -/

/-- Draw a free number (assumption 1). -/
def drawNat (k : Core) : Nat × Core := (Config.freeNat k.fresh, { k with fresh := k.fresh + 1 })
/-- Draw a free word (assumption 1). -/
def drawWord (k : Core) : W64 × Core := (Config.freeWord k.fresh, { k with fresh := k.fresh + 1 })
/-- Draw a free line (assumption 1). -/
def drawLine (k : Core) : Line × Core := (Config.freeLine k.fresh, { k with fresh := k.fresh + 1 })
/-- Draw a free truth value (assumption 1). -/
def drawBool (k : Core) : Bool × Core := (decide (Config.freeNat k.fresh % 2 = 1), { k with fresh := k.fresh + 1 })

/-- Put something out on a pin or link. -/
def emit (k : Core) (e : Emit) : Core := { k with out := e :: k.out }

/-- Report a request as an AER Unsupported Request: the header log keeps the first until it is cleared (R87, R92, R528). -/
def aerReport (k : Core) (h : AerHdr) : Core :=
  emit { k with pci := { k.pci with aerHdr := some (k.pci.aerHdr.getD h) } } .aer

/-! ## Writes to host memory and interrupts -/

/-- The link serves and the function may issue requests (R89). -/
def hostUp (k : Core) : Bool := decide (k.pci.lanes ≠ 0) && k.pci.busMaster && !k.pci.d3hot

/-- Relaxed Ordering of a write: host-tier data carry it while PCI_CTL.RO_BULK is set (R104). -/
def roBulk (k : Core) (bulk : Bool) : Bool := bulk && rfld k oPciCtl 0 0 == 1

/-- Cut n bytes from address a at the multiples of a size: address and length of each request (R105, assumption 73). -/
def cutAt (size : Nat) : Nat → Nat → Nat → List (Nat × Nat)
  | _, _, 0 => []
  | a, n, fuel + 1 =>
    let m := min n (size - a % size)
    if n = 0 then [] else (a, m) :: cutAt size (a + m) (n - m) fuel

/-- Carry out one waiting request; a write is cut to Max Payload Size, and a part with a poisoned word is a poisoned write. -/
def hostDo (k : Core) : HostOp → Core
  | .write a l bulk bad =>
    (cutAt (max 1 k.pci.maxPayload) a l.length l.length).foldl (fun t p =>
      emit t (.hostWrite p.1 p.2 (roBulk k bulk) (bad.any (fun b => decide (p.1 ≤ a + b ∧ a + b < p.1 + p.2)))))
      { k with host := k.host.putBytes 0 a l }
  | .msix v => emit k (.msix v)

/-- Carry out a request now, or keep it behind those that wait (R89, R104 item 3). -/
def hostReq (k : Core) (o : HostOp) : Core :=
  if hostUp k && k.held.isEmpty then hostDo k o else { k with held := k.held ++ [o] }

/-- Write bytes to host memory. -/
def hostWrite (k : Core) (addr : Nat) (l : List Byte) : Core := hostReq k (.write addr l false [])

/-! ## Reads of host memory (R89, R90, R105) -/

/-- Reads that may be outstanding, by the tags enabled (R90). -/
def tagLimit (k : Core) : Nat := if k.pci.tagBits = 14 then 1024 else if k.pci.tagBits = 10 then 768 else 256
/-- The next tag that no outstanding read uses. -/
def freeTag (k : Core) : Option Nat :=
  let n := tagLimit k
  ((upFrom 0 n).map (fun i => (k.pci.nextTag + i) % n)).find? (fun t => (mget? k.pci.reads t).isNone)
/-- Request the first bytes of the read that waits longest, up to Max Read Request Size, under tag t. -/
def issueRead (k : Core) (t : Nat) (r : HostRd) (rest : List HostRd) : Core :=
  let size := max 1 k.pci.maxReadRequest
  let n := min r.len (size - r.addr % size)
  let left := if n < r.len then [{ r with addr := r.addr + n, len := r.len - n, line := r.line + n / 64 }] else []
  emit { k with pci := { k.pci with reads := mput k.pci.reads t { r with len := n }, waiting := left ++ rest, nextTag := t + 1 } }
    (.hostRead t r.addr n)
/-- Request what waits while tags are free; none in D3hot or without Bus Master Enable (R89, R90). -/
def issueReads (k : Core) : Nat → Core
  | 0 => k
  | fuel + 1 =>
    if hostUp k && decide (k.pci.reads.length < tagLimit k) then
      match k.pci.waiting, freeTag k with
      | r :: rest, some t => issueReads (issueRead k t r rest) fuel
      | _, _ => k
    else k
/-- Request what can be requested; what still waits lacks a slot for a number of cycles the model does not know (R90, assumption 34). -/
def hostIssue (k : Core) : Core :=
  let k1 := issueReads k (tagLimit k)
  if hostUp k1 && !k1.pci.waiting.isEmpty then
    let (c, k2) := drawNat k1
    bump k2 oPciStall c
  else k1
/-- Read host memory (R90). -/
def hostRead (k : Core) (r : HostRd) : Core := hostIssue { k with pci := { k.pci with waiting := k.pci.waiting ++ [r] } }
/-- A read that meets a condition is outstanding or waits to be requested. -/
def readPending (k : Core) (p : HostRd → Bool) : Bool := k.pci.reads.any (fun e => p e.2) || k.pci.waiting.any p

/-- Resume the waiting writes in their order, and the reads (R89). -/
def hostFlush (k : Core) : Core := if hostUp k then hostIssue (k.held.foldl hostDo { k with held := [] }) else k

/-- Double word i of the MSI-X table; after reset every vector is masked (R532). -/
def msixDw (k : Core) (i : Nat) : W32 := mget (if i % 4 = 3 then 1 else 0) k.pci.msixTab i

/-- Vector v is masked, by its own bit, by the function mask or because MSI-X is off (assumption 3). -/
def msixMasked (k : Core) (v : Nat) : Bool := (msixDw k (4 * v + 3)).getLsbD 0 || k.pci.msixMaskAll || !k.pci.msixOn

/-- Send vector v, or set its pending bit while it is masked (R103). -/
def msix (k : Core) (v : Nat) : Core :=
  if msixMasked k v then { k with pci := { k.pci with msixPend := sput k.pci.msixPend v } } else hostReq k (.msix v)

/-! ## Feed ports: write-back line, completion records -/

/-- Feed port n. -/
def port (k : Core) (n : Nat) : Port := mget {} k.ports n
/-- Change feed port n. -/
def modPort (k : Core) (n : Nat) (f : Port → Port) : Core := { k with ports := mmod {} k.ports n f }

/-- Send the completion ring's vector once R103 allows it. -/
def portSignal (k : Core) (n : Nat) (timed : Bool) : Core :=
  let p := port k n
  let count := max 1 (rfld k (oPortCtl n) 39 32)
  if p.covered ≠ 0 ∧ (timed = true ∨ count ≤ p.unsignalled) then
    msix (modPort k n (fun q => { q with unsignalled := q.unsignalled - q.covered, covered := 0 })) (rfld k (oPortCtl n) 26 16)
  else k

/-- Write the write-back line of port n (R96). -/
def writeLine (k : Core) (n : Nat) : Core :=
  let p := port k n
  let k1 := hostWrite k (rreg k (oWbAddr n)).toNat
    (leBytes 8 p.consumed ++ leBytes 4 p.ordinal.toNat ++ leBytes 4 p.produced.toNat)
  portSignal (modPort k1 n (fun q => { q with shown := q.consumed, wbDue := false, covered := q.unsignalled })) n false

/-- The 32 bytes of a completion record (R119). -/
def recBytes (i : Ctl) (n reason arg : Nat) (payload : List Byte) : List Byte :=
  leBytes 4 (n + (i.cls * 16 + i.flags.toNat) * 256 + i.op * 65536) ++ leBytes 4 i.ord.toNat ++
  leBytes 4 reason ++ leBytes 4 arg ++
  (if reason = 0 then (payload ++ List.replicate 16 0).take 16 else List.replicate 16 0)

/-- Write one completion record of port n and pace the write-back that counts it (R99). -/
def record (k : Core) (n : Nat) (i : Ctl) (reason arg : Nat) (payload : List Byte) : Core :=
  let p := port k n
  let size := rfld k (oCqSize n) 16 0
  let k1 := hostWrite k ((rreg k (oCqBase n)).toNat + p.produced.toNat % size * 32) (recBytes i n reason arg payload)
  let k2 := modPort k1 n (fun q => { q with produced := q.produced + 1, unsignalled := q.unsignalled + 1 })
  if p.wbPaced then portSignal (modPort k2 n (fun q => { q with wbDue := true })) n false
  else writeLine (modPort k2 n (fun q => { q with wbPaced := true })) n

/-- CREQ of an instruction. -/
def Ctl.creq (i : Ctl) : Bool := i.flags.getLsbD 3
/-- FENCE of an instruction. -/
def Ctl.fence (i : Ctl) : Bool := i.flags.getLsbD 2
/-- LAST of an instruction. -/
def Ctl.isLast (i : Ctl) : Bool := i.flags.getLsbD 1

/-- Write the records of a finished bundle in ordinal order: every refused or failed member's, and the others' where CREQ asks
(R119, R122). -/
def recordGroup (k : Core) (n : Nat) (g : List BRec) : Core :=
  g.foldl (fun k r => if r.reason ≠ 0 ∨ r.ins.creq = true then record k n r.ins r.reason r.arg r.payload else k) k

/-- The member with the ordinal is done. -/
def fillGroup (ord : W32) (reason arg : Nat) (payload : List Byte) : List BRec → List BRec
  | [] => []
  | r :: g =>
    if r.ins.ord = ord then { r with done := true, reason := reason, arg := arg, payload := payload } :: g
    else r :: fillGroup ord reason arg payload g

/-- The SEQ.CANCELs of a port that wait for their CANCELLED records (R307). -/
def cancelsOf (k : Core) (n : Nat) : List Ctl :=
  (k.seqs.flatMap (fun e => e.2.waiting.filterMap (·.cancel))).filter (fun i => decide (i.src = Src.port (BitVec.ofNat 6 n)))
/-- Every instruction of port n that started has retired. -/
def portIdle (k : Core) (n : Nat) : Bool :=
  (k.flts.all (fun f => decide (f.ins.src ≠ Src.port (BitVec.ofNat 6 n)))) && (port k n).groups.isEmpty && (cancelsOf k n).isEmpty

/-- A FENCE ends once the port's started instructions have retired, those of the fenced bundle included (R121, R124). -/
def unfence (k : Core) (n : Nat) : Core :=
  if portIdle k n && (port k n).bundle.isEmpty && (port k n).fenced then modPort k n (fun q => { q with fenced := false }) else k

/-- An instruction retires: it writes its record where R119 asks for one, with its bundle's where it belongs to one (R120, R122). -/
def retire (k : Core) (i : Ctl) (reason arg : Nat) (payload : List Byte) : Core :=
  match i.src with
  | .conductor => k
  | .port m =>
    let n := m.toNat
    match (port k n).groups.find? (fun g => g.any (fun r => decide (r.ins.ord = i.ord))) with
    | none => unfence (if reason ≠ 0 ∨ i.creq = true then record k n i reason arg payload else k) n
    | some g =>
      let g' := fillGroup i.ord reason arg payload g
      if g'.all (fun r => r.done) then
        unfence (recordGroup (modPort k n (fun q => { q with groups := q.groups.erase g })) n g') n
      else modPort k n (fun q => { q with groups := q.groups.map (fun h => if h = g then g' else h) })

/-- An instruction in flight retires. -/
def retireFlt (k : Core) (f : Flt) (reason arg : Nat) (payload : List Byte) : Core :=
  retire { k with flts := k.flts.erase f } f.ins reason arg payload

/-- Instructions of port n that are taken and not retired, those of an unfinished bundle included (R98). -/
def reserved (k : Core) (n : Nat) : Nat :=
  (port k n).bundle.length + ((port k n).groups.map (fun g => (g.filter (fun r => r.done)).length)).sum +
  (k.flts.filter (fun f => decide (f.ins.src = Src.port (BitVec.ofNat 6 n)))).length + (cancelsOf k n).length

/-- The completion ring of port n has a record to reserve (R98). -/
def cqFree (k : Core) (n : Nat) : Bool :=
  decide (((port k n).produced - (port k n).head).toNat + reserved k n < rfld k (oCqSize n) 16 0)

/-! ## Delivery rings -/

/-- Delivery ring r. -/
def dring (k : Core) (r : Nat) : DRing := mget {} k.rings r
/-- Change delivery ring r. -/
def modRing (k : Core) (r : Nat) (f : DRing → DRing) : Core := { k with rings := mmod {} k.rings r f }

/-- The ring has no free record (R101). -/
def ringFull (k : Core) (r : Nat) : Bool :=
  decide ((dring k r).size ≤ ((dring k r).produced - (dring k r).head).toNat)

/-- Send the delivery ring's vector once R103 allows it. -/
def ringSignal (k : Core) (r : Nat) (timed : Bool) : Core :=
  let d := dring k r
  if d.unsignalled ≠ 0 ∧ (timed = true ∨ max 1 d.count ≤ d.unsignalled) then
    msix (modRing k r (fun q => { q with unsignalled := 0 })) d.vec
  else k

/-- Write one delivery record and then the produced count (R100). -/
def ringWrite (k : Core) (r : Nat) (rec : List Byte) : Core :=
  let d := dring k r
  let k1 := hostWrite k (d.base + d.produced.toNat % d.size * 32) rec
  let k2 := hostWrite k1 d.wb (leBytes 4 (d.produced + 1).toNat)
  ringSignal (modRing k2 r (fun q => { q with produced := q.produced + 1, unsignalled := q.unsignalled + 1 })) r false

/-! ## Error records -/

/-- A valid identifier with bit 31, or zero. -/
def optId (o : Option Nat) (top : Nat) : Nat := match o with | some n => n + 2 ^ top | none => 0

/-- The 64 bytes of an error record (R506). -/
def errBytes (r : ErrRec) (serial : Nat) (loss : Bool) : List Byte :=
  leBytes 2 r.reason ++ leBytes 1 r.cls ++ leBytes 1 r.source ++ leBytes 2 r.inst ++
  leBytes 1 (b2n r.opOnly + 2 * b2n r.conf + 4 * b2n loss) ++ leBytes 1 r.dom ++ leBytes 4 r.arg ++
  leBytes 4 (optId r.ctx 15) ++ leBytes 4 (optId r.obj 31) ++ leBytes 4 (optId r.seq 31) ++
  leBytes 8 r.addr ++ leBytes 8 r.step ++ leBytes 8 serial ++ (r.detail ++ List.replicate 16 0).take 16

/-- Ring r's state: 0 is H, 1 is O. -/
def ering (k : Core) (r : Nat) : ERing := if r = 0 then k.err.ringH else k.err.ringO
/-- Change error ring r. -/
def modERing (k : Core) (r : Nat) (f : ERing → ERing) : Core :=
  if r = 0 then { k with err := { k.err with ringH := f k.err.ringH } }
  else { k with err := { k.err with ringO := f k.err.ringO } }

/-- Write a record to error ring r, or count it as lost (R508). -/
def errToRing (k : Core) (r : Nat) (e : ErrRec) (serial : Nat) : Core :=
  let g := ering k r
  let size := rfld k (oErrSize r) 16 0
  if !g.en then k
  else if size ≤ (g.produced - g.head).toNat then modERing (bump k (oErrLost r) 1) r (fun q => { q with loss := true })
  else
    let k1 := hostWrite k ((rreg k (oErrBase r)).toNat + g.produced.toNat % size * 64) (errBytes e serial g.loss)
    let k2 := hostWrite k1 (rreg k (oErrWb r)).toNat (leBytes 4 (g.produced + 1).toNat)
    let k3 := modERing k2 r (fun q => { q with produced := q.produced + 1, loss := false })
    msix k3 (if r = 0 then rfld k oErrCtl 10 0 else rfld k oErrCtl 26 16)

/-- Form an error record and write it by class: ring H unless OPERATOR_ONLY, and ring O always (R507, R508). -/
def errRecord (k : Core) (e : ErrRec) : Core :=
  let n := k.err.serial
  let k1 := bump { k with err := { k.err with serial := n + 1, log := (n, e) :: k.err.log } } oErrRecords 1
  errToRing (if e.opOnly then k1 else errToRing k1 0 e n) 1 e n

/-- A CORRECTED record of a source instance, at most one per 900,000 CCLK: whether that time has passed since the instance's
last record is a free value (R509, assumption 1). -/
def corrected (k : Core) (source inst : Nat) (e : ErrRec) : Core :=
  let key := source * 65536 + inst
  let r := { e with reason := rCorrected, cls := 1, source := source, inst := inst, opOnly := true }
  match mget? k.err.suppressed key with
  | none => errRecord { k with err := { k.err with suppressed := mput k.err.suppressed key 0 } } { r with detail := leBytes 4 0 }
  | some n =>
    let (passed, k1) := drawBool k
    if passed then
      errRecord { k1 with err := { k1.err with suppressed := mput k1.err.suppressed key 0 } } { r with detail := leBytes 4 n }
    else { k1 with err := { k1.err with suppressed := mput k1.err.suppressed key (n + 1) } }

/-- Change the device state and write its state-change record (R507). -/
def setState (k : Core) (st : DevState) : Core :=
  if k.glb.st = st then k
  else errRecord { k with glb := { k.glb with st := st } }
    { reason := 0, cls := 0, detail := leBytes 1 k.glb.st.code ++ leBytes 1 st.code }

/-- FAULT_N is driven low (R36): from VAON in regulation, in RESET and HALTED. -/
def faultNLow (k : Core) : Bool :=
  k.pins.vaon && (k.glb.st == .off || k.glb.st == .reset || k.glb.st == .halted)

end Sys2Proof.Machine
end

