-- ==== Sys2Proof/Machine/Control.lean ====
section
/-! DEFINITION. How a control instruction is accepted, refused and retired (R106 to R125): the checks of R111 in their order,
and the ways an accepted instruction ends. -/

namespace Sys2Proof.Machine

/-- One acceptance check: its order in R111, the lowest bit of the field it concerns (main word 0 to 127, extension word 128 to
255), whether it fails, and the refusal it gives. -/
structure Chk where
  ord : Nat
  pos : Nat
  bad : Bool
  reason : Nat
  arg : Nat
  deriving DecidableEq, Repr

/-- Place in the order of R111: main-word bits first, higher bits before lower. -/
def rank (pos : Nat) : Nat := if pos < 128 then 127 - pos else 128 + (255 - pos)

/-- a is reported before b (R111). -/
def Chk.before (a b : Chk) : Bool :=
  decide (a.ord < b.ord) || (decide (a.ord = b.ord) && decide (rank a.pos < rank b.pos))

/-- The failing check that is reported. -/
def firstBad : List Chk → Option Chk
  | [] => none
  | c :: r =>
    match firstBad r with
    | none => if c.bad then some c else none
    | some d => if c.bad && !d.before c then some c else some d

/-- Check 5: the field of w bits at pos is all ones (R113). -/
def cOnes (pos w v : Nat) : Chk := ⟨5, pos, decide (v = 2 ^ w - 1), rAllOnes, pos⟩
/-- Check 6: the field at pos is zero where zero is not defined (R114). -/
def cZero (pos v : Nat) : Chk := ⟨6, pos, decide (v = 0), rZero, pos⟩
/-- Check 7: alignment, granule or power of two. -/
def cAlign (pos : Nat) (bad : Bool) : Chk := ⟨7, pos, bad, rMisaligned, pos⟩
/-- Check 8: range or extent. -/
def cRange (pos : Nat) (bad : Bool) : Chk := ⟨8, pos, bad, rOverrun, pos⟩
/-- Check 9: the feature was not enabled in CONFIG. -/
def cFeature (pos : Nat) (bad : Bool) (off : Nat) : Chk := ⟨9, pos, bad, rNotEnabled, off⟩
/-- Check 11: the target's state. -/
def cState (pos : Nat) (bad : Bool) (code : Nat) : Chk := ⟨11, pos, bad, rWrongState, code⟩
/-- Check 12. -/
def cRes (pos : Nat) (bad : Bool) (reason arg : Nat) : Chk := ⟨12, pos, bad, reason, arg⟩
/-- A size field that may be neither zero nor all ones. -/
def cSize (pos w v : Nat) : List Chk := [cOnes pos w v, cZero pos v]

/-- The partition a port serves, when PVALID is 1 (R118). -/
def srcPart (k : Core) : Src → Option Nat
  | .conductor => none
  | .port n => if rfld k (oPortCtl n.toNat) 3 3 = 1 then some (rfld k (oPortCtl n.toNat) 2 1) else none

/-- Check 4 on a target's partition: a port names only its own partition's items or items of none (R118). -/
def cPart (i : Ctl) (k : Core) (pos : Nat) (target : Option Nat) : Chk :=
  match target with
  | none => ⟨4, pos, false, rDeniedPart, 4⟩
  | some q => ⟨4, pos, decide (i.src ≠ Src.conductor) && decide (srcPart k i.src ≠ some q), rDeniedPart, q⟩

/-- Check 11 on a target in a RESETTING partition (R69). -/
def cResetting (k : Core) (pos : Nat) (target : Option Nat) : Chk :=
  match target with
  | none => cState pos false 2
  | some q => cState pos (isResetting k q) 2

/-- Both partition checks of a target. -/
def cTarget (i : Ctl) (k : Core) (pos : Nat) (target : Option Nat) : List Chk := [cPart i k pos target, cResetting k pos target]

/-- Check 10: an instruction in flight is changing the target; ARG names its port, 255 for one of the Conductor (assumption 65), and the
low 24 bits of its ordinal. -/
def cBusy (pos : Nat) (f : Option Flt) : Chk :=
  match f with
  | none => ⟨10, pos, false, rBusy, 0⟩
  | some f =>
    ⟨10, pos, true, rBusy, (match f.ins.src with | .port n => n.toNat | .conductor => 255) + f.ins.ord.toNat % 2 ^ 24 * 256⟩

/-- How an instruction that passed its checks goes on: done with a payload, ended with a reason, or left in flight. -/
inductive Res where
  | refuse (reason arg : Nat)
  | done (k : Core) (payload : List Byte)
  | ends (k : Core) (reason arg : Nat)
  | later (k : Core)

/-- One control instruction: its class and opcode, its reserved operand bits, its checks 4 to 12 and its effect. -/
structure CtlSpec where
  cls : Nat
  op : Nat
  /-- reserved fields of A, B and C in bits [95:0] of the word, and of the extension word, as highest and lowest bit -/
  mainRes : List (Nat × Nat) := []
  extRes : List (Nat × Nat) := []
  checks : Ctl → Core → List Chk := fun _ _ => []
  run : Ctl → Core → Res

/-- The opcode carries an extension word (R108). -/
def CtlSpec.ext (s : CtlSpec) : Bool := decide (0x80 ≤ s.op)

/-- The operands as bits [95:0] of the word. -/
def Ctl.operands (i : Ctl) : Nat := i.c.toNat + i.b.toNat * 2 ^ 32 + i.a.toNat * 2 ^ 64

/-- Check 3 on the reserved fields of x, each given as its highest and lowest bit: a nonzero one is reported by its lowest bit
(R116, assumption 4). -/
def cReserved (base x : Nat) (fs : List (Nat × Nat)) : List Chk :=
  fs.map (fun f => ⟨3, base + f.2, decide (bits x f.1 f.2 ≠ 0), rReserved, base + f.2⟩)

/-- Check 3 (R107, R110): the header's reserved bits and hitch fields, and the reserved operand bits. inBundle tells that an
earlier instruction of the same bundle precedes this one (R124). -/
def checks3 (sp : CtlSpec) (i : Ctl) (inBundle : Bool) : List Chk :=
  let h := i.hdr.toNat
  [⟨3, 114, inBundle && i.fence, rReserved, 114⟩,
   ⟨3, 112, i.flags.getLsbD 0, rReserved, 112⟩,
   ⟨3, 111, bit h 15, rReserved, 111⟩,
   ⟨3, 110, bit h 14, rReserved, 110⟩,
   ⟨3, 104, decide (bits h 13 8 ≠ 0), rReserved, 104⟩,
   ⟨3, 103, bit h 7, rReserved, 103⟩,
   ⟨3, 102, bit h 6, rReserved, 102⟩,
   ⟨3, 96, decide (bits h 5 0 ≠ 0), rReserved, 96⟩] ++
  cReserved 0 i.operands sp.mainRes ++ cReserved 128 i.x.toNat sp.extRes

/-- Check an instruction against its specification and run it (R111, R112). -/
def ctlRun (sp : CtlSpec) (inBundle : Bool) (i : Ctl) (k : Core) : Res :=
  match firstBad (checks3 sp i inBundle ++ sp.checks i k) with
  | some c => .refuse c.reason c.arg
  | none => sp.run i k

/-- A SEC.QUOTE refused by R486 or R487 is counted. -/
def noteRefusal (k : Core) (i : Ctl) (r : Nat) : Core :=
  if i.cls = 0xC ∧ i.op = 0x81 ∧ (r = rUnsettled ∨ r = rOverrun ∨ r = rNoResource) then bump k oQuoteRefused 1 else k

/-- What remains of an instruction that stands alone once its outcome is known (R112, R119, R120). -/
def ctlEnd (k : Core) (i : Ctl) : Res → Core
  | .refuse r a => retire (noteRefusal k i r) i r a []
  | .done k' p => retire k' i 0 0 p
  | .ends k' r a => retire k' i r a []
  | .later k' => k'

/-- Control instructions run in ENABLED and in HOLD; in GRAZE their words wait in their slots (R85, R86, R459). -/
def ctlServed (k : Core) : Bool := k.glb.st == .enabled || k.glb.st == .hold

/-- The instruction's source can have taken it: the Conductor, or a port that is not closed (R97). -/
def srcLive (k : Core) : Src → Bool
  | .conductor => true
  | .port n => !((port k n.toNat).st == .closed)

/-- The instruction a control row's operands name. -/
def mkCtl (h : CtlHdr) (cls op : Nat) (a b c : W32) (x : W128) : Ctl :=
  { src := h.src, ord := h.ord, cls := cls, op := op, a := a, b := b, c := c, x := x,
    flags := (BitVec.ofBool h.creq ++ BitVec.ofBool h.fence ++ BitVec.ofBool h.last ++ BitVec.ofBool false : BitVec 4) }

/-- A control row: the instruction as its source handed it to the Conductor is checked and takes effect (assumption 5). -/
def ctlExec (sp : CtlSpec) (h : CtlHdr) (a b c : W32) (x : W128) (k : Core) : Core :=
  let i := mkCtl h sp.cls sp.op a b c x
  if ctlServed k && srcLive k h.src then ctlEnd k i (ctlRun sp false i k) else k

/-- Leave an instruction in flight. -/
def inFlight (k : Core) (f : Flt) : Res := .later { k with flts := k.flts ++ [f] }

/-- The first instruction in flight of a class and opcode that satisfies p. -/
def findFlt (k : Core) (cls op : Nat) (p : Flt → Bool) : Option Flt :=
  k.flts.find? (fun f => decide (f.ins.cls = cls) && decide (f.ins.op = op) && p f)

end Sys2Proof.Machine
end

