-- ==== Sys2Proof/Machine/Link.lean ====
section
/-! DEFINITION. What every sender of fabric frames shares: ports, nodes, routes, frames, and the MIRROR frames of paired mode (R406 to R413,
R424, R425). -/

namespace Sys2Proof.Machine


def fport (k : Core) (p : Nat) : FPort := mget {} k.fab.ports p
def modFport (k : Core) (p : Nat) (f : FPort → FPort) : Core := { k with fab := { k.fab with ports := mmod {} k.fab.ports p f } }
def chan (k : Core) (c : Nat) : Chan := mget {} k.fab.chans c
def modChan (k : Core) (c : Nat) (f : Chan → Chan) : Core := { k with fab := { k.fab with chans := mmod {} k.fab.chans c f } }
def node (k : Core) (n : Nat) : Node := mget {} k.fab.nodes n
def modNode (k : Core) (n : Nat) (f : Node → Node) : Core := { k with fab := { k.fab with nodes := mmod {} k.fab.nodes n f } }
def session (k : Core) (s : Nat) : Option Session := mget? k.fab.sessions s
def putSession (k : Core) (s : Nat) (v : Session) : Core := { k with fab := { k.fab with sessions := mput k.fab.sessions s v } }

/-- This device's node (R412). -/
def ownNode (k : Core) : Nat := rfld k oNodeId 11 0
/-- FAB_TWIN_CTL fields (R424). -/
def twinEn (k : Core) : Bool := rfld k oTwinCtl 0 0 == 1
def twinHalf (k : Core) : Nat := rfld k oTwinCtl 1 1
def twinPortA (k : Core) : Nat := rfld k oTwinCtl 7 4
def twinPortB (k : Core) : Nat := rfld k oTwinCtl 11 8
def twinNode (k : Core) : Nat := rfld k oTwinCtl 27 16

/-- Partition of a port, and of a channel (R413). -/
def fportPart (k : Core) (p : Nat) : Option Nat := if isPart k (p / 4) then some (p / 4) else none
def chanPart (k : Core) (c : Nat) : Option Nat := if isPart k (c / 1024) then some (c / 1024) else none
/-- The port is up. -/
def portLive (k : Core) (p : Nat) : Bool := (fport k p).link == 2
/-- Live ports of a mask in ascending order. -/
def livePorts (k : Core) (mask : Nat) : List Nat := (upFrom 0 16).filter (fun p => bit mask p && portLive k p)
/-- A node with a route but no live port on it is unreachable (R412). -/
def reachable (k : Core) (n : Nat) : Bool := !(livePorts k (node k n).mask).isEmpty

/-- Send a frame out through a port; the link keeps it until the far end has it (R408). -/
def sendOn (k : Core) (p : Nat) (f : Frame) : Core :=
  emit (modFport k p (fun q => { q with sent := q.sent ++ [f] })) (.frame p f)
/-- The port a frame to its destination takes, of those it may use (R412, R413). -/
def routeOf (ok : Nat → Bool) (k : Core) (src dest ch : Nat) : Option Nat :=
  let ps := (livePorts k (node k dest).mask).filter ok
  ps[Config.fabHash src dest ch % ps.length]?
/-- Route a frame by the ports it may use, or drop and count it (R412). -/
def routeVia (ok : Nat → Bool) (k : Core) (f : Frame) : Core :=
  match routeOf ok k f.src.toNat f.dest.toNat f.chan.toNat with
  | some p => sendOn k p f
  | none => bump k oFabDrop 1
/-- Route a frame of no channel. -/
def routeFrame : Core → Frame → Core := routeVia (fun _ => true)
/-- A channel's frames use the ports of its own partition, or of none (R413). -/
def chanPort (k : Core) (c p : Nat) : Bool := fportPart k p == chanPart k c
/-- Route a frame of this device's channel c. -/
def routeChan (k : Core) (c : Nat) : Frame → Core := routeVia (chanPort k c) k

/-- Virtual channels are those of R410; a frame of a type with its fields, sent by this device with HOPS 15. -/
def mkFrame (k : Core) (dest typ ch : Nat) (tag off : W64) (flags : W32) (body : List Byte) (lines : List Line) : Frame :=
  { dest := BitVec.ofNat 12 dest, src := BitVec.ofNat 12 (ownNode k), type := BitVec.ofNat 8 typ, hops := 15,
    chan := BitVec.ofNat 16 ch, tag := tag, offset := off, flags := flags, body := body, lines := lines }

/-- Virtual channel of a frame type (R410). -/
def frameVc (t : Nat) : Nat :=
  if [0x01, 0x10].contains t then 0 else if [0x02, 0x03, 0x04, 0x21].contains t then 1 else if t = 0x20 then 3 else 2
/-- Types of R410. -/
def tData : Nat := 0x01
def tAck : Nat := 0x02
def tNack : Nat := 0x03
def tCredit : Nat := 0x04
def tBcast : Nat := 0x10
def tCtl : Nat := 0x11
def tMirror : Nat := 0x20
def tMirrorAck : Nat := 0x21
def tGrant : Nat := 0x30
def tReport : Nat := 0x31
def tPing : Nat := 0x40
def tPong : Nat := 0x41
def tDown : Nat := 0x50
/-- The type is defined (R410). -/
def knownType (t : Nat) : Bool := [0x01, 0x02, 0x03, 0x04, 0x10, 0x11, 0x20, 0x21, 0x30, 0x31, 0x40, 0x41, 0x50].contains t

/-! ## Paired mode (R424, R425) -/

def modTwin (k : Core) (f : Twin → Twin) : Core := { k with fab := { k.fab with twin := f k.fab.twin } }
/-- Pairing sends mirror frames: ACTIVE, or SYNCING once the copy has begun (R429). -/
def mirroring (k : Core) : Bool := k.fab.twin.st == 2 || (k.fab.twin.st == 1 && !k.fab.twin.syncDue)
/-- Paired mode holds in full. -/
def twinActive (k : Core) : Bool := k.fab.twin.st == 2
/-- An item whose ID's top bit is that of this device's half, or any item where the device is not paired or has taken over. -/
def owned (k : Core) (n top : Nat) : Bool := !twinEn k || k.fab.twin.st == 4 || n / 2 ^ top % 2 == twinHalf k
def ownedSeq (k : Core) (n : Nat) : Bool := owned k n 21
def ownedPool (k : Core) (n : Nat) : Bool := owned k n 11
def ownedAcct (k : Core) (n : Nat) : Bool := owned k n 15
/-- Check 8 on an item of the twin's half (R424). -/
def cStandby (k : Core) (pos n top : Nat) : Chk := cRange pos (!owned k n top)

/-- Kinds of MIRROR frame, in FLAGS [15:8], in the order of R425 (assumption 14). -/
def mSeq : Nat := 0
def mAcct : Nat := 1
def mMap : Nat := 2
def mPage : Nat := 3
def mRecord : Nat := 4
def mCommit : Nat := 5
def mStepEnd : Nat := 6
/-- The twin port the next mirror frame takes: they alternate, and one that is down is passed over (R425). -/
def twinPort (k : Core) : Option Nat :=
  let a := if k.fab.twin.portB then twinPortB k else twinPortA k
  let b := if k.fab.twin.portB then twinPortA k else twinPortB k
  if portLive k a then some a else if portLive k b then some b else none
/-- FLAGS bits [31:16] of a frame with data: the poison of its lines, line 0 lowest (R156, R504, assumption 63). -/
def poisonFlags : List (Line × Bool) → Nat
  | [] => 0
  | v :: r => 2 ^ 16 * b2n v.2 + 2 * poisonFlags r
/-- Send a mirror frame with the next MSN; it is kept until it is acknowledged (R425). -/
def mirrorLines (k : Core) (kind : Nat) (tag : W64) (body : List Byte) (ls : List (Line × Bool)) : Core :=
  if mirroring k then
    let f := mkFrame k (twinNode k) tMirror 0 (BitVec.ofNat 64 k.fab.twin.msn) tag (BitVec.ofNat 32 (kind * 256 + poisonFlags ls)) body
      (ls.map Prod.fst)
    let k1 := match twinPort k with | some p => sendOn k p f | none => k
    modTwin k1 (fun w => { w with msn := w.msn + 1, unacked := w.unacked ++ [f], portB := !w.portB })
  else k
/-- The same with lines none of which is poisoned. -/
def mirrorSend (k : Core) (kind : Nat) (tag : W64) (body : List Byte) (lines : List Line) : Core :=
  mirrorLines k kind tag body (lines.map (fun v => (v, false)))
/-- Line n of a frame with data is poisoned (assumption 63). -/
def frameBad (f : Frame) (n : Nat) : Bool := f.flags.getLsbD (16 + n)
/-- Cut bytes into lines, the last one filled with zeros. -/
def linesOf (b : List Byte) : Nat → List Line
  | 0 => []
  | n + 1 => BitVec.ofNat 512 (ofLE (b.take 64)) :: linesOf (b.drop 64) n
/-- The bytes of lines. -/
def bytesOfLines (l : List Line) : List Byte := l.flatMap (fun x => leBytes 64 x.toNat)
/-- Send bytes after a 64-byte header line as mirror frames of at most 16 lines, the offset counting lines. -/
def mirrorBytes (k : Core) (kind : Nat) (body b : List Byte) : Nat → Nat → Core
  | _, 0 => k
  | off, fuel + 1 =>
    if b.isEmpty then k
    else mirrorBytes (mirrorSend k kind (BitVec.ofNat 64 off) body (linesOf (b.take 1024) (cdiv (min 1024 b.length) 64))) kind body
      (b.drop 1024) (off + 16) fuel

end Sys2Proof.Machine
end

