-- ==== Sys2Proof/Machine/Tables.lean ====
section
/-! DEFINITION. The tables serving rests on: contexts, accounts, sequences, pools, model sets, objects and step domains; their
state codes, their domains, and the checks that several instruction families share. -/

namespace Sys2Proof.Machine

def ctx (k : Core) (n : Nat) : Ctx := mget {} k.ctxs n
def modCtx (k : Core) (n : Nat) (f : Ctx → Ctx) : Core := { k with ctxs := mmod {} k.ctxs n f }
def acct (k : Core) (n : Nat) : Acct := mget {} k.accts n
def modAcct (k : Core) (n : Nat) (f : Acct → Acct) : Core := { k with accts := mmod {} k.accts n f }
def seq (k : Core) (n : Nat) : Seq := mget {} k.seqs n
def modSeq (k : Core) (n : Nat) (f : Seq → Seq) : Core := { k with seqs := mmod {} k.seqs n f }
def pool (k : Core) (n : Nat) : Pool := mget {} k.pools n
def modPool (k : Core) (n : Nat) (f : Pool → Pool) : Core := { k with pools := mmod {} k.pools n f }
def mset' (k : Core) (n : Nat) : MSet := mget {} k.msets n
def modMset (k : Core) (n : Nat) (f : MSet → MSet) : Core := { k with msets := mmod {} k.msets n f }
def obj (k : Core) (n : Nat) : Obj := mget {} k.objs n
def modObj (k : Core) (n : Nat) (f : Obj → Obj) : Core := { k with objs := mmod {} k.objs n f }
def dom (k : Core) (n : Nat) : Dom := mget {} k.doms n
def modDom (k : Core) (n : Nat) (f : Dom → Dom) : Core := { k with doms := mmod {} k.doms n f }

/-! ## Domains (R283) -/

/-- Domain of a partition, or the shared domain 4. -/
def domOfPart (p : Option Nat) : Nat := match p with | some q => q | none => 4
/-- Partition of a domain. -/
def partOfDom (d : Nat) : Option Nat := if d < 4 then some d else none
/-- Domain of a context. -/
def domOfCtx (k : Core) (c : Nat) : Nat := domOfPart (ctx k c).part
/-- Domain of the port that sends an instruction. -/
def domOfSrc (k : Core) (s : Src) : Nat := domOfPart (srcPart k s)
/-- Context of a sequence: its account's. -/
def seqCtx (k : Core) (s : Nat) : Nat := (acct k (seq k s).acct).ctx
/-- Domain of a sequence. -/
def seqDom (k : Core) (s : Nat) : Nat := domOfCtx k (seqCtx k s)
/-- Partition of a sequence, none for one that is free. -/
def seqPart (k : Core) (s : Nat) : Option Nat := if (seq k s).st = .free then none else partOfDom (seqDom k s)
/-- Partition of an account. -/
def acctPart (k : Core) (a : Nat) : Option Nat := if (acct k a).isOpen then partOfDom (domOfCtx k (acct k a).ctx) else none
/-- Partition of a context. -/
def ctxPart (k : Core) (c : Nat) : Option Nat := if (ctx k c).isOpen then (ctx k c).part else none
/-- Partition of an object. -/
def objPart (k : Core) (h : Nat) : Option Nat := if (obj k h).alloc then partOfDom (obj k h).dom else none
/-- Partition of a model set. -/
def msetPart (k : Core) (m : Nat) : Option Nat := if (mset' k m).st = .none then none else partOfDom (mset' k m).dom
/-- Partition of a pool. -/
def poolPart (k : Core) (p : Nat) : Option Nat := if (pool k p).isOpen then ctxPart k (pool k p).ctx else none
/-- The quarters a domain is made of (R283). -/
def quartersOf (k : Core) (d : Nat) : List Nat :=
  if d < 4 then (if isPart k d then [d] else []) else [0, 1, 2, 3].filter (fun q => !isPart k q)
/-- Quarter of a tile (R12, R13). -/
def quarterOfTile (t : Nat) : Nat := t / 128 * 2 + t / 8 % 2
/-- Domain of a tile. -/
def domOfTile (k : Core) (t : Nat) : Nat := if isPart k (quarterOfTile t) then quarterOfTile t else 4

/-! ## Objects (R317) -/

/-- Pin count. -/
def Obj.pins (o : Obj) : Nat := o.hostPins + o.otherPins
/-- State code of R317. -/
def Obj.code (o : Obj) : Nat :=
  if !o.alloc then 0
  else match o.st with
    | .absent => 1
    | .fetching => 2
    | .evicting => 5
    | .complete => if o.pins ≠ 0 then 4 else if o.dirty ≠ [] then 6 else 3
/-- ARG of a refusal that names an object (R317). -/
def Obj.arg (o : Obj) : Nat :=
  if !o.alloc then 0
  else o.code + 16 * b2n (decide (o.refs ≠ 0)) + 32 * b2n o.lost + 64 * b2n (decide (o.dirty ≠ [])) +
    128 * b2n (decide (o.recov ≠ [])) + 65536 * min o.pins 0xFFFF
/-- The object's copy is complete. -/
def Obj.complete (o : Obj) : Bool := o.alloc && o.st == .complete
/-- Resident for an instruction's source (R319): a complete copy, or ABSENT with DIRECT and not LOST. -/
def Obj.resident (o : Obj) : Bool := o.alloc && (o.st == .complete || (o.st == .absent && o.direct && !o.lost))
/-- Stored size in bytes (R315). -/
def Obj.stored (o : Obj) : Nat := if o.pack = 1 then o.len / 16 * 720 else if o.pack = 2 then o.len / 16 * 528 else o.len * 64
/-- Stored size in 64 KiB units. -/
def Obj.units (o : Obj) : Nat := cdiv o.stored 65536
/-- Handles in use. -/
def handles (k : Core) : List Nat := (k.objs.filter (fun p => p.2.alloc)).map Prod.fst

/-- Check 8 on an object: it is allocated, belongs to context c or is shared (R334). -/
def objForeign (o : Obj) (c : Option Nat) : Bool := o.alloc && decide (o.ctx ≠ none) && decide (o.ctx ≠ c)

/-- A confidential context. -/
def ctxConf (k : Core) (c : Nat) : Bool := (ctx k c).isOpen && (ctx k c).conf
/-- The object belongs to a confidential context. -/
def objConf (k : Core) (h : Nat) : Bool := match (obj k h).ctx with | some c => ctxConf k c | none => false

/-! ## Sequences (R285) -/

/-- ARG of a refusal that names a sequence (R285). -/
def Seq.arg (s : Seq) : Nat :=
  s.st.code + 16 * b2n (s.pool.isNone) + 32 * b2n (s.pLeft == 0 && s.input.isNone) + 64 * b2n (!s.waiting.isEmpty)
/-- ARG of a free sequence is code 0x0 alone. -/
def seqArg (s : Seq) : Nat := if s.st = .free then 0 else s.arg
/-- OPEN, QUEUED, RUNNING or PAUSED. -/
def Seq.live (s : Seq) : Bool := s.st == .opened || s.st == .queued || s.st == .running || s.st == .paused
/-- Sequences not in FREE, in ascending ID. -/
def liveSeqs (k : Core) : List Nat := (k.seqs.filter (fun p => decide (p.2.st ≠ .free))).map Prod.fst
/-- Sequences not in FREE of a domain. -/
def domSeqs (k : Core) (d : Nat) : List Nat := (liveSeqs k).filter (fun s => seqDom k s == d)
/-- Binding count of a model set (R295). -/
def bindings (k : Core) (m : Nat) : Nat := ((liveSeqs k).filter (fun s => (seq k s).mset == m)).length
/-- Sequences bound to a pool. -/
def poolBound (k : Core) (p : Nat) : List Nat := (liveSeqs k).filter (fun s => (seq k s).pool == some p)

/-! ## Accounts and pools -/

/-- Account state code (R311). -/
def acctCode (k : Core) (a : Nat) : Nat :=
  if !(acct k a).isOpen then 0 else if (liveSeqs k).any (fun s => (seq k s).acct == a) then 2 else 1
/-- A page is mapped or deferred. -/
def PageHdr.busy (h : PageHdr) : Bool := decide (h.refs ≠ 0) || h.deferred.isSome
/-- Pool state code (R246). -/
def poolCode (k : Core) (p : Nat) : Nat :=
  if !(pool k p).isOpen then 0
  else if (pool k p).hdrs.any (fun e => e.2.busy) || !(poolBound k p).isEmpty then 2 else 1

/-! ## Page-list entries (R248, R249) -/

/-- The entry word of a mapped page. -/
def entryWord (page gen : Nat) : W64 := BitVec.ofNat 64 (page + gen % 256 * 2 ^ 28 + 2 ^ 36)
/-- PAGE of an entry. -/
def entryPage (e : W64) : Nat := bits e.toNat 27 0
/-- GEN of an entry. -/
def entryGen (e : W64) : Nat := bits e.toNat 35 28
/-- MAPPED of an entry. -/
def entryMapped (e : W64) : Bool := bit e.toNat 36
/-- Header of a pool's page. -/
def pageHdr (k : Core) (p page : Nat) : PageHdr := mget {} (pool k p).hdrs page
/-- State code of an entry of a pool (R249). -/
def entryCode (k : Core) (p : Option Nat) (e : W64) : Nat :=
  if !entryMapped e then 0
  else match p with
    | none => 1
    | some q => if 1 < (pageHdr k q (entryPage e)).refs then 2 else 1
/-- ARG of a refusal that names an entry (R249). -/
def entryArg (code layer block : Nat) : Nat := code + layer * 16 + block * 4096
/-- Published entry e of a sequence, found in three steps: its index page, its segment, the entry (R248). -/
def pubEntry (s : Seq) (e : Nat) : W64 :=
  if (mget? s.idx (e / 2 ^ 19)).isSome && (mget? s.segs (e / 512)).isSome then mget 0 s.pages e else 0
/-- Layers of a sequence's layout: its pool's, or its model set's while unbound. -/
def seqNl (k : Core) (s : Nat) : Nat :=
  match (seq k s).pool with | some p => (pool k p).nl | none => (mset' k (seq k s).mset).nl
/-- What one staged edit makes of an entry. -/
def editEntry (nl : Nat) (d : Edit) (e : Nat) (v : W64) : W64 :=
  if d.share then (match mget? d.set e with | some w => w | none => v)
  else if d.b0 * nl ≤ e ∧ e < (d.b0 + d.nblk) * nl then 0 else v
/-- Entry e of the shadow view: the published entry with every staged edit applied in order (R264). -/
def shadowEntry (k : Core) (s e : Nat) : W64 :=
  (k.sched.edits.filter (fun d => d.seq == s)).foldl (fun v d => editEntry (seqNl k s) d e v) (pubEntry (seq k s) e)

/-- The number of no model set: the successor of a set whose successor is no longer allocated (R295). -/
def noSet : Nat := 64

/-! ## System region (R79, R80) -/

/-- Bytes of the system region. -/
def sysBytes (k : Core) : Nat := rfld k oSysRegion 8 0 * 64 * 2 ^ 20 * 8
/-- Bytes of its fixed tables. -/
def sysFixed (k : Core) : Nat :=
  128 * rfld k oSeqLimit 24 0 + 64 * rfld k oAcctLimit 24 0 + 256 * 4096 + 64 * rfld k oObjLimit 24 0
/-- Bytes left for programs and page directories. -/
def sysFree (k : Core) : Nat := sysBytes k - sysFixed k - k.sched.sysUsed
/-- Take or give back bytes of the system region. -/
def sysTake (k : Core) (n : Nat) : Core := { k with sched := { k.sched with sysUsed := k.sched.sysUsed + n } }
def sysGive (k : Core) (n : Nat) : Core := { k with sched := { k.sched with sysUsed := k.sched.sysUsed - n } }

/-- Frames of 4 KiB the page lists of entries es need beyond the segments already allocated: new segments and new index pages
(R248). -/
def newFrames (s : Seq) (es : List Nat) : Nat :=
  let ns := (es.map (· / 512)).dedup.filter (fun g => (mget? s.segs g).isNone)
  let idx := (ns.map (· / 1024)).dedup.filter (fun x => (mget? s.idx x).isNone)
  ns.length + idx.length
/-- Frames a sequence holds. -/
def heldFrames (s : Seq) : Nat := s.segs.length + s.idx.length
/-- Frames of all index pages and segments. -/
def usedFrames (k : Core) : List Nat := k.seqs.flatMap (fun e => e.2.idx.map Prod.snd ++ e.2.segs.map Prod.snd)
/-- A frame above the fixed tables that no page list uses; which one is Chomor's choice (R80, R248, R378, assumption 1). -/
def takeFrame (k : Core) : Nat × Core :=
  let (c, k1) := drawNat k
  let lo := cdiv (sysFixed k) 4096
  let at' := fun j => lo + (c + j) % max 1 (sysBytes k / 4096 - lo)
  (at' (((upFrom 0 ((usedFrames k).length + 1)).find? (fun j => !(usedFrames k).contains (at' j))).getD 0), k1)
/-- Index page x of a sequence has a frame. -/
def openIndex (k : Core) (s x : Nat) : Core :=
  if (mget? (seq k s).idx x).isSome then k
  else let (f, k1) := takeFrame k; modSeq k1 s (fun q => { q with idx := mput q.idx x f })
/-- Segment g of a sequence has a frame, and so has its index page. -/
def openSegment (k : Core) (s g : Nat) : Core :=
  let k1 := openIndex k s (g / 1024)
  if (mget? (seq k1 s).segs g).isSome then k1
  else let (f, k2) := takeFrame k1; modSeq k2 s (fun q => { q with segs := mput q.segs g f })

/-! ## Object space -/

/-- Object space of one stack in 64 KiB units (R79, R362). -/
def stackUnits (k : Core) : Nat := (14436 - 32 * rfld k oSysRegion 8 0) * 32
/-- Object space of the device in bytes. -/
def objSpaceBytes (k : Core) : Nat := 8 * stackUnits k * 65536
/-- Stack and stack-local address of an object-space byte address (R362). -/
def stackAddr (k : Core) (o : Nat) : Nat × Nat :=
  let order := rfld k (oMapOrder 0) 1 0
  if order = 0 then (bits o 10 8, o % 256 + o / 2048 * 256)
  else if order = 1 then (bits o 14 12, o % 4096 + o / 32768 * 4096)
  else
    let s := (14436 - 32 * rfld k oSysRegion 8 0) * 2 ^ 21
    (o / s, o % s)
/-- The ranges of 64 KiB units a domain's copies may take (R314): each quarter's two stacks, neighbours joined. -/
def domRanges (k : Core) (d : Nat) : List (Nat × Nat) :=
  if quarters k = 0 then (if d = 4 then [(0, 8 * stackUnits k)] else [])
  else (quartersOf k d).foldr (fun q r =>
    let lo := 2 * q * stackUnits k
    let hi := (2 * q + 2) * stackUnits k
    match r with
    | (a, b) :: r' => if a = hi then (lo, b) :: r' else (lo, hi) :: (a, b) :: r'
    | [] => [(lo, hi)]) []
/-- Ranges taken by copies, in 64 KiB units. -/
def takenRanges (k : Core) : List (Nat × Nat) :=
  (k.objs.filter (fun p => p.2.alloc && !(p.2.st == .absent))).map (fun p => (p.2.copy, p.2.copy + p.2.units))
/-- First fit in ascending address (R315). -/
def firstFit (k : Core) (d n : Nat) : Option Nat :=
  let taken := takenRanges k
  let cand := (domRanges k d).map Prod.fst ++ taken.map Prod.snd
  let ok := cand.filter (fun a => (domRanges k d).any (fun r => decide (r.1 ≤ a ∧ a + n ≤ r.2)) &&
    taken.all (fun r => decide (r.2 ≤ a ∨ a + n ≤ r.1)))
  ok.foldl (fun m a => match m with | none => some a | some b => some (min a b)) none
/-- The object whose copy holds an object-space byte address. -/
def objAt (k : Core) (addr : Nat) : Option Nat :=
  (k.objs.find? (fun p => p.2.alloc && !(p.2.st == .absent) &&
    decide (p.2.copy * 65536 ≤ addr ∧ addr < (p.2.copy + p.2.units) * 65536))).map Prod.fst

/-! ## Pins, references -/

/-- Take a pin of a pool, a prompt or a step; one on a FETCHING object is taken when the copy completes (R318, R326). -/
def takePin (k : Core) (h : Nat) : Core :=
  modObj k h (fun o =>
    if o.st = .fetching then { o with laterPins := o.laterPins + 1 } else { o with otherPins := o.otherPins + 1 })
/-- Release such a pin, one still to be taken first. -/
def dropPin (k : Core) (h : Nat) : Core :=
  modObj k h (fun o => if o.laterPins ≠ 0 then { o with laterPins := o.laterPins - 1 } else { o with otherPins := o.otherPins - 1 })
/-- The pins that waited for a fetch are taken (R318). -/
def Obj.settled (o : Obj) : Obj := { o with otherPins := o.otherPins + o.laterPins, laterPins := 0 }
def addRef (k : Core) (h : Nat) : Core := modObj k h (fun o => { o with refs := o.refs + 1 })
def dropRef (k : Core) (h : Nat) : Core := modObj k h (fun o => { o with refs := o.refs - 1 })

/-- The objects a schedule names, each once: each gains one reference while it is attached (R334). -/
def schedRefs (l : List SchedEnt) : List Nat := (l.map (·.handle)).dedup

/-! ## Maintenance activities (R518) -/

/-- Kind and instance of an activity. -/
def Act.kind (a : Act) : Nat := a.id % 256
def Act.inst (a : Act) : Nat := a.id / 256 % 256
/-- The slot of an activity. -/
def slotOfAct (k : Core) (kind inst : Nat) : Option (Nat × Act) :=
  k.maint.slots.find? (fun e => e.2.kind == kind && e.2.inst == inst)
/-- A registered activity runs. -/
def actRuns (k : Core) (kind inst : Nat) : Bool := match slotOfAct k kind inst with | some e => e.2.st == 2 | none => false
/-- The field test of an HBM stack, or of a flash stack, has isolated it: its requests are held (R516). -/
def stackHeld (k : Core) (flash : Bool) (s : Nat) : Bool := actRuns k 1 ((if flash then 3 else 2) * 16 + s)
/-- A field test runs or verifies. -/
def fieldTests (k : Core) : Bool := k.maint.slots.any (fun e => e.2.kind == 1)

/-! ## Operands -/

/-- Bits hi..lo of operand A. -/
def Ctl.fa (i : Ctl) (hi lo : Nat) : Nat := bits i.a.toNat hi lo
/-- Bits hi..lo of operand B. -/
def Ctl.fb (i : Ctl) (hi lo : Nat) : Nat := bits i.b.toNat hi lo
/-- Bits hi..lo of operand C. -/
def Ctl.fc (i : Ctl) (hi lo : Nat) : Nat := bits i.c.toNat hi lo
/-- Bits hi..lo of the extension word. -/
def Ctl.fx (i : Ctl) (hi lo : Nat) : Nat := bits i.x.toNat hi lo

/-- The reserved field hi..lo of A, B or C in the operand bits [95:0], or of the extension word. -/
def resA (hi lo : Nat) : List (Nat × Nat) := [(64 + hi, 64 + lo)]
def resB (hi lo : Nat) : List (Nat × Nat) := [(32 + hi, 32 + lo)]
def resC (hi lo : Nat) : List (Nat × Nat) := [(hi, lo)]
def resX (hi lo : Nat) : List (Nat × Nat) := [(hi, lo)]
/-- The whole operand is reserved. -/
def noA : List (Nat × Nat) := resA 31 0
def noB : List (Nat × Nat) := resB 31 0
def noC : List (Nat × Nat) := resC 31 0

end Sys2Proof.Machine
end

