-- ==== Sys2Proof/Machine/Delivery.lean ====
section
/-! DEFINITION. The Delivery unit: how a record is committed or waits, and how a sequence ends (R101, R286, R287, R304 to R307). -/

namespace Sys2Proof.Machine

/-- Energy in mJ: the µJ rounded to nearest, ties away (R189, R304). -/
def milliJoule (uj : Nat) : Nat := (uj + 500) / 1000

/-- The 32 bytes of a delivery record; the flag bits and bytes R304 does not name are zero (assumption 6). -/
def delivBytes (flags pos token logp reason mj delivered : Nat) : List Byte :=
  leBytes 4 flags ++ leBytes 4 pos ++ leBytes 4 token ++ leBytes 2 logp ++ leBytes 2 reason ++ leBytes 4 mj ++
  leBytes 4 delivered ++ leBytes 8 0

/-- The SEQ.PAUSE of a sequence that waits for the step to retire (R310). -/
def pauseFlt (k : Core) (s : Nat) : Option Flt := findFlt k 1 0x02 (fun f => f.key == s)

/-- A pause pending ends: its SEQ.PAUSE completes with the reason (R310). -/
def endPause (k : Core) (s reason arg : Nat) : Core :=
  let k1 := modSeq k s (fun q => { q with pausePending := false })
  match pauseFlt k s with | some f => retireFlt k1 f reason arg [] | none => k1

/-- A token meets R287: it is final. Stop tokens set after its step was delivered do not judge it (R310). -/
def tokenFinal (s : Seq) (d : Deliv) : Bool :=
  !d.plain && (d.stop ||
    (decide (s.maxnew ≠ 0) && decide (s.maxnew ≤ s.generated + 1)) || decide (1048575 ≤ d.pos))

/-- The record's bytes as they would be written now (R304). -/
def recordOf (q : Seq) (d : Deliv) : List Byte :=
  match d.kind with
  | .token =>
    let fin := tokenFinal q d
    delivBytes (b2n fin * 2 ^ 31 + b2n d.urgent * 2 ^ 28) d.pos d.token.toNat d.logp 0 (if fin then milliJoule q.energy else 0)
      (q.delivered + 1)
  | .cancelled => delivBytes (2 ^ 31 + 2 ^ 30) q.next 0xFFFFFFFF 0 rCancelled (milliJoule q.energy) q.delivered
  | .failed => delivBytes (2 ^ 31 + 2 ^ 29) q.next 0xFFFFFFFF 0 d.reason (milliJoule q.energy) q.delivered

/-- The sequence is mirrored: it is this device's, it is of the shared domain, and its context is not confidential (R424). -/
def seqMirrored (k : Core) (s : Nat) : Bool := mirroring k && ownedSeq k s && seqDom k s == 4 && !ctxConf k (seqCtx k s)
/-- The twin has acknowledged a mirror number (R425). -/
def mirrorAcked (k : Core) (n : Nat) : Bool := k.fab.twin.unacked.all (fun f => decide (n < f.tag.toNat))
/-- Write one record into its ring, and tell the twin (R100, R425). -/
def ringCommit (k : Core) (s r : Nat) (rec : List Byte) : Core :=
  let k1 := ringWrite k r rec
  if seqMirrored k1 s then mirrorSend k1 mCommit 0 (leBytes 4 r ++ leBytes 4 1 ++ leBytes 4 s) [] else k1

/-- Commit one record: it is written into the ring and the sequence changes as R304 and R305 lay down. -/
def commit (k : Core) (s : Nat) (d : Deliv) : Core :=
  let q := seq k s
  let k1 := ringCommit k s q.ring (recordOf q d)
  match d.kind with
  | .token =>
    let k2 := modSeq k1 s (fun q => { q with delivered := q.delivered + 1, generated := q.generated + 1 })
    if tokenFinal q d then
      let k3 := modSeq k2 s (fun q => { q with next := d.pos, input := none, st := .finished })
      if q.pausePending then endPause k3 s rAlreadyComplete SeqSt.finished.code else k3
    else modSeq k2 s (fun q => { q with next := q.next + 1, input := some d.token })
  | .cancelled =>
    match d.cancel with
    | some i => retire k1 i 0 0 (leBytes 4 q.delivered)
    | none => k1
  | .failed => k1

/-- The record may be written: in paired mode only once the twin has acknowledged its RECORD frame (R425). -/
def recordReady (k : Core) (d : Deliv) : Bool :=
  match d.msn with
  | none => true
  | some n => !twinActive k || mirrorAcked k n

/-- Deliver a record: at once, or behind the sequence's waiting records, or waiting for ring space or for the twin (R101, R425). -/
def deliver (k : Core) (s : Nat) (d : Deliv) : Core :=
  let m := seqMirrored k s
  let e := if m then { d with msn := some k.fab.twin.msn } else d
  let k1 := if m then mirrorSend k mRecord 0 (leBytes 4 s ++ leBytes 4 (seq k s).ring) (linesOf (recordOf (seq k s) d) 1) else k
  let q := seq k1 s
  if q.waiting.isEmpty && !ringFull k1 q.ring && recordReady k1 e then commit k1 s e
  else modSeq k1 s (fun q => { q with waiting := q.waiting ++ [e] })

/-- The reads of a sequence's prompt have no reader any more. -/
def abandonPrompt (k : Core) (s : Nat) : Core :=
  let free := fun (r : HostRd) => if r.seq = some s then { r with seq := none } else r
  { k with pci := { k.pci with reads := mmap (fun _ r => free r) k.pci.reads, waiting := k.pci.waiting.filter (fun r => r.seq != some s),
                               got := k.pci.got.filter (fun g => g.rd.seq != some s) } }
/-- The prompt's pin is released once no token of it will be taken, and reads of it are given up (R318, assumption 7). -/
def releasePrompt (k : Core) (s : Nat) : Core :=
  let q := seq k s
  modSeq (abandonPrompt (if q.pPinned then dropPin k q.pHandle else k) s) s (fun q => { q with pPinned := false, pLeft := 0 })

/-- A live sequence ends CANCELLED: its uncommitted records are dropped and the CANCELLED record is queued (R307, R69). -/
def cancelSeq (k : Core) (s : Nat) (ins : Option Ctl) : Core :=
  let k1 := releasePrompt (modSeq k s (fun q => { q with st := .cancelled, waiting := [] })) s
  let k2 := if (seq k s).pausePending then endPause k1 s rCancelled 0 else k1
  deliver k2 s { kind := .cancelled, cancel := ins }

/-- A live sequence ends FAILED; records that wait are written before the final record, without FINAL (R296). -/
def failSeq (k : Core) (s reason : Nat) : Core :=
  if !(seq k s).live then k
  else
    let k1 := releasePrompt (modSeq k s (fun q => { q with st := .failed, waiting := q.waiting.map (fun d => { d with plain := true }) })) s
    let k2 := if (seq k s).pausePending then endPause k1 s rAlreadyComplete SeqSt.failed.code else k1
    deliver k2 s { kind := .failed, reason := reason }

/-- Write the first waiting record of a sequence, if its ring has space. -/
def writeWaiting (k : Core) (s : Nat) : Core :=
  match (seq k s).waiting with
  | [] => k
  | d :: r => if ringFull k (seq k s).ring || !recordReady k d then k else commit (modSeq k s (fun q => { q with waiting := r })) s d

/-- WAITING_RECORD_WRITE: the ring has space, so the records that wait for it are written, each sequence's in order (R101). -/
def waitingRecordWrite (k : Core) (r : Nat) : Core :=
  (liveSeqs k).foldl (fun k s =>
    if (seq k s).ring = r then (seq k s).waiting.foldl (fun k _ => writeWaiting k s) k else k) k

end Sys2Proof.Machine
end

