-- ==== Sys2Proof/Machine/Acct.lean ====
section
/-! DEFINITION. The ACCT instructions (R288, R311). -/

namespace Sys2Proof.Machine

/-- The account named in A[15:0]. -/
def Ctl.acct (i : Ctl) : Nat := i.fa 15 0

/-- Check 8 on an account number, and its partition checks. -/
def cAcct (i : Ctl) (k : Core) : List Chk :=
  [cRange 64 (decide (rfld k oAcctLimit 24 0 ≤ i.acct))] ++ cTarget i k 64 (acctPart k i.acct)

/-- Checks on RATE, BURST and PW (R311): with RATE 0, BURST is reserved. -/
def cRateBurst (i : Ctl) : List Chk :=
  let rate := i.fb 23 0
  let burst := i.fc 23 0
  [cOnes 32 24 rate, cRange 24 (decide (16 < i.fc 28 24))] ++
  (if rate = 0 then cReserved 0 i.operands (resC 23 0)
   else [cOnes 0 24 burst, cZero 0 burst])

def acctOpenSpec : CtlSpec where
  cls := 2
  op := 0x01
  mainRes := resA 31 28 ++ resB 31 24 ++ resC 31 31
  checks i k :=
    let c := i.fa 27 16
    cRateBurst i ++ cAcct i k ++ [cStandby k 64 i.acct 15] ++ cTarget i k 80 (ctxPart k c) ++
    [cState 80 (!(ctx k c).isOpen) 0, cState 64 (acct k i.acct).isOpen (acctCode k i.acct)]
  run i k := .done (modAcct k i.acct (fun _ =>
    { isOpen := true, ctx := i.fa 27 16, rate := i.fb 23 0, burst := i.fc 23 0, pw := i.fc 28 24,
      hard := decide (i.fc 29 29 = 1), unlim := decide (i.fc 30 30 = 1), bucket := i.fc 23 0 })) []

/-- ACCT.SET waits for event 3 of the next boundary (R300, R311). -/
def acctSetSpec : CtlSpec where
  cls := 2
  op := 0x02
  mainRes := resA 31 16 ++ resB 31 24 ++ resC 31 31
  checks i k := cRateBurst i ++ cAcct i k ++ [cStandby k 64 i.acct 15] ++ [cState 64 (!(acct k i.acct).isOpen) 0]
  run i k := inFlight k { ins := i, key := i.acct }

/-- Event 3 of a boundary for a waiting ACCT.SET: the bucket is clamped to the new BURST (R300, R311). -/
def acctApply (k : Core) (f : Flt) : Core :=
  let i := f.ins
  retireFlt (modAcct k f.key (fun a =>
    { a with rate := i.fb 23 0, burst := i.fc 23 0, pw := i.fc 28 24, hard := decide (i.fc 29 29 = 1),
             unlim := decide (i.fc 30 30 = 1), bucket := min a.bucket (i.fc 23 0) })) f 0 0 []

/-- Refill of an account's bucket (R288). -/
def refill (a : Acct) : Acct := if a.rate = 0 then a else { a with bucket := min (a.bucket + a.rate) a.burst }

/-- The largest BALANCE (R311). -/
def balanceMax : Nat := 2 ^ 48 - 2

def acctGrantSpec : CtlSpec where
  cls := 2
  op := 0x03
  mainRes := resA 31 17 ++ resC 31 16
  checks i k :=
    let n := i.b.toNat + i.fc 15 0 * 2 ^ 32
    [cOnes 32 48 n] ++ (if i.fa 16 16 = 1 then [] else [cZero 32 n]) ++ cAcct i k ++ [cStandby k 64 i.acct 15] ++
    [cState 64 (!(acct k i.acct).isOpen) 0]
  run i k :=
    let n := i.b.toNat + i.fc 15 0 * 2 ^ 32
    let bal := if i.fa 16 16 = 1 then n else min balanceMax ((acct k i.acct).balance + n)
    .done (modAcct k i.acct (fun a => { a with balance := bal })) (leBytes 6 bal)

/-- A waiting ACCT.SET of an account. -/
def acctFlt (k : Core) (a : Nat) : Option Flt := findFlt k 2 0x02 (fun f => f.key == a)

def acctCloseSpec : CtlSpec where
  cls := 2
  op := 0x04
  mainRes := resA 31 16 ++ noB ++ noC
  checks i k :=
    cAcct i k ++ [cStandby k 64 i.acct 15] ++ [cBusy 64 (acctFlt k i.acct),
      cState 64 (acctCode k i.acct != 1) (acctCode k i.acct)]
  run i k := .done (modAcct k i.acct (fun _ => {})) []

def acctStatSpec : CtlSpec where
  cls := 2
  op := 0x05
  mainRes := resA 31 16 ++ noB ++ noC
  checks i k := cAcct i k ++ [cState 64 (!(acct k i.acct).isOpen) 0]
  run i k :=
    let a := acct k i.acct
    .done k (leBytes 6 a.balance ++ leBytes 2 0 ++ leBytes 4 a.bucket ++ leBytes 4 a.leftLast)

end Sys2Proof.Machine
end

