-- ==== Sys2Proof/Machine/Crypt.lean ====
section
/-! DEFINITION. The algorithms the spec names by their standards: SHA-256 (FIPS 180-4), HMAC-SHA-256 (FIPS 198-1), CRC-32C (RFC 3720) and
AES-256-XTS (IEEE 1619), each on lists of bytes (R339, R474 to R483, R492). -/

namespace Sys2Proof.Machine

/-! ## SHA-256 -/

/-- Cut a number of 32 n bits into its n words, the topmost first. -/
def wordsDown : Nat → Nat → List W32
  | 0, _ => []
  | n + 1, x => BitVec.ofNat 32 (x / 2 ^ (32 * n)) :: wordsDown n x

/-- The round constants of FIPS 180-4, 4.2.2, eight to a number, the first topmost. -/
def shaK : List W32 :=
  [0x428a2f9871374491b5c0fbcfe9b5dba53956c25b59f111f1923f82a4ab1c5ed5,
   0xd807aa9812835b01243185be550c7dc372be5d7480deb1fe9bdc06a7c19bf174,
   0xe49b69c1efbe47860fc19dc6240ca1cc2de92c6f4a7484aa5cb0a9dc76f988da,
   0x983e5152a831c66db00327c8bf597fc7c6e00bf3d5a7914706ca635114292967,
   0x27b70a852e1b21384d2c6dfc53380d13650a7354766a0abb81c2c92e92722c85,
   0xa2bfe8a1a81a664bc24b8b70c76c51a3d192e819d6990624f40e3585106aa070,
   0x19a4c1161e376c082748774c34b0bcb5391c0cb34ed8aa4a5b9cca4f682e6ff3,
   0x748f82ee78a5636f84c878148cc7020890befffaa4506cebbef9a3f7c67178f2].flatMap (wordsDown 8)

/-- The eight working words H0 to H7 before the first block (FIPS 180-4, 5.3.3). -/
def shaInit : List W32 := wordsDown 8 0x6a09e667bb67ae853c6ef372a54ff53a510e527f9b05688c1f83d9ab5be0cd19

/-- A word rotated right by each of three counts, the results xored. -/
def rot3 (x : W32) (i j n : Nat) : W32 := x.rotateRight i ^^^ x.rotateRight j ^^^ x.rotateRight n
/-- A word rotated right by two counts and shifted by a third, the results xored. -/
def rot2 (x : W32) (i j n : Nat) : W32 := x.rotateRight i ^^^ x.rotateRight j ^^^ (x >>> n)

/-- The message schedule: n more words before those there are, newest first. -/
def shaExtend : Nat → List W32 → List W32
  | 0, l => l
  | n + 1, l =>
    let back := fun m => l.getD (m - 1) 0
    shaExtend n ((back 16 + rot2 (back 15) 7 18 3 + back 7 + rot2 (back 2) 17 19 10) :: l)

/-- One round on the working words a to h: they move down one place, d takes the first sum, and the new a both sums. -/
def shaRound (s : List W32) (kw : W32 × W32) : List W32 :=
  match s with
  | [a, b, c, d, e, f, g, h] =>
    let first := kw.1 + kw.2 + h + rot3 e 6 11 25 + (g ^^^ (e &&& (f ^^^ g)))
    let second := rot3 a 2 13 22 + ((a &&& (b ||| c)) ||| (b &&& c))
    [first + second, a, b, c, d + first, e, f, g]
  | _ => s

/-- n big-endian bytes of x. -/
def beBytes (n x : Nat) : List Byte := (leBytes n x).reverse
/-- The number whose big-endian bytes are given. -/
def ofBE (l : List Byte) : Nat := ofLE l.reverse
/-- Cut a list into n pieces of w. -/
def pieces {α : Type} (w : Nat) : Nat → List α → List (List α)
  | 0, _ => []
  | n + 1, l => l.take w :: pieces w n (l.drop w)

/-- One 64-byte block. -/
def shaBlock (s : List W32) (blk : List Byte) : List W32 :=
  let w := (shaExtend 48 (wordsDown 16 (ofBE blk)).reverse).reverse
  s.zipWith (· + ·) ((shaK.zip w).foldl shaRound s)

/-- Padding of FIPS 180-4, 5.1.1. -/
def shaPad (l : List Byte) : List Byte :=
  l ++ [0x80] ++ List.replicate ((119 - l.length % 64) % 64) 0 ++ beBytes 8 (8 * l.length)

/-- SHA-256 as its 32 bytes. -/
def sha256 (l : List Byte) : List Byte :=
  let p := shaPad l
  ((pieces 64 (p.length / 64) p).foldl shaBlock shaInit).flatMap (fun x => beBytes 4 x.toNat)

/-- Bytes xored with one byte. -/
def xorAll (b : Byte) (l : List Byte) : List Byte := l.map (fun x => x ^^^ b)
/-- HMAC-SHA-256 with a key of at most 64 bytes. -/
def hmac (key msg : List Byte) : List Byte :=
  let k := key ++ List.replicate (64 - key.length) 0
  sha256 (xorAll 0x5c k ++ sha256 (xorAll 0x36 k ++ msg))

/-! ## CRC-32C -/

/-- One bit of the reflected CRC. -/
def crcBit (x : Nat) : Nat := if x % 2 = 1 then Nat.xor (x / 2) 0x82F63B78 else x / 2
/-- CRC-32C (R339): reflected, initial and final value all ones. -/
def crc32c (l : List Byte) : Nat :=
  Nat.xor 0xFFFFFFFF (l.foldl (fun c b => loop (fun x _ => crcBit x) (Nat.xor c b.toNat) 8) 0xFFFFFFFF)

/-! ## AES-256 -/

/-- Multiply by x in GF(2^8). -/
def gfDouble (a : Byte) : Byte := (a <<< 1) ^^^ (if a.getLsbD 7 then 0x1b else 0)
/-- Product in GF(2^8), over the bits of b below n. -/
def gfMul (a b : Byte) : Byte :=
  ((upFrom 0 8).foldl (fun (s : Byte × Byte) i => (if b.getLsbD i then s.1 ^^^ s.2 else s.1, gfDouble s.2)) (0, a)).1
/-- Inverse in GF(2^8): the 254th power. -/
def gfInv (a : Byte) : Byte :=
  let a2 := gfMul a a
  let a4 := gfMul a2 a2
  let a8 := gfMul a4 a4
  let a16 := gfMul a8 a8
  let a32 := gfMul a16 a16
  let a64 := gfMul a32 a32
  let a128 := gfMul a64 a64
  gfMul a128 (gfMul a64 (gfMul a32 (gfMul a16 (gfMul a8 (gfMul a4 a2)))))
/-- The substitution box and its inverse. -/
def aesSub (a : Byte) : Byte :=
  let b := gfInv a
  b ^^^ b.rotateLeft 1 ^^^ b.rotateLeft 2 ^^^ b.rotateLeft 3 ^^^ b.rotateLeft 4 ^^^ 0x63
def aesUnsub (a : Byte) : Byte := gfInv (a.rotateLeft 1 ^^^ a.rotateLeft 3 ^^^ a.rotateLeft 6 ^^^ 0x05)

/-- Bytes xored pairwise. -/
def xorBytes (a b : List Byte) : List Byte := a.zipWith (fun x y => x ^^^ y) b

/-- Key expansion: words newest first; i is the number of the next word. -/
def aesExpand : Nat → Nat → Byte → List (List Byte) → List (List Byte)
  | 0, _, _, ws => ws
  | n + 1, i, rc, ws =>
    let prev := ws.headD []
    let t :=
      if i % 8 = 0 then xorBytes ((prev.drop 1 ++ prev.take 1).map aesSub) [rc, 0, 0, 0]
      else if i % 8 = 4 then prev.map aesSub else prev
    aesExpand n (i + 1) (if i % 8 = 0 then gfDouble rc else rc) (xorBytes (ws.getD 7 []) t :: ws)
/-- The fifteen round keys of a 32-byte key. -/
def aesKeys (key : List Byte) : List (List Byte) :=
  pieces 16 15 ((aesExpand 52 8 1 (pieces 4 8 key).reverse).reverse.flatten)

/-- ShiftRows on a column-major state, and its inverse. -/
def aesShift (s : List Byte) : List Byte := (upFrom 0 16).map (fun i => s.getD ((i + 4 * (i % 4)) % 16) 0)
def aesUnshift (s : List Byte) : List Byte := (upFrom 0 16).map (fun i => s.getD ((i + 16 - 4 * (i % 4)) % 16) 0)
/-- Multiply each column by the circulant of m. -/
def aesMixBy (m : List Byte) (s : List Byte) : List Byte :=
  (upFrom 0 16).map (fun i =>
    (upFrom 0 4).foldl (fun acc j => acc ^^^ gfMul (m.getD ((j + 4 - i % 4) % 4) 0) (s.getD (i / 4 * 4 + j) 0)) 0)
def aesMix : List Byte → List Byte := aesMixBy [2, 3, 1, 1]
def aesUnmix : List Byte → List Byte := aesMixBy [14, 11, 13, 9]

/-- Encrypt one block under expanded keys. -/
def aesEnc (ks : List (List Byte)) (b : List Byte) : List Byte :=
  let s := ((ks.drop 1).take 13).foldl (fun s k => xorBytes (aesMix (aesShift (s.map aesSub))) k) (xorBytes b (ks.getD 0 []))
  xorBytes (aesShift (s.map aesSub)) (ks.getD 14 [])
/-- Decrypt one block. -/
def aesDec (ks : List (List Byte)) (b : List Byte) : List Byte :=
  let s := ((ks.drop 1).take 13).reverse.foldl (fun s k => aesUnmix (xorBytes ((aesUnshift s).map aesUnsub) k)) (xorBytes b (ks.getD 14 []))
  xorBytes ((aesUnshift s).map aesUnsub) (ks.getD 0 [])

/-! ## XTS over one 64-byte line (R492) -/

/-- Multiply the tweak by α. -/
def xtsDouble (t : List Byte) : List Byte :=
  let n := ofLE t * 2
  leBytes 16 (if n / 2 ^ 128 = 1 then Nat.xor (n % 2 ^ 128) 0x87 else n)
/-- Four blocks, the tweak doubled between them. -/
def xtsBlocks (f : List Byte → List Byte) : Nat → List Byte → List Byte → List Byte
  | 0, _, _ => []
  | n + 1, t, l => xorBytes t (f (xorBytes t (l.take 16))) ++ xtsBlocks f n (xtsDouble t) (l.drop 16)
/-- The line's tweak: its offset in the object in bits [31:0] and the handle in [55:32], under Key2. -/
def xtsTweak (key : BitVec 512) (h line : Nat) : List Byte :=
  aesEnc (aesKeys (leBytes 32 (key.toNat / 2 ^ 256))) (leBytes 16 (line % 2 ^ 32 + h * 2 ^ 32))
/-- Encrypt and decrypt line number line of object h. -/
def xtsEnc (key : BitVec 512) (h line : Nat) (v : Line) : Line :=
  BitVec.ofNat 512 (ofLE (xtsBlocks (aesEnc (aesKeys (leBytes 32 key.toNat))) 4 (xtsTweak key h line) (leBytes 64 v.toNat)))
def xtsDec (key : BitVec 512) (h line : Nat) (v : Line) : Line :=
  BitVec.ofNat 512 (ofLE (xtsBlocks (aesDec (aesKeys (leBytes 32 key.toNat))) 4 (xtsTweak key h line) (leBytes 64 v.toNat)))

end Sys2Proof.Machine
end

