-- ==== Sys2Proof/Machine/Move.lean ====
section
/-! DEFINITION. Movement of objects: promotion, eviction, write-back and cleaning (R314 to R326). -/

namespace Sys2Proof.Machine

/-- Object-space byte address of a copy. -/
def Obj.addr (o : Obj) : Nat := o.copy * 65536

/-- The reads under way for an object's copy end without a reader; those not yet requested are dropped. -/
def orphanReads (k : Core) (h : Nat) : Core :=
  { k with pci := { k.pci with
    reads := mmap (fun _ r => if r.obj = some h then { r with obj := none } else r) k.pci.reads
    waiting := k.pci.waiting.filter (fun r => decide (r.obj ≠ some h)) } }

/-- Write one granule of a HOST object's copy to its home; a poisoned word goes as a poisoned write and a record of its
stack names the object (R324, R326). -/
def writeGranule (k : Core) (h g : Nat) : Core :=
  let o := obj k h
  let n := min 65536 (o.stored - g * 65536)
  let a := o.addr + g * 65536
  let bad := k.dram.bad.filter (fun w => decide (a / 8 ≤ w ∧ w < (a + n) / 8))
  let k1 := hostReq k (.write (o.haddr + g * 65536) (k.dram.bytes 0 a n) true (bad.map (fun w => 8 * w - a)))
  match bad with
  | w :: _ =>
    let (s, x) := stackAddr k (8 * w)
    errRecord k1 { reason := rUncorrectable, cls := 2, source := 2, inst := s, obj := some h, ctx := o.ctx, conf := objConf k h, dom := o.dom,
                   addr := if objConf k h then 0 else x / 64 * 64 }
  | [] => k1

/-- Write back every granule of a list. -/
def writeGranules (k : Core) (h : Nat) (l : List Nat) : Core := l.foldl (fun k g => writeGranule k h g) k
/-- Write-backs become visible: none is needed, or the link takes them at once (R89, R324). -/
def writesLand (k : Core) (l : List Nat) : Bool := l.isEmpty || (hostUp k && k.held.isEmpty)

/-- The OBJ instruction in flight on an object with a given opcode. -/
def objFlt (k : Core) (op h : Nat) : Option Flt := findFlt k 4 op (fun f => f.key == h)

/-- End every OBJ instruction of an opcode in flight on an object. -/
def endObj (k : Core) (op h reason arg : Nat) : Core :=
  (k.flts.filter (fun f => decide (f.ins.cls = 4) && decide (f.ins.op = op) && f.key == h)).foldl
    (fun k f => retireFlt k f reason arg []) k

/-! ## Space (R315, R324) -/

/-- Order of victims: lowest HOT, then oldest LASTREAD, then the higher handle (R324). -/
def victimBefore (a b : Nat × Obj) : Bool :=
  decide (a.2.hot < b.2.hot) || (a.2.hot == b.2.hot &&
    (decide (a.2.lastRead < b.2.lastRead) || (a.2.lastRead == b.2.lastRead && decide (b.1 < a.1))))

/-- The eviction loop may take the object for domain d: its HOT count is below the limit, it is not the one to skip, and no OBJ.CLEAN is
under way on it (R324, R326, R330, assumption 75). -/
def evictable (k : Core) (d : Nat) (limit skip : Option Nat) (p : Nat × Obj) : Bool :=
  p.2.alloc && p.2.st == .complete && p.2.pins == 0 && p.2.home != 0 && p.2.dom == d && p.2.recov.isEmpty &&
  (match limit with | some n => decide (p.2.hot < n) | none => true) && decide (skip ≠ some p.1) && (objFlt k 0x05 p.1).isNone

/-- The eviction loop's next victim, if any. -/
def victim (k : Core) (d : Nat) (limit skip : Option Nat) : Option (Nat × Obj) :=
  (k.objs.filter (evictable k d limit skip)).foldl
    (fun m p => match m with | none => some p | some q => if victimBefore p q then some p else some q) none

/-- First fit once the copies being evicted are gone. -/
def fitAfter (k : Core) (d n : Nat) : Option Nat :=
  firstFit { k with objs := mmap (fun _ o => if o.st == .evicting then { o with st := .absent } else o) k.objs } d n

/-- Mark victims EVICTING until the range would fit, or none is left. -/
def evictUntil (k : Core) (d n : Nat) (limit skip : Option Nat) : Nat → Core
  | 0 => k
  | fuel + 1 =>
    if (fitAfter k d n).isSome then k
    else match victim k d limit skip with
      | none => k
      | some (h, _) => evictUntil (modObj k h (fun o => { o with st := .evicting })) d n limit skip fuel

/-! ## Promotion (R323, R325, R326, R330) -/

/-- Begin the fetch of an ABSENT object into a range; the copy of a HOST object is read over the link (R323). -/
def beginFetch (k : Core) (h a : Nat) : Core :=
  let o := obj k h
  let k1 := modObj k h (fun o => { o with
    st := .fetching, copy := a, wants := false, wantDrop := none, dirty := [], recov := [], from_ := [], fetched := 0 })
  if o.home = 2 then hostRead k1 { obj := some h, addr := o.haddr, len := o.stored, line := 0 } else k1

/-- A promotion of an ABSENT object takes a range, or waits for the victims it has marked. -/
def takeSpace (k : Core) (h : Nat) (skip : Option Nat) : Core :=
  let o := obj k h
  match firstFit k o.dom o.units with
  | some a => beginFetch k h a
  | none => modObj (evictUntil k o.dom o.units none skip k.objs.length) h (fun o => { o with wants := true, wantDrop := none })

/-- A prefetch or a hot promotion of an ABSENT object takes a range, waits for its victims, or is dropped and counted (R326, R330). -/
def takeOrDrop (k : Core) (h : Nat) (limit skip : Option Nat) : Core :=
  let o := obj k h
  match firstFit k o.dom o.units with
  | some a => beginFetch k h a
  | none =>
    let k1 := evictUntil k o.dom o.units limit skip k.objs.length
    if (fitAfter k1 o.dom o.units).isSome then modObj k1 h (fun o => { o with wants := true, wantDrop := some limit })
    else bump (modObj k h (fun o => { o with wants := false, wantDrop := none })) (oObjUsed o.dom + 0x30) 1

/-- Promotions that wait for space try again, in handle order; skip is a copy the loop has just given up. -/
def retrySpace (k : Core) (skip : Option Nat) : Core :=
  ((k.objs.filter (fun p => p.2.wants)).map Prod.fst).foldl (fun k h =>
    let o := obj k h
    if !(o.alloc && o.st == .absent && !o.lost) then k
    else match o.wantDrop with
      | none => takeSpace k h skip
      | some limit => takeOrDrop k h limit skip) k
/-- Promotions that wait for space try again. -/
def retryWants (k : Core) : Core := retrySpace k none

/-- Promotion wins over an eviction: the copy is complete again, the granules already written back are clean (how many were is a
free value), an OBJ.EVICT ends with OBJ_BUSY, and the loop moves on to its next victim (R325, assumption 1). -/
def stopEviction (k : Core) (h : Nat) : Core :=
  let (n, k1) := drawNat k
  let done := (obj k h).dirty.take (n % ((obj k h).dirty.length + 1))
  let k2 := modObj (writeGranules k1 h done) h (fun o => { o with st := .complete, dirty := o.dirty.drop done.length })
  retrySpace (endObj k2 0x02 h rObjBusy (obj k2 h).arg) (some h)

/-- A promotion (R323): an ABSENT object takes a range, evicting if need be; FETCHING is joined; EVICTING is stopped. -/
def promote (k : Core) (h : Nat) : Core :=
  let o := obj k h
  if !o.alloc then k
  else match o.st with
    | .complete => k
    | .fetching => k
    | .evicting => stopEviction k h
    | .absent => if o.lost then k else takeSpace k h none

/-- A prefetch or hot promotion: dropped and counted where room cannot be made (R326, R330). -/
def promoteOrDrop (k : Core) (h : Nat) (limit : Option Nat) : Core :=
  let o := obj k h
  if !(o.alloc && o.st == .absent && !o.lost) || o.wants then k else takeOrDrop k h limit none

/-- A pin is taken; it stops an eviction that it meets (R318, R325). -/
def pinObj (k : Core) (h : Nat) : Core :=
  let k1 := takePin k h
  if (obj k1 h).st = .evicting then stopEviction k1 h else k1

/-! ## Eviction and cleaning (R324, R334) -/

/-- The write-backs of an EVICTING object are made, the range is released and the object is ABSENT. -/
def evictNow (k : Core) (h : Nat) : Core :=
  let k1 := writeGranules k h (obj k h).dirty
  let k2 := modObj k1 h (fun o => { o with st := .absent, dirty := [], cleaning := [], redirty := [] })
  retryWants (endObj k2 0x02 h 0 0)
/-- EVICTION_COMPLETE: the range is released once the last write-back is visible, which takes a link that serves (R89, R324). -/
def evictionComplete (k : Core) (h : Nat) : Core :=
  let o := obj k h
  if o.alloc && o.st == .evicting && writesLand k o.dirty then evictNow k h else k

/-- A write reached the copy: the granule is dirty for a HOST object, and a broadcast mark is cleared (R321). -/
def noteWrite (k : Core) (h line n : Nat) : Core :=
  if n = 0 then k
  else
    let gs := upFrom (line / 1024) ((line + n - 1) / 1024 - line / 1024 + 1)
    modObj k h (fun o =>
      if o.home = 2 then
        { o with dirty := gs.foldl sput o.dirty, redirty := if o.cleaning = [] then o.redirty else gs.foldl sput o.redirty }
      else if o.home = 0 then { o with bcast := none } else o)

/-- Start an OBJ.CLEAN: the granules dirty now are written back. -/
def startClean (k : Core) (h : Nat) : Core := modObj k h (fun o => { o with cleaning := o.dirty, redirty := [] })

/-- An OBJ.EVICT that waited for an OBJ.CLEAN is applied (R326). -/
def evictAfter (k : Core) (f : Flt) : Core :=
  let o := obj k f.key
  if o.st != .complete then retireFlt k f rWrongState o.arg []
  else if decide (o.pins ≠ 0) || !o.recov.isEmpty then retireFlt k f rObjBusy o.arg []
  else modObj k f.key (fun o => { o with st := .evicting })
/-- The OBJ.EVICTs of an object that wait, once no OBJ.CLEAN of it is left. -/
def evictsAfter (k : Core) (h : Nat) : Core :=
  if (objFlt k 0x05 h).isSome then k
  else (k.flts.filter (fun f => decide (f.ins.cls = 4) && decide (f.ins.op = 0x02) && f.key == h)).foldl evictAfter k

/-- OBJ_CLEAN_COMPLETE: the granules dirty at the start are written back and visible; those written since stay dirty (R318, R334). -/
def objCleanComplete (k : Core) (h : Nat) : Core :=
  match objFlt k 0x05 h with
  | none => k
  | some f =>
    if writesLand k (obj k h).cleaning then
      let n := (obj k h).cleaning.length
      let k1 := writeGranules k h (obj k h).cleaning
      let k2 := modObj k1 h (fun o => { o with
        dirty := (o.dirty.filter (fun g => !o.cleaning.contains g || o.redirty.contains g)), cleaning := [], redirty := [] })
      let k3 := retireFlt k2 f 0 0 (leBytes 4 n)
      if (objFlt k3 0x05 h).isSome then startClean k3 h else evictsAfter k3 h
    else k

end Sys2Proof.Machine
end

