-- ==== Sys2Proof/Machine/Data.lean ====
section
/-! DEFINITION. Where an object's bytes lie and how they are read and written: address mapping, flash placement, confidential lines, the
Pack Expander and the tiers of R319 (R315, R319, R321, R327, R337 to R352, R361, R362, R383, R491, R492). -/

namespace Sys2Proof.Machine

/-! ## Placement -/

/-- Flash stacks of a domain (R383). -/
def domFlash (k : Core) (d : Nat) : List Nat := quartersOf k d
/-- Stack, logical unit, page and line of a domain flash line address (R383). -/
def flsLoc (k : Core) (d f : Nat) : Nat × Nat × Nat × Nat :=
  let ss := domFlash k d
  let p := f / 256
  let q := p / ss.length
  (ss.getD (p % ss.length) 0, q / 2048, q % 2048, f % 256)
/-- Line number of a flash line in the model's flash memory. -/
def flsLine (st unit page line : Nat) : Nat := ((st * 57344 + unit) * 2048 + page) * 256 + line
/-- Line number of a domain flash line address. -/
def flsLineOf (k : Core) (d f : Nat) : Nat := let (st, u, p, l) := flsLoc k d f; flsLine st u p l
/-- Lines of flash user space of one stack. -/
def flsStackLines : Nat := 30064771072

/-! ## Confidential lines (R491, R492) -/

/-- The key of the context that owns the object. -/
def objKey (k : Core) (h : Nat) : Option (BitVec 512) := match (obj k h).ctx with | some c => (ctx k c).key | none => none
/-- The plain form of line l of an object, from its stored form. -/
def plainLine (k : Core) (h l : Nat) (v : Line) : Line :=
  if objConf k h then
    match objKey k h with
    | some key => if (obj k h).stale && !(obj k h).rewritten.contains l then Config.unreadLine k.fresh h l else xtsDec key h l v
    | none => Config.unreadLine k.fresh h l
  else v
/-- The stored form of line l of an object. -/
def cipherLine (k : Core) (h l : Nat) (v : Line) : Line :=
  if objConf k h then (match objKey k h with | some key => xtsEnc key h l v | none => Config.unreadLine k.fresh h l) else v

/-- A line of the copy as it is stored. -/
def copyLine (k : Core) (h l : Nat) : Line × Bool :=
  let n := (obj k h).addr / 64 + l
  (k.dram.line 0 n, k.dram.lineBad n)
/-- Write stored line l of the copy. -/
def putCopyLine (k : Core) (h l : Nat) (v : Line) (bad : Bool) : Core :=
  let n := (obj k h).addr / 64 + l
  { k with dram := k.dram.putLine 0 n v bad }
/-- Write plain line l of an unpacked object's copy (R321, R492). -/
def putObjLine (k : Core) (h l : Nat) (v : Line) (bad : Bool) : Core :=
  let k1 := putCopyLine k h l (cipherLine k h l v) bad
  if (obj k h).stale then modObj k1 h (fun o => { o with rewritten := sput o.rewritten l }) else k1

/-! ## Reading the stored form -/

/-- Who reads in place: the tile or the instruction a host read is made for. -/
abbrev Reader := HostRd

/-- A host read is one of the reader's reads of object h in place. -/
def readsFor (w : Reader) (h : Nat) (r : HostRd) : Bool := r.tile == w.tile && r.ctl == w.ctl && r.seq == w.seq && r.handle == some h
/-- The n bytes from bus address a that the reader has received of object h's host home, put together from the completions. -/
def gotFrom (k : Core) (w : Reader) (h : Nat) : Nat → Nat → Nat → Option (List Byte)
  | _, _, 0 => none
  | a, n, fuel + 1 =>
    if n = 0 then some []
    else
      match k.pci.got.find? (fun g => readsFor w h g.rd && decide (g.rd.addr ≤ a ∧ a < g.rd.addr + g.rd.len)) with
      | none => none
      | some g =>
        let m := min n (g.rd.addr + g.rd.len - a)
        match g.data, gotFrom k w h (a + m) (n - m) fuel with
        | some d, some r => some ((d.drop (a - g.rd.addr)).take m ++ r)
        | _, _ => none
/-- The same, in as many parts as there are completions at hand. -/
def gotBytes (k : Core) (w : Reader) (h a n : Nat) : Option (List Byte) := gotFrom k w h a n (k.pci.got.length + 1)

/-- Stored line l of an object: from its copy, its flash home, or the host bytes at hand, which begin at stored byte off. -/
def storedLine (k : Core) (h : Nat) (host : Nat × List Byte) (l : Nat) : Line × Bool :=
  let o := obj k h
  if o.st = .absent then
    if o.home = 1 then
      let n := flsLineOf k o.dom (o.haddr + l)
      (k.flash.line 0xFF n, k.flash.lineBad n)
    else (BitVec.ofNat 512 (ofLE ((host.2.drop (64 * l - host.1)).take 64)), false)
  else copyLine k h l
/-- Stored bytes off to off + n − 1, and whether one lies in a poisoned line. -/
def storedBytes (k : Core) (h : Nat) (host : Nat × List Byte) (off n : Nat) : List Byte × Bool :=
  let ls := (upFrom (off / 64) ((off + n - 1) / 64 - off / 64 + 1)).map (storedLine k h host)
  (((ls.flatMap (fun l => leBytes 64 l.1.toNat)).drop (off % 64)).take n, ls.any (·.2))

/-! ## Pack blocks (R339, R340, R344, R345, R351) -/

/-- Bytes of a block of the object. -/
def blockSize (o : Obj) : Nat := if o.pack = 1 then 720 else 528
/-- Byte i of a block. -/
def bAt (b : List Byte) (i : Nat) : Nat := (b.getD i 0).toNat
/-- The exponent table is well formed (R340). -/
def tableOk (b : List Byte) : Bool :=
  decide (1 ≤ bAt b 1) && (upFrom 1 6).all (fun j => decide (bAt b j ≤ bAt b (j + 1))) && decide (bAt b 0 + 1 = bAt b 1)
/-- SCALE is +0 or a positive normal finite value, and bytes 2 to 7 are zero (R344). -/
def scaleOk (b : List Byte) : Bool :=
  let s := bAt b 0 + 256 * bAt b 1
  (decide (s = 0) || decide (0x80 ≤ s ∧ s < 0x7F80)) && ((b.drop 2).take 6).all (· == 0)
/-- The first check of R351 that fails on a block of a pack, 0 for none. -/
def blockCheck (pack n : Nat) (b : List Byte) (bad : Bool) : Nat :=
  let id := ofLE ((b.drop 8).take 4)
  if bad then 1
  else if id / 2 ^ 28 ≠ pack then 2
  else if id % 2 ^ 28 ≠ n then 3
  else if ofLE ((b.drop 12).take 4) ≠ crc32c (b.take 12 ++ b.drop 16) then 4
  else if (if pack = 1 then tableOk b else scaleOk b) then 0 else 5
/-- Weight i of a weight-pack block as BF16 bits (R340). -/
def packWeight (b : List Byte) (i : Nat) : Nat :=
  let sm := bAt b (16 + i)
  let p := 3 * i
  let k := (bAt b (528 + p / 8) + 256 * bAt b (529 + p / 8)) / 2 ^ (p % 8) % 8
  if k = 0 then Fmt.bf16.encode (.fin (bit sm 7) (sm % 128) ((bAt b 0 : Int) - 133))
  else sm / 128 * 2 ^ 15 + bAt b k * 128 + sm % 128
/-- Weight i of a delta block over its base weight, with the events of R345. -/
def deltaWeight (b : List Byte) (i base : Nat) : Nat × Nat :=
  let scale := Fmt.bf16.decode (bAt b 0 + 256 * bAt b 1)
  let d := Fmt.e4m3.decode (bAt b (16 + i))
  let (p, c1) := mulExact d scale {}
  let (s, c2) := addExact (Fmt.bf16.decode base) p c1
  let (r, c3) := roundArith .bf16 s c2
  (Fmt.bf16.encode r, c3.ftz + c3.nanMade + b2n (s.isFin && !r.isFin))

/-- What reading a block gives: 512 weights with the delta events, or the damaged object and the failing check. -/
inductive BlkRes where
  | ok (ws : List Nat) (exc : Nat)
  | bad (h check : Nat)
  deriving DecidableEq, Repr

/-- Block n of a weight pack. -/
def weightBlock (k : Core) (h : Nat) (host : Nat × List Byte) (n : Nat) : BlkRes :=
  let (b, bad) := storedBytes k h host (720 * n) 720
  let c := blockCheck 1 n b bad
  if c = 0 then .ok ((upFrom 0 512).map (packWeight b)) 0 else .bad h c
/-- Block n of a packed object; hostB are the host bytes of a delta pack's base. -/
def packBlock (k : Core) (h : Nat) (host hostB : Nat × List Byte) (n : Nat) : BlkRes :=
  let o := obj k h
  if o.pack = 1 then weightBlock k h host n
  else
    let (b, bad) := storedBytes k h host (528 * n) 528
    let c := blockCheck 2 n b bad
    if c ≠ 0 then .bad h c
    else match weightBlock k o.base hostB n with
      | .bad g c => .bad g c
      | .ok ws _ =>
        let rs := ws.zipIdx.map (fun w => deltaWeight b w.2 w.1)
        .ok (rs.map Prod.fst) (rs.map Prod.snd).sum
/-- Expanded line j (0 to 15) of a block (R337). -/
def blockLine (ws : List Nat) (j : Nat) : Line :=
  BitVec.ofNat 512 (ofLE (((ws.drop (32 * j)).take 32).flatMap (fun w => leBytes 2 w)))

/-- The expander that serves a block of an object: its PX register set (R347). -/
def servingPxOf (k : Core) (o : Obj) (n : Nat) : Nat :=
  let off := blockSize o * n
  if o.st = .absent then
    if o.home = 1 then oPx true (flsLoc k o.dom (o.haddr + off / 64)).1
    else oPx false (2 * (quartersOf k o.dom).headD 0)
  else oPx false (stackAddr k (o.addr + off)).1
/-- The serving expander of a block of object h. -/
def servingPx (k : Core) (h n : Nat) : Nat := servingPxOf k (obj k h) n
/-- Load PX_LAST of the serving expander (R352). -/
def loadPxLast (k : Core) (px v : Nat) : Core :=
  if px < 0x100000 then
    let s := (px - 0x80000) / 0x10000
    { k with stks := mmod {} k.stks s (fun q => { q with pxLast := v }) }
  else
    let s := (px - 0x100000) / 0x10000
    { k with flss := mmod {} k.flss s (fun q => { q with pxLast := v }) }

/-! ## Recovery (R327) -/

/-- The sources a damaged line of an object can be read from, in order: 1 the home, 2 the twin, 3 the broadcast reader (R327). -/
def sources (k : Core) (o : Obj) : List Nat :=
  (if o.home ≠ 0 then [1] else []) ++ (if twinActive k then [2] else []) ++ (if o.bcast.isSome then [3] else [])
/-- Stored line l of the copy can be supplied again (R327). -/
def recoverable (o : Obj) (l : Nat) : Bool :=
  (decide (o.home ≠ 0) && !o.dirty.contains (l / 1024)) || o.bcast.isSome
/-- Start recovering stored lines of an object; a host home is read again line by line (R105, R327). -/
def startRecovery (k : Core) (h : Nat) (ls : List Nat) : Core :=
  match sources k (obj k h) with
  | [] => k
  | s :: _ =>
    let o := obj k h
    let new := ls.filter (fun l => (mget? o.recov l).isNone)
    let k1 := modObj k h (fun o => { o with recov := new.foldl (fun m l => mput m l s) o.recov })
    if o.home = 2 then
      new.foldl (fun k l =>
        hostRead k { obj := some h, addr := o.haddr + 64 * l, len := min 64 (o.stored - 64 * l), line := l }) k1
    else k1

/-- A line of an open pool is being recovered. -/
def poolsRecover (k : Core) : Bool := k.pools.any (fun e => e.2.isOpen && !(obj k e.2.obj).recov.isEmpty)

/-- Stored lines of a block. -/
def blockLines (o : Obj) (n : Nat) : List Nat :=
  let a := blockSize o * n
  upFrom (a / 64) ((a + blockSize o - 1) / 64 - a / 64 + 1)

/-- The record and counts of a block that failed a check (R352 step 1), at the expander px; check 1 records nothing there. -/
def reportBlock (k : Core) (px h n check : Nat) : Core :=
  let o := obj k h
  if check = 1 then k
  else
    let k0 := loadPxLast (bump k (px + 0x10) 1) px (h + check * 2 ^ 24 + n * 2 ^ 32)
    errRecord k0
      { reason := rPackDamaged, cls := 2, source := if px < 0x100000 then 2 else 3,
        inst := if px < 0x100000 then (px - 0x80000) / 0x10000 else (px - 0x100000) / 0x10000,
        dom := o.dom, arg := h, ctx := o.ctx, obj := some h, addr := 16 * n, detail := leBytes 4 n ++ leBytes 1 check }
/-- A damaged block of the object can be had from another place: from a source of its lines, or, where it was read in place, from the
twin, into a copy (R327, R352). -/
def blockMends (k : Core) (h n : Nat) : Bool :=
  let o := obj k h
  if o.st = .absent then (sources k o).any (fun s => decide (1 < s))
  else (blockLines o n).all (recoverable o) && !(sources k o).isEmpty
/-- A damaged block: its report, and its recovery where it can be had from another place. The answer tells whether it is being
recovered. -/
def damagedBlock (k : Core) (h n check : Nat) : Core × Bool :=
  let o := obj k h
  let k1 := reportBlock k (servingPx k h n) h n check
  if blockMends k h n then (if o.st = .absent then promote k1 h else startRecovery k1 h (blockLines o n), true) else (k1, false)

/-! ## The tiers (R319) -/

/-- How a read or a write of an object goes: it can proceed, it waits, or the object h, which it needs, is LOST. -/
inductive Way where
  | go (k : Core)
  | wait (k : Core)
  | lost (h : Nat)
  deriving DecidableEq, Repr

/-- Count a wait of a DM on an object (R331); a reader that is no tile counts nowhere. -/
def stallObj (k : Core) (w : Reader) (d n : Nat) : Core := if w.tile.isSome then bump k (oObjUsed d + 8 * n) 1 else k
/-- A DM reads the weight flash in place: how long it waits for it is free (R331, assumption 34). -/
def stallFlash (k : Core) (w : Reader) (d : Nat) : Core :=
  if w.tile.isSome then (let (c, k1) := drawNat k; bump k1 (oObjUsed d + 8) c) else k
/-- A DM waits for a promotion: for its fetch, or for space where no copy could be evicted (R331). -/
def stallSpace (k : Core) (w : Reader) (d h : Nat) : Core :=
  let o := obj k h
  if o.st != .absent then stallObj k w d 3 else if (fitAfter k o.dom o.units).isNone then stallObj k w d 4 else k

/-- Write further lines of a FLASH object's copy in ascending order, up to the first that its codeword cannot supply. -/
def fetchLines (k : Core) (h : Nat) : Nat → Core
  | 0 => k
  | n + 1 =>
    let o := obj k h
    let f := flsLineOf k o.dom (o.haddr + o.fetched)
    if k.flash.lineBad f || stackHeld k true (flsLoc k o.dom (o.haddr + o.fetched)).1 then k
    else fetchLines (modObj (putCopyLine k h o.fetched (k.flash.line 0xFF f) false) h (fun o => { o with fetched := o.fetched + 1 })) h n
/-- The fetch of a FLASH object goes on by itself: how many lines it has written by now is free (R319, assumption 1). -/
def fetchOn (k : Core) (h : Nat) : Core :=
  let o := obj k h
  if o.home = 1 then (let (n, k1) := drawNat k; fetchLines k1 h (n % (cdiv o.stored 64 - o.fetched + 1))) else k
/-- Stored line l of a FETCHING copy is written: lines are written in ascending order (R319). -/
def lineFetched (k : Core) (h l : Nat) : Bool :=
  let o := obj k h
  (mget? o.recov l).isNone &&
  (if o.home = 1 then decide (l < o.fetched) else !readPending k (fun r => r.obj == some h && decide (r.line ≤ l)))

/-- A store of R404 or a broadcast session (R423) holds reads of stored lines of the object. -/
def heldRead (k : Core) (h : Nat) (ls : List Nat) : Bool :=
  k.flOps.any (fun f => !f.erase && f.dest == h) ||
  k.fab.sessions.any (fun e => !e.2.reader && e.2.shards.zipIdx.any (fun s =>
    s.1.handle == h && !e.2.verified.contains s.2 && ls.any (fun l => decide (s.1.first ≤ l ∧ l < s.1.first + s.1.lines))))

/-- Stored lines that a read of n expanded lines from line l needs (R338). -/
def neededLines (o : Obj) (l n : Nat) : List Nat :=
  if o.pack = 0 then upFrom l n
  else
    let a := l / 16 * blockSize o
    let b := ((l + n - 1) / 16 + 1) * blockSize o
    upFrom (a / 64) ((b - 1) / 64 - a / 64 + 1)
/-- Stored byte range of the same. -/
def neededBytes (o : Obj) (l n : Nat) : Nat × Nat :=
  if o.pack = 0 then (64 * l, 64 * n)
  else (l / 16 * blockSize o, ((l + n - 1) / 16 + 1 - l / 16) * blockSize o)

/-- A stored line of an object lies in a stack that a field test has isolated: requests for it are held (R515, R516). -/
def linesHeld (k : Core) (h : Nat) (ls : List Nat) : Bool :=
  let o := obj k h
  fieldTests k &&
  if o.st = .absent then o.home == 1 && ls.any (fun l => stackHeld k true (flsLoc k o.dom (o.haddr + l)).1)
  else ls.any (fun l => stackHeld k false (stackAddr k (o.addr + 64 * l)).1)

/-- Bring one object to where its stored lines ls, stored bytes off to off + len − 1, can be read (R319, R325, R327, R328). d is the
reader's domain. -/
def openAt (k : Core) (w : Reader) (d h : Nat) (ls : List Nat) (off len : Nat) : Way :=
  if (obj k h).lost then .lost h
  else if linesHeld k h ls then .wait k
  else
    let k0 := if (obj k h).st = .evicting then stopEviction k h else k
    let k1 := if (obj k0 h).st = .fetching then fetchOn k0 h else k0
    let o := obj k1 h
    match o.st with
    | .fetching =>
      if ls.all (lineFetched k1 h) then .go k1
      else .wait (stallObj k1 w d (if ls.any (fun x => (mget? o.recov x).isSome) then 5 else 3))
    | .evicting => .wait k1
    | .complete =>
      if ls.any (fun x => (mget? o.recov x).isSome) then .wait (stallObj k1 w d 5)
      else if heldRead k1 h ls then .wait (stallObj k1 w d 3)
      else .go k1
    | .absent =>
      if heldRead k1 h ls then .wait (stallObj k1 w d 3)
      else if !o.direct then
        let k2 := promote k1 h
        .wait (stallSpace k2 w d h)
      else if o.wants then .wait (stallSpace k1 w d h)
      else if o.home = 1 then .go (stallFlash k1 w d)
      else
        if (gotBytes k1 w h (o.haddr + off) len).isSome then .go k1
        else if readPending k1 (fun r => readsFor w h r && decide (o.haddr + off ≤ r.addr ∧ r.addr < o.haddr + off + len)) then
          .wait (stallObj k1 w d 2)
        else .wait (stallObj (hostRead k1 { w with obj := none, handle := some h, addr := o.haddr + off, len := len }) w d 2)

/-- Bring one object to where expanded lines l to l + n − 1 can be read. -/
def openRead (k : Core) (w : Reader) (d h l n : Nat) : Way :=
  let o := obj k h
  openAt k w d h (neededLines o l n) (neededBytes o l n).1 (neededBytes o l n).2

/-- The host bytes at hand for an object read in place. -/
def hostOf (k : Core) (w : Reader) (h l n : Nat) : Nat × List Byte :=
  let o := obj k h
  let (off, len) := neededBytes o l n
  (off, (gotBytes k w h (o.haddr + off) len).getD [])

/-- A read of expanded lines: the lines with their poison, a wait, or LOST. -/
inductive Fetched where
  | lines (k : Core) (l : List (Line × Bool))
  | wait (k : Core)
  | lost (h : Nat)
  deriving DecidableEq, Repr

/-- The blocks of a packed read pass the check stage: those that are damaged and can be had from another place are reported and
recovered, and the read waits for them (R351, R352). -/
def holdBlocks (k : Core) (h : Nat) (host hostB : Nat × List Byte) (n : Nat) : Nat → Core × Bool
  | 0 => (k, false)
  | m + 1 =>
    match packBlock k h host hostB n with
    | .ok _ _ => holdBlocks k h host hostB (n + 1) m
    | .bad g c =>
      if blockMends k g n then ((holdBlocks (damagedBlock k g n c).1 h host hostB (n + 1) m).1, true)
      else holdBlocks k h host hostB (n + 1) m
/-- The blocks of a packed read, expanded, or poisoned where a block is damaged (R338, R352). -/
def readBlocks (k : Core) (h : Nat) (host hostB : Nat × List Byte) (n : Nat) : Nat → Core × List (Line × Bool)
  | 0 => (k, [])
  | m + 1 =>
    match packBlock k h host hostB n with
    | .bad g c =>
      let r := readBlocks (damagedBlock k g n c).1 h host hostB (n + 1) m
      (r.1, List.replicate 16 (0, true) ++ r.2)
    | .ok ws exc =>
      let px := servingPx k h n
      let k1 := bump (bump k (px + 8) 1) (px + 0x18) exc
      let k2 := if (obj k h).pack = 2 then bump k1 (servingPx k (obj k h).base n + 8) 1 else k1
      let r := readBlocks k2 h host hostB (n + 1) m
      (r.1, (upFrom 0 16).map (fun j => (blockLine ws j, false)) ++ r.2)

/-- Open an object, and the base of a delta pack, where expanded lines l to l + n − 1 can be read. -/
def openBoth (k : Core) (w : Reader) (d h l n : Nat) : Way :=
  match openRead k w d h l n with
  | .go k1 => if (obj k1 h).pack = 2 then openRead k1 w d (obj k1 h).base l n else .go k1
  | x => x
/-- First block and number of blocks of expanded lines l to l + n − 1 (R338). -/
def blockRange (l n : Nat) : Nat × Nat := (l / 16, (l + n - 1) / 16 + 1 - l / 16)
/-- An opened read has to wait for a damaged block (R352). -/
def holdRead (k : Core) (w : Reader) (h l n : Nat) : Core × Bool :=
  if (obj k h).pack = 0 then (k, false)
  else holdBlocks k h (hostOf k w h l n) (hostOf k w (obj k h).base l n) (blockRange l n).1 (blockRange l n).2
/-- The lines of an opened read that waits for no block. -/
def takeLines (k : Core) (w : Reader) (h l n : Nat) : Core × List (Line × Bool) :=
  let host := hostOf k w h l n
  if (obj k h).pack = 0 then
    ({ k with fresh := k.fresh + 1 }, (upFrom l n).map (fun x => let (v, p) := storedLine k h host x; (plainLine k h x v, p)))
  else
    let r := readBlocks k h host (hostOf k w (obj k h).base l n) (blockRange l n).1 (blockRange l n).2
    (r.1, (r.2.drop (l % 16)).take n)
/-- Read expanded lines l to l + n − 1 of an object for a reader of domain d (R319, R338, R347). -/
def readObj (k : Core) (w : Reader) (d h l n : Nat) : Fetched :=
  match openBoth k w d h l n with
  | .lost g => .lost g
  | .wait k1 => .wait k1
  | .go k1 =>
    match holdRead k1 w h l n with
    | (k2, true) => .wait k2
    | (k2, false) => .lines (takeLines k2 w h l n).1 (takeLines k2 w h l n).2

/-! ## Abandoned reads (R350) -/

/-- The blocks of a packed object that an abandoned read holds whole are checked and reported, and what was received is dropped, once no
request of such a read is outstanding. -/
def checkOrphans (k : Core) (h : Nat) : Core :=
  let mine := readsFor {} h
  if readPending k mine || !k.pci.got.any (fun g => mine g.rd) then k
  else
    let o := obj k h
    let size := blockSize o
    let ns := (k.pci.got.filter (fun g => mine g.rd)).flatMap (fun g =>
      upFrom ((g.rd.addr - o.haddr) / size) ((g.rd.addr + g.rd.len - 1 - o.haddr) / size + 1 - (g.rd.addr - o.haddr) / size))
    let k1 := (if o.pack = 0 then [] else ns.dedup).foldl (fun k n =>
      match gotBytes k {} h (o.haddr + size * n) size with
      | none => k
      | some b =>
        let c := blockCheck o.pack n b false
        if c = 0 then k else reportBlock k (servingPx k h n) h n c) k
    { k1 with pci := { k1.pci with got := k1.pci.got.filter (fun g => !mine g.rd) } }
/-- The reads in place of the tiles in ts are abandoned: those not yet requested are dropped, and the rest have no reader. -/
def abandonReads (k : Core) (ts : List Nat) : Core :=
  let mine := fun (r : HostRd) => match r.tile with | some t => ts.contains t | none => false
  let free := fun (r : HostRd) => if mine r then { r with tile := none } else r
  let hs := ((k.pci.reads.map Prod.snd ++ k.pci.got.map (·.rd)).filter mine).filterMap (·.handle)
  hs.dedup.foldl checkOrphans { k with pci := { k.pci with
    reads := mmap (fun _ r => free r) k.pci.reads
    waiting := k.pci.waiting.filter (fun r => !mine r)
    got := k.pci.got.map (fun g => { g with rd := free g.rd }) } }

/-- Forget what a reader has received from the host. -/
def dropGot (k : Core) (w : Reader) : Core :=
  { k with pci := { k.pci with got := k.pci.got.filter (fun g => !(g.rd.tile == w.tile && g.rd.ctl == w.ctl && g.rd.seq == w.seq)) } }

/-- Bring an object to where lines ls of its copy can be written by a DM (R319): promotion of an ABSENT object, and the
eviction stop of R325. -/
def openWrite (k : Core) (w : Reader) (d h : Nat) (ls : List Nat) : Way :=
  let o := obj k h
  if o.lost then .lost h
  else if linesHeld k h ls then .wait k
  else match o.st with
    | .complete => .go k
    | .evicting => .go (stopEviction k h)
    | .fetching => if ls.all (lineFetched k h) then .go k else .wait (stallObj k w d 3)
    | .absent => .wait (stallSpace (promote k h) w d h)

/-- Plain line l of an unpacked object for a reader inside the device's tables; what only the host holds is unknown (assumption 12). -/
def knownLine (k : Core) (h l : Nat) : Line × Bool :=
  if (obj k h).st = .absent ∧ (obj k h).home = 2 then (Config.unreadLine k.fresh h l, false)
  else let (v, p) := storedLine k h (0, []) l; (plainLine k h l v, p)
/-- Plain bytes off to off + n − 1 of an unpacked object, and whether one lies in a poisoned line. -/
def knownBytes (k : Core) (h off n : Nat) : List Byte × Bool :=
  if n = 0 then ([], false)
  else
    let ls := (upFrom (off / 64) ((off + n - 1) / 64 - off / 64 + 1)).map (knownLine k h)
    (((ls.flatMap (fun l => leBytes 64 l.1.toNat)).drop (off % 64)).take n, ls.any (·.2))

/-- A line of the range of bytes is being recovered. -/
def recovering (k : Core) (h off n : Nat) : Bool := (obj k h).recov.any (fun x => decide (off / 64 ≤ x.1 ∧ x.1 < off / 64 + cdiv n 64))
/-- What a read of plain bytes for an instruction finds. -/
inductive ByteRead where
  | ok (k : Core) (b : List Byte)
  | wait (k : Core)
  | lost (h : Nat)
  deriving DecidableEq, Repr
/-- Plain bytes of an unpacked object for an instruction: at once, or once lines being recovered or read from the host are there (R319,
R327). -/
def readBytes (k : Core) (w : Reader) (h off n : Nat) : ByteRead :=
  let o := obj k h
  if o.lost then .lost h
  else if o.st = .absent ∧ o.home = 2 then
    match readObj k w o.dom h (off / 64) (cdiv (off + n) 64 - off / 64) with
    | .wait k1 => .wait k1
    | .lost g => .lost g
    | .lines k1 vs => .ok k1 (((vs.flatMap (fun v => leBytes 64 v.1.toNat)).drop (off % 64)).take n)
  else if recovering k h off n || linesHeld k h (upFrom (off / 64) (cdiv (off + n) 64 - off / 64)) then .wait k
  else .ok k (knownBytes k h off n).1

/-- Write plain lines from line l of an object's copy and mark them (R321). -/
def writeObj (k : Core) (h l : Nat) (vs : List (Line × Bool)) : Core :=
  noteWrite (vs.zipIdx.foldl (fun k x => putObjLine k h (l + x.2) x.1.1 x.1.2) k) h l vs.length

end Sys2Proof.Machine
end

