-- ==== Sys2Proof/Machine/Seq.lean ====
section
/-! DEFINITION. The SEQ instructions other than PT (R309, R310). -/

namespace Sys2Proof.Machine

/-- The sequence named in A[21:0]. -/
def Ctl.seq (i : Ctl) : Nat := i.fa 21 0

/-- Check 8 on a sequence ID, and its partition checks. -/
def cSeq (i : Ctl) (k : Core) (pos n : Nat) : List Chk :=
  [cRange pos (decide (rfld k oSeqLimit 24 0 ≤ n))] ++ cTarget i k pos (seqPart k n)

/-- Check 8 on a sequence that the twin owns, for an instruction that would change it (R424). -/
def cOwnSeq (i : Ctl) (k : Core) : Chk := cStandby k 64 i.seq 21

/-- Check 10 while a pause is pending. -/
def cPausing (i : Ctl) (k : Core) : Chk := cBusy 64 (if (seq k i.seq).pausePending then pauseFlt k i.seq else none)

/-- A SEQ instruction that waits for the boundary, or is otherwise in flight, for a sequence. -/
def seqFlt (k : Core) (s : Nat) : Option Flt :=
  k.flts.find? (fun f => decide (f.ins.cls = 1) && (decide (f.ins.op = 0x06) || decide (f.ins.op = 0x07)) && f.key == s)

/-- Check 11 on a sequence's state. -/
def cSeqState (i : Ctl) (k : Core) (bad : Bool) : Chk := cState 64 bad (seqArg (seq k i.seq))

/-- The model set has a successor a FOLLOW sequence re-binds to (R295). -/
def hasSucc (k : Core) (q : Seq) : Bool := q.follow && (mset' k q.mset).succ.isSome && decide ((mset' k q.mset).succ ≠ some noSet)

def seqStartSpec : CtlSpec where
  cls := 1
  op := 0x01
  mainRes := resA 31 22 ++ noB ++ noC
  checks i k :=
    let q := seq k i.seq
    let m := mset' k q.mset
    cSeq i k 64 i.seq ++
    [cOwnSeq i k,
     cPausing i k,
     cSeqState i k (!(q.st == .opened || q.st == .finished) || q.pool.isNone || q.pLeft == 0),
     cState 64 (m.st == .failed || m.st == .none || (m.st == .draining && !hasSucc k q)) m.st.code]
  run i k := .done (modSeq k i.seq (fun q => { q with st := .queued, generated := 0, delivered := 0 })) []

def seqPauseSpec : CtlSpec where
  cls := 1
  op := 0x02
  mainRes := resA 31 22 ++ noB ++ noC
  checks i k :=
    let q := seq k i.seq
    cSeq i k 64 i.seq ++
    [cOwnSeq i k, cPausing i k, cSeqState i k (!(q.st == .queued || q.st == .running))]
  run i k :=
    if (seq k i.seq).st == .queued then .done (modSeq k i.seq (fun q => { q with st := .paused })) []
    else inFlight (modSeq k i.seq (fun q => { q with pausePending := true })) { ins := i, key := i.seq }

def seqResumeSpec : CtlSpec where
  cls := 1
  op := 0x03
  mainRes := resA 31 22 ++ noB ++ noC
  checks i k := cSeq i k 64 i.seq ++
    [cOwnSeq i k, cPausing i k, cSeqState i k (!((seq k i.seq).st == .paused))]
  run i k := .done (modSeq k i.seq (fun q => { q with st := .queued })) []

/-- SEQ.CANCEL: R307 on a live sequence, ALREADY_COMPLETE on one that has ended (R308). -/
def seqCancelSpec : CtlSpec where
  cls := 1
  op := 0x04
  mainRes := resA 31 22 ++ noB ++ noC
  checks i k := cSeq i k 64 i.seq ++
    [cOwnSeq i k, cSeqState i k ((seq k i.seq).st == .free)]
  run i k :=
    if (seq k i.seq).live then .later (cancelSeq k i.seq (some i))
    else .ends k rAlreadyComplete (seq k i.seq).st.code

/-- SEQ.STOP and SEQ.PRIO wait for event 3 of the next boundary (R300, R310). -/
def seqStopSpec : CtlSpec where
  cls := 1
  op := 0x06
  mainRes := resA 31 23
  checks i k :=
    let q := seq k i.seq
    cSeq i k 64 i.seq ++
    [cOwnSeq i k, cPausing i k, cSeqState i k (q.st == .free || q.st == .cancelled || q.st == .failed)]
  run i k := inFlight k { ins := i, key := i.seq }

def seqPrioSpec : CtlSpec where
  cls := 1
  op := 0x07
  mainRes := resA 31 27 ++ noB ++ noC
  checks i k :=
    let q := seq k i.seq
    cSeq i k 64 i.seq ++
    [cOwnSeq i k, cPausing i k, cSeqState i k (q.st == .free || q.st == .cancelled || q.st == .failed)]
  run i k := inFlight k { ins := i, key := i.seq }

/-- Event 3 of a boundary for a waiting SEQ.STOP or SEQ.PRIO (R300). -/
def seqApply (k : Core) (f : Flt) : Core :=
  let i := f.ins
  let k1 :=
    if i.op = 0x06 then
      let j := 2 * i.fa 22 22
      modSeq k f.key (fun q => { q with stops := (q.stops.set j i.b).set (j + 1) i.c })
    else modSeq k f.key (fun q => { q with prio := i.fa 25 22, follow := decide (i.fa 26 26 = 1) })
  retireFlt k1 f 0 0 []

/-- Payload of SEQ.QUERY (R310). -/
def seqQueryPayload (q : Seq) : List Byte :=
  leBytes 1 q.st.code ++
  leBytes 1 (b2n q.follow + 2 * b2n q.pausePending + 4 * b2n q.urgent + 8 * b2n (decide (q.pLeft ≠ 0)) + 16 * b2n (!q.waiting.isEmpty)) ++
  leBytes 1 q.mset ++ leBytes 1 q.ring ++ leBytes 4 q.next ++ leBytes 4 q.delivered ++ leBytes 2 q.wait ++
  leBytes 1 q.prio ++ leBytes 1 q.edef

def seqQuerySpec : CtlSpec where
  cls := 1
  op := 0x08
  mainRes := resA 31 22 ++ noB ++ noC
  checks i k := cSeq i k 64 i.seq
  run i k :=
    let q := seq k i.seq
    .done k (seqQueryPayload (if q.st = .free then {} else
      { q with urgent := decide (rfld k oUrgentWait 15 0 ≠ 0) && decide (rfld k oUrgentWait 15 0 ≤ q.wait) }))

/-- Check 4 of SEQ.OPEN on its model set (R310): another context's set, a shared set for a confidential context, or a shared set of
another domain. -/
def cMsetReach (k : Core) (m a : Nat) : Chk :=
  let s := mset' k m
  let c := (acct k a).ctx
  let bad := s.st != .none && (match s.ctx with | some d => d != c | none => ctxConf k c || s.dom != domOfCtx k c)
  let conf := ctxConf k c || (match s.ctx with | some d => ctxConf k d | none => false)
  if conf then ⟨4, 56, bad, rDeniedConf, if ctxConf k c then c else s.ctx.getD 0⟩
  else ⟨4, 56, bad, rDeniedPart, s.dom⟩

def seqOpenSpec : CtlSpec where
  cls := 1
  op := 0x81
  mainRes := resA 31 27 ++ resB 31 30 ++ resC 31 27
  checks i k :=
    let a := i.fb 15 0
    let r := i.fb 23 16
    let m := i.fb 29 24
    cSeq i k 64 i.seq ++
    [cOwnSeq i k, cStandby k 32 a 15, cPausing i k] ++
    [cRange 32 (decide (rfld k oAcctLimit 24 0 ≤ a))] ++ cTarget i k 32 (acctPart k a) ++
    cTarget i k 48 (if (dring k r).isOpen then (dring k r).part else none) ++ cTarget i k 56 (msetPart k m) ++
    [if (acct k a).isOpen then cMsetReach k m a else ⟨4, 56, false, 0, 0⟩,
     cOnes 0 20 (i.fc 19 0), cRange 20 (decide (64 < i.fc 26 20)),
     cState 64 ((seq k i.seq).st != .free) (seqArg (seq k i.seq)),
     cState 32 (!(acct k a).isOpen) 0,
     cState 48 (!(dring k r).isOpen) 0,
     cState 56 (!((mset' k m).st == .loading || (mset' k m).st == .ready)) (mset' k m).st.code]
  run i k := .done (modSeq k i.seq (fun q =>
    { pages := q.pages, idx := q.idx, segs := q.segs, copying := q.copying, copied := q.copied
      st := .opened, acct := i.fb 15 0, mset := i.fb 29 24, ring := i.fb 23 16, prio := i.fa 25 22
      follow := decide (i.fa 26 26 = 1), maxnew := i.fc 19 0, topk := i.fc 26 20,
      invt := BitVec.ofNat 32 (i.fx 31 0), topp := BitVec.ofNat 32 (i.fx 63 32), seed := BitVec.ofNat 64 (i.fx 127 64) })) []

def seqPromptSpec : CtlSpec where
  cls := 1
  op := 0x82
  mainRes := resA 31 22 ++ resB 31 24 ++ resC 31 21
  extRes := resX 127 32
  checks i k :=
    let q := seq k i.seq
    let h := i.fb 23 0
    let o := obj k h
    let n := i.fc 20 0
    cSeq i k 64 i.seq ++
    [cOwnSeq i k] ++ cTarget i k 32 (objPart k h) ++
    [cPausing i k, cOnes 0 21 n, cZero 0 n,
     cRange 32 (decide (rfld k oObjLimit 24 0 ≤ h) || (o.alloc && (decide (o.pack ≠ 0) || objForeign o (some (seqCtx k i.seq))))),
     cRange 0 (decide (1048576 < q.next + n)),
     cRange 128 (o.alloc && decide (o.len * 64 < (i.fx 31 0 + n) * 4)),
     cSeqState i k (!(q.st == .opened || q.st == .finished) || decide (q.pLeft ≠ 0)),
     cState 32 (!o.resident) o.arg]
  run i k := .done (modSeq (takePin k (i.fb 23 0)) i.seq (fun q =>
    { q with pHandle := i.fb 23 0, pOff := i.fx 31 0, pLeft := i.fc 20 0, pPinned := true })) []

end Sys2Proof.Machine
end

