-- ==== Sys2Proof/Machine/Pt.lean ====
section
/-! DEFINITION. Pools, pages and page lists: the PT instructions, the staging and publication of edits, and the pages a step maps
(R243 to R249, R263 to R270, R277 to R280). -/

namespace Sys2Proof.Machine

/-- Head dimension of a DHC code. -/
def headDim (dhc : Nat) : Nat := 64 * 2 ^ dhc
/-- Element width of a key-value format (R243). -/
def kvBits (fmt : Nat) : Nat := if fmt = 0 then 16 else 8
/-- Lines per row (R243). -/
def rowLines (dhc fmt : Nat) : Nat := headDim dhc * kvBits fmt / 512
/-- Lines per page (R244). -/
def pageLines (hkv dhc fmt : Nat) : Nat := 128 * hkv * rowLines dhc fmt

def modHdr (k : Core) (p page : Nat) (f : PageHdr → PageHdr) : Core :=
  modPool k p (fun q => { q with hdrs := mput q.hdrs page (f (mget {} q.hdrs page)) })

/-- Pages in the free pool. -/
def Pool.free (p : Pool) : Nat := p.freed.length + (p.pages - p.nextFresh)

/-- A page leaves the free pool: the last one returned, else the lowest never taken; GEN increments and REFS is 1 (R246). -/
def takePage (k : Core) (p : Nat) : Nat × Core :=
  let q := pool k p
  match q.freed with
  | g :: r => (g, modHdr (modPool k p (fun q => { q with freed := r })) p g (fun h => { refs := 1, gen := (h.gen + 1) % 256 }))
  | [] => (q.nextFresh, modHdr (modPool k p (fun q => { q with nextFresh := q.nextFresh + 1 })) p q.nextFresh
      (fun h => { refs := 1, gen := (h.gen + 1) % 256 }))

/-- The latest step begun in a domain that has not retired, if any (R268). -/
def latestStep (k : Core) (d : Nat) : Option Nat :=
  match (dom k d).running with
  | some u => some u.num
  | none => ((dom k d).retiring.getLast?).map (·.num)

/-- Take one reference from a page; at zero it is DEFERRED until the latest step begun retires. Where that step has retired already the page
is tagged with the number of the step to come and event 2, in which references are dropped, ends by returning it (R268). -/
def unref (k : Core) (d p page : Nat) : Core :=
  let h := pageHdr k p page
  if 1 < h.refs then modHdr k p page (fun h => { h with refs := h.refs - 1 })
  else if h.refs = 0 then k
  else match latestStep k d with
    | some n => modHdr k p page (fun h => { h with refs := 0, deferred := some n })
    | none => modHdr k p page (fun h => { h with refs := 0, deferred := some (dom k d).stepNo })

/-- Pages tagged with step n return to their free pools, so that they leave again in ascending number (R268). -/
def returnPages (k : Core) (d n : Nat) : Core :=
  (k.pools.map Prod.fst).foldl (fun k p =>
    let q := pool k p
    if q.isOpen ∧ domOfCtx k q.ctx = d then
      let back := (q.hdrs.filter (fun e => e.2.deferred == some n)).map Prod.fst
      modPool k p (fun q => { q with
        freed := back ++ q.freed,
        hdrs := mmap (fun _ h => if h.deferred == some n then { h with deferred := none } else h) q.hdrs })
    else k) k

/-- Write a page-list entry of a sequence, allocating the frames it needs (R248). -/
def putEntry (k : Core) (s e : Nat) (v : W64) : Core :=
  let k1 := openSegment (sysTake k (4096 * newFrames (seq k s) [e])) s (e / 512)
  modSeq k1 s (fun q => { q with pages := mset 0 q.pages e v })

/-! ## PT instructions -/

/-- The pool named in A[11:0]. -/
def Ctl.pool (i : Ctl) : Nat := i.fa 11 0

def ptPoolOpenSpec : CtlSpec where
  cls := 1
  op := 0x41
  mainRes := resA 31 24 ++ resB 31 24 ++ resC 15 15 ++ resC 31 21
  checks i k :=
    let c := i.fa 23 12
    let h := i.fb 23 0
    let o := obj k h
    let hkv := i.fc 14 8
    let pl := pageLines hkv (i.fc 17 16) (i.fc 20 18)
    cTarget i k 76 (ctxPart k c) ++ cTarget i k 64 (poolPart k i.pool) ++ cTarget i k 32 (objPart k h) ++
    [cOnes 8 7 hkv, cZero 8 hkv, cRange 8 (decide (64 < hkv)), cRange 16 (decide (i.fc 17 16 = 3)),
     cRange 18 (decide (2 < i.fc 20 18)),
     cRange 32 (decide (rfld k oObjLimit 24 0 ≤ h) ||
       (o.alloc && (objForeign o (some c) || decide (o.pack ≠ 0) ||
         decide (hkv ≤ 64 ∧ i.fc 17 16 ≠ 3 ∧ i.fc 20 18 ≤ 2 ∧ o.len < pl)))),
     cState 76 (!(ctx k c).isOpen) 0, cState 64 (pool k i.pool).isOpen (poolCode k i.pool), cState 32 (!o.complete) o.arg]
  run i k :=
    let h := i.fb 23 0
    let pl := pageLines (i.fc 14 8) (i.fc 17 16) (i.fc 20 18)
    let pages := min 268435456 ((obj k h).len / pl)
    .done (modPool (takePin k h) i.pool (fun _ =>
      { isOpen := true, ctx := i.fa 23 12, obj := h, nl := i.fc 7 0 + 1, hkv := i.fc 14 8, dhc := i.fc 17 16,
        kvfmt := i.fc 20 18, pages := pages, pl := pl })) (leBytes 4 pages ++ leBytes 4 pl)

def ptPoolCloseSpec : CtlSpec where
  cls := 1
  op := 0x42
  mainRes := resA 31 12 ++ noB ++ noC
  checks i k := [cStandby k 64 i.pool 11] ++ cTarget i k 64 (poolPart k i.pool) ++ [cState 64 (poolCode k i.pool != 1) (poolCode k i.pool)]
  run i k := .done (modPool (dropPin k (pool k i.pool).obj) i.pool (fun _ => {})) []

def ptPoolStatSpec : CtlSpec where
  cls := 1
  op := 0x43
  mainRes := resA 31 12 ++ noB ++ noC
  checks i k := cTarget i k 64 (poolPart k i.pool) ++ [cState 64 (!(pool k i.pool).isOpen) 0]
  run i k :=
    let q := pool k i.pool
    .done k (leBytes 4 q.free ++ leBytes 4 (q.hdrs.filter (fun e => e.2.deferred.isSome)).length ++
      leBytes 4 (q.hdrs.filter (fun e => decide (1 < e.2.refs))).length ++ leBytes 4 q.short)

/-- The pool's layout is that of the model set (R279). -/
def sameLayout (p : Pool) (m : MSet) : Bool :=
  p.nl == m.nl && p.hkv == m.hkv && p.dhc == m.dhc && p.kvfmt == m.kvfmt

def ptBindSpec : CtlSpec where
  cls := 1
  op := 0x44
  mainRes := resA 31 22 ++ resB 31 12 ++ noC
  checks i k :=
    let q := seq k i.seq
    let p := pool k (i.fb 11 0)
    cSeq i k 64 i.seq ++
    [cOwnSeq i k, cStandby k 32 (i.fb 11 0) 11] ++ cTarget i k 32 (poolPart k (i.fb 11 0)) ++
    [cRange 32 (p.isOpen && q.st != .free && (p.ctx != seqCtx k i.seq || !sameLayout p (mset' k q.mset))),
     cState 64 (q.st != .opened || q.pages.any (fun e => entryMapped e.2) || k.sched.edits.any (fun d => d.seq == i.seq)) (seqArg q),
     cState 32 (!p.isOpen) 0]
  run i k := .done (modSeq k i.seq (fun q => { q with pool := some (i.fb 11 0) })) []

def ptReadSpec : CtlSpec where
  cls := 1
  op := 0x46
  mainRes := resA 31 22 ++ resB 31 14 ++ resC 31 8
  checks i k :=
    let q := seq k i.seq
    cSeq i k 64 i.seq ++
    [cRange 0 (q.pool.isSome && decide (seqNl k i.seq ≤ i.fc 7 0)), cState 64 (q.st == .free) 0]
  run i k :=
    let q := seq k i.seq
    match q.pool with
    | none => .done k []
    | some p =>
      let e := i.fb 13 0 * seqNl k i.seq + i.fc 7 0
      let v := pubEntry q e
      .done k (leBytes 8 v.toNat ++ leBytes 2 (if entryMapped v then (pageHdr k p (entryPage v)).refs else 0) ++
        leBytes 1 (entryCode k (some p) (shadowEntry k i.seq e)) ++
        leBytes 1 (min 255 (k.sched.edits.filter (fun d => d.seq == i.seq)).length))

/-- Source and target entry numbers of a SHARE, layer for layer (R280). -/
def sharePairs (nl b0 sb0 nblk : Nat) : List (Nat × Nat) :=
  (upFrom 0 (nblk * nl)).map (fun j => (b0 * nl + j, sb0 * nl + j))

/-- The first page of a list whose REFS, with the references the list itself adds before, would pass 65,534 (R280); n counts those. -/
def overRefs (k : Core) (p : Nat) : List Nat → SMap Nat → Option Nat
  | [], _ => none
  | g :: r, n =>
    let c := mget 0 n g
    if 65534 ≤ (pageHdr k p g).refs + c then some g else overRefs k p r (mput n g (c + 1))
/-- Frames a shadow of entries lo to hi − 1 needs: copies of the segments and index pages they touch (R265). -/
def shadowFrames (lo hi : Nat) : Nat :=
  if hi ≤ lo then 0 else ((hi - 1) / 512 - lo / 512 + 1) + ((hi - 1) / 524288 - lo / 524288 + 1)

def ptEditSpec : CtlSpec where
  cls := 1
  op := 0xC5
  mainRes := resA 31 24 ++ resB 31 14 ++ resC 31 15
  extRes := resX 31 22 ++ resX 127 46
  checks i k :=
    let s := i.seq
    let src := i.fx 21 0
    let opc := i.fa 23 22
    let share := opc == 0
    let b0 := i.fb 13 0
    let sb0 := i.fx 45 32
    let n := i.fc 14 0
    let q := seq k s
    let r := seq k src
    let nl := seqNl k s
    let pairs := if share && q.pool.isSome && n ≤ 16384 then sharePairs nl b0 sb0 n else []
    let badT := pairs.find? (fun p => entryMapped (shadowEntry k s p.1))
    let badS := pairs.find? (fun p => !entryMapped (shadowEntry k src p.2))
    let pg := overRefs k (q.pool.getD 0) (pairs.map (fun p => entryPage (shadowEntry k src p.2))) []
    (if opc == 1 then cReserved 128 i.x.toNat (resX 21 0 ++ resX 45 32) else []) ++
    cSeq i k 64 s ++
    [cOwnSeq i k] ++ (if share then cSeq i k 128 src else []) ++
    [cOnes 0 15 n, cZero 0 n, cRange 86 (decide (2 ≤ opc)), cRange 32 (decide (16384 < b0 + n)),
     cRange 160 (share && decide (16384 < sb0 + n)),
     cRange 64 (q.st != .free && q.pool.isNone),
     cRange 128 (share && r.st != .free && (r.pool.isNone || (q.st != .free && r.pool != q.pool))),
     cState 64 (q.st == .free) 0, cState 128 (share && r.st == .free) 0,
     (match badT with
      | some p => cState 32 true (entryArg (entryCode k q.pool (shadowEntry k s p.1)) (p.1 % nl) (p.1 / nl))
      | none => cState 32 false 0),
     (match badS with
      | some p => cState 160 true (entryArg 0 (p.2 % nl) (p.2 / nl))
      | none => cState 160 false 0),
     (match pg with | some g => cRes 160 true rNoResource g | none => cRes 160 false rNoResource 0),
     cRes 64 (decide (4096 ≤ (k.sched.edits.filter (fun d => d.ins.isSome)).length)) rNoResource 0,
     cRes 64 (decide (sysFree k < 4096 * shadowFrames (b0 * nl) ((b0 + n) * nl))) rNoResource 1]
  run i k :=
    let s := i.seq
    let nl := seqNl k s
    let b0 := i.fb 13 0
    let n := i.fc 14 0
    let share := i.fa 23 22 == 0
    let p := (seq k s).pool.getD 0
    let set := if share then (sharePairs nl b0 (i.fx 45 32) n).map (fun e => (e.1, shadowEntry k (i.fx 21 0) e.2)) else []
    let k1 := set.foldl (fun k e => modHdr k p (entryPage e.2) (fun h => { h with refs := h.refs + 1 })) k
    let fr := shadowFrames (b0 * nl) ((b0 + n) * nl)
    let k2 := sysTake k1 (4096 * fr)
    inFlight { k2 with sched := { k2.sched with edits := k2.sched.edits ++
      [{ seq := s, dom := seqDom k s, pool := p, frames := fr, share := share, b0 := b0, nblk := n, set := set, ins := some i }] } }
      { ins := i, key := s }

/-- PAGE_EDIT_PREPARED: the page engine has prepared every staged edit of a sequence (R265). -/
def pageEditPrepared (k : Core) (s : Nat) : Core :=
  { k with sched := { k.sched with edits := k.sched.edits.map (fun d => if d.seq = s then { d with prepared := true } else d) } }

/-! ## Publication and mapping -/

/-- Retire the instruction of a staged edit. -/
def retireEdit (k : Core) (d : Edit) (reason arg : Nat) : Core :=
  match d.ins with
  | none => k
  | some i => match k.flts.find? (fun f => f.ins = i) with
    | some f => retireFlt k f reason arg []
    | none => k

/-- The directory switches to the shadow: the segments and index pages of entries lo to hi − 1 have new frames (R265). -/
def shadowSwitch (k : Core) (s lo hi : Nat) : Core :=
  let hitS := fun (g : Nat) => decide (lo < 512 * (g + 1) ∧ 512 * g < hi)
  let hitX := fun (x : Nat) => decide (lo < 2 ^ 19 * (x + 1) ∧ 2 ^ 19 * x < hi)
  let q := seq k s
  let k1 := modSeq k s (fun q => { q with segs := mfilter (fun g _ => !hitS g) q.segs, idx := mfilter (fun x _ => !hitX x) q.idx })
  let k2 := ((q.idx.map Prod.fst).filter hitX).foldl (fun k x => openIndex k s x) k1
  ((q.segs.map Prod.fst).filter hitS).foldl (fun k g => openSegment k s g) k2
/-- What a sequence that returned to FREE still holds is given back: pages taken for copies, index pages and segments (R269). -/
def freeLists (k : Core) (d : Edit) : Core :=
  let q := seq k d.seq
  let k1 := (q.copying ++ q.copied).foldl (fun k c => unref k d.dom d.pool c.page) (sysGive k (4096 * heldFrames q))
  modSeq k1 d.seq (fun q => { q with idx := [], segs := [], copying := [], copied := [] })
/-- Publish one staged edit: the entries switch, an UNMAP takes its references, and the edit retires (R265, R269). -/
def publishEdit (k : Core) (d : Edit) : Core :=
  let nl := (pool k d.pool).nl
  let k0 := { k with sched := { k.sched with edits := k.sched.edits.erase d } }
  let k1 := if d.ins.isSome then shadowSwitch (sysGive k0 (4096 * d.frames)) d.seq (d.b0 * nl) ((d.b0 + d.nblk) * nl) else k0
  let k2 :=
    if d.share then d.set.foldl (fun k e => putEntry k d.seq e.1 e.2) k1
    else
      let hit := ((seq k1 d.seq).pages.filter (fun e => decide (d.b0 * nl ≤ e.1 ∧ e.1 < (d.b0 + d.nblk) * nl)))
      let k' := hit.foldl (fun k e => if entryMapped e.2 then unref k d.dom d.pool (entryPage e.2) else k) k1
      modSeq k' d.seq (fun q => { q with pages := hit.foldl (fun m e => mdel m e.1) q.pages })
  match d.ins with
  | some _ => retireEdit k2 d 0 0
  | none => freeLists k2 d

/-- Event 2 of a boundary: the edits of every sequence of the domain whose staged edits are all prepared (R265). -/
def publishAll (k : Core) (d : Nat) : Core :=
  let ready := k.sched.edits.filter (fun e => e.dom == d &&
    (k.sched.edits.all (fun g => g.seq != e.seq || g.prepared)))
  ready.foldl publishEdit k

/-- The entries a sequence appends into: blocks of positions lo to hi − 1, every layer (R266). -/
def appendEntries (nl lo hi : Nat) : List Nat :=
  if hi ≤ lo then [] else (upFrom (lo / 64 * nl) (((hi - 1) / 64 - lo / 64 + 1) * nl))

/-- How the mapping for one sequence's appends ends (R266). -/
inductive MapRes where
  | ok (k : Core)
  | leftOut (k : Core)

/-- Map the blocks a sequence appends into on this device, all or nothing (R266). A sequence with SHARED blocks is left out while
the page copier makes private copies of them. -/
def mapAppends (k : Core) (s lo hi : Nat) : MapRes :=
  let q := seq k s
  match q.pool with
  | none => .leftOut k
  | some p =>
    let es := appendEntries (pool k p).nl lo hi
    let shared := es.filter (fun e => entryCode k (some p) (pubEntry q e) == 2)
    let fresh := es.filter (fun e => !entryMapped (pubEntry q e))
    let need := fresh.length + shared.length
    if (pool k p).free < need then .leftOut (modPool k p (fun q => { q with short := (q.short + 1) % 2 ^ 32 }))
    else if sysFree k < 4096 * newFrames q fresh then .leftOut k
    else if shared.isEmpty then
      .ok (fresh.foldl (fun k e =>
        let (g, k1) := takePage k p
        putEntry k1 s e (entryWord g (pageHdr k1 p g).gen)) k)
    else
      .leftOut (shared.foldl (fun k e =>
        let (g, k1) := takePage k p
        modSeq k1 s (fun x => { x with copying := x.copying ++ [{ entry := e, page := g, old := pubEntry q e }] })) k)

end Sys2Proof.Machine
end

