-- ==== Sys2Proof/Machine/Build.lean ====
section
/-! DEFINITION. The Scheduler: eligibility, rank, the build of a step, its inputs in the step areas, and the delivery of the step
before (R288 to R291, R295, R297, R298, R300, R302 to R306). -/

namespace Sys2Proof.Machine

/-! ## Limits -/

def seqMax (k : Core) : Nat :=
  let n := rfld k oStepLimit 13 0
  if n = 0 ∨ 8192 < n then 8192 else n
def tokMax (k : Core) : Nat :=
  let n := rfld k oStepLimit 32 16
  if n = 0 ∨ 65536 < n then 65536 else n
/-- Minimum chunk in tokens (R290). -/
def minChunk (k : Core) : Nat := 64 * max 1 (rfld k oStepLimit 47 40)

/-! ## Budgets -/

/-- Cost of a prompt chunk of q tokens (R288). -/
def chunkCost (a : Acct) (q : Nat) : Nat := cdiv (q * a.pw) 16
/-- The account can pay (R288, R302 item 6). -/
def canPay (a : Acct) (c : Nat) : Bool :=
  decide (c = 0) || ((decide (a.rate = 0) || decide (c ≤ a.bucket)) && (a.unlim || decide (c ≤ a.balance)))
/-- What the account is charged (R289). -/
def chargeAcct (a : Acct) (c : Nat) : Acct :=
  if c = 0 then a
  else { a with bucket := if a.rate = 0 then a.bucket else a.bucket - c, balance := if a.unlim then a.balance else a.balance - c }
/-- Tokens the account can pay for; none when nothing bounds it. -/
def funds (a : Acct) : Option Nat :=
  if a.rate = 0 then (if a.unlim then none else some a.balance)
  else some (if a.unlim then a.bucket else min a.bucket a.balance)
/-- A chunk cut by R290: all of it where the account can pay, else the largest payable length that is a multiple of 64. -/
def cutChunk (a : Acct) (q : Nat) : Nat :=
  if canPay a (chunkCost a q) then q
  else match funds a with
    | none => q
    | some f => min q (f * 16 / max 1 a.pw) / 64 * 64

/-! ## Eligibility and rank -/

/-- A sequence needs a prompt chunk rather than a decode row. -/
def Seq.prompts (q : Seq) : Bool := decide (q.pLeft ≠ 0)
/-- The least a sequence costs (R291). -/
def leastCost (k : Core) (q : Seq) : Nat :=
  if q.prompts then chunkCost (acct k q.acct) (min (minChunk k) q.pLeft) else 1
/-- The set a step of the sequence runs on: a FOLLOW sequence of a swapped set runs on its successor, and on none once that is freed
(R295). -/
def effSet (k : Core) (q : Seq) : Nat :=
  match (mset' k q.mset).succ with
  | some n => if q.follow then n else q.mset
  | none => q.mset
/-- A sequence of context c may run on set m (R284). -/
def setServes (k : Core) (m c : Nat) : Bool := match (mset' k m).ctx with | some d => d == c | none => !ctxConf k c
/-- READY or DRAINING. -/
def serving (m : MSet) : Bool := m.st == .ready || m.st == .draining
/-- Every item of R302 but item 6; R328 leaves out a set that names a RECOVERING object, R266 an unbound sequence. -/
def eligibleBase (k : Core) (s : Nat) : Bool :=
  let q := seq k s
  let m := mset' k (effSet k q)
  ownedSeq k s && q.st == .queued && serving m && setServes k (effSet k q) (seqCtx k s) && (q.prompts || q.input.isSome) && q.waiting.isEmpty && q.pool.isSome &&
  k.sched.edits.all (fun d => d.seq != s || d.prepared) && q.copying.isEmpty &&
  (!ctxConf k (seqCtx k s) || (ctx k (seqCtx k s)).key.isSome) &&
  m.objs.all (fun h => (obj k h).recov.isEmpty)
/-- Eligible (R302). -/
def eligible (k : Core) (s : Nat) : Bool := eligibleBase k s && canPay (acct k (seq k s).acct) (leastCost k (seq k s))
/-- Urgent (R302). -/
def isUrgent (k : Core) (q : Seq) : Bool :=
  decide (rfld k oUrgentWait 15 0 ≠ 0) && decide (rfld k oUrgentWait 15 0 ≤ q.wait)
/-- Effective priority (R302). -/
def effPrio (k : Core) (q : Seq) : Nat := q.prio + q.wait / 2 ^ rfld k oAgeShift 3 0
/-- a comes before b in rank (R302). -/
def ranksBefore (k : Core) (a b : Nat) : Bool :=
  let x := seq k a
  let y := seq k b
  let ux := isUrgent k x
  let uy := isUrgent k y
  if ux != uy then ux
  else if ux then decide (y.wait < x.wait) || (x.wait == y.wait && decide (a < b))
  else decide (effPrio k y < effPrio k x) || (effPrio k x == effPrio k y &&
    (decide (y.wait < x.wait) || (x.wait == y.wait && decide (a < b))))
/-- Insert in rank order. -/
def rankInsert (k : Core) (s : Nat) : List Nat → List Nat
  | [] => [s]
  | t :: r => if ranksBefore k s t then s :: t :: r else t :: rankInsert k s r
/-- Sequences in rank order. -/
def rankSort (k : Core) (l : List Nat) : List Nat := l.foldr (rankInsert k) []

/-! ## The build (R303) -/

/-- What the build has gathered. -/
structure Bld where
  k : Core
  est : Nat
  n : Nat := 0
  tok : Nat := 0
  plan : List PlanEnt := []
  stop : Bool := false
  deferE : Nat := 0
  deferN : Nat := 0
  urgent : Nat := 0
  /-- left out by R290 or R266: the wait does not change -/
  left : List Nat := []
  /-- accounts with a sequence left out by R290 -/
  accts : List Nat := []
  deriving DecidableEq

/-- Leave a sequence out under R290; its account counts the step, once (R311). -/
def Bld.leaveAcct (b : Bld) (s : Nat) : Bld := { b with left := b.left ++ [s], accts := sput b.accts (seq b.k s).acct }

/-- Take a sequence with q rows on model set m (R289, R295, R303). -/
def Bld.take (b : Bld) (m s q e : Nat) (k' : Core) : Bld :=
  let x := seq b.k s
  let cost := if x.prompts then chunkCost (acct b.k x.acct) q else 1
  let u := isUrgent b.k x
  let qpos := if x.prompts then x.next else x.next - 1
  let all := x.prompts && q == x.pLeft
  let k1 := modAcct k' x.acct (fun a => chargeAcct a cost)
  let k2 := if all && x.pPinned then dropPin k1 x.pHandle else k1
  let k3 := modSeq k2 s (fun y => { y with
    st := .running, mset := m, wait := 0, edef := 0, urgent := u, faulted := false, pPinned := y.pPinned && !all })
  { b with
    k := k3, est := b.est + e, n := b.n + 1, tok := if x.prompts then b.tok + q else b.tok,
    urgent := b.urgent + b2n u,
    plan := b.plan ++ [{ seq := s, decode := !x.prompts, q := q, qpos0 := qpos, kvlen := qpos + q,
                         delivers := !x.prompts || all, urgent := u, energy := e }] }

/-- One sequence's turn (R303). f is the energy factor, a the allowance. -/
def Bld.turn (m f a : Nat) (b : Bld) (s : Nat) : Bld :=
  if b.stop then { b with deferN := b.deferN + 1 }
  else if b.n = seqMax b.k then { b with stop := true, deferN := b.deferN + 1 }
  else
    let x := seq b.k s
    let ac := acct b.k x.acct
    let ms := mset' b.k m
    let q1 := if x.prompts then min (min x.pLeft ms.chunk) (tokMax b.k - b.tok) else 1
    let q2 := if x.prompts then cutChunk ac q1 else 1
    let small := fun q => x.prompts && decide (q < minChunk b.k ∧ q < x.pLeft)
    if small q1 then { b with deferN := b.deferN + b2n (decide (tokMax b.k - b.tok < min x.pLeft ms.chunk)) }
    else if small q2 || (!x.prompts && !canPay ac 1) then b.leaveAcct s
    else
      let cost := fun q => if x.prompts then ms.eTok * q * f / 256 else (ms.eDec + ms.eKv * cdiv x.next 1024) * f / 256
      let forced := isUrgent b.k x && x.edef == 2
      let tooBig := fun q => decide (a < b.est + cost q)
      let q3 :=
        if tooBig q2 && !forced && x.prompts then
          let room := a + 1 - b.est
          let q := if ms.eTok * f = 0 then q2 else min q2 ((256 * room - 1) / (ms.eTok * f) / 64 * 64)
          if b.est ≤ a ∧ minChunk b.k ≤ q then q else q2
        else q2
      if tooBig q3 && !forced then
        { b with deferE := b.deferE + 1, k := modSeq b.k s (fun y => { y with edef := min (y.edef + 1) 2 }) }
      else
        let lo := if x.prompts then x.next else x.next - 1
        match mapAppends b.k s lo (lo + q3) with
        | .leftOut k' => { b with k := k', left := b.left ++ [s] }
        | .ok k' => b.take m s q3 (cost q3) k'

/-- The model set of the step: that of the first member, or its successor (R303). -/
def stepSet (k : Core) (c : List Nat) : Option Nat := c.head?.map (fun s => effSet k (seq k s))

/-- Build the next step of domain d from the eligible sequences in rank order, with allowance a (R303). -/
def buildStep (k : Core) (d a : Nat) : Bld :=
  let elig := rankSort k ((domSeqs k d).filter (eligible k))
  match stepSet k elig with
  | none => { k := k, est := 0 }
  | some m =>
    let f := (mset' k m).factor
    let c := elig.filter (fun s => effSet k (seq k s) == m)
    let u := c.filter (fun s => isUrgent k (seq k s))
    let dec := c.filter (fun s => !isUrgent k (seq k s) && !(seq k s).prompts)
    let pro := c.filter (fun s => !isUrgent k (seq k s) && (seq k s).prompts)
    let b := (u ++ dec ++ pro).foldl (Bld.turn m f a) { k := k, est := (mset' k m).eFix * f / 256 }
    let waits := elig.filter (fun s => !(b.plan.any (fun p => p.seq == s)) && !b.left.contains s)
    { b with k := waits.foldl (fun k s => modSeq k s (fun q => { q with wait := min 65535 (q.wait + 1) })) b.k }

/-! ## Step areas (R297, R298) -/

/-- Line of the staging memory at which a die's line lies. -/
def stgLine (die line : Nat) : Nat := die * 524288 + line
/-- First line of quarter q's step area. -/
def stepArea (q : Nat) : Nat := stgLine (q / 2) (245760 + 262144 * (q % 2))

/-- A length-table entry (R250, R298). -/
def lengthEntry (p : PlanEnt) : List Byte :=
  leBytes 4 p.seq ++ leBytes 4 p.qpos0 ++ leBytes 4 p.q ++ leBytes 4 p.kvlen ++ leBytes 16 0

/-- A sampling parameter record (R221, R298). -/
def paramRecord (q : Seq) (p : PlanEnt) : List Byte :=
  leBytes 4 q.invt.toNat ++ leBytes 4 q.topp.toNat ++ leBytes 4 q.topk ++ leBytes 4 p.seq ++ leBytes 8 q.seed.toNat ++
  leBytes 4 p.kvlen ++ leBytes 4 0

/-- The placeholder of a delivering entry: token 0xFFFF_FFFF, log-probability zero, INVALID set (R298). -/
def placeholder : List Byte := leBytes 4 0xFFFFFFFF ++ leBytes 2 0 ++ leBytes 2 4

/-- Words of four bytes of lines, each with the poison of its line. -/
def wordsIn (ls : List (Line × Bool)) : List (List Byte × Bool) :=
  ls.flatMap (fun l => (upFrom 0 16).map (fun i => (leBytes 4 (l.1.toNat / 2 ^ (32 * i)), l.2)))
/-- The lines that hold the next n tokens of a sequence's prompt are read; tokens of a LOST object are poisoned (R156, R298, R319). -/
def readPrompt (k : Core) (d s n : Nat) : Fetched :=
  let q := seq k s
  let l := q.pOff / 16
  let m := (q.pOff + n - 1) / 16 + 1 - l
  match readObj k { seq := some s } d q.pHandle l m with
  | .lost _ => .lines k (List.replicate m (0, true))
  | x => x
/-- The prompts of a plan are read, or the requests for them go out and the step's inputs wait for them (R298, R319, R327). -/
def openPrompts (k : Core) (d : Nat) (p : List PlanEnt) : Core × Bool :=
  (p.filter (fun e => !e.decode)).foldl (fun r e =>
    match readPrompt r.1 d e.seq e.q with
    | .wait k1 => (k1, true)
    | _ => r) (k, false)
/-- Input tokens of an entry, with their poison (R298). -/
def inputTokens (k : Core) (d : Nat) (p : PlanEnt) : Core × List (List Byte × Bool) :=
  let q := seq k p.seq
  if p.decode then (k, [(leBytes 4 (q.input.getD 0).toNat, false)])
  else match readPrompt k d p.seq p.q with
    | .lines k1 ls => (abandonPrompt k1 p.seq, ((wordsIn ls).drop (q.pOff % 16)).take p.q)
    | _ => (k, [])
/-- Input tokens of a plan. -/
def planTokens (k : Core) (d : Nat) : List PlanEnt → Core × List (List Byte × Bool)
  | [] => (k, [])
  | p :: r =>
    let a := inputTokens k d p
    let b := planTokens a.1 d r
    (b.1, a.2 ++ b.2)

/-- The step header (R297). -/
def stepHeader (num t0 t1 t2 m d est allow : Nat) : List Byte :=
  leBytes 8 num ++ leBytes 4 t0 ++ leBytes 4 t1 ++ leBytes 4 t2 ++ leBytes 1 m ++ leBytes 1 d ++ leBytes 2 0 ++
  leBytes 8 est ++ leBytes 8 allow ++ leBytes 24 0

/-- Write bytes into the staging memory with valid check bits. -/
def stgPut (k : Core) (addr : Nat) (l : List Byte) : Core :=
  { k with stg := (k.stg.putBytes 0 addr l).setBads false (addr / 8) (cdiv l.length 8) }

/-- Write tokens into the staging memory; a poisoned one poisons its 64-bit word (R156). -/
def stgTokens (k : Core) (addr : Nat) (l : List (List Byte × Bool)) : Core :=
  l.zipIdx.foldl (fun k x => if x.1.2 then { k with stg := k.stg.setBad ((addr + 4 * x.2) / 8) true } else k)
    (stgPut k addr (l.flatMap Prod.fst))
/-- Write one quarter's copy of the step area. -/
def writeArea (k : Core) (u : UStep) (hdr : List Byte) (toks : List (List Byte × Bool)) (q : Nat) : Core :=
  let base := 64 * stepArea q
  let put := fun (k : Core) (x : PlanEnt × Nat) =>
    let (p, i) := x
    let k1 := stgPut (stgPut k (base + 32 * i) (lengthEntry p)) (base + 64 * 4096 + 32 * i) (paramRecord (seq k p.seq) p)
    if p.delivers then stgPut k1 (base + 64 * 8192 + 8 * i) placeholder else k1
  let k1 := u.plan.zipIdx.foldl put k
  let k2 := stgTokens k1 (base + 64 * 9216) toks
  stgPut k2 (base + 64 * 13824) hdr

/-! ## Delivery of the step before (event 1 of R300) -/

/-- Sample record of entry i in the copy of the lowest-numbered quarter (R224, R299): token, log-probability, flags, poison. -/
def sampleRecord (k : Core) (d i : Nat) : Nat × Nat × Nat × Bool :=
  match quartersOf k d with
  | [] => (0, 0, 0, true)
  | q :: _ =>
    let a := 64 * stepArea q + 64 * 8192 + 8 * i
    let l := k.stg.bytes 0 a 8
    (ofLE (l.take 4), ofLE ((l.drop 4).take 2), ofLE (l.drop 6), k.stg.isBad (a / 8))

/-- A prompt chunk of the step advances its sequence, ended meanwhile or not, unless the sequence has been opened anew (R305). -/
def advancePrompt (k : Core) (p : PlanEnt) : Core :=
  let q := seq k p.seq
  if p.decode || !(q.st == .running || ((q.st == .cancelled || q.st == .failed) && q.next == p.qpos0)) then k
  else modSeq k p.seq (fun q => { q with next := q.next + p.q, pOff := q.pOff + p.q, pLeft := q.pLeft - p.q })

/-- Deliver one entry, or end its sequence (R304, R306). -/
def deliverEntry (k : Core) (d : Nat) (x : PlanEnt × Nat) : Core :=
  let (p, i) := x
  if !p.delivers || (seq k p.seq).st != .running then k
  else
    let (tok, lp, fl, bad) := sampleRecord k d i
    if bad then failSeq k p.seq rUncorrectable
    else if bit fl 2 then failSeq k p.seq rOverrun
    else deliver k p.seq { pos := p.kvlen, token := BitVec.ofNat 32 tok, logp := lp, urgent := p.urgent,
                             stop := (seq k p.seq).stops.contains (BitVec.ofNat 32 tok) && decide (BitVec.ofNat 32 tok ≠ (0xFFFFFFFF : W32)) }

/-- Event 1: sequence faults end their sequences first, then prompt chunks advance and records are committed in entry order
(R262, R300, R304). -/
def deliverStep (k : Core) (d : Nat) (u : UStep) : Core :=
  let k1 := u.plan.foldl (fun k p => if (seq k p.seq).faulted && (seq k p.seq).st == .running then failSeq k p.seq rWrongState else k) k
  let k2 := u.plan.foldl advancePrompt k1
  u.plan.zipIdx.foldl (fun k x => deliverEntry k d x) k2

/-- Page copies done are mapped: the entry names the copy and the shared page loses a reference. Where the entry has changed since, the
copy goes back (R266, assumption 51). -/
def remapCopies (k : Core) (d s : Nat) : Core :=
  let q := seq k s
  match q.pool with
  | none => k
  | some p =>
    let k1 := q.copied.foldl (fun k c =>
      if pubEntry (seq k s) c.entry = c.old then
        unref (putEntry k s c.entry (entryWord c.page (pageHdr k p c.page).gen)) d p (entryPage c.old)
      else unref k d p c.page) k
    modSeq k1 s (fun q => { q with copied := [] })

/-- PAGE_COPY_DONE: all lines of each shared page are in the sequence's new pages (R266). -/
def pageCopyDone (k : Core) (s : Nat) : Core :=
  let q := seq k s
  match q.pool with
  | none => k
  | some p =>
    let h := (pool k p).obj
    let pl := (pool k p).pl
    let k1 := q.copying.foldl (fun k c =>
      (upFrom 0 pl).foldl (fun k l =>
        let (v, bad) := copyLine k h (entryPage c.old * pl + l)
        putObjLine k h (c.page * pl + l) (plainLine k h (entryPage c.old * pl + l) v) bad) k) k
    modSeq k1 s (fun q => { q with copied := q.copied ++ q.copying, copying := [] })

end Sys2Proof.Machine
end

