-- ==== Sys2Proof/Machine/TileCheck.lean ====
section
/-! DEFINITION. The checks of a tile word that its own bits decide (R127, R131, R141, R151 to R154, R180 to R183, R207 to R220, R237, R275):
made on every word when a program is loaded, and part of what makes a word executable. -/

namespace Sys2Proof.Machine

/-! ## Words -/

def TIns.fa (i : TIns) (hi lo : Nat) : Nat := bits i.a.toNat hi lo
def TIns.fb (i : TIns) (hi lo : Nat) : Nat := bits i.b.toNat hi lo
def TIns.fc (i : TIns) (hi lo : Nat) : Nat := bits i.c.toNat hi lo
def TIns.fx (i : TIns) (hi lo : Nat) : Nat := bits i.x.toNat hi lo

/-- The instruction of a main word and an extension word at word index n (R107). -/
def insOfWord (n : Nat) (w x : W128) : TIns :=
  let v := w.toNat
  { widx := n, fence := bit v 114, last := bit v 113, wen := bit v 111, wctr := bits v 109 104, sen := bit v 103, sctr := bits v 101 96,
    cls := bits v 119 116, op := bits v 127 120, a := BitVec.ofNat 32 (bits v 95 64), b := BitVec.ofNat 32 (bits v 63 32),
    c := BitVec.ofNat 32 (bits v 31 0), x := x }

/-- The instruction a tile row's operands name. -/
def mkTIns (h : TileHdr) (cls op : Nat) (a b c : W32) (x : W128) : TIns :=
  { widx := h.widx.toNat, fence := h.fence, last := h.last, wen := h.wen, wctr := h.wctr.toNat, sen := h.sen, sctr := h.sctr.toNat,
    cls := cls, op := op, a := a, b := b, c := c, x := x }

/-- The Tile Sequencer executes the instruction itself (R129, R150). -/
def isTs (cls op : Nat) : Bool := cls == 0xA && ([0x01, 0x10, 0x11, 0x12, 0x20, 0x21, 0x22].contains op)

/-- Opcodes of a tile class (R150, R152, R182, R214, R236, R274). -/
def tileOps (cls : Nat) : List Nat :=
  if cls = 5 then [0x81, 0x82, 0x83, 0x84]
  else if cls = 6 then [0x01, 0x02, 0x83]
  else if cls = 7 then upFrom 0x81 14
  else if cls = 8 then [0x81, 0x82, 0x83]
  else if cls = 9 then [0x81, 0x02]
  else [0x01, 0x02, 0x03, 0x04, 0x10, 0x11, 0x12, 0x20, 0x21, 0x22]

/-! ## Places (R144) -/

/-- SPACE of a place. -/
def plSpace (p : Nat) : Nat := bits p 31 28
/-- INDEX of a place. -/
def plIndex (p : Nat) : Nat := bits p 27 0
/-- The reserved field of a place's INDEX, in an operand whose bit 0 is at the given position. -/
def plRes (p pos : Nat) : List (Nat × Nat) :=
  match plSpace p with
  | 1 => [(pos + 27, pos + 8)]
  | 2 => [(pos + 27, pos + 1)]
  | 3 => [(pos + 27, pos + 24)]
  | 4 => [(pos + 27, pos + 12)]
  | _ => []
/-- Lines of a place whose size is fixed. -/
def plLines (p : Nat) : Option Nat :=
  match plSpace p with
  | 1 => some 24576
  | 2 => some 524288
  | _ => none
/-- The extent [off, off + n) passes the place's end. -/
def plOver (p off n : Nat) : Bool := match plLines p with | some m => decide (m < off + n) | none => false

/-- Tile memory lines. -/
def tmLines : Nat := 24576

/-! ## DM (R151 to R154) -/

/-- Element width of DM.TRANS in bits. -/
def esize (n : Nat) : Nat := 4 * 2 ^ n

/-- A matrix of line runs: n rows of l lines, pitch p apart. -/
structure Ext where
  start : Nat
  pitch : Nat
  rows : Nat
  len : Nat
  deriving DecidableEq, Repr

/-- One past the last line of an extent. -/
def Ext.stop (e : Ext) : Nat := e.start + (e.rows - 1) * e.pitch + e.len
/-- First lines of the rows. -/
def Ext.starts (e : Ext) : List Nat := (upFrom 0 e.rows).map (fun r => e.start + r * e.pitch)
/-- Two extents share a line. -/
def Ext.meets (a b : Ext) : Bool :=
  a.starts.any (fun s => b.starts.any (fun t => decide (s < t + b.len ∧ t < s + a.len)))

/-- Source extent of a DM instruction, its offset moved by d lines. -/
def dmSrc (i : TIns) (d : Nat) : Ext :=
  if i.op = 0x81 then ⟨i.b.toNat + d, 0, 1, i.c.toNat⟩
  else ⟨i.b.toNat, i.fx 111 96, i.fc 15 0, i.fc 31 16⟩
/-- Lines of one destination row. -/
def dmRowLines (i : TIns) : Nat :=
  if i.op = 0x83 then i.fc 15 0 * esize (i.fx 87 86) / 512 else i.fc 31 16
/-- Destination extent of DM.COPY, DM.STRIDE and DM.TRANS. -/
def dmDst (i : TIns) (d : Nat) : Ext :=
  if i.op = 0x81 then ⟨i.fx 63 32 + d, 0, 1, i.c.toNat⟩
  else if i.op = 0x82 then ⟨i.fx 63 32, i.fx 127 112, i.fc 15 0, i.fc 31 16⟩
  else ⟨i.fx 63 32, i.fx 127 112, i.fc 31 16 * 512 / esize (i.fx 87 86), dmRowLines i⟩
/-- Destination place: DPLACE, or A of DM.FILL. -/
def dmDstPlace (i : TIns) : Nat := if i.op = 0x84 then i.a.toNat else i.fx 31 0
/-- Lines an indexed DM.COPY adds to an offset. -/
def TIns.step (i : TIns) : Nat := i.tval.toNat * i.fx 127 96
/-- Lines of the source and of the destination with the index added. -/
def TIns.srcExt (i : TIns) : Ext := dmSrc i (if i.op = 0x81 ∧ i.fx 84 84 = 1 then i.step else 0)
def TIns.dstExt (i : TIns) : Ext :=
  if i.op = 0x84 then ⟨i.b.toNat, 0, 1, i.c.toNat⟩ else dmDst i (if i.op = 0x81 ∧ i.fx 85 85 = 1 then i.step else 0)

/-- Reserved fields of the DM extension word. -/
def dmExtRes (i : TIns) : List (Nat × Nat) :=
  if i.op = 0x84 then []
  else
    plRes (i.fx 31 0) 0 ++ resX 70 70 ++ resX 95 88 ++
    (if i.op = 0x83 then [] else resX 87 86) ++ (if i.op = 0x81 then [] else resX 84 84 ++ resX 85 85) ++
    (if plSpace (i.fx 31 0) = 4 then resX 69 64 ++ resX 71 71 ++ resX 79 72 else [])

/-- Checks 5 to 8 of a DM word; those on indexed extents wait for the dispatch. A peer object is no source and nothing DM.FILL writes
(R144, R415, assumption 67). -/
def dmChks (i : TIns) : List Chk :=
  let a := i.a.toNat
  if i.op = 0x84 then
    cSize 0 32 i.c.toNat ++
    [cRange 92 (plSpace a = 0 || decide (3 < plSpace a)), cRange 32 (plOver a i.b.toNat i.c.toNat)]
  else
    let dp := i.fx 31 0
    let src := dmSrc i 0
    let dst := dmDst i 0
    let sidx := i.op == 0x81 && i.fx 84 84 == 1
    let didx := i.op == 0x81 && i.fx 85 85 == 1
    (if i.op = 0x81 then cSize 0 32 i.c.toNat
     else cSize 0 16 (i.fc 15 0) ++ cSize 16 16 (i.fc 31 16) ++ cSize 240 16 (i.fx 127 112) ++ [cOnes 224 16 (i.fx 111 96)]) ++
    [cRange 92 (plSpace a = 0 || decide (3 < plSpace a)), cRange 156 (plSpace dp = 0 || decide (4 < plSpace dp)),
     cAlign 0 (i.op == 0x83 && decide (i.fc 15 0 * esize (i.fx 87 86) % 512 ≠ 0)),
     cRange 240 (i.op != 0x81 && decide (i.fx 127 112 < dmRowLines i)),
     cRange 32 (!sidx && (match plLines a with | some n => decide (n < src.stop) | none => false)),
     cRange 160 (!didx && (match plLines dp with | some n => decide (n < dst.stop) | none => false)),
     cRange 160 (!sidx && !didx && a == dp && src.meets dst)]

/-! ## HX (R141, R150) -/

/-- Reserved operand fields of an HX word. -/
def hxRes (op : Nat) : List (Nat × Nat) :=
  if op = 0x01 then noA ++ noB ++ noC
  else if op = 0x02 then resA 31 6 ++ resB 31 16 ++ noC
  else if op = 0x03 then resA 7 6 ++ resA 31 16 ++ resB 31 16 ++ noC
  else if op = 0x04 then resA 15 10 ++ resA 31 22 ++ resB 31 16 ++ noC
  else if op = 0x10 then resA 31 4 ++ noC
  else if op = 0x11 then resA 31 9 ++ noC
  else if op = 0x12 then resA 31 4 ++ resB 31 15 ++ resC 31 4
  else if op = 0x20 then noA ++ noB
  else if op = 0x21 then resA 31 13
  else resA 31 4 ++ noB

/-- Checks 5 to 8 of an HX word in a program of pw words. -/
def hxChks (i : TIns) (pw : Nat) : List Chk :=
  let tgt := cRange 0 (decide (pw ≤ i.c.toNat))
  if i.op = 0x03 then cSize 32 16 (i.fb 15 0)
  else if i.op = 0x04 then cSize 32 16 (i.fb 15 0) ++ [cRange 32 (decide (256 < i.fb 15 0))]
  else if i.op = 0x12 then [cRange 32 (decide (tmLines ≤ i.fb 14 0))]
  else if i.op = 0x20 ∨ i.op = 0x22 then [tgt]
  else if i.op = 0x21 then [tgt, cRange 72 (decide (3 < i.fa 11 8))]
  else []

/-! ## MX (R160, R180 to R183) -/

/-- Lines per activation row, per weight row and per output row (R160). -/
def actLines (f : Nat) : Nat := if f = 0 then 2 else 1
def outLines (f : Nat) : Nat := if f = 0 then 2 else if f = 6 then 4 else 1

/-- Tiles of a quarter with three enabled engines, by grade code (R179). -/
def threeTiles (grade : Nat) : Nat := if grade = 1 then 16 else if grade = 2 then 32 else 64
/-- Rank of a tile within its quarter, in ascending tile ID. -/
def tileRank (t : Nat) : Nat := t / 16 % 8 * 8 + t % 8
/-- Engine k of logical tile t is disabled in the reference map (R181). -/
def refDisabled (grade t k : Nat) : Bool := k == 3 && decide (64 - threeTiles grade ≤ tileRank t)

/-- Reserved operand fields of an MX word. -/
def mxRes (i : TIns) : List (Nat × Nat) :=
  (if i.fa 10 10 = 1 then resA 9 2 else []) ++
  (if i.op = 0x01 then resA 11 11 ++ resA 15 15 ++ resA 31 23 ++ resB 31 15 ++ noC
   else if i.op = 0x02 then resA 31 17 ++ resB 31 15 ++ (if i.fa 16 16 = 1 then resB 14 0 else []) ++ resC 15 10 ++ resC 31 25
   else resA 31 18 ++ resB 31 15 ++ resC 15 10 ++ resC 31 25)

def mxExtRes (i : TIns) : List (Nat × Nat) :=
  if i.op = 0x83 then
    resX 15 15 ++ resX 31 31 ++ resX 47 47 ++ resX 127 64 ++ (if i.fa 15 15 = 0 then resX 14 0 else []) ++
    (if i.fa 16 16 = 0 then resX 30 16 else []) ++ (if i.fa 17 17 = 0 then resX 46 32 else [])
  else []

def mxChks (i : TIns) (grade : Nat) : List Chk :=
  let f := i.fa 14 12
  let e := i.fa 9 0
  let rows := i.fc 9 0
  let ost := i.fc 24 16
  cRange 64 (i.fa 10 10 == 0 && refDisabled grade (e / 4) (e % 4)) ::
  (if i.op = 0x01 then
    let n := i.fa 22 16
    cSize 80 7 n ++ [cRange 80 (decide (64 < n)), cRange 76 (decide (5 < f)), cRange 32 (decide (tmLines < i.fb 14 0 + n * actLines f))]
   else if i.op = 0x02 then
    cSize 0 10 rows ++
    [cRange 0 (decide (512 < rows)), cRange 16 (decide (512 < ost + rows)), cRange 76 (decide (5 < f)),
     cRange 32 (i.fa 16 16 == 0 && decide (tmLines < i.fb 14 0 + rows * actLines f))]
   else
    cSize 0 10 rows ++ cSize 176 16 (i.fx 63 48) ++
    [cRange 0 (decide (512 < rows)), cRange 16 (decide (512 < ost + rows)), cRange 76 (decide (f = 4 ∨ f = 5 ∨ f = 7)),
     cRange 176 (decide (i.fx 63 48 < outLines f)),
     cRange 32 (decide (tmLines < i.fb 14 0 + (rows - 1) * i.fx 63 48 + outLines f)),
     cRange 128 (i.fa 15 15 == 1 && decide (tmLines < i.fx 14 0 + 4)),
     cRange 144 (i.fa 16 16 == 1 && decide (tmLines < i.fx 30 16 + cdiv rows 16)),
     cRange 160 (i.fa 17 17 == 1 && decide (tmLines < i.fx 46 32 + 4))])

/-! ## VX (R207 to R220) -/

/-- Width in bits of a format code of R160. -/
def fmtBits (f : Nat) : Nat := if f = 0 then 16 else if f = 4 ∨ f = 5 then 4 else if f = 6 then 32 else 8
/-- Lines of a row of n elements (R207). -/
def rowLen (f n : Nat) : Nat := cdiv (n * fmtBits f) 512

def TIns.vRows (i : TIns) : Nat := i.fc 11 0
def TIns.vLen (i : TIns) : Nat := i.fc 31 12
def TIns.vAf (i : TIns) : Nat := i.fa 17 15
def TIns.vBf (i : TIns) : Nat := i.fa 20 18
def TIns.vDf (i : TIns) : Nat := i.fa 23 21
def TIns.vBm (i : TIns) : Nat := i.fa 25 24
/-- PARAM. -/
def TIns.vPar (i : TIns) (hi lo : Nat) : Nat := i.fx (96 + hi) (96 + lo)
/-- MODE 2 of VX.SAMPLE reads candidate blocks. -/
def TIns.isMerge (i : TIns) : Bool := i.op == 0x8C && i.vPar 1 0 == 2

/-- A pitch of 0 is the row's own length. -/
def pitchOf (p l : Nat) : Nat := if p = 0 then l else p

/-- Lines operand A occupies. -/
def vxA (i : TIns) : Ext :=
  let l := if i.isMerge then 9 * i.vLen else rowLen i.vAf i.vLen
  ⟨i.fa 14 0, pitchOf (i.fx 15 0) l, i.vRows, l⟩
/-- Lines operand B occupies (R208, R218, R221, R235). -/
def vxB (i : TIns) : Option Ext :=
  let row := rowLen i.vBf i.vLen
  if i.op = 0x8C then some ⟨i.fb 14 0, 0, 1, cdiv i.vRows 2⟩
  else if i.op = 0x8A then some ⟨i.fb 14 0, row, 1 + i.vPar 1 1, row⟩
  else if i.op = 0x8E then
    (if i.vPar 1 0 = 2 then some ⟨i.fb 14 0, pitchOf (i.fx 31 16) row, 1, row⟩ else none)
  else if 0x88 ≤ i.op ∧ i.op ≠ 0x8A then none
  else if i.vBm = 0 then some ⟨i.fb 14 0, pitchOf (i.fx 31 16) row, i.vRows, row⟩
  else if i.vBm = 1 then some ⟨i.fb 14 0, 0, 1, row⟩
  else if i.vBm = 2 then some ⟨i.fb 14 0, 0, 1, cdiv i.vRows 16⟩
  else none
/-- Lines the destination occupies. -/
def vxD (i : TIns) : Ext :=
  let d := i.fb 30 16
  if i.op = 0x88 then ⟨d, 0, 1, cdiv i.vRows 16⟩
  else if i.op = 0x89 then ⟨d, 0, 1, cdiv i.vLen 16⟩
  else if i.op = 0x8C then
    (if i.vPar 1 0 = 1 then ⟨d, i.fx 47 32, i.vRows, 9⟩ else ⟨d, 0, 1, cdiv i.vRows 8⟩)
  else let l := rowLen i.vDf i.vLen; ⟨d, pitchOf (i.fx 47 32) l, i.vRows, l⟩

/-- D coincides with A, row for row (R211). -/
def vxSame (i : TIns) : Bool :=
  let a := vxA i
  let d := vxD i
  a.start == d.start && a.len == d.len && a.rows == d.rows && (a.pitch == d.pitch || a.rows == 1)

/-- Reserved fields of A and B of a VX word: those the instruction does not use. -/
def vxRes (i : TIns) : List (Nat × Nat) :=
  let o := i.op
  let noB := resB 14 0 ++ resA 20 18
  let bm := resA 25 24
  resA 31 26 ++ resB 15 15 ++ resB 31 31 ++
  (if o ≤ 0x87 then (if i.vBm = 3 then noB else [])
   else if o = 0x8A then []
   else if o = 0x8C then bm ++ resA 20 18 ++ resA 23 21
   else if o = 0x8E then (if i.vPar 1 0 = 2 then [] else noB ++ bm) ++ resA 14 0
   else noB ++ bm)

def vxExtRes (i : TIns) : List (Nat × Nat) :=
  let o := i.op
  let par := fun lo => resX 127 (96 + lo)
  resX 63 48 ++
  (if o ≤ 0x87 then
    (if i.vBm = 0 ∧ o ≠ 0x86 then [] else resX 31 16) ++ (if i.vBm = 3 then [] else resX 95 64) ++ (if o = 0x87 then par 4 else par 0)
   else if o = 0x88 then resX 31 16 ++ resX 47 32 ++ resX 95 64 ++ par 2
   else if o = 0x89 then resX 31 16 ++ resX 47 32 ++ resX 95 64 ++ par 1
   else if o = 0x8A then resX 31 16 ++ par 2
   else if o = 0x8B then resX 31 16 ++ par 20
   else if o = 0x8C then resX 31 16 ++ (if i.vPar 1 0 = 1 then [] else resX 95 64) ++ par 2
   else if o = 0x8D then resX 31 16 ++ resX 95 64 ++ par 9
   else resX 15 0 ++ resX 95 64 ++ (if i.vPar 1 0 = 2 then [] else resX 31 16 ++ resX 101 100) ++ resX 99 98 ++ par 6)

def vxChks (i : TIns) : List Chk :=
  let o := i.op
  let d := vxD i
  let usesB := (vxB i).isSome && o != 0x8C
  cSize 0 12 i.vRows ++ cSize 12 20 i.vLen ++
  [cOnes 128 16 (i.fx 15 0), cOnes 144 16 (i.fx 31 16), cOnes 160 16 (i.fx 47 32)] ++
  (if o = 0x8B then [cOnes 224 20 (i.vPar 19 0)] else []) ++
  [cRange 79 (i.vAf == 7), cRange 82 (usesB && i.vBf == 7),
   cRange 85 (o != 0x8C && i.vDf == 7), cRange 85 ((o == 0x88 || o == 0x89) && i.vDf != 6),
   cRange 88 ((o == 0x86 && i.vBm == 0) || (o == 0x8A && i.vBm != 1) || (o == 0x8E && i.vPar 1 0 == 2 && i.vBm != 0)),
   cRange 224 (o == 0x87 && decide (10 < i.vPar 3 0)),
   cRange 224 (o == 0x8B && decide (i.vLen < i.vPar 19 0)),
   cRange 224 ((o == 0x8C || o == 0x8E) && i.vPar 1 0 == 3),
   cRange 224 (o == 0x8D && !([64, 128, 256].contains (i.vPar 8 0))),
   cAlign 12 (o == 0x8D && [64, 128, 256].contains (i.vPar 8 0) && decide (i.vLen % i.vPar 8 0 ≠ 0)),
   cRange 160 (o == 0x8C && i.vPar 1 0 == 1 && decide (i.fx 47 32 < 9)),
   cRange 64 (o != 0x8E && decide (tmLines < (vxA i).stop)),
   cRange 32 (match vxB i with | some b => decide (tmLines < b.stop) | none => false),
   cRange 48 (decide (tmLines < d.stop)),
   cRange 48 (o != 0x8E && !(vxSame i && o != 0x8C) && d.meets (vxA i)),
   cRange 48 (match vxB i with
     | some b => (o == 0x8A || o == 0x8C || o == 0x8E || i.vBm != 2) && d.meets b
     | none => false)]

/-! ## CV (R227, R228, R236, R237) -/

/-- Elements per chunk (R160). -/
def chunkK (f : Nat) : Nat := if f = 4 ∨ f = 5 then 128 else 64
/-- Geometry of a CV.SETUP. -/
def TIns.cvFmt (i : TIns) : Nat := i.fa 17 15
def TIns.cvNl (i : TIns) : Nat := i.fa 21 18
def TIns.cvH (i : TIns) : Nat := i.fb 15 0
def TIns.cvW (i : TIns) : Nat := i.fb 31 16
def TIns.cvC (i : TIns) : Nat := i.fc 15 0
def TIns.cvKh (i : TIns) : Nat := i.fx 3 0
def TIns.cvKw (i : TIns) : Nat := i.fx 7 4
def TIns.cvSy (i : TIns) : Nat := i.fx 9 8 + 1
def TIns.cvSx (i : TIns) : Nat := i.fx 11 10 + 1
def TIns.cvDy (i : TIns) : Nat := i.fx 13 12 + 1
def TIns.cvDx (i : TIns) : Nat := i.fx 15 14 + 1
/-- Pitch of a pixel in lines. -/
def TIns.cvP (i : TIns) : Nat := cdiv i.cvC (chunkK i.cvFmt) * actLines i.cvFmt
/-- Pitch of a map row in lines. -/
def TIns.cvRp (i : TIns) : Nat := pitchOf (i.fc 31 16) (i.cvW * i.cvP)
/-- Resident rows in whole-map mode. -/
def TIns.cvHt (i : TIns) : Nat := if i.fx 63 48 = 0 then i.cvH else i.fx 63 48
/-- Output rows and columns; zero where the kernel does not fit. -/
def TIns.cvOh (i : TIns) : Nat :=
  let n := i.cvH + i.fx 19 16 + i.fx 27 24
  let s := (i.cvKh - 1) * i.cvDy + 1
  if n < s then 0 else (n - s) / i.cvSy + 1
def TIns.cvOw (i : TIns) : Nat :=
  let n := i.cvW + i.fx 23 20 + i.fx 31 28
  let s := (i.cvKw - 1) * i.cvDx + 1
  if n < s then 0 else (n - s) / i.cvSx + 1

def cvRes (i : TIns) : List (Nat × Nat) := if i.op = 0x81 then resA 31 22 else resA 7 5 ++ resC 31 10
def cvExtRes (i : TIns) : List (Nat × Nat) :=
  if i.op = 0x81 then resX 127 65 ++ (if i.cvNl = 0 then [] else resX 63 48 ++ resX 47 32) else []

def cvChks (i : TIns) : List Chk :=
  if i.op = 0x81 then
    let ring := decide (i.cvNl ≠ 0)
    let rowsEnd := fun n => i.fa 14 0 + (n - 1) * i.cvRp + i.cvW * i.cvP
    cSize 32 16 i.cvH ++ cSize 48 16 i.cvW ++ cSize 0 16 i.cvC ++
    cSize 128 4 i.cvKh ++ cSize 132 4 i.cvKw ++
    [cOnes 16 16 (i.fc 31 16), cOnes 176 16 (i.fx 63 48), cOnes 144 4 (i.fx 19 16), cOnes 148 4 (i.fx 23 20), cOnes 152 4 (i.fx 27 24), cOnes 156 4 (i.fx 31 28),
     cRange 79 (decide (5 < i.cvFmt)), cRange 82 (decide (12 < i.cvNl)),
     cRange 16 (decide (i.fc 31 16 ≠ 0) && decide (i.fc 31 16 < i.cvW * i.cvP)),
     cRange 128 (decide (11 < i.cvKh)), cRange 132 (decide (11 < i.cvKw)),
     cRange 144 (decide ((i.cvKh - 1) * i.cvDy < i.fx 19 16)), cRange 152 (decide ((i.cvKh - 1) * i.cvDy < i.fx 27 24)),
     cRange 148 (decide ((i.cvKw - 1) * i.cvDx < i.fx 23 20)), cRange 156 (decide ((i.cvKw - 1) * i.cvDx < i.fx 31 28)),
     cRange 32 (decide (i.cvOh = 0)), cRange 48 (decide (i.cvOw = 0)),
     cRange 82 (ring && decide (i.cvNl < (i.cvKh - 1) * i.cvDy + 1)),
     cRange 160 (!ring && decide (i.cvH < i.fx 47 32 + i.cvHt)),
     cRange 64 (decide (tmLines < rowsEnd (if ring then i.cvNl else i.cvHt)))]
  else
    let n := i.fc 9 0
    cSize 0 10 n ++ [cRange 0 (decide (512 < n)), cRange 64 ((i.fa 3 0 == 0) == (i.fa 4 4 == 0))]

/-! ## AT (R258, R274, R275) -/

/-- Lines of a state row for a head dimension. -/
def stateLines (dh : Nat) : Nat := dh / 16 + 1
/-- Lines of an output row. -/
def atOutLines (dh f : Nat) : Nat := dh * fmtBits f / 512

def atRes (i : TIns) : List (Nat × Nat) :=
  if i.op = 0x81 then resA 31 28 ++ (if i.fa 21 21 = 0 then resA 20 18 else []) ++ resB 15 15 ++ resB 31 30 ++ resC 15 14 ++ resC 31 23
  else if i.op = 0x82 then resA 15 15 ++ resA 31 31 ++ resB 15 0 ++ resB 31 30 ++ resC 15 14 ++ resC 31 23
  else resA 17 15 ++ resA 31 24 ++ resB 31 15 ++ resC 15 12 ++ resC 31 23

def atExtRes (i : TIns) : List (Nat × Nat) :=
  if i.op = 0x81 then resX 127 116 ++ plRes (i.fx 31 0) 0
  else if i.op = 0x82 then resX 127 64 ++ plRes (i.fx 31 0) 0
  else resX 127 16

def atChks (i : TIns) : List Chk :=
  if i.op = 0x83 then
    let dh := 64 * 2 ^ i.fa 23 22
    let rows := i.fc 11 0
    let n := i.fc 22 16
    let sl := stateLines dh
    let ol := if i.fa 21 21 = 1 then atOutLines dh (i.fa 20 18) else sl
    cSize 0 12 rows ++ cSize 16 7 n ++ cSize 128 16 (i.fx 15 0) ++
    [cRange 16 (decide (n < 2 ∨ 64 < n)), cRange 86 (i.fa 23 22 == 3),
     cRange 82 (i.fa 21 21 == 1 && !([0, 1, 2, 6].contains (i.fa 20 18))),
     cRange 128 (decide (i.fx 15 0 < rows * sl)),
     cRange 64 (decide (tmLines < i.fa 14 0 + (n - 1) * i.fx 15 0 + rows * sl)),
     cRange 32 (decide (tmLines < i.fb 14 0 + rows * ol))]
  else
    let ne := i.fc 13 0
    let hn := i.fc 22 16
    let p := i.fx 31 0
    cSize 0 14 ne ++ cSize 16 7 hn ++
    [cRange 0 (decide (8192 < ne)), cRange 16 (decide (64 < hn)), cRange 156 (plSpace p != 1 && plSpace p != 2),
     cRange 160 (plOver p (i.fx 63 32) (cdiv ne 2))] ++
    (if i.op = 0x81 then
      [cRange 79 (decide (2 < i.fa 17 15)), cRange 82 (i.fa 21 21 == 1 && !([0, 1, 2, 6].contains (i.fa 20 18))),
       cRange 89 (decide (4 < i.fa 27 25)), cOnes 224 20 (i.fx 115 96)]
     else [])

/-! ## The whole word -/

/-- Reserved fields of the operand bits [95:0]. -/
def tileMainRes (i : TIns) : List (Nat × Nat) :=
  match i.cls with
  | 5 => plRes i.a.toNat 64
  | 6 => mxRes i
  | 7 => vxRes i
  | 8 => atRes i
  | 9 => cvRes i
  | _ => hxRes i.op
/-- Reserved fields of the extension word. -/
def tileExtRes (i : TIns) : List (Nat × Nat) :=
  match i.cls with
  | 5 => dmExtRes i
  | 6 => mxExtRes i
  | 7 => vxExtRes i
  | 8 => atExtRes i
  | 9 => cvExtRes i
  | _ => []
/-- Checks 5 to 8. -/
def tileLimits (i : TIns) (grade pw : Nat) : List Chk :=
  match i.cls with
  | 5 => dmChks i
  | 6 => mxChks i grade
  | 7 => vxChks i
  | 8 => atChks i
  | 9 => cvChks i
  | _ => hxChks i pw

/-- The operands as bits [95:0] of the word. -/
def TIns.operands (i : TIns) : Nat := i.c.toNat + i.b.toNat * 2 ^ 32 + i.a.toNat * 2 ^ 64

/-- Checks 3 and 5 to 8 of an instruction whose class and opcode are defined. -/
def tileChks (i : TIns) (grade pw : Nat) : List Chk :=
  (if isTs i.cls i.op then
    [⟨3, 113, i.last, rReserved, 113⟩, ⟨3, 111, i.wen, rReserved, 111⟩, ⟨3, 103, i.sen, rReserved, 103⟩] else []) ++
  cReserved 0 i.operands (tileMainRes i) ++ cReserved 128 i.x.toNat (tileExtRes i) ++
  tileLimits i grade pw

/-- What stands for an extension word that is missing in the checks of the main word: under it no main-word field is reserved. -/
def absentExt : W128 := 2 ^ 97
/-- The first failing check of a program word and its extension word at index n in a program of pw words, as reason and ARG, with o
instructions of an open bundle before it (R127, R131). A missing extension word fails check 8 at bit 120. -/
def wordCheck (grade pw n o : Nat) (w y : W128) : Option (Nat × Nat) :=
  let v := w.toNat
  let noExt := bit v 127 && decide (pw ≤ n + 1)
  let i := insOfWord n w (if noExt then absentExt else y)
  if !([5, 6, 7, 8, 9, 0xA].contains i.cls) then some (rBadClass, i.cls)
  else if !((tileOps i.cls).contains i.op) then some (rBadOpcode, i.op)
  else
    let hdr : List Chk :=
      [⟨3, 115, bit v 115, rReserved, 115⟩, ⟨3, 112, bit v 112, rReserved, 112⟩, ⟨3, 110, bit v 110, rReserved, 110⟩,
       ⟨3, 102, bit v 102, rReserved, 102⟩, cRange 120 noExt,
       cRange 113 (if isTs i.cls i.op then decide (o ≠ 0) else decide (8 ≤ o) || (decide (n + 1 = pw) && !i.last))]
    let chks := (tileChks i grade pw).filter (fun c => !noExt || (decide (c.pos < 128) && c.ord != 7))
    match firstBad (hdr ++ chks) with
    | some c => some (c.reason, c.arg)
    | none => none

/-- The instruction could stand in a loaded program of this part: the condition under which a unit meets it. -/
def wordLegal (grade pw : Nat) (i : TIns) : Bool :=
  (tileOps i.cls).contains i.op && (firstBad (tileChks i grade pw)).isNone

/-- Instructions of the open bundle after the word, o of them before it. -/
def bundleOpen (o : Nat) (w : W128) : Nat :=
  if isTs (bits w.toNat 119 116) (bits w.toNat 127 120) || bit w.toNat 113 then 0 else o + 1

/-- The first failing word from index n of a program of pw words, with o instructions of a bundle open: index, reason and ARG. A bundle
that is open at the program's last word fails there (R127, R131). -/
def wordsFault (grade pw : Nat) (ws : List W128) (n o : Nat) : Nat → Option (Nat × Nat × Nat)
  | 0 => none
  | fuel + 1 =>
    match ws with
    | [] => if o = 0 then none else some (pw - 1, rOverrun, 113)
    | w :: r =>
      match wordCheck grade pw n o w (r.headD 0) with
      | some (reason, arg) => some (n, reason, arg)
      | none =>
        let step := if bit w.toNat 127 then 2 else 1
        wordsFault grade pw (ws.drop step) (n + step) (bundleOpen o w) fuel

/-- The failure of a program that is reported (R127). -/
def programFault (grade : Nat) (ws : List W128) : Option (Nat × Nat × Nat) := wordsFault grade ws.length ws 0 0 (ws.length + 1)

end Sys2Proof.Machine
end

