-- ==== Sys2Proof/Machine/Tile.lean ====
section
/-! DEFINITION. What the units of a tile share: the tile map, tile memory, hitch counters, how an instruction starts and retires, how a
step is abandoned and how a model set fails (R128 to R139, R181, R268, R296, R452). -/

namespace Sys2Proof.Machine

def tile (k : Core) (t : Nat) : Tile := mget {} k.tiles t
def modTile (k : Core) (t : Nat) (f : Tile → Tile) : Core := { k with tiles := mmod {} k.tiles t f }
/-- Matrix engine e of a tile, by its physical number. -/
def Tile.eng (t : Tile) (e : Nat) : Engine := mget {} t.engines e
def eng (k : Core) (t e : Nat) : Engine := (tile k t).eng e
def modEng (k : Core) (t e : Nat) (f : Engine → Engine) : Core := modTile k t (fun q => { q with engines := mmod {} q.engines e f })

/-! ## The tile map (R181) -/

/-- Tiles of quarter q in ascending ID. -/
def quarterTiles (q : Nat) : List Nat :=
  (upFrom 0 64).map (fun r => q / 2 * 128 + r / 8 * 16 + q % 2 * 8 + r % 8)
/-- Engine e of physical tile t is enabled. -/
def engOn (k : Core) (t e : Nat) : Bool := k.shadow.engines.getLsbD (t * 4 + e)
/-- All four engines of physical tile t are enabled. -/
def fourEngines (k : Core) (t : Nat) : Bool := (upFrom 0 4).all (fun e => engOn k t e)
/-- Physical tile of a logical tile. -/
def physTile (k : Core) (l : Nat) : Nat :=
  let ps := quarterTiles (quarterOfTile l)
  let n4 := 64 - threeTiles k.shadow.grade
  let r := tileRank l
  if r < n4 then (ps.filter (fun t => fourEngines k t)).getD r l
  else (ps.filter (fun t => !fourEngines k t)).getD (r - n4) l
/-- Logical tile of a physical tile. -/
def logTile (k : Core) (t : Nat) : Nat := ((quarterTiles (quarterOfTile t)).find? (fun l => physTile k l == t)).getD t
/-- Physical engine of logical engine e of physical tile t, where it has one. -/
def physEng (k : Core) (t e : Nat) : Option Nat := ((upFrom 0 4).filter (fun p => engOn k t p))[e]?
/-- Physical tiles of a domain in ascending ID. -/
def domTiles (k : Core) (d : Nat) : List Nat := (upFrom 0 256).filter (fun t => domOfTile k t == d)

/-! ## Counters of a tile (R20, R186, R197, R242) -/

/-- A confidential context owns the tile. -/
def tileConf (k : Core) (t : Nat) : Bool := match (tile k t).owner with | some c => ctxConf k c | none => false
/-- Count n on a counter of the tile, unless a confidential context owns it. -/
def tbump (k : Core) (t off n : Nat) : Core := if tileConf k t then k else bump k off n
/-- Count numeric exceptions (R197). -/
def countExc (k : Core) (t : Nat) (c : Exc) : Core :=
  tbump (tbump (tbump (tbump k t (oNumCount t 0) c.sat) t (oNumCount t 1) c.ftz) t (oNumCount t 2) c.nanMade) t (oNumCount t 3) c.nanLost

/-- Cycles a tile was charged to cause n of TILE_STALL, a number the model does not know (R18, R24, R170, R255, assumption 34). -/
def unitStall (k : Core) (t n : Nat) : Core := let (c, k1) := drawNat k; tbump k1 t (oTileStall t n) c
/-- Die of a tile. -/
def dieOfTile (t : Nat) : Nat := t / 128
/-- Flits of die d for the other die: the cycles they waited for a bridge channel are a free number (R24, assumption 34). -/
def bridgeStall (k : Core) (d : Nat) : Core := let (c, k1) := drawNat k; bump k1 (oBridgeStall d) c

/-! ## Tile memory -/

def tmLine (k : Core) (t n : Nat) : Line := (tile k t).mem.line 0 n
def tmBad (k : Core) (t n : Nat) : Bool := (tile k t).mem.lineBad n
def tmPut (k : Core) (t n : Nat) (v : Line) (p : Bool) : Core := modTile k t (fun q => { q with mem := q.mem.putLine 0 n v p })
/-- Element number i of width w bits in a row of lines that starts at line n. -/
def tmElem (k : Core) (t n w i : Nat) : Nat :=
  (ofLE ((tile k t).mem.bytes 0 (64 * n + i * w / 8) (cdiv w 8)) / 2 ^ (i * w % 8)) % 2 ^ w
/-- Any of the l lines from line n is poisoned. -/
def tmAnyBad (k : Core) (t n l : Nat) : Bool := (upFrom n l).any (fun m => tmBad k t m)

/-! ## The step a tile serves -/

/-- The step that runs on the tile's domain. -/
def tileStep (k : Core) (t : Nat) : Option UStep := (dom k (domOfTile k t)).running
/-- The model set of that step. -/
def tileMset (k : Core) (t : Nat) : Nat := match tileStep k t with | some u => u.mset | none => 0
/-- Partition check of R138 and R144 for a tile that names tile u. -/
def sameDomain (k : Core) (t u : Nat) : Bool := domOfTile k t == domOfTile k u

/-! ## Energy, abandonment and failure -/

/-- Largest account energy (R452). -/
def energyMax : Nat := 2 ^ 48 - 1
/-- Split a step's charge among its sequences and add it to their accounts (R452). -/
def chargeEnergy (k : Core) (u : UStep) (e : Nat) : Core :=
  let v := u.est - u.fixed
  if v = 0 then k
  else u.plan.foldl (fun k p =>
    let c := e * p.energy / v
    if (seq k p.seq).st = .free then k
    else modAcct (modSeq k p.seq (fun q => { q with energy := q.energy + c })) (seq k p.seq).acct
      (fun a => { a with energy := min energyMax (a.energy + c) })) k

/-- The tile stops: queues, streams, waves and registers are discarded and nothing is signalled (R185, R241). -/
def Tile.stopped (t : Tile) : Tile :=
  { t with phase := 0, buffer := [], queues := [], engines := [], cf := none, feed := none, veStream := [], win := none, dm := none,
           ap := none, early := [], fenced := false }

/-- Every 1,024 steps of the domain each HOT count is halved, with the end of step number n (R330). -/
def halveHot (k : Core) (d n : Nat) : Core :=
  if (n + 1) % 1024 = 0 then { k with objs := mmap (fun _ o => if o.dom = d then { o with hot := o.hot / 2 } else o) k.objs } else k

/-- The step of domain d is abandoned: its tiles stop, its pins and deferred pages are released, and it is charged up to now; how much
energy that was is a free value (R133, R268, R289, R452, assumption 1). -/
def abandonStep (k : Core) (d : Nat) : Core :=
  match (dom k d).running with
  | none => k
  | some u =>
    let ts := domTiles k d
    let k1 := abandonReads { ts.foldl (fun k t => modTile k t Tile.stopped) k with incs := k.incs.filter (fun x => domOfTile k x.tile != d) } ts
    let (e, k2) := drawNat k1
    let k3 := u.pins.foldl dropPin (chargeEnergy k2 u e)
    let k4 := modDom k3 d (fun q => { q with running := none, gates := [], opened := false, phase := 0 })
    retryWants (halveHot (returnPages k4 d u.num) d u.num)

/-- Bytes of system region a loaded program takes. -/
def MSet.sysSize (m : MSet) : Nat := if m.words = [] then 0 else 1024 + 16 * m.pwords
/-- An MSET.SWAP or MSET.DRAIN that waits for its boundary and names a set ends; the set is no longer what it needs (R295, DEDUCED). -/
def dropPending (k : Core) (m arg : Nat) : Core :=
  (k.flts.filter (fun f => decide (f.ins.cls = 3) && (f.ins.op == 0x02 || f.ins.op == 0x03) && (f.key == m || f.aux == m))).foldl
    (fun k f => retireFlt k f rWrongState arg []) k
/-- A model set becomes not allocated: its references and its space are given back; the last load failure of its number stays. -/
def msetFree (k : Core) (m : Nat) : Core :=
  let s := mset' k m
  let k1 := s.objs.foldl dropRef (sysGive k s.sysSize)
  let k2 := match s.sched with | some (_, l) => (schedRefs l).foldl dropRef k1 | none => k1
  let k3 := match s.schedNext with | some (some (_, l)) => (schedRefs l).foldl dropRef k2 | _ => k2
  let k4 := { k3 with msets := mmap (fun _ s => if s.succ = some m then { s with succ := some noSet } else s) k3.msets }
  dropPending (modMset k4 m (fun s => { lastReason := s.lastReason, lastBit := s.lastBit, lastArg := s.lastArg })) m 0
/-- FAILED sets with no binding are freed (R293). -/
def freeFailed (k : Core) (m : Nat) : Core :=
  if (mset' k m).st = .failed ∧ bindings k m = 0 then msetFree k m else k

/-- A model set enters FAILED: its step is abandoned and its bound sequences end FAILED with the reason (R296). -/
def msetFail (k : Core) (m reason : Nat) : Core :=
  let s := mset' k m
  if !(s.st == .ready || s.st == .draining) then k
  else
    let k1 := match (dom k s.dom).running with
      | some u => if u.mset = m then abandonStep k s.dom else k
      | none => k
    let k2 := dropPending (modMset k1 m (fun s => { s with st := .failed })) m 4
    let bound := (liveSeqs k2).filter (fun q => (seq k2 q).mset == m)
    freeFailed (bound.foldl (fun k q => failSeq k q reason) k2) m

/-- A tile instruction fails: an error record, the step abandoned, the model set FAILED (R133). -/
def tileFail (k : Core) (t widx reason arg : Nat) : Core :=
  let d := domOfTile k t
  match (dom k d).running with
  | none => k
  | some u =>
    let c := (mset' k u.mset).ctx
    let k1 := errRecord k
      { reason := reason, cls := 2, source := 1, inst := t, dom := d, arg := arg, ctx := c, addr := widx, step := u.num,
        conf := match c with | some n => ctxConf k n | none => false }
    msetFail k1 u.mset reason

/-! ## Hitch counters (R134 to R138) -/

/-- Value of a local hitch counter. -/
def hitch (k : Core) (t c : Nat) : Nat := mget 0 (tile k t).ctrs c
/-- Set a local hitch counter. -/
def hitchSet (k : Core) (t c v : Nat) : Core := modTile k t (fun q => { q with ctrs := mset 0 q.ctrs c v })
/-- Increment a local hitch counter; passing 0xFFFF leaves it there and fails the step, and the record names the instruction that
made the increment by its tile and word (R133, R137). -/
def hitchAdd (k : Core) (t c n : Nat) (by_ : Nat × Nat) : Core :=
  if 0xFFFF < hitch k t c + n then tileFail (hitchSet k t c 0xFFFF) by_.1 by_.2 rOverrun (t + c * 256)
  else hitchSet k t c (hitch k t c + n)

/-! ## Queues, start and retirement -/

/-- Unit numbers as TILE_STALL counts them: matrix engines 0 to 3, VE 4, AP 5, CF 6, DM 7. -/
def uVe : Nat := 4
def uAp : Nat := 5
def uCf : Nat := 6
def uDm : Nat := 7
/-- Queue of a unit. -/
def Tile.queue (t : Tile) (u : Nat) : List TIns := mget [] t.queues u

/-- The tile runs, and the word could stand in the program it runs. -/
def runsIns (k : Core) (t : Nat) (i : TIns) : Bool :=
  (tile k t).phase == 2 && wordLegal k.shadow.grade (mset' k (tileMset k t)).pwords i

/-- The instruction as a program holds it, without what its dispatch added. -/
def TIns.plain (i : TIns) : TIns := { i with tval := 0 }
/-- The TS register that indexes a DM.COPY. -/
def TIns.ireg (i : TIns) : Nat := i.fx 83 80
/-- The instruction with the value of T[IREG] at its dispatch (R133, R151). -/
def dispatched (k : Core) (t : Nat) (i : TIns) : TIns :=
  if i.cls = 5 ∧ i.op = 0x81 then { i with tval := mget 0 (tile k t).regs i.ireg } else i
/-- The instruction as unit u holds it: the head of its queue, or as it comes. -/
def heldIns (k : Core) (t u : Nat) (i : TIns) : TIns :=
  match (tile k t).queue u with | j :: _ => j | [] => dispatched k t i

/-- The unit can meet the instruction now: the tile runs, the word could stand in a program, and nothing precedes it in the unit's
queue. A queue that holds nothing takes the instruction as it comes (assumption 9). -/
def canTake (k : Core) (t u : Nat) (i : TIns) : Bool :=
  runsIns k t i && (match (tile k t).queue u with | [] => true | j :: _ => j.plain == i)

/-! ### When a unit can start (R134, R136, R165, R166, R172) -/

/-- The stationary register of a pass tag. -/
def Engine.sreg (e : Engine) (tag : Bool) : SReg := if tag then e.s1 else e.s0
/-- Rows of an MX instruction. -/
def TIns.mxRows (i : TIns) : Nat := i.fc 9 0
def loadBusy (e : Engine) : Bool := e.run.any (fun r => r.ins.op == 0x01 && !r.done)
def feeding (r : MxRun) : Bool := r.ins.op == 0x02 && (decide (r.next < r.ins.mxRows) || r.emptyDue)
def draining (r : MxRun) : Bool := r.ins.op == 0x83 && decide (r.next < r.ins.mxRows)
/-- The register a pass uses: found, to be waited for, or none (R166). -/
inductive PassReg where
  | use (tag : Bool)
  | wait
  | none_
  deriving DecidableEq, Repr
/-- The register of a pass with TAKE = 1, the one armed first. -/
def takeReg (g : Engine) : PassReg :=
  if g.s0.st = 2 ∧ g.s1.st = 2 then .use (decide (g.s1.order < g.s0.order))
  else if g.s0.st = 2 then .use false
  else if g.s1.st = 2 then .use true
  else if g.s0.st = 1 ∨ g.s1.st = 1 then .wait
  else .none_
/-- The register of a pass with TAKE = 0. -/
def currentReg (g : Engine) : PassReg := if g.s0.st = 3 then .use false else if g.s1.st = 3 then .use true else .none_
/-- The register of a pass. -/
def Engine.passReg (g : Engine) (i : TIns) : PassReg := if i.fa 11 11 = 1 then takeReg g else currentReg g
/-- A load finds no EMPTY register but a TRAILING one (R165). -/
def Engine.noEmpty (g : Engine) : Bool := g.s0.st != 0 && g.s1.st != 0 && (g.s0.st == 4 || g.s1.st == 4)
/-- The engine waits for a register: a load for one that is TRAILING, a pass for one that is FILLING. -/
def Engine.regWait (g : Engine) (i : TIns) : Bool :=
  if i.op = 0x01 then g.noEmpty else i.op == 0x02 && g.passReg i == .wait

/-- The stage the instruction needs is free: nothing but its hitch counter, or a register of its engine, can hold it at the head of
unit u's queue. -/
def stageFree (k : Core) (t u : Nat) (i : TIns) : Bool :=
  let q := tile k t
  if u = uVe then q.win.isNone && (i.op != 0x8E || q.cf.isSome)
  else if u = uAp then q.ap.isNone
  else if u = uCf then q.feed.isNone
  else if u = uDm then q.dm.isNone
  else
    let g := q.eng u
    if i.op = 0x01 then !loadBusy g else !(g.run.any (if i.op = 0x02 then feeding else draining))
/-- The head of unit u's queue waits on counter c. -/
def waitsOn (k : Core) (t c u : Nat) : Bool :=
  match (tile k t).queue u with
  | [] => false
  | j :: _ => j.wen && j.wctr == c && stageFree k t u j && !(decide (u < 4) && ((tile k t).eng u).regWait j)
/-- Its WAIT condition holds: the counter has one left over after the units before unit u that wait on it too (R134, R136). -/
def hitchOk (k : Core) (t u : Nat) (i : TIns) : Bool :=
  !i.wen || decide (((upFrom 0 u).filter (waitsOn k t i.wctr)).length < hitch k t i.wctr)

/-- The instruction leaves its queue and takes one from the counter it waited on (R134). -/
def takeIns (k : Core) (t u : Nat) (i : TIns) : Core :=
  let k1 := match (tile k t).queue u with
    | [] => k
    | _ :: r => modTile k t (fun q => { q with queues := mset [] q.queues u r })
  if i.wen then hitchSet k1 t i.wctr (hitch k1 t i.wctr - 1) else k1

/-- An instruction at the head of unit u's queue starts, if nothing holds it; a hitch wait is charged (R18, R134). -/
def unitRun (k : Core) (t u : Nat) (i : TIns) (f : Core → Core) : Core :=
  if !canTake k t u i || !stageFree k t u i then k
  else if !hitchOk k t u i then tbump k t (oTileStall t (8 + u)) 1
  else f (takeIns k t u i)

/-- A tile instruction retires and signals (R135). -/
def retireIns (k : Core) (t : Nat) (i : TIns) : Core := if i.sen then hitchAdd k t i.sctr 1 (t, i.widx) else k

/-- Every instruction the tile dispatched has retired (R132). -/
def tileIdle (k : Core) (t : Nat) : Bool :=
  let q := tile k t
  q.queues.all (fun e => e.2.isEmpty) && q.engines.all (fun e => e.2.run.isEmpty) && q.feed.isNone && q.win.isNone && q.dm.isNone && q.ap.isNone

end Sys2Proof.Machine
end

