-- ==== Sys2Proof/Machine/Cf.lean ====
section
/-! DEFINITION. The Conv Feeder: where a window's lines lie and how windows enter the streams (R227 to R233). -/

namespace Sys2Proof.Machine

/-- First line of map row y (R228). -/
def mapRow (s : TIns) (y : Nat) : Nat :=
  s.fa 14 0 + (if s.cvNl = 0 then y - s.fx 47 32 else y % s.cvNl) * s.cvRp

/-- Input row and column of a tap of an output pixel (R229). -/
def tapPos (s : TIns) (p ty tx : Nat) : Int × Int :=
  ((p / s.cvOw * s.cvSy + ty * s.cvDy : Nat) - (s.fx 19 16 : Int), (p % s.cvOw * s.cvSx + tx * s.cvDx : Nat) - (s.fx 23 20 : Int))

/-- The position lies inside the map. -/
def inMap (s : TIns) (y x : Int) : Bool := decide (0 ≤ y ∧ y < s.cvH ∧ 0 ≤ x ∧ x < s.cvW)

/-- Line l of chunk ch at a tap: its bytes with the channels beyond C as zero, its poison, and whether it is padding (R227, R229). -/
def tapLine (k : Core) (t : Nat) (s : TIns) (p ty tx ch l : Nat) : VLine :=
  let (y, x) := tapPos s p ty tx
  if !inMap s y x then { line := 0, bad := false, pad := true }
  else
    let n := mapRow s y.toNat + x.toNat * s.cvP + ch * actLines s.cvFmt + l
    let w := fmtBits s.cvFmt
    let keep := (s.cvC - ch * chunkK s.cvFmt) * w - l * 512
    { line := BitVec.ofNat 512 ((tmLine k t n).toNat % 2 ^ min keep 512), bad := tmBad k t n, pad := false }

/-- Output pixel number n of a feed (R230). -/
def feedPixel (s i : TIns) (n : Nat) : Nat := i.fb 15 0 * s.cvOw + i.fb 31 16 + n

/-- Physical engines a MASK names. -/
def maskEngines (k : Core) (t m : Nat) : List (Option Nat) := ((upFrom 0 4).filter (fun e => bit m e)).map (fun e => physEng k t e)

/-- The window of a feed for the engine streams. -/
def feedWindow (k : Core) (t : Nat) (s i : TIns) (n : Nat) : Win :=
  let ls := (upFrom 0 (actLines s.cvFmt)).map (fun l => tapLine k t s (feedPixel s i n) (i.fa 11 8) (i.fa 15 12) (i.fa 31 16) l)
  { fmt := s.cvFmt, lines := ls.map (·.line), bad := ls.any (·.bad) }

/-- Line n of a feed for the VE stream (R231). -/
def feedLine (k : Core) (t : Nat) (s i : TIns) (n : Nat) : VLine :=
  let l := actLines s.cvFmt
  let taps := s.cvKh * s.cvKw
  let tap := n / l % taps
  { tapLine k t s (feedPixel s i (n / (l * taps))) (tap / s.cvKw) (tap % s.cvKw) (i.fa 31 16) (n % l) with
    span := l * taps, avgIn := s.fx 64 64 == 1 }

/-- Windows, or lines for the VE, that a feed sends. -/
def feedTotal (s i : TIns) : Nat :=
  if i.fa 4 4 = 1 then i.fc 9 0 * (s.cvKh * s.cvKw * actLines s.cvFmt) else i.fc 9 0

/-- Every stream the feed sends to has room. -/
def feedRoom (k : Core) (t : Nat) (i : TIns) : Bool :=
  if i.fa 4 4 = 1 then decide ((tile k t).veStream.length < 64)
  else (maskEngines k t (i.fa 3 0)).all (fun e => match e with | some p => decide ((eng k t p).stream.length < 16) | none => true)

/-- Place one window or line. -/
def feedPut (k : Core) (t : Nat) (s i : TIns) (n : Nat) : Core :=
  if i.fa 4 4 = 1 then modTile k t (fun q => { q with veStream := q.veStream ++ [feedLine k t s i n] })
  else
    let w := feedWindow k t s i n
    (maskEngines k t (i.fa 3 0)).foldl (fun k e => match e with
      | some p => modEng k t p (fun g => { g with stream := g.stream ++ [w] })
      | none => k) k

/-- The Conv Feeder places what fits; the CV.FEED retires when its last window is in its streams (R232, R233). -/
def cfPlace (k : Core) (t : Nat) : Nat → Core
  | 0 => k
  | fuel + 1 =>
    match (tile k t).feed, (tile k t).cf with
    | some f, some s =>
      if feedTotal s f.ins ≤ f.next then retireIns (modTile k t (fun q => { q with feed := none })) t f.ins
      else if feedRoom k t f.ins then
        cfPlace (modTile (feedPut k t s f.ins f.next) t (fun q => { q with feed := some { f with next := f.next + 1 } })) t fuel
      else if f.ins.fa 4 4 = 1 then tbump k t (oCfVeFull t) 1
      else tbump k t (oTileStall t 20) 1
    | _, _ => k

/-- As much as the streams hold. -/
def cfRun (k : Core) (t : Nat) : Core := cfPlace k t 66

end Sys2Proof.Machine
end

