-- ==== Sys2Proof/Machine/Mx.lean ====
section
/-! DEFINITION. The matrix engines: loads, passes, waves, the Output Accumulator Buffer and drains (R157 to R186). -/

namespace Sys2Proof.Machine

/-! ## Elements -/

/-- The lines of a row as one number, line 0 lowest. -/
def joinLines : List Line → Nat
  | [] => 0
  | l :: r => l.toNat + 2 ^ 512 * joinLines r
/-- Element i of width w. -/
def elemAt (x w i : Nat) : Nat := x / 2 ^ (w * i) % 2 ^ w
/-- Elements of width w packed from bit 0. -/
def packElems (w : Nat) : List Nat → Nat
  | [] => 0
  | e :: r => e % 2 ^ w + 2 ^ w * packElems w r
/-- Line m of a packed row. -/
def lineOf (x m : Nat) : Line := BitVec.ofNat 512 (x / 2 ^ (512 * m))
/-- Write n lines of a packed row from line a. -/
def tmPutRow (k : Core) (t a n x : Nat) (p : Bool) : Core :=
  (upFrom 0 n).foldl (fun k m => tmPut k t (a + m) (lineOf x m) p) k

/-! ## Engines and registers -/

/-- Change a stationary register. -/
def Engine.modReg (e : Engine) (tag : Bool) (f : SReg → SReg) : Engine :=
  if tag then { e with s1 := f e.s1 } else { e with s0 := f e.s0 }
/-- ARG of a WRONG_STATE failure of an engine (R165). -/
def Engine.arg (e : Engine) : Nat := e.s0.st + 16 * e.s1.st
/-- Waves of a tag in the grid. -/
def Engine.inGrid (e : Engine) (tag : Bool) : Bool := e.waves.any (fun w => w.tag == tag && !w.left)

/-- The physical engine an MX word names on physical tile t (R180). -/
def engOf (k : Core) (t : Nat) (i : TIns) : Option Nat :=
  let e := i.fa 9 0
  if i.fa 10 10 = 1 ∨ e / 4 = logTile k t then physEng k t (e % 4) else none

/-- First OAB row. -/
def TIns.ostart (i : TIns) : Nat := i.fc 24 16

/-- Change the first entry equal to r. -/
def updFirst (r : MxRun) (f : MxRun → MxRun) : List MxRun → List MxRun
  | [] => []
  | x :: l => if x = r then f x :: l else x :: updFirst r f l
/-- Change one instruction of the engine. -/
def modRun (k : Core) (t e : Nat) (r : MxRun) (f : MxRun → MxRun) : Core :=
  modEng k t e (fun g => { g with run := updFirst r f g.run })

/-- Retire the instructions at the front of the engine queue that are done (R173). -/
def retireMx (k : Core) (t e : Nat) : Nat → Core
  | 0 => k
  | fuel + 1 =>
    match (eng k t e).run with
    | r :: rest =>
      if r.done then retireMx (retireIns (modEng k t e (fun g => { g with run := rest })) t r.ins) t e fuel else k
    | [] => k

/-- An MX instruction at the head of its engine's queue: a word for another tile's engine, or for one the tile lacks, fails (R180). -/
def mxRun (k : Core) (t : Nat) (i : TIns) (f : Nat → Core) : Core :=
  match engOf k t i with
  | none => if runsIns k t i then tileFail k t i.widx rOverrun 64 else k
  | some e => f e

/-! ## Loads (R165, R174) -/

/-- Weight lines of a load: ROWS rows, then zeros to row 63. -/
def weightLines (k : Core) (t : Nat) (i : TIns) : List Line :=
  let l := actLines (i.fa 14 12)
  let n := i.fa 22 16 * l
  (upFrom 0 n).map (fun m => tmLine k t (i.fb 14 0 + m)) ++ List.replicate (64 * l - n) 0

/-- MX.LOADS starts on an EMPTY register, waits for a TRAILING one, or fails (R165). -/
def mxLoads (k : Core) (t : Nat) (i : TIns) : Core :=
  mxRun k t i (fun e =>
    let g := eng k t e
    let free := g.s0.st == 0 || g.s1.st == 0
    if g.regWait i && canTake k t e i && stageFree k t e i && hitchOk k t e i then tbump k t (oMeCount t e 1) 1
    else unitRun k t e i (fun k =>
      if !free then tileFail k t i.widx rWrongState g.arg
      else
        let tag := g.s0.st != 0
        let bad := tmAnyBad k t (i.fb 14 0) (i.fa 22 16 * actLines (i.fa 14 12))
        modEng k t e (fun g => { g.modReg tag (fun _ => { st := 1, fmt := i.fa 14 12, bad := bad, lines := weightLines k t i }) with
          run := g.run ++ [{ ins := i, reg := tag }] })))

/-- MX_LOAD_ARMED: the last weight row is in place (R164, R174). -/
def mxLoadArmed (k : Core) (t e : Nat) : Core :=
  match (eng k t e).run.find? (fun r => r.ins.op == 0x01 && !r.done) with
  | none => k
  | some r =>
    let k1 := modEng k t e (fun g =>
      { (g.modReg r.reg (fun s => { s with st := 2, order := g.armed + 1 })) with
        armed := g.armed + 1, run := updFirst r (fun x => { x with done := true }) g.run })
    retireMx k1 t e (eng k1 t e).run.length

/-! ## Passes (R161, R166) -/

/-- Activation and weight formats pair (R161). -/
def fmtPairs (a w : Nat) : Bool := a == w || ((a == 1 || a == 2) && (w == 1 || w == 2))

/-- TAKE: the register becomes CURRENT, and the one before it TRAILING, or EMPTY where none of its waves is in the grid (R164). -/
def Engine.takeTag (g : Engine) (tag : Bool) : Engine :=
  let g1 := g.modReg tag (fun s => { s with st := 3 })
  if (g1.sreg (!tag)).st = 3 then
    g1.modReg (!tag) (fun s => if g.inGrid (!tag) then { s with st := 4 } else {})
  else g1

def mxPass (k : Core) (t : Nat) (i : TIns) : Core :=
  mxRun k t i (fun e =>
    let g := eng k t e
    if g.regWait i && canTake k t e i && stageFree k t e i && hitchOk k t e i then tbump k t (oMeCount t e 1) 1
    else unitRun k t e i (fun k =>
      match g.passReg i with
      | .use tag =>
        if !fmtPairs (i.fa 14 12) (g.sreg tag).fmt then tileFail k t i.widx rOverrun 76
        else modEng k t e (fun g =>
          let g1 := if i.fa 11 11 = 1 then g.takeTag tag else g
          { g1 with run := g1.run ++ [{ ins := i, reg := tag }] })
      | _ => tileFail k t i.widx rWrongState g.arg))

/-! ## Waves (R157 to R162, R175, R177) -/

/-- Products of one grid row and one column: one, or two in FP4 and INT4 passes, added exactly (R158, R162). -/
def cellProduct (af wf : Nat) (act wrow i j : Nat) (c : Exc) : Num × Exc :=
  let fa := Fmt.ofCode af
  let fw := Fmt.ofCode wf
  if chunkK af = 128 then
    let (p, c1) := mulExact (fa.decode (elemAt act 4 (2 * i))) (fw.decode (elemAt wrow 4 (2 * j))) c
    let (q, c2) := mulExact (fa.decode (elemAt act 4 (2 * i + 1))) (fw.decode (elemAt wrow 4 (2 * j + 1))) c1
    addExact p q c2
  else mulExact (fa.decode (elemAt act fa.width i)) (fw.decode (elemAt wrow fw.width j)) c

/-- Sum of one column from grid row i on: a cell adds its exact product and rounds once; integer sums are exact. A sum that is NaN stays
so (R159, R193). -/
def colSum (af wf act j : Nat) : List Nat → Nat → Num → Exc → Num × Exc
  | [], _, p, c => (p, c)
  | w :: r, i, p, c =>
    if p = .nan then (p, c)
    else
    let (x, c1) := cellProduct af wf act w i j c
    let (s, c2) := addExact p x c1
    let (y, c3) := if (Fmt.ofCode af).isInt then (s, c2) else roundArith .fp32 s c2
    colSum af wf act j r (i + 1) y c3

/-- Weight rows of a register, each as one number. -/
def SReg.rows (s : SReg) : List Nat :=
  if s.fmt = 0 then (upFrom 0 64).map (fun i => joinLines ((s.lines.drop (2 * i)).take 2)) else s.lines.map (·.toNat)

/-- The 64 column sums of a wave as FP32 bits. -/
def waveSums (af : Nat) (s : SReg) (act : Nat) (c : Exc) : List Nat × Exc :=
  (upFrom 0 64).foldl (fun a j =>
    let (v, c1) := colSum af s.fmt act j s.rows 0 .zero a.2
    (a.1 ++ [Fmt.fp32.encode v], c1)) ([], c)

/-- The rein in force on the tile's engines (R443). -/
def rein (k : Core) (t : Nat) : Nat := min (dom k (domOfTile k t)).ceil (min (tile k t).soft (tile k t).droop)

/-- An earlier drain of the engine has still to read row r (R169). -/
def drainOwes (rs : List MxRun) (p : MxRun) (r : Nat) : Bool :=
  (rs.takeWhile (· != p)).any (fun d => d.ins.op == 0x83 && decide (d.ins.ostart + d.next ≤ r ∧ r < d.ins.ostart + d.ins.mxRows))
/-- An earlier pass of the engine has still to write row r (R169). -/
def passOwes (rs : List MxRun) (d : MxRun) (r : Nat) : Bool :=
  (rs.takeWhile (· != d)).any (fun p => p.ins.op == 0x02 && decide (p.ins.ostart + p.wrote ≤ r ∧ r < p.ins.ostart + p.ins.mxRows))


/-- Send the next wave of a pass into the grid. -/
def sendWave (k : Core) (t e : Nat) (r : MxRun) (lines : List Line) (bad : Bool) : Core :=
  let i := r.ins
  let s := (eng k t e).sreg r.reg
  let (sums, c) := waveSums (i.fa 14 12) s (joinLines lines) {}
  let w : Wave := { row := i.ostart + r.next, acc := i.fa 15 15 == 1, tag := r.reg, bad := bad || s.bad, sums := sums }
  countExc (modRun (modEng k t e (fun g => { g with waves := g.waves ++ [w], tag := r.reg })) t e r
    (fun x => { x with next := x.next + 1, emptyDue := i.fa 14 12 == 0 })) t (Exc.upTo {} w.bad c)

/-- One slot of a pass whose operands are ready: the empty slot of a BF16 row, a row of tile memory, or a window (R162, R175, R234). -/
def issueSlot (k : Core) (t e : Nat) (r : MxRun) : Core :=
  let i := r.ins
  let l := actLines (i.fa 14 12)
  if r.emptyDue then modRun k t e r (fun x => { x with emptyDue := false })
  else if i.fa 16 16 = 0 then
    let a := i.fb 14 0 + r.next * l
    sendWave k t e r ((upFrom a l).map (fun m => tmLine k t m)) (tmAnyBad k t a l)
  else match (eng k t e).stream with
    | [] => k
    | w :: rest =>
      if w.fmt ≠ i.fa 14 12 then tileFail k t i.widx rOverrun 76
      else cfRun (sendWave (modEng k t e (fun g => { g with stream := rest })) t e r w.lines w.bad) t

/-- MX_WAVE_ISSUE: one MCLK of the feed stage (R177). -/
def mxWaveIssue (k : Core) (t e : Nat) : Core :=
  if (tile k t).phase ≠ 2 then k
  else
    let acc := min ((eng k t e).acc + rein k t) 16
    let k1 := modEng k t e (fun g => { g with acc := acc })
    match (eng k1 t e).run.find? feeding with
    | none => k1
    | some r =>
      if !r.emptyDue && drainOwes (eng k1 t e).run r (r.ins.ostart + r.next) then tbump k1 t (oMeCount t e 2) 1
      else if !r.emptyDue && r.ins.fa 16 16 == 1 && (eng k1 t e).stream.isEmpty then tbump k1 t (oMeCount t e 3) 1
      else if acc < 16 then tbump k1 t (oTileStall t (16 + e)) 1
      else issueSlot (tbump (modEng k1 t e (fun g => { g with acc := acc - 16 })) t (oMeCount t e 0) 1) t e r

/-- Add to an OAB row in FP32 (R168). -/
def oabAdd : List Nat → List Nat → Exc → List Nat × Exc
  | v :: vs, s :: ss, c =>
    let (x, c1) := addR .fp32 (f32 v) (f32 s) c
    let (r, c2) := oabAdd vs ss c1
    (Fmt.fp32.encode x :: r, c2)
  | _, _, c => ([], c)

/-- OAB_ROW_WRITE: the oldest wave's row is written or accumulated (R168). -/
def oabRowWrite (k : Core) (t e : Nat) : Core :=
  match (eng k t e).waves with
  | [] => k
  | w :: rest =>
    let old := mget { vals := List.replicate 64 0 } (eng k t e).oab w.row
    let (vals, c) := if w.acc then oabAdd old.vals w.sums {} else (w.sums, {})
    let row : OabRow := { bad := w.bad || (w.acc && old.bad), vals := vals }
    let k1 := countExc (modEng k t e (fun g => { g with waves := rest, oab := mput g.oab w.row row })) t (Exc.upTo {} row.bad c)
    match (eng k1 t e).run.find? (fun r => r.ins.op == 0x02 && decide (r.wrote < r.ins.mxRows)) with
    | none => k1
    | some r =>
      let k2 := modRun k1 t e r (fun x => { x with wrote := x.wrote + 1, done := decide (x.ins.mxRows ≤ x.wrote + 1) })
      retireMx k2 t e (eng k2 t e).run.length

/-- MX_REGISTER_EMPTY: the last wave of the TRAILING register leaves the grid (R164). -/
def mxRegisterEmpty (k : Core) (t e : Nat) : Core :=
  let g := eng k t e
  let gone := fun (tag : Bool) => modEng k t e (fun g =>
    { g.modReg tag (fun _ => {}) with waves := g.waves.map (fun w => if w.tag == tag then { w with left := true } else w) })
  if g.s0.st = 4 then gone false else if g.s1.st = 4 then gone true else k

/-! ## Drains (R169 to R171) -/

def mxDrain (k : Core) (t : Nat) (i : TIns) : Core :=
  mxRun k t i (fun e => unitRun k t e i (fun k =>
    modEng k t e (fun g => { g with run := g.run ++ [{ ins := i }] })))

/-- One output element: column scale, row scale, bias, conversion (R169). -/
def drainElem (k : Core) (t : Nat) (i : TIns) (m j v : Nat) (c : Exc) : Nat × Exc :=
  let f := Fmt.ofCode (i.fa 14 12)
  let (v1, c1) := if i.fa 15 15 = 1 then mulR .fp32 (f32 v) (f32 (tmElem k t (i.fx 14 0) 32 j)) c else (f32 v, c)
  let (v2, c2) := if i.fa 16 16 = 1 then mulR .fp32 v1 (f32 (tmElem k t (i.fx 30 16) 32 m)) c1 else (v1, c1)
  let (v3, c3) := if i.fa 17 17 = 1 then addR .fp32 v2 (f32 (tmElem k t (i.fx 46 32) 32 j)) c2 else (v2, c2)
  let (y, c4) := if f = .fp32 then (v3, c3) else convert f v3 c3
  (f.encode y, c4)

/-- A scale or bias line of the drain is poisoned (R171). -/
def drainScaleBad (k : Core) (t : Nat) (i : TIns) : Bool :=
  (i.fa 15 15 == 1 && tmAnyBad k t (i.fx 14 0) 4) || (i.fa 16 16 == 1 && tmAnyBad k t (i.fx 30 16) (cdiv i.mxRows 16)) ||
  (i.fa 17 17 == 1 && tmAnyBad k t (i.fx 46 32) 4)

/-- DRAIN_ROW_WRITE: the drain reads its next OAB row, unless an earlier pass has still to write it, and the row's lines land in tile
memory; how long they waited for room in its write queue is free (R169, R170). -/
def drainRowWrite (k : Core) (t e : Nat) : Core :=
  match (eng k t e).run.find? draining with
  | none => k
  | some r =>
    let i := r.ins
    let n := i.ostart + r.next
    if passOwes (eng k t e).run r n then tbump k t (oMeCount t e 2) 1
    else
      let row := mget { vals := List.replicate 64 0 } (eng k t e).oab n
      let (out, c) := row.vals.zipIdx.foldl (fun a x =>
        let (y, c1) := drainElem k t i r.next x.2 x.1 a.2
        (a.1 ++ [y], c1)) (([] : List Nat), ({} : Exc))
      let f := i.fa 14 12
      let bad := row.bad || drainScaleBad k t i
      let k1 := countExc (tmPutRow (unitStall k t 21) t (i.fb 14 0 + r.next * i.fx 63 48) (outLines f) (packElems (fmtBits f) out) bad) t (Exc.upTo {} bad c)
      let k2 := if i.fa 11 11 = 1 then modEng k1 t e (fun g => { g with oab := mdel g.oab n }) else k1
      let k3 := modRun k2 t e r (fun x => { x with next := x.next + 1, done := decide (x.ins.mxRows ≤ x.next + 1) })
      retireMx k3 t e (eng k3 t e).run.length

end Sys2Proof.Machine
end

