-- ==== Sys2Proof/Machine/Vx.lean ====
section
/-! DEFINITION. The vector engine: operands, arithmetic, reductions, normalisation, soft maximum, functions, sampling, the Whisk and
window reductions (R198 to R225, R235, R240). -/

namespace Sys2Proof.Machine

/-! ## Helpers on numbers -/

/-- Exact maximum and minimum; a NaN operand gives NaN, max(−0, +0) is +0 and min(−0, +0) is −0 (R214). -/
def maxN (x y : Num) : Num :=
  if x.isNan || y.isNan then .nan
  else match x, y with
    | .fin a 0 _, .fin b 0 _ => .fin (a && b) 0 0
    | _, _ => if x.lt y then y else x
def minN (x y : Num) : Num :=
  if x.isNan || y.isNan then .nan
  else match x, y with
    | .fin a 0 _, .fin b 0 _ => .fin (a || b) 0 0
    | _, _ => if y.lt x then y else x

/-- Add a run of elements into lane partials (R212 step 1). -/
def addInto : List Num → List Num → Exc → List Num × Exc
  | p :: ps, x :: xs, c =>
    let (s, c1) := addR .fp32 p x c
    let (r, c2) := addInto ps xs c1
    (s :: r, c2)
  | ps, _, c => (ps, c)
/-- Lane partials of a row, 128 elements at a time. -/
def lanePartials : Nat → List Num → List Num → Exc → List Num × Exc
  | 0, ps, _, c => (ps, c)
  | fuel + 1, ps, xs, c =>
    if xs.isEmpty then (ps, c)
    else
      let (p1, c1) := addInto ps (xs.take 128) c
      lanePartials fuel p1 (xs.drop 128) c1
/-- Combine partials in halving stages (R212 step 2). -/
def treeStages : Nat → List Num → Exc → Num × Exc
  | 0, ps, c => (ps.headD .zero, c)
  | n + 1, ps, c =>
    let (r, c1) := addInto (ps.take (2 ^ n)) (ps.drop (2 ^ n)) c
    treeStages n r c1
/-- The fixed-order sum of a row (R212). -/
def rowSum (xs : List Num) (c : Exc) : Num × Exc :=
  let (ps, c1) := lanePartials xs.length (List.replicate 128 .zero) xs c
  treeStages 7 ps c1
/-- Map with exceptions. -/
def mapExc {α β : Type} (f : α → Exc → β × Exc) : List α → Exc → List β × Exc
  | [], c => ([], c)
  | x :: r, c =>
    let (y, c1) := f x c
    let (ys, c2) := mapExc f r c1
    (y :: ys, c2)

/-! ## Operands -/

/-- Elements of a row of format f from line a, and whether each lies in a poisoned line. -/
def rowVals (k : Core) (t f a n : Nat) : List Num :=
  (upFrom 0 n).map (fun i => (Fmt.ofCode f).decode (tmElem k t a (fmtBits f) i))
def rowBads (k : Core) (t f a n : Nat) : List Bool :=
  (upFrom 0 n).map (fun i => tmBad k t (a + i * fmtBits f / 512))
/-- Store bytes in tile memory; the words touched take the poison. -/
def tmPutBytes (k : Core) (t addr : Nat) (l : List Byte) (p : Bool) : Core :=
  if l.isEmpty then k
  else modTile k t (fun q => { q with
    mem := (q.mem.putBytes 0 addr l).setBads p (addr / 8) ((addr + l.length - 1) / 8 - addr / 8 + 1) })
/-- Store a row of elements of format f from line a; a line with a poisoned element is written poisoned. -/
def putRow (k : Core) (t f a : Nat) : Nat → List (Nat × Bool) → Core
  | 0, _ => k
  | fuel + 1, l =>
    if l.isEmpty then k
    else
      let per := 512 / fmtBits f
      let h := l.take per
      let k1 := tmPutBytes k t (64 * a) (leBytes (cdiv (h.length * fmtBits f) 8) (packElems (fmtBits f) (h.map Prod.fst))) (h.any Prod.snd)
      putRow k1 t f (a + 1) fuel (l.drop per)

/-- The lane format (R209). -/
def laneFmt (i : TIns) : Fmt :=
  if i.op ≤ 0x85 ∧ i.vAf = 0 ∧ i.vDf = 0 ∧ (i.vBm = 3 ∨ i.vBf = 0) then .bf16 else .fp32
/-- IMM as FP32. -/
def TIns.imm (i : TIns) : Num := f32 (i.fx 95 64)
/-- Elements of operand B for row r, with their poison (R208). -/
def bRow (k : Core) (t : Nat) (i : TIns) (r : Nat) : List (Num × Bool) :=
  let n := i.vLen
  if i.vBm = 2 then List.replicate n (f32 (tmElem k t (i.fb 14 0) 32 r), tmBad k t (i.fb 14 0 + r / 16))
  else if i.vBm = 3 then List.replicate n (i.imm, false)
  else
    let a := i.fb 14 0 + (if i.vBm = 0 then r * pitchOf (i.fx 31 16) (rowLen i.vBf n) else 0)
    (rowVals k t i.vBf a n).zip (rowBads k t i.vBf a n)
/-- Elements of operand A for row r. -/
def aRow (k : Core) (t : Nat) (i : TIns) (r : Nat) : List (Num × Bool) :=
  let a := (vxA i).start + r * (vxA i).pitch
  (rowVals k t i.vAf a i.vLen).zip (rowBads k t i.vAf a i.vLen)
/-- First line of destination row r. -/
def dRow (i : TIns) (r : Nat) : Nat := (vxD i).start + r * (vxD i).pitch

/-- Convert a lane result to DFMT (R195, R209). -/
def toD (f : Nat) (x : Num) (c : Exc) : Nat × Exc :=
  let g := Fmt.ofCode f
  let (y, c1) := convert g x c; (g.encode y, c1)

/-! ## Elementwise operations -/

/-- Function code of R215 on x. -/
def vxFuncN (code : Nat) (x : Num) (c : Exc) : Num × Exc :=
  match code with
  | 0 => exp2N x c
  | 1 => log2N x c
  | 2 => recipN x c
  | 3 => rsqrtN x c
  | 4 => sqrtN x c
  | 5 => geluN x c
  | 6 => siluN x c
  | 7 => sigmoidN x c
  | 8 => tanhN x c
  | 9 => (maxN x .zero, c)
  | _ => softplusN x c

/-- One element: first and second operand, old D. -/
def vxElem (i : TIns) (x y d : Num) (c : Exc) : Nat × Exc :=
  let lane := laneFmt i
  if i.op = 0x86 then
    let (p, c1) := mulExact x y c
    let g := Fmt.ofCode i.vDf
    let (z, c2) := convert g p c1
    (g.encode z, c2)
  else
    let (z, c1) :=
      if i.op = 0x81 then addR lane x y c
      else if i.op = 0x82 then mulR lane x y c
      else if i.op = 0x83 then fmaR lane x y d c
      else if i.op = 0x84 then (maxN x y, c)
      else if i.op = 0x85 then (minN x y, c)
      else let (p, c0) := mulR .fp32 x y c; vxFuncN (i.vPar 3 0) p c0
    toD i.vDf z c1

/-- One row of an elementwise instruction (R209, R214, R240). -/
def vxRow (t : Nat) (i : TIns) (s : Core × Exc) (r : Nat) : Core × Exc :=
  let (k, c) := s
  let d := if i.op = 0x83 then (rowVals k t i.vDf (dRow i r) i.vLen).zip (rowBads k t i.vDf (dRow i r) i.vLen)
    else List.replicate i.vLen (Num.zero, false)
  let xs := (aRow k t i r).zip ((bRow k t i r).zip d)
  let (l, c1) := mapExc (fun (p : (Num × Bool) × ((Num × Bool) × (Num × Bool))) c =>
    let (v, c') := vxElem i p.1.1 p.2.1.1 p.2.2.1 c
    let bad := p.1.2 || p.2.1.2 || p.2.2.2
    ((v, bad), c.upTo bad c')) xs c
  (putRow k t i.vDf (dRow i r) l.length l, c1)

/-- Run a row function over ROWS rows and count the exceptions. -/
def vxRows (k : Core) (t : Nat) (i : TIns) (f : Core × Exc → Nat → Core × Exc) : Core :=
  let (k1, c) := (upFrom 0 i.vRows).foldl f (k, {})
  countExc k1 t c

/-! ## Reductions -/

/-- Store FP32 values in the row-value layout from byte addr on, two to a 64-bit word; a poisoned one poisons its word (R208, R240). -/
def putRowValues (k : Core) (t addr : Nat) : List (Num × Bool) → Core
  | x :: y :: r =>
    putRowValues (tmPutBytes k t addr (leBytes 4 (w32 x.1).toNat ++ leBytes 4 (w32 y.1).toNat) (x.2 || y.2)) t (addr + 8) r
  | [x] => tmPutBytes k t addr (leBytes 4 (w32 x.1).toNat) (x.2 || (tile k t).mem.isBad (addr / 8))
  | [] => k

/-- The value of one row of a VX.REDUCE (R216). -/
def reduceRow (k : Core) (t : Nat) (i : TIns) (r : Nat) (c : Exc) : (Num × Bool) × Exc :=
  let xs := (aRow k t i r).map Prod.fst
  let bad := (aRow k t i r).any Prod.snd
  let (v, c1) :=
    match i.vPar 1 0 with
    | 0 => rowSum xs c
    | 1 => (xs.tail.foldl maxN (xs.headD .zero), c)
    | 2 => (xs.tail.foldl minN (xs.headD .zero), c)
    | _ => let (sq, c0) := mapExc (fun x c => mulR .fp32 x x c) xs c; rowSum sq c0
  ((v, bad), c.upTo bad c1)
/-- VX.REDUCE. -/
def vxReduce (k : Core) (t : Nat) (i : TIns) : Core :=
  let (l, c) := mapExc (reduceRow k t i) (upFrom 0 i.vRows) {}
  countExc (putRowValues k t (64 * i.fb 30 16) l) t c

/-- VX.MAXABS: channel statistics over the rows (R198, R217). -/
def vxMaxabs (k : Core) (t : Nat) (i : TIns) : Core :=
  let n := i.vLen
  let start : List (Num × Bool) :=
    if i.vPar 0 0 = 1 then (rowVals k t 6 (i.fb 30 16) n).zip (rowBads k t 6 (i.fb 30 16) n) else List.replicate n (.zero, false)
  let l := (upFrom 0 i.vRows).foldl (fun st r =>
    (st.zip (aRow k t i r)).map (fun p => (maxN p.1.1 p.2.1.abs, p.1.2 || p.2.2))) start
  putRow k t 6 (i.fb 30 16) n (l.map (fun p => (Fmt.fp32.encode p.1, p.2)))

/-! ## Normalisation and soft maximum -/

/-- VX.NORM of one row (R218). -/
def normRow (t : Nat) (i : TIns) (s : Core × Exc) (r : Nat) : Core × Exc :=
  let (k, c) := s
  let n := i.vLen
  let a := aRow k t i r
  let gm := rowVals k t i.vBf (i.fb 14 0) n
  let bt := rowVals k t i.vBf (i.fb 14 0 + rowLen i.vBf n) n
  let bad := a.any Prod.snd || tmAnyBad k t (i.fb 14 0) (rowLen i.vBf n * (1 + i.vPar 1 1))
  let xs := a.map Prod.fst
  let (ds, c1) :=
    if i.vPar 0 0 = 0 then (xs, c)
    else
      let (sm, c0) := rowSum xs c
      let (mu, c0) := divNat sm n c0
      mapExc (fun x c => addR .fp32 x mu.neg c) xs c0
  let (sq, c2) := mapExc (fun x c => mulR .fp32 x x c) ds c1
  let (ss, c3) := rowSum sq c2
  let (mean, c4) := divNat ss n c3
  let (v, c5) := addR .fp32 mean i.imm c4
  let (rs, c6) := rsqrtN v c5
  let (out, c7) := mapExc (fun (p : Num × (Num × Num)) c =>
    let (y, c) := mulR .fp32 p.1 rs c
    let (y, c) := mulR .fp32 y p.2.1 c
    let (y, c) := if i.vPar 1 1 = 1 then addR .fp32 y p.2.2 c else (y, c)
    let (z, c) := toD i.vDf y c
    ((z, bad), c)) (ds.zip (gm.zip bt)) c6
  (putRow k t i.vDf (dRow i r) n out, c.upTo bad c7)

/-- The FP32 value nearest log2 e (R219). -/
def log2e : Num := f32 0x3FB8AA3B
/-- 2^((x − m) × L), each step rounded (R219). -/
def expShift (x m : Num) (c : Exc) : Num × Exc :=
  let (d, c1) := addR .fp32 x m.neg c
  let (p, c2) := mulR .fp32 d log2e c1
  exp2N p c2

/-- VX.SOFTMAX of one row (R219). -/
def softmaxRow (t : Nat) (i : TIns) (s : Core × Exc) (r : Nat) : Core × Exc :=
  let (k, c) := s
  let n := i.vLen
  let valid := if i.vPar 19 0 = 0 then n else i.vPar 19 0
  let a := aRow k t i r
  let bad := a.any Prod.snd
  let (xs, c1) := mapExc (fun (p : Num × Bool) c => mulR .fp32 p.1 i.imm c) (a.take valid) c
  let m := xs.tail.foldl maxN (xs.headD .zero)
  let (out, c2) :=
    if m.isNan || m == .inf false then
      mapExc (fun (_ : Nat) c =>
        let (z, c') := toD i.vDf .nan c
        (z, if m.isNan then c' else c'.addMade)) (upFrom 0 n) c1
    else
      let (es, c3) := mapExc (fun x c => expShift x m c) xs c1
      let (sm, c4) := rowSum es c3
      let (rc, c4) := recipN sm c4
      let (ys, c5) := mapExc (fun e c => let (y, c) := mulR .fp32 e rc c; toD i.vDf y c) es c4
      (ys ++ List.replicate (n - valid) 0, c5)
  (putRow k t i.vDf (dRow i r) n (out.map (fun v => (v, bad))), c.upTo bad c2)

/-! ## The Whisk (R202, R203) -/

/-- One butterfly stage on pairs that differ in bit s. -/
def whiskStage (s : Nat) (xs : List Num) (c : Exc) : List Num × Exc :=
  mapExc (fun j c =>
    let lo := j - (if bit j s then 2 ^ s else 0)
    let x := xs.getD lo .zero
    let y := xs.getD (lo + 2 ^ s) .zero
    if bit j s then addR .fp32 x y.neg c else addR .fp32 x y c) (upFrom 0 xs.length) c
/-- Stages s, s + 1, …, n of them. -/
def whiskStages : Nat → Nat → List Num → Exc → List Num × Exc
  | 0, _, xs, c => (xs, c)
  | n + 1, s, xs, c => let (ys, c1) := whiskStage s xs c; whiskStages n (s + 1) ys c1
/-- log2 of a block size and its constant (R203). -/
def whiskLog (n : Nat) : Nat := if n = 64 then 6 else if n = 128 then 7 else 8
def whiskConst (n : Nat) : Num := if n = 64 then .fin false 1 (-3) else if n = 128 then f32 0x3DB504F3 else .fin false 1 (-4)
/-- Rotate the blocks of a row. -/
def whiskBlocks (n f : Nat) : Nat → List (Num × Bool) → Exc → List (Nat × Bool) × Exc
  | 0, _, c => ([], c)
  | fuel + 1, l, c =>
    if l.isEmpty then ([], c)
    else
      let h := l.take n
      let bad := h.any Prod.snd
      let (ys, c1) := whiskStages (whiskLog n) 0 (h.map Prod.fst) c
      let (zs, c2) := mapExc (fun y c => let (p, c) := mulR .fp32 y (whiskConst n) c; toD f p c) ys c1
      let (rest, c3) := whiskBlocks n f fuel (l.drop n) (c.upTo bad c2)
      (zs.map (fun z => (z, bad)) ++ rest, c3)
def whiskRow (t : Nat) (i : TIns) (s : Core × Exc) (r : Nat) : Core × Exc :=
  let (k, c) := s
  let (out, c1) := whiskBlocks (i.vPar 8 0) i.vDf i.vLen (aRow k t i r) c
  (putRow k t i.vDf (dRow i r) i.vLen out, c1)

/-! ## Sampling (R221 to R225) -/

/-- One round of Philox4x32. -/
def philoxRound (k0 k1 : Nat) (v : Nat × Nat × Nat × Nat) : Nat × Nat × Nat × Nat :=
  let (c0, c1, c2, c3) := v
  let p0 := 0xD2511F53 * c0
  let p1 := 0xCD9E8D57 * c2
  (Nat.xor (Nat.xor (p1 / 2 ^ 32) c1) k0, p1 % 2 ^ 32, Nat.xor (Nat.xor (p0 / 2 ^ 32) c3) k1, p0 % 2 ^ 32)
/-- Rounds of Philox4x32, the key raised between rounds. -/
def philoxRounds : Nat → Nat → Nat → Nat × Nat × Nat × Nat → Nat × Nat × Nat × Nat
  | 0, _, _, v => v
  | n + 1, k0, k1, v => philoxRounds n ((k0 + 0x9E3779B9) % 2 ^ 32) ((k1 + 0xBB67AE85) % 2 ^ 32) (philoxRound k0 k1 v)
/-- Output word 0 of Philox4x32-10. -/
def philox (key : Nat) (pos sq : Nat) : Nat := (philoxRounds 10 (key % 2 ^ 32) (key / 2 ^ 32) (pos, sq, 0, 0)).1

/-- A candidate: value and index. -/
structure Cand where
  x : Num
  ix : Nat
  deriving DecidableEq, Repr

/-- a ranks before b: the larger first, ties in ascending index (R222). -/
def Cand.before (a b : Cand) : Bool := b.x.lt a.x || (!a.x.lt b.x && decide (a.ix < b.ix))
/-- Put a candidate behind every one that ranks before it. -/
def candInsert (a : Cand) : List Cand → List Cand
  | [] => [a]
  | b :: r => if a.before b then a :: b :: r else b :: candInsert a r
/-- The 64 highest of a list in rank, padded with −∞. -/
def top64 (l : List Cand) : List Cand :=
  let s := l.foldl (fun acc a => (candInsert a acc).take 64) []
  s ++ List.replicate (64 - s.length) { x := .inf true, ix := 0xFFFFFFFF }

/-- A candidate block: maximum, sum and list. -/
structure CBlock where
  m : Num
  s : Num
  list : List Cand
  nan : Bool := false
  deriving DecidableEq, Repr

/-- The largest of values that are not NaN; −∞ of none. -/
def maxReal (xs : List Num) : Num := xs.foldl (fun m x => if x.isNan then m else maxN m x) (.inf true)

/-- The block of a row of logits (R222); base is the index of its first element. NaN entries take no part (assumption 11). -/
def rowBlock (xs : List Num) (invt : Num) (base : Nat) (c : Exc) : CBlock × Exc :=
  let one : Num := .fin false 1 0
  let (ys, c1) := mapExc (fun x c => mulR .fp32 x (if invt == .fin false 0 0 then one else invt) c) xs c
  let m := maxReal ys
  let (es, c2) := mapExc (fun y c => if y.isNan then (Num.zero, c) else expShift y m c) ys c1
  let (s, c3) := rowSum es c2
  let cands := (ys.zipIdx.filter (fun p => !p.1.isNan)).map (fun p => { x := p.1, ix := (base + p.2) % 2 ^ 32 : Cand })
  ({ m := m, s := s, list := top64 cands, nan := ys.any (·.isNan) }, c3)

/-- Read a candidate block at line a (R223). -/
def readBlock (k : Core) (t a : Nat) : CBlock :=
  { m := f32 (tmElem k t a 32 0), s := f32 (tmElem k t a 32 1),
    list := (upFrom 0 64).map (fun j => { x := f32 (tmElem k t (a + 1) 32 (2 * j)), ix := tmElem k t (a + 1) 32 (2 * j + 1) }) }

/-- Merge candidate blocks in order (R222). -/
def mergeBlocks (bs : List CBlock) (c : Exc) : CBlock × Exc :=
  let m := maxReal (bs.map (·.m))
  let (s, c1) := bs.foldl (fun a b =>
    let (e, c) := expShift b.m m a.2
    let (p, c) := mulR .fp32 b.s e c
    addR .fp32 a.1 p c) (Num.zero, c)
  ({ m := m, s := s, list := top64 ((bs.flatMap (·.list)).filter (fun e => !e.x.isNan)), nan := bs.any (fun b => b.list.any (·.x.isNan)) }, c1)

/-- Write a candidate block. -/
def putBlock (k : Core) (t a : Nat) (b : CBlock) (p : Bool) : Core :=
  let k1 := tmPut k t a (BitVec.ofNat 512 ((w32 b.m).toNat + (w32 b.s).toNat * 2 ^ 32)) p
  tmPutBytes k1 t (64 * (a + 1)) (b.list.flatMap (fun e => leBytes 4 (w32 e.x).toNat ++ leBytes 4 e.ix)) p

/-- The kept prefix: running sums of q until they reach the bound, at least one entry (R224 step 1). -/
def keptPrefix (bound : Num) : List (Cand × Num) → Num → Exc → List (Cand × Num) × Exc
  | [], _, c => ([], c)
  | (e, q) :: r, s, c =>
    let (s1, c1) := addR .fp32 s q c
    if s1.lt bound then
      let (rest, c2) := keptPrefix bound r s1 c1
      ((e, s1) :: rest, c2)
    else ([(e, s1)], c1)

/-- The token of a candidate list and the flags of its record (R224). -/
def chooseToken (b : CBlock) (invt topp : Num) (topk seed pos sq : Nat) (c : Exc) : List Byte × Exc :=
  let greedy := invt == .fin false 0 0
  let valid := b.list.any (fun e => e.x.isFin)
  let flags := b2n greedy + 2 * b2n b.nan + 4 * b2n (!valid)
  if !valid then (leBytes 4 0xFFFFFFFF ++ leBytes 2 0 ++ leBytes 2 flags, c)
  else
    let n := if topk = 0 ∨ 64 < topk then 64 else topk
    let one : Num := .fin false 1 0
    let p := if Num.lt .zero topp && !one.lt topp then topp else one
    let (qs, c1) := mapExc (fun (e : Cand) c => let (q, c) := expShift e.x b.m c; ((e, q), c)) (b.list.take n) c
    let (bound, c2) := mulR .fp32 p b.s c1
    let (kept, c3) := keptPrefix bound qs .zero c2
    let total := ((kept.getLast?).map Prod.snd).getD .zero
    let u : Num := .fin false (philox seed pos sq / 256) (-24)
    let (lim, c4) := mulR .fp32 u total c3
    let pick := if greedy then b.list.head? else
      match kept.find? (fun e => lim.lt e.2) with
      | some e => some e.1
      | none => (kept.getLast?).map Prod.fst
    match pick with
    | none => (leBytes 4 0xFFFFFFFF ++ leBytes 2 0 ++ leBytes 2 flags, c4)
    | some e =>
      let (lp, c5) := logProbN e.x b.m b.s c4
      (leBytes 4 e.ix ++ leBytes 2 lp ++ leBytes 2 flags, c5)

/-- VX.SAMPLE of one row (R221 to R225). -/
def sampleRow (t : Nat) (i : TIns) (s : Core × Exc) (r : Nat) : Core × Exc :=
  let (k, c) := s
  let pa := 64 * i.fb 14 0 + 32 * r
  let par := (tile k t).mem.bytes 0 pa 32
  let f := fun lo n => ofLE ((par.drop lo).take n)
  let a := (vxA i).start + r * (vxA i).pitch
  let bad := tmAnyBad k t a (vxA i).len || tmBad k t (pa / 64)
  let (b, c1) :=
    if i.vPar 1 0 = 2 then mergeBlocks ((upFrom 0 i.vLen).map (fun j => readBlock k t (a + 9 * j))) c
    else rowBlock ((aRow k t i r).map Prod.fst) (f32 (f 0 4)) (if i.vPar 1 0 = 1 then i.fx 95 64 else 0) c
  if i.vPar 1 0 = 1 then (putBlock k t (dRow i r) b bad, c.upTo bad c1)
  else
    let (rec, c2) := chooseToken b (f32 (f 0 4)) (f32 (f 4 4)) (f 8 1) (f 16 8) (f 24 4) (f 12 4 % 2 ^ 22) c1
    (tmPutBytes k t (64 * i.fb 30 16 + 8 * r) rec bad, c.upTo bad c2)

/-! ## Start -/

/-- A VX instruction at the head of the VE queue runs and retires; VX.WINDOW holds the VE until its rows are written. -/
def vxRun (k : Core) (t : Nat) (i : TIns) (f : Core → Core) : Core :=
  unitRun k t uVe i (fun k => retireIns (f k) t i)

/-- VX.ADD to VX.FUNC. -/
def vxMap (k : Core) (t : Nat) (i : TIns) : Core := vxRun k t i (fun k => vxRows k t i (vxRow t i))

/-! ## VX.WINDOW (R235) -/

/-- Element c of tap number p of a window. -/
def winElem (i : TIns) (got : List VLine) (p c : Nat) : Num :=
  let l := actLines i.vAf
  (Fmt.ofCode i.vAf).decode (elemAt (joinLines (((got.drop (p * l)).take l).map (·.line))) (fmtBits i.vAf) c)
/-- Tap p is padding. -/
def winPad (i : TIns) (got : List VLine) (p : Nat) : Bool := ((got[p * actLines i.vAf]?).map (·.pad)).getD false

/-- Output channel ch of a window (R235). -/
def winOut (k : Core) (t : Nat) (i : TIns) (got : List VLine) (ch : Nat) (c : Exc) : Nat × Exc :=
  let taps := got.length / actLines i.vAf
  let inside := (upFrom 0 taps).filter (fun p => !winPad i got p)
  let (y, c1) :=
    match i.vPar 1 0 with
    | 0 => (match inside with
      | [] => (Num.zero, c)
      | p :: r => (r.foldl (fun m q => maxN m (winElem i got q ch)) (winElem i got p ch), c))
    | 1 =>
      if inside.isEmpty then (Num.zero, c)
      else
        let avgIn := ((got.head?).map (·.avgIn)).getD false
        let ps := if avgIn then inside else upFrom 0 taps
        let (s, c0) := ps.foldl (fun a p => addR .fp32 a.1 (winElem i got p ch) a.2) (Num.zero, c)
        let (rc, c0) := divNat (.fin false 1 0) ps.length c0
        mulR .fp32 s rc c0
    | _ =>
      let cg := 2 ^ i.vPar 5 4
      let pitch := pitchOf (i.fx 31 16) (rowLen i.vBf i.vLen)
      (upFrom 0 (taps * cg)).foldl (fun a n =>
        fmaR .fp32 (winElem i got (n / cg) (ch / cg * cg + n % cg))
          ((Fmt.ofCode i.vBf).decode (tmElem k t (i.fb 14 0 + n * pitch) (fmtBits i.vBf) ch)) a.1 a.2) (Num.zero, c)
  toD i.vDf y c1

/-- Write the row of a whole window. -/
def winRow (k : Core) (t : Nat) (w : WinRun) : Core :=
  let i := w.ins
  let (out, c) := mapExc (fun ch c => winOut k t i w.got ch c) (upFrom 0 i.vLen) {}
  let wbad := i.vPar 1 0 == 2 &&
    (upFrom 0 (w.got.length / actLines i.vAf * 2 ^ i.vPar 5 4)).any (fun n =>
      tmAnyBad k t (i.fb 14 0 + n * pitchOf (i.fx 31 16) (rowLen i.vBf i.vLen)) (rowLen i.vBf i.vLen))
  let bad := w.got.any (·.bad) || wbad
  countExc (putRow k t i.vDf (dRow i w.row) i.vLen (out.map (fun v => (v, bad)))) t (Exc.upTo {} bad c)

/-- The VE takes lines from its stream while it has a VX.WINDOW, and the Conv Feeder fills it; each whole window gives a row. A VE that
finds the stream empty waits (R231, R232, R235). -/
def vePump (k : Core) (t : Nat) : Nat → Core
  | 0 => k
  | fuel + 1 =>
    match (tile k t).win with
    | none => cfRun k t
    | some w =>
      if w.ins.vRows ≤ w.row then cfRun (retireIns (modTile k t (fun q => { q with win := none })) t w.ins) t
      else match (tile k t).veStream with
        | [] =>
          let k1 := cfRun k t
          if (tile k1 t).veStream.isEmpty then tbump k1 t (oVeStarve t) 1 else vePump k1 t fuel
        | l :: r =>
          let w1 := { w with got := w.got ++ [l] }
          let k1 := modTile k t (fun q => { q with veStream := r, win := some w1 })
          if w1.got.length < l.span then vePump k1 t fuel
          else vePump (modTile (winRow k1 t w1) t (fun q => { q with win := some { w1 with row := w1.row + 1, got := [] } })) t fuel

/-- Enough turns for every line of a VX.WINDOW. -/
def pumpFuel : Nat := 4096 * 1024
/-- The Conv Feeder and the VE go on as far as their stream allows. -/
def veRun (k : Core) (t : Nat) : Core := vePump k t pumpFuel

/-- The weight rows of a grouped VX.WINDOW over a map: KH × KW × Cg of them (R213, R235). -/
def windowWeights (i : TIns) (s : TIns) : Ext :=
  { start := i.fb 14 0, pitch := pitchOf (i.fx 31 16) (rowLen i.vBf i.vLen),
    rows := if i.vPar 1 0 = 2 then s.cvKh * s.cvKw * 2 ^ i.vPar 5 4 else 0, len := rowLen i.vBf i.vLen }
/-- VX.WINDOW starts: its chunk and format must be those of the map (R235); without a map it waits. The weight rows are known only now, and are
checked here (R211, R213). -/
def vxWindow (k : Core) (t : Nat) (i : TIns) : Core :=
  unitRun k t uVe i (fun k =>
    match (tile k t).cf with
    | none => k
    | some s =>
      if i.vLen ≠ chunkK s.cvFmt then tileFail k t i.widx rOverrun 12
      else if i.vPar 1 0 = 2 ∧ tmLines < (windowWeights i s).stop then tileFail k t i.widx rOverrun 32
      else if (windowWeights i s).meets (vxD i) then tileFail k t i.widx rOverrun 48
      else if i.vAf ≠ s.cvFmt then tileFail k t i.widx rOverrun 79
      else veRun (modTile k t (fun q => { q with win := some { ins := i } })) t)

end Sys2Proof.Machine
end

