-- ==== Sys2Proof/Machine/Cv.lean ====
section
/-! DEFINITION. CV.SETUP and CV.FEED (R233, R234, R236). -/

namespace Sys2Proof.Machine

/-- CV.SETUP replaces the window register once the feed before it has placed its last window (R233). -/
def cvSetup (k : Core) (t : Nat) (i : TIns) : Core :=
  unitRun k t uCf i (fun k => retireIns (modTile k t (fun q => { q with cf := some i })) t i)

/-- Rows that the windows of a feed read (R229). -/
def feedRows (s i : TIns) : List Int :=
  let p0 := feedPixel s i 0
  let p1 := feedPixel s i (i.fc 9 0 - 1)
  let tys := if i.fa 4 4 = 1 then upFrom 0 s.cvKh else [i.fa 11 8]
  (upFrom (p0 / s.cvOw) (p1 / s.cvOw - p0 / s.cvOw + 1)).flatMap (fun oy =>
    tys.map (fun ty => (tapPos s (oy * s.cvOw) ty 0).1))

/-- The first failing check of a CV.FEED at its start, in the order of R234: ARG. -/
def feedFault (k : Core) (t : Nat) (s i : TIns) : Option Nat :=
  let n := i.fc 9 0
  let p0 := feedPixel s i 0
  if s.cvKh ≤ i.fa 11 8 then some 72
  else if s.cvKw ≤ i.fa 15 12 then some 76
  else if cdiv s.cvC (chunkK s.cvFmt) ≤ i.fa 31 16 then some 80
  else if s.cvOh * s.cvOw < p0 + n ∨ s.cvOh ≤ i.fb 15 0 ∨ s.cvOw ≤ i.fb 31 16 then some 0
  else if s.cvNl = 0 ∧ (feedRows s i).any (fun y =>
      decide (0 ≤ y ∧ y < s.cvH) && !decide ((s.fx 47 32 : Int) ≤ y ∧ y < s.fx 47 32 + s.cvHt)) = true then some 32
  else if s.cvNl ≠ 0 ∧ s.cvNl < ((p0 + n - 1) / s.cvOw - p0 / s.cvOw) * s.cvSy + (s.cvKh - 1) * s.cvDy + 1 then some 32
  else if (maskEngines k t (i.fa 3 0)).any (·.isNone) = true then some 64
  else none

/-- CV.FEED starts and places what its streams hold (R230, R231, R234). -/
def cvFeed (k : Core) (t : Nat) (i : TIns) : Core :=
  unitRun k t uCf i (fun k =>
    match (tile k t).cf with
    | none => tileFail k t i.widx rWrongState 0
    | some s =>
      match feedFault k t s i with
      | some a => tileFail k t i.widx rOverrun a
      | none => veRun (modTile k t (fun q => { q with feed := some { ins := i } })) t)

end Sys2Proof.Machine
end

