-- ==== Sys2Proof/Machine/Fabric.lean ====
section
/-! DEFINITION. The staging slots of fabric channels and the reads that free them (R418). -/

namespace Sys2Proof.Machine

/-! ## Staging slots (R418) -/

/-- A die's staging line lies in the slots of an inbound staging channel: the slot. -/
def Chan.slotOf (c : Chan) (die line : Nat) : Option Nat :=
  if c.st = 2 ∧ c.stg = true ∧ c.target = die ∧ c.base ≤ line ∧ line < c.base + c.slots * c.lines ∧ c.lines ≠ 0 then
    some ((line - c.base) / c.lines)
  else none
/-- A slot's reads are complete: it is freed and a CREDIT goes back. -/
def freeSlot (k : Core) (c s : Nat) : Core :=
  let ch := chan k c
  match mget? ch.filled s with
  | some (n, r) =>
    if n * ch.reads ≤ r then
      routeChan (modChan k c (fun q => { q with filled := mdel q.filled s })) c (mkFrame k ch.peer tCredit c 0 0 0 [] [])
    else k
  | none => k
/-- Count reads of n staging lines of a die from a line, by any unit of the device (R418). -/
def noteStgReads (k : Core) (die line n : Nat) : Core :=
  (k.fab.chans.map Prod.fst).foldl (fun k c =>
    let hits := (upFrom line n).filterMap (fun l => (chan k c).slotOf die l)
    hits.dedup.foldl (fun k s =>
      match mget? (chan k c).filled s with
      | some (m, r) =>
        freeSlot (modChan k c (fun q => { q with filled := mput q.filled s (m, r + (hits.filter (· == s)).length) })) c s
      | none => k) k) k

end Sys2Proof.Machine
end

