-- ==== Sys2Proof/Machine/Dm.lean ====
section
/-! DEFINITION. The Data Mover: the checks of a move at its start, where its lines come from and go to, the peer-object destination and
the prefetch window its reads extend (R144, R145, R151 to R156, R299, R319 to R321, R329, R415, R418). -/

namespace Sys2Proof.Machine

/-! ## Prefetch window (R329) -/

/-- Take step pins on, and promote, the entries of a schedule whose layers exceed lo and do not exceed hi (R329). -/
def prefetchLayers (k : Core) (d lo hi : Nat) (l : List SchedEnt) : Core :=
  (l.filter (fun e => !e.cond && decide (lo ≤ e.layer ∧ e.layer ≤ hi))).foldl (fun k e =>
    let k1 := takePin k e.handle
    let k2 := modDom k1 d (fun q => { q with running := q.running.map (fun u => { u with pins := u.pins ++ [e.handle] }) })
    if (obj k2 e.handle).st = .evicting then promote k2 e.handle else promoteOrDrop k2 e.handle none) k
/-- The highest layer of the schedule entries that name an object. -/
def topLayer (h : Nat) (l : List SchedEnt) : Option Nat :=
  (l.filter (fun e => e.handle == h)).foldl (fun m e => match m with | none => some e.layer | some x => some (max x e.layer)) none
/-- A DM of a step reaches an object, or the base of a delta pack: its LASTREAD, the step's reads and the window (R316, R329, R330). -/
def noteOne (k : Core) (d h : Nat) : Core :=
  match (dom k d).running with
  | none => k
  | some u =>
    let k1 := modObj k h (fun o => { o with lastRead := u.num % 2 ^ 32 })
    if u.reads.contains h then k1
    else
      let k2 := modDom k1 d (fun q => { q with running := some { u with reads := sput u.reads h } })
      match (mset' k u.mset).sched with
      | none => k2
      | some (lead, l) =>
        match topLayer h l with
        | none => k2
        | some y =>
          let w := (dom k2 d).layer
          if y + lead ≤ w then k2
          else prefetchLayers (modDom k2 d (fun q => { q with layer := y + lead })) d (w + 1) (y + lead) l
/-- The object a DM reads, and with a delta pack its base (R319). -/
def noteObjRead (k : Core) (d h : Nat) : Core :=
  let k1 := noteOne k d h
  if (obj k h).pack = 2 then noteOne k1 d (obj k h).base else k1

/-! ## Checks at the start (R133) -/

/-- Quarter of a staging line of a die (R12). -/
def stgQuarter (die line : Nat) : Nat := 2 * die + line / 262144
/-- Context of the model set a tile runs; a shared set has none. -/
def tileCtx (k : Core) (t : Nat) : Option Nat := (mset' k (tileMset k t)).ctx
/-- An ARG that names the partition of a domain, 4 for none (R536). -/
def domArg (d : Nat) : Nat := d

/-- Checks on one place and the rows of lines an instruction touches in it: pos and offPos are the bits of the place and the offset. -/
def placeChks (k : Core) (t pos offPos p : Nat) (e : Ext) : List Chk :=
  let d := domOfTile k t
  let n := plIndex p
  match plSpace p with
  | 1 =>
    let u := physTile k (n % 256)
    [⟨4, pos, domOfTile k u != d, rDeniedPart, domArg (domOfTile k u)⟩, cRange offPos (decide (24576 < e.stop))]
  | 2 =>
    let die := n % 2
    let qs := (e.starts.flatMap (fun s => [stgQuarter die s, stgQuarter die (s + e.len - 1)])).dedup
    let bad := qs.filter (fun q => domOfPart (if isPart k q then some q else none) != d)
    [cRange offPos (decide (524288 < e.stop)),
     ⟨4, pos, decide (e.stop ≤ 524288) && !bad.isEmpty, rDeniedPart, domArg (domOfPart (if isPart k (bad.headD 0) then bad.head? else none))⟩]
  | 3 =>
    let h := n % 2 ^ 24
    let o := obj k h
    [cRange pos (decide (rfld k oObjLimit 24 0 ≤ h) || !o.alloc || objForeign o (tileCtx k t)),
     ⟨4, pos, o.alloc && o.dom != d, rDeniedPart, domArg o.dom⟩,
     cRange offPos (o.alloc && decide (o.len < e.stop))]
  | _ => []

/-- A row of a destination lies in a step area outside the sample records (R299). -/
def hitsStepArea (die : Nat) (e : Ext) : Bool :=
  let a := fun q => 245760 + 262144 * q
  e.starts.any (fun s => [0, 1].any (fun q =>
    decide (s < a q + 8192 ∧ a q < s + e.len) || decide (s < a q + 16384 ∧ a q + 9216 < s + e.len))) && decide (die < 2)

/-- Checks on the destination (R299, R320, R415). -/
def destChks (k : Core) (t pos offPos p : Nat) (e : Ext) : List Chk :=
  let n := plIndex p
  placeChks k t pos offPos p e ++
  match plSpace p with
  | 2 => [⟨8, offPos, hitsStepArea (n % 2) e, rOverrun, 160⟩]
  | 3 => let o := obj k (n % 2 ^ 24); [⟨8, pos, o.alloc && (o.home == 1 || o.pack != 0), rOverrun, 128⟩]
  | 4 =>
    let c := n % 4096
    [⟨4, pos, chanPart k c != partOfDom (domOfTile k t), rDeniedPart, domArg (domOfPart (chanPart k c))⟩,
     cState pos ((chan k c).st != 1) (chan k c).st,
     ⟨8, offPos, (chan k c).st == 1 && decide ((chan k c).lines < e.stop), rOverrun, 32⟩]
  | _ => []

/-- Every check of a DM instruction at its start. -/
def dmRunChks (k : Core) (t : Nat) (i : TIns) : List Chk :=
  if i.op = 0x84 then destChks k t 64 32 i.a.toNat i.dstExt
  else
    let s := i.srcExt
    let d := i.dstExt
    let u := physTile k (i.fx 79 72)
    placeChks k t 64 32 i.a.toNat s ++ destChks k t 128 160 (i.fx 31 0) d ++
    [cRange 160 (i.a.toNat == i.fx 31 0 && s.meets d),
     ⟨4, 200, plSpace (i.fx 31 0) != 4 && i.fx 71 71 == 1 && !sameDomain k t u, rDeniedPart, domArg (domOfTile k u)⟩]

/-! ## The source -/

/-- Open every row of an object source, and of its base, where the rows wait for no damaged block (R319, R352). -/
def openRows (k : Core) (w : Reader) (d h len : Nat) : List Nat → Way
  | [] => .go k
  | s :: r =>
    match openBoth k w d h s len with
    | .go k1 =>
      match holdRead k1 w h s len with
      | (k2, true) => .wait k2
      | (k2, false) => openRows k2 w d h len r
    | x => x

/-- The opened source rows, read. -/
def readRows (k : Core) (w : Reader) (h len : Nat) : List Nat → Core × List (List (Line × Bool))
  | [] => (k, [])
  | s :: r =>
    let a := takeLines k w h s len
    let b := readRows a.1 w h len r
    (b.1, a.2 :: b.2)

/-- Rows of lines of the opened source of a DM on tile t. -/
def dmRead (k : Core) (w : Reader) (i : TIns) : Core × List (List (Line × Bool)) :=
  let e := i.srcExt
  let n := plIndex i.a.toNat
  match plSpace i.a.toNat with
  | 1 =>
    let u := physTile k (n % 256)
    (k, e.starts.map (fun s => (upFrom s e.len).map (fun l => (tmLine k u l, tmBad k u l))))
  | 2 =>
    let at' := fun l => stgLine (n % 2) l
    (e.starts.foldl (fun k s => noteStgReads k (n % 2) s e.len) k,
     e.starts.map (fun s => (upFrom s e.len).map (fun l => (k.stg.line 0 (at' l), k.stg.lineBad (at' l)))))
  | _ =>
    readRows k w (n % 2 ^ 24) e.len e.starts

/-! ## The destination -/

/-- Element j of row r of a source whose rows are numbers. -/
def transElem (rows : List Nat) (b j r : Nat) : Nat := elemOf (rows.getD r 0) b j
where
  /-- Element j of width b. -/
  elemOf (x b j : Nat) : Nat := x / 2 ^ (b * j) % 2 ^ b

/-- The number of a row of lines. -/
def rowNumber : List (Line × Bool) → Nat
  | [] => 0
  | l :: r => l.1.toNat + 2 ^ 512 * rowNumber r

/-- Elements packed from bit 0. -/
def packBits (b : Nat) : List Nat → Nat
  | [] => 0
  | e :: r => e + 2 ^ b * packBits b r

/-- Line m of transposed row j (R154). -/
def transLine (rows : List (List (Line × Bool))) (nums : List Nat) (b j m : Nat) : Line × Bool :=
  let per := 512 / b
  let rs := upFrom (m * per) per
  (BitVec.ofNat 512 (packBits b (rs.map (transElem nums b j))),
   rs.any (fun r => (((rows.getD r []).getD (j * b / 512) (0, false)).2)))

/-- Destination rows of lines (R152, R154). -/
def dmRows (i : TIns) (rows : List (List (Line × Bool))) : List (List (Line × Bool)) :=
  if i.op = 0x83 then
    let b := esize (i.fx 87 86)
    let nums := rows.map rowNumber
    (upFrom 0 i.dstExt.rows).map (fun j => (upFrom 0 (dmRowLines i)).map (fun m => transLine rows nums b j m))
  else rows

/-- Write one destination row at a line of a place. -/
def putPlaceRow (k : Core) (p line : Nat) (l : List (Line × Bool)) : Core :=
  let n := plIndex p
  match plSpace p with
  | 1 => l.zipIdx.foldl (fun k x => tmPut k (physTile k (n % 256)) (line + x.2) x.1.1 x.1.2) k
  | 2 => l.zipIdx.foldl (fun k x => { k with stg := k.stg.putLine 0 (stgLine (n % 2) (line + x.2)) x.1.1 x.1.2 }) k
  | 3 => writeObj k (n % 2 ^ 24) line l
  | _ => k
/-- Write the destination rows. -/
def putRows (k : Core) (p : Nat) (e : Ext) (rows : List (List (Line × Bool))) : Core :=
  (e.starts.zip rows).foldl (fun k x => putPlaceRow k p x.1 x.2) k

/-- Frames for port q may have waited for its 192 transaction slots or its link's credits: how long is free (R18, R415, assumption 34). -/
def portStall (k : Core) (q : Nat) : Core := let (c, k1) := drawNat k; bump k1 (oFabStallPort q) c
/-- Cut a row into frames of at most 16 lines: offset and lines. -/
def frameRuns (off : Nat) (l : List (Line × Bool)) : Nat → List (Nat × List (Line × Bool))
  | 0 => []
  | fuel + 1 => if l.isEmpty then [] else (off, l.take 16) :: frameRuns (off + 16) (l.drop 16) fuel
/-- FLAGS of a DATA or BCAST frame: bit 0 END, and the poison of its lines (R156, R409). -/
def dataFlags (last : Bool) (l : List (Line × Bool)) : W32 := BitVec.ofNat 32 (b2n last + poisonFlags l)
/-- Send the rows of a peer-object destination as DATA frames, END on the last: all of an instruction's lines are one transaction
(R409, R415, R418). -/
def sendRows (k : Core) (c tag : Nat) (e : Ext) (rows : List (List (Line × Bool))) : Core :=
  let ch := chan k c
  let fs := (e.starts.zip rows).flatMap (fun x => frameRuns x.1 x.2 x.2.length)
  let k1 := match routeOf (chanPort k c) k (ownNode k) ch.peer ch.peerChan with | some q => portStall k q | none => k
  fs.zipIdx.foldl (fun k x =>
    routeChan k c (mkFrame k ch.peer tData ch.peerChan (BitVec.ofNat 64 tag) (BitVec.ofNat 64 x.1.1)
      (dataFlags (decide (x.2 + 1 = fs.length)) x.1.2) [] (x.1.2.map Prod.fst))) k1

/-- The RSEN increment of a DM, or an HX.ADD (R138, R151, R155): the own tile's counter at once, another tile's through the mesh, over the
bridge where the tile is on the other die. -/
def remoteSignal (k : Core) (t u c n widx : Nat) (sender : Option Nat) : Core :=
  if u = t then hitchAdd k t c n (t, widx)
  else
    let k1 := { k with incs := k.incs ++ [{ tile := u, ctr := c, amount := n, src := t, widx := widx, sender := sender }] }
    if dieOfTile u = dieOfTile t then k1 else bridgeStall k1 (dieOfTile t)
/-- A DM instruction retires: SEN, and RSEN where it has one. -/
def dmRetire (k : Core) (t : Nat) (i : TIns) : Core :=
  let k1 := retireIns k t i
  if i.op ≠ 0x84 ∧ plSpace (i.fx 31 0) ≠ 4 ∧ i.fx 71 71 = 1 then remoteSignal k1 t (physTile k (i.fx 79 72)) (i.fx 69 64) 1 i.widx none else k1

/-- The destination can be written now. -/
def dmOpenDest (k : Core) (w : Reader) (t : Nat) (i : TIns) : Way :=
  let p := dmDstPlace i
  let n := plIndex p
  match plSpace p with
  | 3 => openWrite k w (domOfTile k t) (n % 2 ^ 24) (i.dstExt.starts.flatMap (fun s => upFrom s i.dstExt.len))
  | 4 =>
    let c := chan k (n % 4096)
    if c.stg && c.credits == 0 then
      .wait (match routeOf (chanPort k (n % 4096)) k (ownNode k) c.peer c.peerChan with | some q => bump k (oFabStallPort q) 1 | none => k)
    else .go k
  | _ => .go k

/-- A DM that reads an object: an object source is opened row by row. -/
def dmOpenSrc (k : Core) (w : Reader) (t : Nat) (i : TIns) : Way :=
  if i.op ≠ 0x84 ∧ plSpace i.a.toNat = 3 then
    let h := plIndex i.a.toNat % 2 ^ 24
    openRows (noteObjRead k (domOfTile k t) h) w (domOfTile k t) h i.srcExt.len i.srcExt.starts
  else .go k

/-- Send a move through a channel and wait for the acknowledgement of its END frame (R416, R418). -/
def dmSend (k : Core) (t : Nat) (i : TIns) (rows : List (List (Line × Bool))) : Core :=
  let c := plIndex (i.fx 31 0) % 4096
  let ch := chan k c
  let k1 := modChan k c (fun q => { q with
    nextTag := q.nextTag + 1, trans := q.trans + 1, credits := q.credits - 1, slot := (q.slot + 1) % max 1 q.slots })
  let k2 := sendRows k1 c ch.nextTag i.dstExt rows
  modTile k2 t (fun q => { q with dm := some (.peer i c ch.nextTag) })

/-! ## Transactions and waits (R18, R24, R145, R155) -/

/-- Transactions of a run of n lines from line s: none crosses a 4 KiB boundary, that is 64 lines. -/
def runTrans (s n : Nat) : Nat := if n = 0 then 0 else (s + n - 1) / 64 - s / 64 + 1
/-- Transactions a DM instruction is split into. -/
def dmTrans (i : TIns) : Nat :=
  if i.op = 0x84 then runTrans 0 i.c.toNat else (i.srcExt.starts.map (fun s => runTrans s i.srcExt.len)).sum
/-- The dies a place's lines lie in: an object's may lie in both. -/
def placeDies (k : Core) (p : Nat) : List Nat :=
  match plSpace p with
  | 1 => [dieOfTile (physTile k (plIndex p % 256))]
  | 2 => [plIndex p % 2]
  | _ => [0, 1]
/-- What a move waits for on its way: network credits always, transaction slots where it needs more than 128, and the bridge where a
place lies in the other die; how long is free (R18, R24, assumption 34). -/
def dmWaits (k : Core) (t : Nat) (i : TIns) : Core :=
  let d := dieOfTile t
  let k1 := unitStall k t 22
  let k2 := if 128 < dmTrans i then unitStall k1 t 23 else k1
  let out := (placeDies k (dmDstPlace i)).any (· != d)
  let back := i.op != 0x84 && (placeDies k i.a.toNat).any (· != d)
  let k3 := if out || back then bridgeStall k2 d else k2
  if back then bridgeStall k3 (1 - d) else k3

/-- The DM is done with the move it held. -/
def dmFree (k : Core) (t : Nat) : Core := modTile k t (fun q => { q with dm := none })
/-- The move waits in a transaction slot. -/
def dmHold (k : Core) (t : Nat) (i : TIns) : Core := modTile k t (fun q => { q with dm := some (.move i) })

/-- A move that has started opens its places and moves its lines, or waits for them (R145, R152 to R156). -/
def dmMove (k : Core) (t : Nat) (j : TIns) : Core :=
  let w : Reader := { tile := some t }
  match dmOpenSrc k w t j with
  | .lost h => tileFail (dmFree k t) t j.widx rWeightUnavail h
  | .wait k1 => dmHold k1 t j
  | .go k1 =>
    match dmOpenDest k1 w t j with
    | .lost h => tileFail (dmFree k1 t) t j.widx rWeightUnavail h
    | .wait k2 => dmHold k2 t j
    | .go k2 =>
      if j.op = 0x84 then
        let v := j.x.toNat
        let l : Line := BitVec.ofNat 512 (v + v * 2 ^ 128 + v * 2 ^ 256 + v * 2 ^ 384)
        dmRetire (putRows (dmWaits (dmFree k2 t) t j) j.a.toNat j.dstExt [List.replicate j.c.toNat (l, false)]) t j
      else
        let r := dmRead k2 w j
        let k4 := dmWaits (dmFree (dropGot r.1 w) t) t j
        let out := dmRows j r.2
        if plSpace (j.fx 31 0) = 4 then dmSend k4 t j out
        else dmRetire (putRows k4 (j.fx 31 0) j.dstExt out) t j

/-- A DM instruction at the head of the DM queue starts, fails its checks, or waits; one that has started goes on (R133, R134, R145). -/
def dmStart (k : Core) (t : Nat) (i : TIns) : Core :=
  match (tile k t).dm with
  | some (.move j) => if runsIns k t i && j.plain == i then dmMove k t j else k
  | _ =>
    unitRun k t uDm i (fun k1 =>
      let j := heldIns k t uDm i
      match firstBad (dmRunChks k1 t j) with
      | some c => tileFail k1 t i.widx c.reason c.arg
      | none => dmMove k1 t j)

end Sys2Proof.Machine
end

