-- ==== Sys2Proof/Machine/At.lean ====
section
/-! DEFINITION. The attention pipeline: length tables, walks over pages and ring blocks, AT.RUN, AT.KVPUT and AT.MERGE, and sequence
faults (R250 to R276). -/

namespace Sys2Proof.Machine

/-! ## Arithmetic (R256) -/

/-- Add exact products into partials, each sum rounded once. -/
def fmaInto : List Num → List (Num × Num) → Exc → List Num × Exc
  | p :: ps, x :: xs, c =>
    let (s, c1) := fmaR .fp32 x.1 x.2 p c
    let (r, c2) := fmaInto ps xs c1
    (s :: r, c2)
  | ps, _, c => (ps, c)
/-- Sixteen partials of a dot product. -/
def dotPartials : Nat → List Num → List (Num × Num) → Exc → List Num × Exc
  | 0, ps, _, c => (ps, c)
  | fuel + 1, ps, xs, c =>
    if xs.isEmpty then (ps, c)
    else
      let (p1, c1) := fmaInto ps (xs.take 16) c
      dotPartials fuel p1 (xs.drop 16) c1
/-- dot of R256. -/
def apDot (q x : List Num) (c : Exc) : Num × Exc :=
  let (ps, c1) := dotPartials q.length (List.replicate 16 .zero) (q.zip x) c
  treeStages 4 ps c1
/-- sumk of R256 over products, in ascending key order. -/
def sumProducts : List (Num × Num) → Num → Exc → Num × Exc
  | [], a, c => (a, c)
  | x :: r, a, c => let (s, c1) := fmaR .fp32 x.1 x.2 a c; sumProducts r s c1
/-- sumk of R256 over terms. -/
def sumTerms : List Num → Num → Exc → Num × Exc
  | [], a, c => (a, c)
  | x :: r, a, c => let (s, c1) := addR .fp32 a x c; sumTerms r s c1

/-- What a row keeps between blocks (R256). bad tells of a score that is infinite or NaN, nan of one that is NaN (R257), pois of a
poisoned input (R171). -/
structure RowSt where
  m : Num := .inf true
  l : Num := .zero
  o : List Num
  bad : Bool := false
  nan : Bool := false
  pois : Bool := false
  deriving DecidableEq, Repr

/-- One block's keys and values visible to a row (R256). -/
def rowBlockStep (sc : Num) (q : List Num) (ks vs : List (List Num)) (s : RowSt) (c : Exc) : RowSt × Exc :=
  if ks.isEmpty || s.bad then (s, c)
  else
    let (ss, c1) := mapExc (fun x c => let (d, c') := apDot q x c; mulR .fp32 d sc c') ks c
    if ss.any (fun x => !x.isFin) then ({ s with bad := true, nan := ss.any (·.isNan) }, c1)
    else
      let mn := ss.foldl maxN s.m
      let (d, c2) := addR .fp32 s.m mn.neg c1
      let (f, c2) := apExp d c2
      let (ps, c3) := mapExc (fun x c =>
        let (y, ca) := addR .fp32 x mn.neg c
        let (z, cb) := apExp y ca
        roundArith .bf16 z cb) ss c2
      let (l1, c4) := mulR .fp32 s.l f c3
      let (l2, c5) := sumTerms ps .zero c4
      let (l3, c6) := addR .fp32 l1 l2 c5
      let (o, c7) := mapExc (fun (x : Num × Nat) c =>
        let (a, ca) := mulR .fp32 x.1 f c
        let (b, cb) := sumProducts (ps.zip (vs.map (fun v => v.getD x.2 .zero))) .zero ca
        addR .fp32 a b cb) s.o.zipIdx c6
      ({ s with m := mn, l := l3, o := o }, c7)

/-! ## Length tables (R250 to R252) -/

/-- A length-table entry, with the poison of its line. -/
structure LtEnt where
  seq : Nat
  qpos : Nat
  qn : Nat
  kvlen : Nat
  lo : Nat
  hi : Nat
  bplace : Nat
  boff : Nat
  bad : Bool
  deriving DecidableEq, Repr

/-- A line of a tile-memory or staging place. -/
def placeLine (k : Core) (p l : Nat) : Line × Bool :=
  let n := plIndex p
  if plSpace p = 1 then (tmLine k (physTile k (n % 256)) l, tmBad k (physTile k (n % 256)) l)
  else (k.stg.line 0 (stgLine (n % 2) l), k.stg.lineBad (stgLine (n % 2) l))
/-- Count reads of a place that is staging memory (R418). -/
def notePlace (k : Core) (p l n : Nat) : Core := if plSpace p = 2 then noteStgReads k (plIndex p % 2) l n else k

/-- Entry n of the instruction's length table. -/
def ltEntry (k : Core) (i : TIns) (n : Nat) : LtEnt :=
  let (v, bad) := placeLine k (i.fx 31 0) (i.fx 63 32 + n / 2)
  let x := v.toNat / 2 ^ (256 * (n % 2))
  { seq := bits x 21 0, qpos := bits x 63 32, qn := bits x 95 64, kvlen := bits x 127 96, lo := bits x 159 128, hi := bits x 191 160,
    bplace := bits x 223 192, boff := bits x 255 224, bad := bad }

def TIns.atLayer (i : TIns) : Nat := i.fb 23 16
def TIns.atH0 (i : TIns) : Nat := i.fb 29 24
def TIns.atHn (i : TIns) : Nat := i.fc 22 16
/-- Query heads per key-value head; AT.KVPUT has one row per key-value head. -/
def TIns.atG (i : TIns) : Nat := if i.op = 0x81 then 2 ^ i.fa 27 25 else 1
def TIns.fin (i : TIns) : Bool := i.fa 21 21 == 1
def TIns.accum (i : TIns) : Bool := i.fa 22 22 == 1
/-- Lines between output rows: OL or SL (R257, R258). -/
def atPitch (i : TIns) (dh : Nat) : Nat := if i.fin then atOutLines dh (i.fa 20 18) else stateLines dh

/-- Rows an entry owns (R251, R260). -/
def entryRows (i : TIns) (e : LtEnt) : Nat := e.qn * i.atHn * i.atG

/-- The first condition of R254 and R275 that holds for an entry whose rows begin at base: its reason. The partition comes first, by
R111, and the others in the order of R254's table (assumption 28). -/
def entryFault (k : Core) (t : Nat) (i : TIns) (e : LtEnt) (base : Nat) : Option Nat :=
  let ms := mset' k (tileMset k t)
  let q := seq k e.seq
  let dh := headDim ms.dhc
  let n := base + entryRows i e
  let kl := rowLines ms.dhc ms.kvfmt
  let inStep := match tileStep k t with | some u => u.plan.any (fun p => p.seq == e.seq) | none => false
  let layout := match q.pool with | some p => sameLayout (pool k p) ms | none => false
  let past := fun a l => decide (tmLines < a + n * l)
  let extent :=
    if i.op = 0x81 then
      past (i.fa 14 0) (dh * fmtBits (i.fa 17 15) / 512) || past (i.fb 14 0) (atPitch i dh) || (i.accum && past (i.fb 14 0) (stateLines dh))
    else past (i.fa 14 0) kl || past (i.fa 30 16) kl
  if seqDom k e.seq != domOfTile k t then some rDeniedPart
  else if !inStep then some rWrongState
  else if !layout || (i.op == 0x81 && !fmtPairs (i.fa 17 15) ms.kvfmt) || decide (1048576 < e.kvlen) ||
      decide (1048576 < e.qpos + e.qn) || decide (e.kvlen < e.hi) || extent || decide (ms.nl ≤ i.atLayer) ||
      decide (ms.hkv < i.atH0 + i.atHn) then some rOverrun
  else none

/-! ## Keys of a walk -/

/-- Where an entry's keys lie: the pages of its sequence, or a ring block with its first position and key count (R271, R272). -/
inductive KvSrc where
  | pages (s p h : Nat)
  | ring (place off first count : Nat)
  deriving DecidableEq, Repr

/-- Key positions visible to the row of query position q, from the first to one past the last (R252, R273). -/
def visRange (i : TIns) (e : LtEnt) (src : KvSrc) (q : Nat) : Nat × Nat :=
  let stop := if e.hi = 0 then e.kvlen else e.hi
  let win := i.fx 115 96
  let lo := max e.lo (if win = 0 then 0 else q + 1 - win)
  let hi := if i.fa 23 23 = 1 then min stop (q + 1) else stop
  match src with
  | .pages _ _ _ => (lo, hi)
  | .ring _ _ f n => (max lo f, min hi (f + n))

/-- The blocks that hold keys of the source. -/
def srcBlocks (e : LtEnt) (src : KvSrc) : List Nat :=
  match src with
  | .pages _ _ _ => upFrom 0 (cdiv e.kvlen 64)
  | .ring _ _ f n => upFrom (f / 64) (cdiv n 64)

/-- Block b holds a key of the range. -/
def inBlock (r : Nat × Nat) (b : Nat) : Bool := decide (r.1 < r.2 ∧ r.1 < 64 * b + 64 ∧ 64 * b < r.2)

/-- The blocks each row group of an entry meets, in order, with whether one of its rows sees a key in it (R253). -/
def groupWalk (i : TIns) (e : LtEnt) (src : KvSrc) : List (Nat × Bool) :=
  let rows := e.qn * i.atG
  (upFrom 0 i.atHn).flatMap (fun _ =>
    (upFrom 0 (cdiv rows 64)).flatMap (fun g =>
      let ts := ((upFrom (64 * g) (min 64 (rows - 64 * g))).map (· / i.atG)).dedup
      (srcBlocks e src).map (fun b => (b, ts.any (fun t => inBlock (visRange i e src (e.qpos + t)) b)))))

/-- How an entry of a page list resolves: usable, or a sequence fault with its state code and whether it is a mismatch (R262, R267). -/
def resolve (k : Core) (p : Nat) (v : W64) (put : Bool) : Option (Nat × Bool) :=
  let code := entryCode k (some p) v
  if !entryMapped v then some (0, false)
  else if (pageHdr k p (entryPage v)).gen ≠ entryGen v then some (code, true)
  else if put && code == 2 then some (2, false)
  else none

/-- Number of the page-list entry of a block. -/
def entryNo (k : Core) (s layer b : Nat) : Nat := b * seqNl k s + layer

/-- Line j of row number r (key rows first) of the block that holds position pos, with its poison. -/
def kvLine (k : Core) (src : KvSrc) (layer pl kl pos r j : Nat) : Line × Bool :=
  match src with
  | .pages s p h =>
    let page := entryPage (pubEntry (seq k s) (entryNo k s layer (pos / 64)))
    let l := page * (pool k p).pl + r * kl + j
    let (v, bad) := copyLine k h l
    (plainLine k h l v, bad)
  | .ring place off f _ => placeLine k place (off + 1 + (pos / 64 - f / 64) * pl + r * kl + j)

/-- A row of dh elements that begins at line 0 of a run of lines. -/
def rowOf (f dh : Nat) (ls : List (Line × Bool)) : List Num × Bool :=
  let x := rowNumber ls
  ((upFrom 0 dh).map (fun d => (Fmt.ofCode f).decode (elemAt x (fmtBits f) d)), ls.any (·.2))

/-- Key or value row of a position and head. -/
def kvRow (k : Core) (src : KvSrc) (ms : MSet) (layer head pos : Nat) (value : Bool) : List Num × Bool :=
  let kl := rowLines ms.dhc ms.kvfmt
  let pl := pageLines ms.hkv ms.dhc ms.kvfmt
  let r := ((if value then ms.hkv else 0) + head) * 64 + pos % 64
  rowOf ms.kvfmt (headDim ms.dhc) ((upFrom 0 kl).map (kvLine k src layer pl kl pos r))

/-- A row's walk over the blocks it sees. -/
def walkRow (k : Core) (i : TIns) (src : KvSrc) (ms : MSet) (q : List Num) (head : Nat) (r : Nat × Nat) (s : RowSt) (c : Exc) : RowSt × Exc :=
  ((srcBlocks0 r).filter (inBlock r)).foldl (fun x b =>
    let lo := max r.1 (64 * b)
    let ps := upFrom lo (min r.2 (64 * b + 64) - lo)
    let ks := ps.map (fun p => kvRow k src ms i.atLayer head p false)
    let vs := ps.map (fun p => kvRow k src ms i.atLayer head p true)
    let pois := ks.any (·.2) || vs.any (·.2)
    let (y, c1) := rowBlockStep (f32 (i.fx 95 64)) q (ks.map Prod.fst) (vs.map Prod.fst) x.1 x.2
    ({ y with pois := y.pois || pois }, c1)) (s, c)
where
  /-- Blocks that meet a range. -/
  srcBlocks0 (r : Nat × Nat) : List Nat := upFrom (r.1 / 64) ((r.2 + 63) / 64 - r.1 / 64)

/-! ## State rows and outputs (R257, R258) -/

/-- Read a state row. -/
def readState (k : Core) (t a dh : Nat) : RowSt :=
  { o := rowVals k t 6 a dh, m := f32 (tmElem k t (a + dh / 16) 32 0), l := f32 (tmElem k t (a + dh / 16) 32 1),
    pois := tmAnyBad k t a (stateLines dh) }
/-- What writing n elements of a row with an infinite or NaN score as NaN counts: none where a score was NaN already (R193, R257). -/
def badCount (s : RowSt) (n : Nat) (c : Exc) : Exc := if s.bad && !s.nan then { c with nanMade := c.nanMade + n } else c
/-- Write a state row; after an infinite or NaN score o and l are NaN, so that the finished row is (assumption 28). -/
def putState (k : Core) (t a : Nat) (s : RowSt) : Core :=
  let bits32 := fun x => (w32 x).toNat
  let o := s.o.map (fun x => (bits32 (if s.bad then .nan else x), s.pois))
  let k1 := putRow k t 6 a o.length o
  tmPut k1 t (a + s.o.length / 16) (BitVec.ofNat 512 (bits32 s.m + bits32 (if s.bad then .nan else s.l) * 2 ^ 32)) s.pois
/-- Finish a row and write it in OFMT. -/
def putFinal (k : Core) (t a f : Nat) (s : RowSt) (c : Exc) : Core × Exc :=
  let (o, c1) :=
    if s.bad then mapExc (fun _ c => toD f .nan (badCount s 1 c)) s.o c
    else if s.l.isZero then (s.o.map (fun _ => 0), c)
    else
      let (r, c0) := recipN s.l c
      mapExc (fun x c => let (y, c') := mulR .fp32 x r c; toD f y c') s.o c0
  (putRow k t f a o.length (o.map (fun v => (v, s.pois))), c1)
/-- Write a row, finished or as a state. -/
def putAtRow (k : Core) (t a f : Nat) (fin : Bool) (s : RowSt) (c : Exc) : Core × Exc :=
  if fin then putFinal k t a f s c else (putState k t a s, badCount s (s.o.length + 1) c)

/-! ## Sequence faults (R262) -/

/-- A sequence fault of tile t at a block. -/
def seqFault (k : Core) (t : Nat) (i : TIns) (s b code : Nat) (mismatch : Bool) : Core :=
  let c := seqCtx k s
  let conf := ctxConf k c
  let k1 := bump k (oAtCount t 3) 1
  let k2 := if mismatch then bump k1 (oAtCount t 4) 1 else k1
  let k3 := errRecord k2
    { reason := rWrongState, cls := 2, source := 1, inst := t, dom := domOfTile k t, arg := entryArg code i.atLayer b, ctx := some c,
      seq := some s, conf := conf, step := (match tileStep k t with | some u => u.num | none => 0),
      detail := leBytes 1 i.atLayer ++ leBytes 1 code ++ leBytes 2 0 ++ leBytes 4 (if conf then 0 else b) }
  modSeq k3 s (fun q => { q with faulted := true })

/-! ## AT.RUN -/

/-- How an AT instruction goes on: to the next entry, to its failure, or it waits for a line under recovery (R327). -/
inductive AtRes where
  | go (k : Core) (base : Nat) (c : Exc)
  | fail (k : Core) (reason arg : Nat)
  | wait

/-- A line that the walk of these blocks fetches is being recovered, or lies in a stack under a field test. -/
def walkHeld (k : Core) (i : TIns) (src : KvSrc) (bs : List Nat) : Bool :=
  match src with
  | .pages s p h =>
    let q := pool k p
    let kl := rowLines q.dhc q.kvfmt
    linesHeld k h (bs.flatMap (fun b => upFrom (entryPage (pubEntry (seq k s) (entryNo k s i.atLayer b)) * q.pl) q.pl)) ||
    (obj k h).recov.any (fun x =>
      bs.any (fun b => entryPage (pubEntry (seq k s) (entryNo k s i.atLayer b)) == x.1 / q.pl) &&
      decide (i.atH0 ≤ x.1 % q.pl / kl / 64 % q.hkv ∧ x.1 % q.pl / kl / 64 % q.hkv < i.atH0 + i.atHn))
  | _ => false

/-- The rows of an entry as +0 (R262). -/
def zeroRows (k : Core) (t : Nat) (i : TIns) (e : LtEnt) (base l : Nat) : Core :=
  (upFrom (i.fb 14 0 + base * l) (entryRows i e * l)).foldl (fun k n => tmPut k t n 0 false) k

/-- Row number r of an entry, counted from its first (R251, R255 to R258). -/
def runRow (t : Nat) (i : TIns) (e : LtEnt) (src : KvSrc) (ms : MSet) (base : Nat) (x : Core × Exc) (r : Nat) : Core × Exc :=
  let (k, c) := x
  let dh := headDim ms.dhc
  let f := i.fa 17 15
  let ql := dh * fmtBits f / 512
  let n := base + r
  let a := i.fa 14 0 + n * ql
  let (q, qb) := rowOf f dh ((upFrom a ql).map (fun l => (tmLine k t l, tmBad k t l)))
  let s0 : RowSt := if i.accum then readState k t (i.fb 14 0 + n * stateLines dh) dh else { o := List.replicate dh .zero }
  let head := i.atH0 + r / i.atG % i.atHn
  let vis := visRange i e src (e.qpos + r / (i.atHn * i.atG))
  let (s1, c1) := walkRow k i src ms q head vis s0 c
  let s2 := { s1 with pois := s1.pois || qb || e.bad }
  let (k1, c2) := putAtRow k t (i.fb 14 0 + n * atPitch i dh) (i.fa 20 18) i.fin s2 c1
  (k1, c.upTo s2.pois c2)

/-- Count a walk's blocks and the lines it reads of a staging ring block (R253, R282, R418). -/
def countWalk (k : Core) (t : Nat) (i : TIns) (src : KvSrc) (ms : MSet) (w : List (Nat × Bool)) : Core :=
  let k1 := tbump (tbump k t (oAtCount t 0) (w.filter (·.2)).length) t (oAtCount t 1) (w.filter (fun x => !x.2)).length
  match src with
  | .ring place off f _ =>
    let kl := rowLines ms.dhc ms.kvfmt
    let pl := pageLines ms.hkv ms.dhc ms.kvfmt
    let per := w.length / max 1 i.atHn
    w.zipIdx.foldl (fun k x =>
      if x.1.2 then
        let head := i.atH0 + x.2 / max 1 per
        let b := off + 1 + (x.1.1 - f / 64) * pl
        notePlace (notePlace k place (b + head * 64 * kl) (64 * kl)) place (b + (ms.hkv + head) * 64 * kl) (64 * kl)
      else k) k1
  | _ => k1

/-- One entry of an AT.RUN. -/
def runEntry (t : Nat) (i : TIns) (k : Core) (base : Nat) (c : Exc) (n : Nat) : AtRes :=
  let e := ltEntry k i n
  let k0 := if n % 2 = 0 then notePlace k (i.fx 31 0) (i.fx 63 32 + n / 2) 1 else k
  if e.qn = 0 then .go k0 base c
  else match entryFault k t i e base with
    | some r => .fail k0 r n
    | none =>
      let ms := mset' k (tileMset k t)
      let ring := i.fa 24 24 == 1
      let hdr := (placeLine k e.bplace e.boff).1.toNat
      let count := min 4096 (bits hdr 95 64)
      let pl := pageLines ms.hkv ms.dhc ms.kvfmt
      let p := (seq k e.seq).pool.getD 0
      let src : KvSrc := if ring then .ring e.bplace e.boff (bits hdr 63 32) count else .pages e.seq p (pool k p).obj
      let chk := firstBad (placeChks k t 0 0 e.bplace ⟨e.boff, 0, 1, 1 + cdiv count 64 * pl⟩)
      let denied := match chk with | some c => c.ord == 4 | none => false
      if ring && denied then .fail k0 rDeniedPart n
      else if ring && (!(plSpace e.bplace == 1 || plSpace e.bplace == 2) || chk.isSome || bits hdr 21 0 != e.seq ||
          bits hdr 103 96 != i.atLayer) then .fail k0 rOverrun n
      else if !ring && (obj k (pool k p).obj).lost then .fail k0 rWeightUnavail (pool k p).obj
      else
        let w := groupWalk i e src
        let bad := fun b => if ring then none else resolve k p (pubEntry (seq k e.seq) (entryNo k e.seq i.atLayer b)) false
        let good := w.takeWhile (fun x => !x.2 || (bad x.1).isNone)
        let k1 := countWalk (if ring then notePlace k0 e.bplace e.boff 1 else k0) t i src ms good
        let dh := headDim ms.dhc
        match w[good.length]? with
        | some (b, _) =>
          let (code, mis) := (bad b).getD (0, false)
          .go (zeroRows (seqFault k1 t i e.seq b code mis) t i e base (atPitch i dh)) (base + entryRows i e) c
        | none =>
          if walkHeld k i src ((w.filter (·.2)).map Prod.fst).dedup then .wait
          else
            let (k2, c1) := (upFrom 0 (entryRows i e)).foldl (runRow t i e src ms base) (k1, c)
            .go k2 (base + entryRows i e) c1

/-- Work through the entries of a length table, m of them from entry n. -/
def atEntries (f : Core → Nat → Exc → Nat → AtRes) (k : Core) (base : Nat) (c : Exc) (n : Nat) : Nat → AtRes
  | 0 => .go k base c
  | m + 1 =>
    match f k base c n with
    | .go k1 b1 c1 => atEntries f k1 b1 c1 (n + 1) m
    | x => x

/-- An AT instruction that has started waits for a line under recovery or under test: its outstanding fetches and entry reads are free
values, and a wait on a recovery counts as one of the step (R281, R328, R331, assumption 1). -/
def atHold (k : Core) (t : Nat) (i : TIns) : Core :=
  let (f, k1) := drawNat k
  let (e, k2) := drawNat k1
  let k3 := bump (tbump k2 t (oAtCount t 2) 1) (oObjUsed (domOfTile k t) + 8 * 5) (b2n (poolsRecover k))
  modTile k3 t (fun q => { q with ap := some { ins := i, fetch := 1 + f % 64, entries := e % 9 } })
/-- Cycles an AT instruction waited for its fetches and its entry reads: free numbers (R255, assumption 34). -/
def atWaits (k : Core) (t : Nat) : Core :=
  let (n, k1) := drawNat (unitStall k t 25)
  modTile (tbump k1 t (oAtCount t 2) n) t (fun q => { q with ap := none })
/-- An AT instruction that has started works through its table. -/
def atGo (k : Core) (t : Nat) (i : TIns) (f : TIns → Core → Nat → Exc → Nat → AtRes) : Core :=
  match atEntries (f i) k 0 {} 0 (i.fc 13 0) with
  | .go k1 _ c => retireIns (countExc (atWaits k1 t) t c) t i
  | .fail k1 r a => tileFail (atWaits k1 t) t i.widx r a
  | .wait => atHold k t i
/-- An instruction that reads a length table starts: the table's place is checked first; one that has started goes on (R133, R134,
R144). -/
def atTable (k : Core) (t : Nat) (i : TIns) (f : TIns → Core → Nat → Exc → Nat → AtRes) : Core :=
  match (tile k t).ap with
  | some a => if runsIns k t i && a.ins.plain == i then atGo k t a.ins f else k
  | none =>
    unitRun k t uAp i (fun k1 =>
      let j := heldIns k t uAp i
      match firstBad (placeChks k1 t 128 160 (j.fx 31 0) ⟨j.fx 63 32, 0, 1, cdiv (j.fc 13 0) 2⟩) with
      | some c => tileFail k1 t i.widx c.reason c.arg
      | none => atGo k1 t j f)

/-- AT.RUN. -/
def atRun (k : Core) (t : Nat) (i : TIns) : Core := atTable k t i (runEntry t)

/-! ## AT.KVPUT (R260) -/

/-- A PAGE frame for rows written into a page (R425). -/
def mirrorPage (k : Core) (s page off : Nat) (ls : List (Line × Bool)) : Core :=
  if seqMirrored k s then
    mirrorLines k mPage (BitVec.ofNat 64 off) (leBytes 4 ((seq k s).pool.getD 0) ++ leBytes 4 page) ls
  else k
/-- Write the key and value rows of one token of a sequence; r is the row index of its first head. -/
def putToken (k : Core) (t : Nat) (i : TIns) (ms : MSet) (s h page pl pos r : Nat) (bad : Bool) : Core :=
  let kl := rowLines ms.dhc ms.kvfmt
  let row := fun (k : Core) (src dst : Nat) =>
    let ls := (upFrom src kl).map (fun l => (tmLine k t l, tmBad k t l || bad))
    mirrorPage (writeObj k h (page * pl + dst * kl) ls) s page (dst * kl) ls
  (upFrom 0 i.atHn).foldl (fun k x =>
    let head := i.atH0 + x
    row (row k (i.fa 14 0 + (r + x) * kl) (head * 64 + pos % 64)) (i.fa 30 16 + (r + x) * kl) ((ms.hkv + head) * 64 + pos % 64)) k

/-- One entry of an AT.KVPUT: tokens are written until one meets an entry it may not write. -/
def putEntryRows (t : Nat) (i : TIns) (k : Core) (base : Nat) (c : Exc) (n : Nat) : AtRes :=
  let e := ltEntry k i n
  let k0 := if n % 2 = 0 then notePlace k (i.fx 31 0) (i.fx 63 32 + n / 2) 1 else k
  if e.qn = 0 then .go k0 base c
  else match entryFault k t i e base with
    | some r => .fail k0 r n
    | none =>
      let ms := mset' k (tileMset k t)
      let p := (seq k e.seq).pool.getD 0
      let h := (pool k p).obj
      let ent := fun pos => pubEntry (seq k e.seq) (entryNo k e.seq i.atLayer (pos / 64))
      if (obj k h).lost then .fail k0 rWeightUnavail h
      else
        let ts := upFrom 0 e.qn
        let good := ts.takeWhile (fun x => (resolve k p (ent (e.qpos + x)) true).isNone)
        let k1 := good.foldl (fun k x =>
          putToken k t i ms e.seq h (entryPage (ent (e.qpos + x))) (pool k p).pl (e.qpos + x) (base + x * i.atHn) e.bad) k0
        let k2 := match ts[good.length]? with
          | none => k1
          | some x =>
            let (code, mis) := (resolve k p (ent (e.qpos + x)) true).getD (0, false)
            seqFault k1 t i e.seq ((e.qpos + x) / 64) code mis
        .go k2 (base + entryRows i e) c

/-- AT.KVPUT. -/
def atKvput (k : Core) (t : Nat) (i : TIns) : Core := atTable k t i (putEntryRows t)

/-! ## AT.MERGE (R276) -/

/-- The merged state of one row's sets. -/
def mergeStates (dh : Nat) (ss : List RowSt) (c : Exc) : RowSt × Exc :=
  let m := ss.foldl (fun a s => maxN a s.m) (.inf true)
  let (fs, c1) := mapExc (fun (s : RowSt) c =>
    if s.m == .inf true then (Num.zero, c) else let (d, c') := addR .fp32 s.m m.neg c; apExp d c') ss c
  let part := fun (g : RowSt → Num) c =>
    mapExc (fun (x : RowSt × Num) c => if x.1.m == .inf true then (Num.zero, c) else mulR .fp32 (g x.1) x.2 c) (ss.zip fs) c
  let (ls, c2) := part (·.l) c1
  let (l, c3) := sumTerms ls .zero c2
  let (o, c4) := mapExc (fun d c => let (xs, ca) := part (fun s => s.o.getD d .zero) c; sumTerms xs .zero ca) (upFrom 0 dh) c3
  ({ m := m, l := l, o := o, pois := ss.any (·.pois) }, c4)

/-- AT.MERGE. -/
def atMerge (k : Core) (t : Nat) (i : TIns) : Core :=
  unitRun k t uAp i (fun k =>
    let dh := 64 * 2 ^ i.fa 23 22
    let sl := stateLines dh
    let (k1, c) := (upFrom 0 (i.fc 11 0)).foldl (fun (x : Core × Exc) r =>
      let ss := (upFrom 0 (i.fc 22 16)).map (fun j => readState x.1 t (i.fa 14 0 + j * i.fx 15 0 + r * sl) dh)
      let (s, c1) := mergeStates dh ss x.2
      let (k1, c2) := putAtRow x.1 t (i.fb 14 0 + r * atPitch i dh) (i.fa 20 18) i.fin s c1
      (k1, x.2.upTo s.pois c2)) (k, {})
    retireIns (countExc k1 t c) t i)

end Sys2Proof.Machine
end

