-- ==== Sys2Proof/Machine/Hx.lean ====
section
/-! DEFINITION. The Tile Sequencer: program lines, dispatch, the HX instructions, barriers and the release of tiles (R128 to R142, R150,
R445, R446). -/

namespace Sys2Proof.Machine

/-! ## Program words -/

/-- The instruction at word n of the tile's program, where the program buffer holds its lines (R107, R129). -/
def tsWord (k : Core) (t n : Nat) : Option TIns :=
  let ws := (mset' k (tileMset k t)).words
  let b := (tile k t).buffer
  match ws[n]? with
  | none => none
  | some w =>
    if bit w.toNat 127 then
      if b.contains (n / 64) && b.contains ((n + 1) / 64) then some (insOfWord n w (ws.getD (n + 1) 0)) else none
    else if b.contains (n / 64) then some (insOfWord n w 0) else none
/-- Words of an instruction. -/
def TIns.words (i : TIns) : Nat := if 0x80 ≤ i.op then 2 else 1
/-- The failing check of word n as the TS decodes it, with o instructions of its bundle before it, once its lines are in the buffer: a
program that passed its load meets one only where a branch went into an extension word (R127, R131, R133). -/
def tsFault (k : Core) (t o n : Nat) : Option (Nat × Nat) :=
  let ws := (mset' k (tileMset k t)).words
  let b := (tile k t).buffer
  match ws[n]? with
  | none => if o = 0 then none else some (rOverrun, 113)
  | some w =>
    if b.contains (n / 64) && (!bit w.toNat 127 || decide (ws.length ≤ n + 1) || b.contains ((n + 1) / 64)) then
      wordCheck k.shadow.grade ws.length n o w (ws.getD (n + 1) 0)
    else none
/-- What the TS decodes: it waits for a line, meets a word that fails, or has a bundle and the index of the word after it. -/
inductive TsFetch where
  | wait
  | bad (widx reason arg : Nat)
  | bundle (b : List TIns) (next : Nat)
/-- The bundle that opens at word n, with o instructions before (R131). -/
def tsBundle (k : Core) (t : Nat) : Nat → Nat → Nat → TsFetch
  | 0, _, _ => .wait
  | f + 1, o, n =>
    match tsFault k t o n with
    | some (r, a) => .bad n r a
    | none =>
      match tsWord k t n with
      | none => .wait
      | some i =>
        if i.last || isTs i.cls i.op then .bundle [i] (n + i.words)
        else match tsBundle k t f (o + 1) (n + i.words) with
          | .bundle b m => .bundle (i :: b) m
          | x => x

/-- Entries of a unit queue. -/
def queueCap : Nat := 64
/-- The queue an instruction is dispatched to; none where the engine it names is not one of the tile (R129, R180). -/
def unitOf (k : Core) (t : Nat) (i : TIns) : Option Nat :=
  if i.cls = 6 then engOf k t i
  else some (if i.cls = 7 then uVe else if i.cls = 8 then uAp else if i.cls = 9 then uCf else uDm)
/-- Put an instruction at the end of its queue. -/
def enqueue (k : Core) (t u : Nat) (i : TIns) : Core :=
  modTile k t (fun q => { q with queues := mset [] q.queues u (q.queue u ++ [dispatched k t i]) })

/-- Dispatch one bundle, if nothing holds it: a TS word, a line not fetched, a FENCE, or a queue without credits; a wait for a line or
for a credit is charged. A bundle with a FENCE on any member waits, and holds what follows, as a whole (R18, R129 to R133,
assumption 62). -/
def tsDispatch (k : Core) (t : Nat) : Option Core :=
  let q := tile k t
  if q.phase ≠ 2 then none
  else match tsBundle k t 9 0 q.pc with
    | .wait => if q.pc < (mset' k (tileMset k t)).words.length then some (tbump k t (oTileStall t 24) 1) else none
    | .bad n r a => some (tileFail k t n r a)
    | .bundle b n =>
      if b.any (fun i => isTs i.cls i.op) || (b.any (·.fence) && !tileIdle k t) then none
      else match b.find? (fun i => (unitOf k t i).isNone) with
        | some i => some (tileFail k t i.widx rOverrun 64)
        | none =>
          let us := b.filterMap (unitOf k t)
          match us.find? (fun u => decide (queueCap < (q.queue u).length + (us.filter (· == u)).length)) with
          | some u => some (tbump k t (oTileStall t u) 1)
          | none =>
            some (modTile (b.foldl (fun k i => enqueue k t ((unitOf k t i).getD 0) i) k) t
              (fun q => { q with pc := n, fenced := b.any (·.fence) }))

/-- The TS goes on dispatching until something holds it. -/
def tsLoop (t : Nat) (k : Core) : Nat → Core
  | 0 => k
  | f + 1 =>
    if (tile k t).fenced && !tileIdle k t then k
    else
      let k0 := if (tile k t).fenced then modTile k t (fun q => { q with fenced := false }) else k
      match tsDispatch k0 t with
      | none => k0
      | some k1 => if (tile k1 t).pc = (tile k0 t).pc then k1 else tsLoop t k1 f

/-- The TS of a tile runs, unless the debug port holds it (R129, R493). -/
def tsRun (k : Core) (t : Nat) : Core := if (tile k t).dbgHalt then k else tsLoop t k 513

/-- What a tile's unit did may let its TS go on. -/
def onTile (k : Core) (t : Nat) (f : Core → Core) : Core := tsRun (f k) t

/-- PROGRAM_FETCH_RETURN: the line the TS needs is in its buffer of 32 lines; a full buffer gives up the line it has held longest
(R129, assumption 61). -/
def programFetchReturn (k : Core) (t : Nat) : Core :=
  let q := tile k t
  if q.phase ≠ 2 then k
  else
    let n := match tsWord k t q.pc with | some _ => q.pc / 64 + 1 | none => if q.buffer.contains (q.pc / 64) then q.pc / 64 + 1 else q.pc / 64
    let b := if q.buffer.contains n then q.buffer else (q.buffer ++ [n])
    onTile k t (fun k => modTile k t (fun q => { q with buffer := b.drop (b.length - 32) }))

/-! ## Instructions the TS executes (R141, R142, R150) -/

/-- A TS register. -/
def tsReg (k : Core) (t n : Nat) : W32 := mget 0 (tile k t).regs n
def setTsReg (k : Core) (t n : Nat) (v : W32) : Core := modTile k t (fun q => { q with regs := mset 0 q.regs n v })
def setPc (k : Core) (t n : Nat) : Core := modTile k t (fun q => { q with pc := n })

/-- The TS stands at the instruction and can execute it (R132). -/
def tsReady (k : Core) (t : Nat) (i : TIns) : Bool :=
  runsIns k t i && !((tile k t).fenced && !tileIdle k t) && decide ((tile k t).pc = i.widx) && decide (tsWord k t i.widx = some i) &&
  (!i.fence || tileIdle k t)
/-- Execute an instruction of the TS and go on. -/
def tsExec (k : Core) (t : Nat) (i : TIns) (f : Core → Core) : Core :=
  if tsReady k t i && !(tile k t).dbgHalt then onTile k t f else k

def tsetEffect (t : Nat) (i : TIns) (k : Core) : Core := setPc (setTsReg k t (i.fa 3 0) i.b) t (i.widx + 1)
def taddEffect (t : Nat) (i : TIns) (k : Core) : Core :=
  setPc (setTsReg k t (i.fa 3 0) (tsReg k t (i.fa 3 0) + (if i.fa 8 8 = 1 then tsReg k t (i.fa 7 4) else i.b))) t (i.widx + 1)
def tloadEffect (t : Nat) (i : TIns) (k : Core) : Core :=
  setPc (setTsReg k t (i.fa 3 0) (BitVec.ofNat 32 (tmElem k t (i.fb 14 0) 32 (i.fc 3 0)))) t (i.widx + 1)
def jumpEffect (t : Nat) (i : TIns) (k : Core) : Core := setPc k t i.c.toNat
/-- The condition of HX.BRANCH. -/
def branchTaken (k : Core) (t : Nat) (i : TIns) : Bool :=
  let x := tsReg k t (i.fa 3 0)
  let y := if i.fa 12 12 = 1 then tsReg k t (i.fa 7 4) else i.b
  match i.fa 11 8 with
  | 0 => decide (x = y)
  | 1 => decide (x ≠ y)
  | 2 => decide (x.toNat < y.toNat)
  | _ => decide (y.toNat ≤ x.toNat)
def branchEffect (t : Nat) (i : TIns) (k : Core) : Core := setPc k t (if branchTaken k t i then i.c.toNat else i.widx + 1)
def loopEffect (t : Nat) (i : TIns) (k : Core) : Core :=
  let x := tsReg k t (i.fa 3 0)
  if x = 0 then setPc k t (i.widx + 1)
  else setPc (setTsReg k t (i.fa 3 0) (x - 1)) t (if x - 1 = 0 then i.widx + 1 else i.c.toNat)

/-- Every tile of the domain's step has executed HX.END (R300). -/
def stepEnded (k : Core) (d : Nat) : Bool := (domTiles k d).all (fun t => (tile k t).phase == 0 || (tile k t).phase == 3)
/-- HX.END: the tile's part ends after its implied FENCE; the last one ends the step. -/
def endEffect (t : Nat) (i : TIns) (k : Core) : Core :=
  let d := domOfTile k t
  let k1 := modTile k t (fun q => { q with phase := 3, pc := i.widx + 1, fenced := false })
  if stepEnded k1 d then modDom k1 d (fun q => { q with phase := 1, running := q.running.map (fun u => { u with ended := true }) }) else k1
/-- HX.END at the head of the TS. -/
def hxEnd (k : Core) (t : Nat) (i : TIns) : Core := if tileIdle k t then tsExec k t i (endEffect t i) else k

/-- The effect of any instruction the TS executes, for a single step of the debug port. -/
def tsEffect (t : Nat) (i : TIns) (k : Core) : Core :=
  match i.op with
  | 0x01 => if tileIdle k t then endEffect t i k else k
  | 0x10 => tsetEffect t i k
  | 0x11 => taddEffect t i k
  | 0x12 => tloadEffect t i k
  | 0x20 => jumpEffect t i k
  | 0x21 => branchEffect t i k
  | _ => loopEffect t i k

/-! ## HX instructions of the DM queue (R137 to R140) -/

/-- HX.SET. -/
def hxSet (k : Core) (t : Nat) (i : TIns) : Core :=
  onTile k t (fun k => unitRun k t uDm i
    (fun k => retireIns (hitchSet k t (i.fa 5 0) (i.fb 15 0)) t i))

/-- HX.ADD: the own tile's counter at once, another tile's through the mesh. -/
def hxAdd (k : Core) (t : Nat) (i : TIns) : Core :=
  onTile k t (fun k => unitRun k t uDm i (fun k =>
    let u := physTile k (i.fa 15 8)
    if !sameDomain k t u then tileFail k t i.widx rDeniedPart (domArg (domOfTile k u))
    else if u = t then retireIns (hitchAdd k t (i.fa 5 0) (i.fb 15 0) (t, i.widx)) t i
    else modTile (remoteSignal k t u (i.fa 5 0) (i.fb 15 0) i.widx (some t)) t (fun q => { q with dm := some (.add i) })))

/-- An arrival on a fabric channel for a tile between its steps is held until its counters have been zeroed; held arrivals saturate
(R417). -/
def heldAdd (k : Core) (t c n : Nat) : Core := modTile k t (fun q => { q with held := mset 0 q.held c (min 0xFFFF (mget 0 q.held c + n)) })
/-- An increment for a tile of the step that waits for its release is applied once its counters have been zeroed (assumption 15). -/
def earlyAdd (k : Core) (t c n : Nat) : Core := modTile k t (fun q => { q with early := mset 0 q.early c (mget 0 q.early c + n) })
/-- No increment its sender sent to the same tile before it is still on its way (R22). -/
def inTurn (l : List Inc) (x : Inc) : Bool := decide (l.find? (fun y => y.tile == x.tile && y.src == x.src) = some x)
/-- REMOTE_INCREMENT_ARRIVE: an increment on its way reaches its tile; the HX.ADD that sent it retires (R22, R138, R150). -/
def remoteIncrementArrive (k : Core) (t c n : Nat) : Core :=
  match k.incs.find? (fun x => x.tile == t && x.ctr == c && x.amount == n && inTurn k.incs x) with
  | none => k
  | some x =>
    let k0 := { k with incs := k.incs.erase x }
    let k1 := if (tile k t).phase = 1 then earlyAdd k0 t c n else hitchAdd k0 t c n (x.src, x.widx)
    match x.sender with
    | none => k1
    | some s =>
      match (tile k1 s).dm with
      | some (.add i) => onTile k1 s (fun k => retireIns (modTile k s (fun q => { q with dm := none })) s i)
      | _ => k1

/-! ## Barriers and released tiles (R140, R445, R446) -/

/-- PWR_SOFT_START.START. -/
def softStart (k : Core) : Nat := rfld k oSoftStart 4 0
/-- Counters of a tile that starts: zero, then the arrivals held for it and the increments of its step that came early. -/
def startCtrs (q : Tile) : SMap Nat := q.early.foldl (fun m e => mset 0 m e.1 (mget 0 m e.1 + e.2)) q.held
/-- A released tile starts its step: units, streams and counters are reset, the TS registers are set, held arrivals are applied, and
it begins at its entry word (R128, R164, R168, R233, R417). A counter that passes 0xFFFF by them fails the step (R137). -/
def startTile (k : Core) (t : Nat) : Core :=
  let d := dom k (domOfTile k t)
  let l := logTile k t
  let regs : SMap W32 := [(0, d.t0), (1, d.t1), (2, d.t2), (3, l)].foldl (fun m r => mset 0 m r.1 (BitVec.ofNat 32 r.2)) []
  let cs := startCtrs (tile k t)
  let k1 := modTile k t (fun q => { q.stopped with
    phase := 2, pc := (mset' k (tileMset k t)).table.getD l 0, regs := regs, ctrs := mmap (fun _ v => min 0xFFFF v) cs, held := [] })
  match cs.find? (fun e => decide (0xFFFF < e.2)) with
  | some e => tileFail k1 t 0 rOverrun (t + e.1 * 256)
  | none => k1
/-- Release one tile, into its step or from a barrier. -/
def releaseTile (k : Core) (x : Nat × Bool) : Core :=
  let k1 := modTile k x.1 (fun q => { q with soft := softStart k })
  if x.2 then
    match (tile k1 x.1).dm with
    | some (.barrier i _ c) =>
      onTile k1 x.1 (fun k => retireIns (hitchAdd (modTile k x.1 (fun q => { q with dm := none })) x.1 c 1 (x.1, i.widx)) x.1 i)
    | _ => k1
  else if (tile k1 x.1).phase = 1 then startTile k1 x.1 else k1
/-- The next group of a domain's waiting tiles. -/
def gateGroup (k : Core) (d : Nat) : List (Nat × Bool) :=
  let gs := (dom k d).gates
  (gs.takeWhile (fun g => g.2 == (gs.headD (0, false)).2)).take (max 1 (min 256 (rfld k oGateRamp 8 0)))
/-- Release the next group. -/
def releaseGroup (k : Core) (d : Nat) : Core :=
  let g := gateGroup k d
  g.foldl releaseTile (modDom k d (fun q => { q with gates := q.gates.drop g.length }))
/-- Tiles wait for the gate; a domain's first group is released at once. -/
def addGates (k : Core) (d : Nat) (l : List (Nat × Bool)) : Core :=
  let first := (dom k d).gates.isEmpty
  let k1 := modDom k d (fun q => { q with gates := q.gates ++ l })
  if first then releaseGroup k1 d else k1
/-- An event that raises current: how long the slew guard held it before is a free value (R447, assumption 1). -/
def slew (k : Core) : Core := let (n, k1) := drawNat k; bump k1 oSlewHold n
/-- GATE_GROUP_RELEASE: the next group is released (R445). -/
def gateGroupRelease (k : Core) (d : Nat) : Core := if (dom k d).gates.isEmpty then k else releaseGroup (slew k) d

/-- Domain that owns a global hitch counter (R139). -/
def ghcDom (k : Core) (g : Nat) : Nat := if isPart k (g / 256) then g / 256 else 4
/-- HX.BARRIER (R139, R140). -/
def hxBarrier (k : Core) (t : Nat) (i : TIns) : Core :=
  unitRun k t uDm i (fun k =>
    let g := i.fa 9 0
    let n := i.fb 15 0
    let c := mget {} k.ghcs g
    if ghcDom k g ≠ domOfTile k t then tileFail k t i.widx rDeniedPart (domArg (ghcDom k g))
    else if c.n ≠ 0 ∧ c.n ≠ n then tileFail k t i.widx rOverrun 32
    else
      let k1 := modTile k t (fun q => { q with dm := some (.barrier i g (i.fa 21 16)) })
      let arr := sput (c.arrived.map Prod.fst) t
      if c.count + 1 < n then
        { k1 with ghcs := mput k1.ghcs g { count := c.count + 1, n := n, arrived := arr.map (fun u => (u, 0)) } }
      else addGates { k1 with ghcs := mput k1.ghcs g { n := n } } (domOfTile k t) (arr.map (fun u => (u, true))))

/-- SOFT_START_RISE: the soft-start rein of a tile rises toward 16, and so does its droop rein once its clamp has ended (R446, R448). -/
def softStartRise (k : Core) (t : Nat) : Core :=
  modTile (slew k) t (fun q => { q with soft := min 16 (q.soft + 1), droop := if q.clamped then q.droop else min 16 (q.droop + 1) })

end Sys2Proof.Machine
end

