-- ==== Sys2Proof/Machine/Measure.lean ====
section
/-! DEFINITION. The measurement registers (R482). -/

namespace Sys2Proof.Machine

/-- Measurement register i: 32 bytes. -/
def mreg (k : Core) (i : Nat) : List Byte := mget (List.replicate 32 0) k.sec.mregs i
/-- Extend register i with a digest. -/
def extendMreg (k : Core) (i : Nat) (d : List Byte) : Core :=
  { k with sec := { k.sec with mregs := mput k.sec.mregs i (sha256 (mreg k i ++ d)) } }
/-- Register i returns to zero. -/
def zeroMreg (k : Core) (i : Nat) : Core := { k with sec := { k.sec with mregs := mdel k.sec.mregs i } }

/-- RWL registers in ascending offset, with their RWL bits. -/
def rwlRegs : List (Nat × Nat) :=
  (regRows.filter (fun r => decide (r.rwl ≠ 0))).foldl (fun m r =>
    (upFrom 0 r.n1).foldl (fun m i => (upFrom 0 r.n2).foldl (fun m j => mput m (r.base + i * r.s1 + j * r.s2) r.rwl) m) m) []
/-- The latched RWL values as MREG4 takes them, 8 bytes each (R482, assumption 19). -/
def rwlBytes (k : Core) : List Byte := rwlRegs.flatMap (fun e => leBytes 8 (Nat.land (rreg k e.1).toNat e.2))

end Sys2Proof.Machine
end

