-- ==== Sys2Proof/Machine/Obj.lean ====
section
/-! DEFINITION. The OBJ instructions that allocate, move, pin and query objects (R332 to R334). -/

namespace Sys2Proof.Machine

/-- The handle in A[23:0]. -/
def Ctl.handle (i : Ctl) : Nat := i.fa 23 0

/-- Checks on a handle: its table, its partition. -/
def cHandle (i : Ctl) (k : Core) (pos h : Nat) : List Chk :=
  [cRange pos (decide (rfld k oObjLimit 24 0 ≤ h))] ++ cTarget i k pos (objPart k h)

/-- Check 11 on the object in A: bad states, or a handle not allocated. -/
def cObj (i : Ctl) (k : Core) (bad : Bool) : Chk :=
  cState 64 (!(obj k i.handle).alloc || bad) (obj k i.handle).arg

/-- Object space of a domain that DRAM and pinned copies leave, in 64 KiB units (R334). -/
def domSpace (k : Core) (d : Nat) : Nat := ((domRanges k d).map (fun r => r.2 - r.1)).sum
def heldUnits (k : Core) (d : Nat) : Nat :=
  ((k.objs.filter (fun p => p.2.alloc && p.2.dom == d && p.2.st != .absent && (p.2.home == 0 || p.2.pins != 0))).map
    (fun p => p.2.units)).sum

/-- Payload with the copy's byte address. -/
def copyPayload (o : Obj) : List Byte := leBytes 8 (if o.st = .absent then 2 ^ 64 - 1 else o.addr)

def objPromoteSpec : CtlSpec where
  cls := 4
  op := 0x01
  mainRes := resA 31 25 ++ noB ++ noC
  checks i k :=
    let o := obj k i.handle
    cHandle i k 64 i.handle ++
    [cObj i k o.lost, cRes 88 (i.fa 24 24 == 1 && o.complete && decide (65535 ≤ o.hostPins)) rNoResource 0,
     cRes 64 (o.st == .absent && decide (domSpace k o.dom < heldUnits k o.dom + o.units)) rNoResource 0]
  run i k :=
    let h := i.handle
    let k1 := promote k h
    let o := obj k1 h
    if o.complete then
      .done (if i.fa 24 24 = 1 then modObj k1 h (fun o => { o with hostPins := o.hostPins + 1 }) else k1) (copyPayload o)
    else inFlight k1 { ins := i, key := h }

def objEvictSpec : CtlSpec where
  cls := 4
  op := 0x02
  mainRes := resA 31 24 ++ noB ++ noC
  checks i k :=
    let o := obj k i.handle
    cHandle i k 64 i.handle ++
    [cRange 64 (o.alloc && decide (o.home = 0)), cObj i k (o.st == .absent || o.st == .evicting),
     cRes 64 (o.st == .fetching || decide (o.pins ≠ 0) || !o.recov.isEmpty) rObjBusy o.arg]
  run i k :=
    inFlight (if (objFlt k 0x05 i.handle).isSome then k else modObj k i.handle (fun o => { o with st := .evicting }))
      { ins := i, key := i.handle }

def objPinSpec : CtlSpec where
  cls := 4
  op := 0x03
  mainRes := resA 31 24 ++ noB ++ noC
  checks i k :=
    let o := obj k i.handle
    cHandle i k 64 i.handle ++
    [cObj i k (o.st == .absent || o.st == .fetching), cRes 64 (decide (65535 ≤ o.hostPins)) rNoResource 0]
  run i k :=
    let k1 := promote (modObj k i.handle (fun o => { o with hostPins := o.hostPins + 1 })) i.handle
    .done k1 (leBytes 2 (min 0xFFFF (obj k1 i.handle).pins))

def objUnpinSpec : CtlSpec where
  cls := 4
  op := 0x04
  mainRes := resA 31 24 ++ noB ++ noC
  checks i k := cHandle i k 64 i.handle ++ [cObj i k (decide ((obj k i.handle).hostPins = 0))]
  run i k :=
    let k1 := modObj k i.handle (fun o => { o with hostPins := o.hostPins - 1 })
    .done (retryWants k1) (leBytes 2 (min 0xFFFF (obj k1 i.handle).pins))

/-- OBJ.CLEAN: it retires when every granule dirty at its start is written back (R334). -/
def objCleanSpec : CtlSpec where
  cls := 4
  op := 0x05
  mainRes := resA 31 24 ++ noB ++ noC
  checks i k := cHandle i k 64 i.handle ++ [cObj i k ((obj k i.handle).st != .complete)]
  run i k :=
    let k1 := if (objFlt k 0x05 i.handle).isSome then k else startClean k i.handle
    inFlight k1 { ins := i, key := i.handle }

/-- OBJ.FREE: dirty granules are discarded, the copy is released, and a delta pack gives back its BASE's reference (R334). -/
def objFreeSpec : CtlSpec where
  cls := 4
  op := 0x06
  mainRes := resA 31 24 ++ noB ++ noC
  checks i k :=
    let o := obj k i.handle
    cHandle i k 64 i.handle ++
    [cBusy 64 (match objFlt k 0x05 i.handle with | some f => some f | none => if o.zeroing then objFlt k 0x81 i.handle else none),
     cObj i k (decide (o.pins ≠ 0) || decide (o.refs ≠ 0) || o.st == .fetching || o.st == .evicting)]
  run i k :=
    let o := obj k i.handle
    let k1 := if o.pack = 2 then dropRef k o.base else k
    .done (retryWants { orphanReads k1 i.handle with objs := mdel k1.objs i.handle }) []

/-- Payload of OBJ.QUERY (R332). -/
def objQueryPayload (o : Obj) : List Byte :=
  leBytes 1 o.code ++
  leBytes 1 (b2n o.direct + 2 * b2n (o.alloc && o.ctx.isNone) + 4 * b2n o.lost + 8 * b2n (!o.recov.isEmpty) +
    16 * b2n (!o.dirty.isEmpty) + 32 * b2n (decide (o.refs ≠ 0))) ++
  leBytes 1 (o.home + 4 * o.pack) ++ leBytes 1 0 ++ leBytes 2 (min 0xFFFF o.pins) ++ leBytes 2 o.hot ++ copyPayload o

def objQuerySpec : CtlSpec where
  cls := 4
  op := 0x07
  mainRes := resA 31 24 ++ noB ++ noC
  checks i k := cHandle i k 64 i.handle
  run i k := .done k (objQueryPayload (obj k i.handle))

/-- Entry i of a prefetch schedule held in a DRAM object's copy (R329). -/
def schedWord (k : Core) (h j : Nat) : Nat := ofLE (knownBytes k h (64 + 8 * j) 8).1
def schedEnt (w : Nat) : SchedEnt := { handle := bits w 23 0, cond := bit w 24, hot := bit w 25, layer := bits w 39 32 }
/-- Header of the schedule: N and LEAD. -/
def schedN (k : Core) (h : Nat) : Nat := ofLE (knownBytes k h 0 4).1
def schedLead (k : Core) (h : Nat) : Nat := ofLE (knownBytes k h 4 1).1
/-- The entries of a schedule. -/
def schedList (k : Core) (h : Nat) : List SchedEnt := (upFrom 0 (schedN k h)).map (fun j => schedEnt (schedWord k h j))
/-- Layers never decrease and stay below NL. -/
def layersOk (nl : Nat) : Nat → List SchedEnt → Bool
  | _, [] => true
  | lo, e :: r => decide (lo ≤ e.layer ∧ e.layer < nl) && layersOk nl e.layer r
/-- The schedule keeps R329, and names handles of the set's context or shared ones (R334). -/
def schedOk (k : Core) (h m : Nat) : Bool :=
  let n := schedN k h
  decide (1 ≤ n ∧ n ≤ 65535) && decide (schedLead k h ≤ 15) && (knownBytes k h 5 59).1.all (· == 0) &&
  decide (1 + cdiv n 8 ≤ (obj k h).len) &&
  (upFrom 0 n).all (fun j => decide (bits (schedWord k h j) 31 26 = 0 ∧ bits (schedWord k h j) 63 40 = 0)) &&
  layersOk (mset' k m).nl 0 (schedList k h) &&
  (schedList k h).all (fun e => (obj k e.handle).alloc && !objForeign (obj k e.handle) (mset' k m).ctx)

/-- OBJ.SCHED: the schedule is copied now and attached at the next boundary of the set's domain (R329, R334). -/
def objSchedSpec : CtlSpec where
  cls := 4
  op := 0x08
  mainRes := resA 7 6 ++ resA 31 9 ++ resB 31 24 ++ noC
  checks i k :=
    let m := i.fa 5 0
    let h := i.fb 23 0
    let s := mset' k m
    let clear := i.fa 8 8 == 1
    (if clear then cReserved 0 i.operands (resB 23 0) else []) ++
    cTarget i k 64 (msetPart k m) ++ (if clear then [] else cHandle i k 32 h) ++
    [cRange 32 (!clear && (obj k h).alloc && (objForeign (obj k h) s.ctx || ((obj k h).complete && !schedOk k h m))),
     cState 64 (!(s.st == .loading || s.st == .ready)) s.st.code,
     cState 32 (!clear && (!(obj k h).complete || decide ((obj k h).home ≠ 0))) (obj k h).arg]
  run i k :=
    let m := i.fa 5 0
    let h := i.fb 23 0
    let new := if i.fa 8 8 = 1 then none else some (schedLead k h, schedList k h)
    let k1 := match (mset' k m).schedNext with
      | some (some (_, l)) => (schedRefs l).foldl dropRef k
      | _ => k
    let k2 := match new with | some (_, l) => (schedRefs l).foldl addRef k1 | none => k1
    .done (modMset k2 m (fun s => { s with schedNext := some new })) []

/-- Event 3 of a boundary: a replaced or cleared schedule takes effect (R300, R329). -/
def schedApply (k : Core) (m : Nat) : Core :=
  match (mset' k m).schedNext with
  | none => k
  | some new =>
    let k1 := match (mset' k m).sched with | some (_, l) => (schedRefs l).foldl dropRef k | none => k
    modMset k1 m (fun s => { s with sched := new, schedNext := none })

/-- Take a range for a new DRAM object, evicting and writing back at once what stands in its way (R315, R333, assumption 8). -/
def takeRange (k : Core) (d n : Nat) : Option (Nat × Core) :=
  match firstFit k d n with
  | some a => some (a, k)
  | none =>
    let k1 := evictUntil k d n none none k.objs.length
    match fitAfter k1 d n with
    | none => none
    | some a =>
      let ev := (k1.objs.filter (fun p => p.2.alloc && p.2.st == .evicting &&
        decide (p.2.copy < a + n ∧ a < p.2.copy + p.2.units))).map Prod.fst
      let k2 := ev.foldl evictNow k1
      match firstFit k2 d n with | some b => some (b, k2) | none => none

/-- A FLASH home lies in the domain's flash user space (R314, R383). -/
def flashHomeOk (k : Core) (d haddr len pack : Nat) : Bool :=
  let o : Obj := { len := len, pack := pack }
  decide (haddr + cdiv o.stored 64 ≤ (domFlash k d).length * flsStackLines)

def objAllocSpec : CtlSpec where
  cls := 4
  op := 0x81
  mainRes := resA 31 24 ++ resB 31 18
  extRes := resX 127 88
  checks i k :=
    let h := i.handle
    let c := i.fb 11 0
    let home := i.fb 13 12
    let pack := i.fb 15 14
    let shared := i.fb 17 17 == 1
    let len := i.c.toNat
    let d := if shared then domOfSrc k i.src else domOfCtx k c
    let base := obj k (i.fx 87 64)
    let o : Obj := { pack := pack, len := len }
    (if home = 0 then cReserved 128 i.x.toNat (resX 63 0) else []) ++
    (if pack = 2 then [] else cReserved 128 i.x.toNat (resX 87 64)) ++
    cHandle i k 64 h ++ (if shared then [] else cTarget i k 32 (ctxPart k c)) ++
    [⟨4, 46, ctxConf k c && decide (pack ≠ 0), rDeniedConf, c⟩, ⟨4, 44, ctxConf k c && decide (home = 1), rDeniedConf, c⟩,
     ⟨4, 49, ctxConf k c && shared, rDeniedConf, c⟩,
     cOnes 0 32 len, cZero 0 len, cRange 44 (decide (home = 3)), cRange 46 (decide (pack = 3)),
     cRange 48 (decide (home = 0) && i.fb 16 16 == 1),
     cAlign 0 (decide (pack ≠ 0 ∧ len % 16 ≠ 0)), cAlign 128 (decide (home = 2) && decide (i.fx 5 0 ≠ 0)),
     cRange 128 (decide (home = 1) && !flashHomeOk k d (i.fx 63 0) len pack),
     cRange 192 (decide (pack = 2) && (!base.alloc || decide (base.pack ≠ 1) || decide (base.len ≠ len) ||
       decide (base.ctx ≠ (if shared then none else some c)))),
     cState 64 (obj k h).alloc (obj k h).arg,
     cState 32 (!shared && !(ctx k c).isOpen) 0,
     cState 32 (!shared && (ctx k c).isOpen && (ctx k c).conf && (ctx k c).key.isNone) 0x11,
     cRes 44 (decide (home = 0) && (takeRange k d o.units).isNone) rNoResource 0]
  run i k :=
    let h := i.handle
    let c := i.fb 11 0
    let shared := i.fb 17 17 == 1
    let pack := i.fb 15 14
    let o : Obj :=
      { alloc := true, ctx := if shared then none else some c, home := i.fb 13 12, pack := pack,
        dom := if shared then domOfSrc k i.src else domOfCtx k c, direct := i.fb 16 16 == 1, len := i.c.toNat,
        haddr := i.fx 63 0, base := i.fx 87 64 }
    let k1 := if pack = 2 then addRef k o.base else k
    if o.home = 0 then
      match takeRange k1 o.dom o.units with
      | none => .refuse rNoResource 0
      | some (a, k2) =>
        let k3 := { k2 with dram := k2.dram.wipe (a * 1024) ((a + o.units) * 1024) }
        let k4 := modObj k3 h (fun _ => { o with st := .complete, copy := a, zeroing := true })
        let k5 := if objConf k4 h then (upFrom 0 o.len).foldl (fun k l => putObjLine k h l 0 false) k4 else k4
        inFlight k5 { ins := i, key := h }
    else .done (modObj k1 h (fun _ => o)) []

/-- DRAM_ZERO_COMPLETE: the zeroing ends and OBJ.ALLOC retires (R333). -/
def dramZeroComplete (k : Core) (h : Nat) : Core :=
  if (obj k h).zeroing then endObj (modObj k h (fun o => { o with zeroing := false })) 0x81 h 0 0 else k

end Sys2Proof.Machine
end

