-- ==== Sys2Proof/Machine/Mset.lean ====
section
/-! DEFINITION. The MSET instructions: the load of a model set from its manifest, swap, drain and query (R126, R127, R292 to R295,
R312). -/

namespace Sys2Proof.Machine

/-- SEQ.CLOSE: the sequence is FREE and an UNMAP of all its entries is staged (R269, R310). -/
def seqCloseSpec : CtlSpec where
  cls := 1
  op := 0x05
  mainRes := resA 31 22 ++ noB ++ noC
  checks i k :=
    let q := seq k i.seq
    cSeq i k 64 i.seq ++
    [cOwnSeq i k,
     cPausing i k, cBusy 64 (seqFlt k i.seq),
     cSeqState i k (q.st == .free || q.st == .queued || q.st == .running || q.st == .paused || !q.waiting.isEmpty)]
  run i k :=
    let q := seq k i.seq
    let k1 := modSeq (releasePrompt k i.seq) i.seq (fun q => { q with st := .free, waiting := [] })
    let k2 := match q.pool with
      | none => k1
      | some p => { k1 with sched := { k1.sched with edits := k1.sched.edits ++
          [{ seq := i.seq, dom := seqDom k i.seq, pool := p, share := false, b0 := 0, nblk := 4194304 / max 1 (pool k p).nl + 1, prepared := true }] } }
    .done (freeFailed k2 q.mset) []

/-! ## The manifest (R292, R294) -/

/-- Field of n bytes at a byte of the manifest. -/
def mf (b : List Byte) (a n : Nat) : Nat := ofLE ((b.drop a).take n)
/-- The first nonzero byte of bytes lo to hi − 1. -/
def firstNonzero (b : List Byte) (lo hi : Nat) : Option Nat := (upFrom lo (hi - lo)).find? (fun i => decide (b.getD i 0 ≠ 0))
/-- Byte offset of the first field of the manifest that fails, in byte order (R294). -/
def manifestFault (k : Core) (c : Option Nat) (b : List Byte) : Option Nat :=
  let pw := mf b 4 4
  let ph := mf b 8 4
  let po := obj k (ph % 2 ^ 24)
  let lay := mf b 16 4
  let n := mf b 44 4
  let zero := fun lo hi => (upFrom lo (hi - lo)).map (fun i => (i, decide (b.getD i 0 ≠ 0)))
  let fields : List (Nat × Bool) :=
    [(0, decide (mf b 0 2 ≠ 1)), (2, decide (mf b 2 1 ≠ k.shadow.grade))] ++ zero 3 4 ++
    [(4, decide (pw = 0 ∨ 2 ^ 24 < pw)),
     (8, decide (2 ^ 24 ≤ ph) || !po.alloc || decide (po.pack ≠ 0) || objForeign po c ||
       decide (po.len * 4 < mf b 12 4 * 4 + 64 + pw)),
     (16, decide (bits lay 14 8 = 0 ∨ 64 < bits lay 14 8 ∨ bits lay 17 16 = 3 ∨ 2 < bits lay 20 18 ∨ bit lay 15 = true ∨ 2 ^ 21 ≤ lay))] ++
    zero 20 24 ++
    [(40, decide (mf b 40 4 % 64 ≠ 0 ∨ mf b 40 4 < 64 ∨ 65536 < mf b 40 4)), (44, decide (1008 < n))] ++ zero 48 64 ++
    (upFrom 0 (min n 1008)).map (fun i =>
      let w := mf b (64 + 4 * i) 4
      (64 + 4 * i, decide (2 ^ 24 ≤ w) || !(obj k w).alloc || objForeign (obj k w) c)) ++
    zero (64 + 4 * min n 1008) 4096
  (fields.find? (·.2)).map Prod.fst

/-- The set with what the manifest says. -/
def MSet.fromManifest (s : MSet) (b : List Byte) : MSet :=
  { s with
    manifest := b, pwords := mf b 4 4, prog := mf b 8 4, pline := mf b 12 4, nl := mf b 16 1 + 1, hkv := bits (mf b 16 4) 14 8,
    dhc := bits (mf b 16 4) 17 16, kvfmt := bits (mf b 16 4) 20 18, eFix := mf b 24 4, eDec := mf b 28 4, eKv := mf b 32 4,
    eTok := mf b 36 4, chunk := mf b 40 4, objs := (upFrom 0 (mf b 44 4)).map (fun i => mf b (64 + 4 * i) 4) }

/-! ## Load (R293, R294) -/

/-- The MSET.LOAD of a set. -/
def loadFlt (k : Core) (m : Nat) : Option Flt := findFlt k 3 0x01 (fun f => f.key == m)
/-- The load fails: the set is freed, MSET.QUERY keeps the reason, and MSET.LOAD ends. -/
def loadFail (k : Core) (m reason arg bitPos : Nat) : Core :=
  let k1 := msetFree k m
  let k2 := modMset k1 m (fun s => { s with lastReason := reason, lastArg := arg, lastBit := bitPos })
  match loadFlt k m with | some f => retireFlt k2 f reason arg [] | none => k2

/-- A line of the object's bytes off to off + n − 1 is poisoned: the first, as a byte offset from off. -/
def firstBadLine (k : Core) (h off n : Nat) : Option Nat :=
  ((upFrom (off / 64) (cdiv n 64)).find? (fun l => (knownLine k h l).2)).map (fun l => 64 * l - off)

/-- Words of a byte string, 16 bytes each. -/
def wordsOf (b : List Byte) : Nat → List W128
  | 0 => []
  | n + 1 => BitVec.ofNat 128 (ofLE (b.take 16)) :: wordsOf (b.drop 16) n
/-- Tile table of 256 entries. -/
def tableOf (b : List Byte) : Nat → List Nat
  | 0 => []
  | n + 1 => ofLE (b.take 4) :: tableOf (b.drop 4) n

/-- The first fault of a tile table: reason and ARG (R294). -/
def tableFault (k : Core) (d pw : Nat) (tab : List Nat) : Option (Nat × Nat) :=
  match (upFrom 0 256).find? (fun t => tab.getD t 0 != 0xFFFFFFFF && (decide (pw ≤ tab.getD t 0) || domOfTile k t != d)) with
  | some t => if pw ≤ tab.getD t 0 then some (rOverrun, 0x80000000 + t) else some (rDeniedPart, 0x80000000 + t)
  | none => if tab.all (· == 0xFFFFFFFF) then some (rOverrun, 0x80000100) else none

/-- Bit position MSET.QUERY gives for a word's fault (R312). -/
def faultBit (reason arg : Nat) : Nat := if reason = rBadClass then 116 else if reason = rBadOpcode then 120 else arg % 256

/-- A weight object can be fetched: it is not lost and is not still being received by broadcast (R293). -/
def fetchable (k : Core) (h : Nat) : Bool :=
  !(obj k h).lost && !(k.fab.sessions.any (fun e => !e.2.reader && e.2.handles.contains h))

/-- The last part of a load: every weight object fetchable makes the set READY, and it is measured (R293, R482). -/
def loadReady (k : Core) (m : Nat) : Core :=
  let s := mset' k m
  match s.objs.find? (fun h => !(obj k h).alloc || (obj k h).lost) with
  | some h => loadFail k m rWeightUnavail h 0
  | none =>
    if s.objs.all (fetchable k) then
      let k0 := extendMreg k (if s.dom < 4 then 8 + s.dom else 6)
        (sha256 (s.manifest ++ s.table.flatMap (leBytes 4) ++ s.words.flatMap (fun w => leBytes 16 w.toNat)))
      let k1 := modMset k0 m (fun s => { s with st := .ready })
      match loadFlt k m with | some f => retireFlt k1 f 0 0 (leBytes 4 s.pwords) | none => k1
    else k

/-- The program is copied and checked, its lines ls being at hand (R294 steps 2 to 4). -/
def loadProgram (k : Core) (m : Nat) (ls : List (Line × Bool)) : Core :=
  let s := mset' k m
  let n := 1024 + 16 * s.pwords
  if sysFree k < n then loadFail k m rNoResource 0xC0000000 0
  else match ls.findIdx? (·.2) with
    | some x => let off := 64 * x; loadFail k m rUncorrectable (if off < 1024 then 0x80000200 + off / 4 else (off - 1024) / 16) 0
    | none =>
      let b := (ls.flatMap (fun l => leBytes 64 l.1.toNat)).take n
      let ws := wordsOf (b.drop 1024) s.pwords
      let tab := tableOf b 256
      match programFault k.shadow.grade ws with
      | some (w, r, a) => loadFail k m r w (faultBit r a)
      | none =>
        match tableFault k s.dom s.pwords tab with
        | some (r, a) => loadFail k m r a 0
        | none => loadReady (modMset (sysTake k n) m (fun s => { s with words := ws, table := tab })) m

/-- The manifest of a set in LOADING is read and checked, once none of its lines is being recovered (R294 step 1, R327). -/
def loadManifest (k : Core) (m h : Nat) : Core :=
  if !(obj k h).complete then loadFail k m rUncorrectable 0x40000000 0
  else if recovering k h 0 4096 then modMset k m (fun s => { s with man := some h })
  else match firstBadLine k h 0 4096 with
  | some off => loadFail k m rUncorrectable (0x40000000 + off) 0
  | none =>
    let b := (knownBytes k h 0 4096).1
    match manifestFault k (mset' k m).ctx b with
    | some off => loadFail k m rOverrun (0x40000000 + off) 0
    | none =>
      let k1 := modMset k m (fun s => { s.fromManifest b with man := none })
      (mset' k1 m).objs.foldl addRef k1
/-- Who reads the program of a load: its MSET.LOAD. -/
def loadReader (k : Core) (m : Nat) : Reader := { ctl := (loadFlt k m).map (fun f => (f.ins.src, f.ins.ord)) }
/-- A set in LOADING whose manifest is read goes on as far as it can: the lines of its program must be read, then its weight objects
fetchable (R293, R294, R319). -/
def loadRest (k : Core) (m : Nat) : Core :=
  let s := mset' k m
  if s.st ≠ .loading || s.man.isSome then k
  else if s.words ≠ [] then loadReady k m
  else if !(obj k s.prog).alloc then loadFail k m rWeightUnavail s.prog 0
  else match readObj k (loadReader k m) s.dom s.prog s.pline (16 + cdiv s.pwords 4) with
    | .lost h => loadFail k m rWeightUnavail h 0
    | .wait k1 => k1
    | .lines k1 ls => loadProgram (dropGot k1 (loadReader k m)) m ls
/-- A set in LOADING goes on. -/
def loadGoOn (k : Core) (m : Nat) : Core :=
  match (mset' k m).man with
  | some h => if (mset' k m).st = .loading then loadRest (loadManifest k m h) m else k
  | none => loadRest k m
/-- Every set in LOADING goes on. -/
def loadsGoOn (k : Core) : Core := (k.msets.filter (fun e => e.2.st == .loading)).foldl (fun k e => loadGoOn k e.1) k

/-- Accepted MSET.LOAD: the manifest is checked and the load goes on. -/
def loadStart (k : Core) (m h : Nat) : Core := loadRest (loadManifest k m h) m

def msetLoadSpec : CtlSpec where
  cls := 3
  op := 0x01
  mainRes := resA 15 6 ++ resA 31 29 ++ resB 31 24 ++ noC
  checks i k :=
    let m := i.fa 5 0
    let c := i.fa 27 16
    let shared := i.fa 28 28 == 1
    let h := i.fb 23 0
    let o := obj k h
    (if shared then [] else cTarget i k 80 (ctxPart k c)) ++ cTarget i k 64 (msetPart k m) ++ cHandle i k 32 h ++
    [cRange 32 (o.alloc && (objForeign o (if shared then none else some c) || decide (o.pack ≠ 0) || decide (o.len < 64))),
     cState 80 (!shared && !(ctx k c).isOpen) 0, cState 64 ((mset' k m).st != .none) (mset' k m).st.code,
     cState 32 (!o.complete) o.arg]
  run i k :=
    let m := i.fa 5 0
    let shared := i.fa 28 28 == 1
    let s := mset' k m
    let k1 := modMset k m (fun _ =>
      { st := .loading, ctx := if shared then none else some (i.fa 27 16),
        dom := if shared then domOfSrc k i.src else domOfCtx k (i.fa 27 16),
        lastReason := s.lastReason, lastBit := s.lastBit, lastArg := s.lastArg })
    .later (loadStart { k1 with flts := k1.flts ++ [{ ins := i, key := m }] } m (i.fb 23 0))

/-! ## Swap, drain, query (R295, R312) -/

/-- An MSET.SWAP or MSET.DRAIN not yet in effect that names a set. -/
def swapFlt (k : Core) (m : Nat) : Option Flt :=
  k.flts.find? (fun f => decide (f.ins.cls = 3) && (f.ins.op == 0x02 || f.ins.op == 0x03) && (f.key == m || f.aux == m))
/-- Two sets have one layout. -/
def MSet.sameLayout (a b : MSet) : Bool := a.nl == b.nl && a.hkv == b.hkv && a.dhc == b.dhc && a.kvfmt == b.kvfmt

def msetSwapSpec : CtlSpec where
  cls := 3
  op := 0x02
  mainRes := resA 31 6 ++ resB 31 6 ++ noC
  checks i k :=
    let o := i.fa 5 0
    let n := i.fb 5 0
    let so := mset' k o
    let sn := mset' k n
    cTarget i k 64 (msetPart k o) ++ cTarget i k 32 (msetPart k n) ++
    [cRange 32 (o == n || (so.st != .none && sn.st != .none && (so.dom != sn.dom ||
       (so.st != .loading && sn.st != .loading && !so.sameLayout sn)))),
     cBusy 64 (swapFlt k o), cBusy 32 (swapFlt k n),
     cState 64 (so.st != .ready) so.st.code, cState 32 (sn.st != .ready) sn.st.code]
  run i k := inFlight k { ins := i, key := i.fa 5 0, aux := i.fb 5 0 }

def msetDrainSpec : CtlSpec where
  cls := 3
  op := 0x03
  mainRes := resA 31 6 ++ noB ++ noC
  checks i k :=
    let m := i.fa 5 0
    cTarget i k 64 (msetPart k m) ++ [cBusy 64 (swapFlt k m), cState 64 ((mset' k m).st != .ready) (mset' k m).st.code]
  run i k := inFlight k { ins := i, key := i.fa 5 0, aux := i.fa 5 0 }

/-- Event 3 of a boundary for a waiting MSET.SWAP or MSET.DRAIN (R295, R300). -/
def swapApply (k : Core) (f : Flt) : Core :=
  let k1 := modMset k f.key (fun s => { s with st := .draining, succ := if f.ins.op = 0x02 then some f.aux else s.succ })
  retireFlt k1 f 0 0 []

/-- Payload of MSET.QUERY. -/
def msetQueryPayload (k : Core) (m : Nat) : List Byte :=
  let s := mset' k m
  leBytes 1 s.st.code ++ leBytes 1 s.dom ++ leBytes 2 0 ++ leBytes 4 (bindings k m) ++ leBytes 2 s.lastReason ++
  leBytes 1 s.lastBit ++ leBytes 1 0 ++ leBytes 4 s.lastArg

def msetQuerySpec : CtlSpec where
  cls := 3
  op := 0x04
  mainRes := resA 31 6 ++ noB ++ noC
  checks i k := cTarget i k 64 (msetPart k (i.fa 5 0))
  run i k := .done k (msetQueryPayload k (i.fa 5 0))

end Sys2Proof.Machine
end

