-- ==== Sys2Proof/Machine/Power.lean ====
section
/-! DEFINITION. The Power Steward: the power in force, grants and reports, budgets, reins, dividers, droop, heat, compliance and the PWR
instructions but those of the power states (R435 to R456). -/

namespace Sys2Proof.Machine

def modPwr (k : Core) (f : Pwr → Pwr) : Core := { k with pwr := f k.pwr }

/-! ## The power in force (R435) -/

/-- P_F in mW. -/
def powerInForce (k : Core) : Nat :=
  let p := k.pwr
  min (min p.force (1000 * p.therm)) (min (if k.pins.thermDemand then 300000 else p.force) (if p.limit = 0 then p.force else 1000 * p.limit))
/-- CAUSE (R437): the limits that bind, the lease, disagreement mode and the shortfall. -/
def causeOf (k : Core) : Nat :=
  let p := k.pwr
  let f := powerInForce k
  b2n (decide (p.force = f)) + 2 * b2n p.lapsed + 4 * b2n (k.pins.thermDemand && decide (f = 300000)) +
  8 * b2n (decide (1000 * p.therm = f)) + 16 * b2n (decide (p.limit ≠ 0 ∧ 1000 * p.limit = f)) + 32 * b2n p.disagree +
  64 * b2n p.shortfall

/-- The grant in force that GSEQ and ECHO name; none while PWR_GRANT_DEFAULT is in force. -/
def grantSeq (p : Pwr) : Nat := match p.grant with | some g => g.seq | none => 0
/-- Report body with a measured power (R437). -/
def reportBody (k : Core) (mw : Nat) : List Byte :=
  let p := k.pwr
  leBytes 1 1 ++ leBytes 1 p.cause ++ leBytes 2 (grantSeq p) ++ leBytes 4 (powerInForce k) ++ leBytes 4 mw ++
  leBytes 6 (p.energy / 150000000) ++ leBytes 1 p.tmax ++ leBytes 1 0 ++ leBytes 8 (match p.grant with | some g => g.echo.toNat | none => 0)
/-- Send a REPORT frame to the source of the fabric grant in force; none goes out in GRAZE (R438, R467). -/
def sendReport (k : Core) (mw : Nat) : Core :=
  match k.pwr.fabSrc with
  | some n => if k.glb.st = .graze then k else routeFrame k (mkFrame k n tReport 0 0 0 0 (reportBody k mw) [])
  | none => k
/-- Change what forms the power in force: CAUSE follows, a change of CAUSE is reported, and a change of the power ends the steady
interval (R435, R438, R450). The measured power of such a report is a free value (assumption 1). -/
def powerChange (k : Core) (f : Core → Core) : Core :=
  let k1 := f k
  let k2 := modPwr k1 (fun p => { p with
    cause := causeOf k1, steady := p.steady && decide (powerInForce k1 = powerInForce k) })
  if k2.pwr.cause ≠ k.pwr.cause ∧ k2.pwr.fabSrc.isSome then let (n, k3) := drawNat k2; sendReport k3 (n % 2 ^ 32) else k2

/-! ## Grants (R436, R437) -/

/-- FORMAT, range and zero bytes of a grant body. -/
def grantOk (b : List Byte) : Bool :=
  let f := fun a n => ofLE ((b.drop a).take n)
  decide (b.length = 24 ∧ f 0 1 = 1 ∧ f 1 1 = 0 ∧ f 14 2 = 0 ∧ 300000 ≤ f 4 4 ∧ f 4 4 ≤ 1800000)
/-- The grant of a body. -/
def grantOf (b : List Byte) : Grant :=
  let f := fun a n => ofLE ((b.drop a).take n)
  { seq := f 2 2, mw := f 4 4, ramp := f 8 2, lease := f 10 2, report := f 12 2, echo := BitVec.ofNat 64 (f 16 8) }
/-- GSEQ is newer than that of the last grant accepted. -/
def newer (p : Pwr) (s : Nat) : Bool :=
  match p.lastSeq with
  | none => true
  | some l => let d := (s + 65536 - l) % 65536; decide (1 ≤ d ∧ d ≤ 32767)
/-- A path of R437: the fabric with its source, or SMBus. -/
def pathOk (k : Core) (src : Option Nat) : Bool :=
  let path := rfld k oGrantSrc 13 12
  match src with
  | some n => path != 1 && (rfld k oGrantSrc 11 0 == 0xFFF || rfld k oGrantSrc 11 0 == n)
  | none => path != 2
/-- A grant body arrives: accepted or ignored (R436, R437). In CONFIG it is kept for entry to ENABLED (R84). -/
def takeGrant (k : Core) (b : List Byte) (src : Option Nat) : Core :=
  let g := grantOf b
  if grantOk b && pathOk k src && newer k.pwr g.seq then
    powerChange (bump k oGrants 1) (fun k => modPwr k (fun p => { p with
      grant := some g, seen := some g.mw, lastSeq := some g.seq, from0 := p.force, periods := 0, lapsed := false, fabSrc := src,
      force := if g.mw < p.force ∨ g.ramp = 0 then g.mw else p.force }))
  else bump k oGrantIgnored 1

/-- The grant ramp after n fast periods (R436). -/
def rampTo (p : Pwr) (n : Nat) : Nat :=
  match p.grant with
  | none => p.force
  | some g => if p.force < g.mw then min g.mw (p.from0 + n * g.ramp * 512000 / 900000) else p.force

/-- LEASE_EXPIRY (R436); in GRAZE the lease is counted in ACLK, which stands while SYSREF is absent (R53). -/
def leaseExpiry (k : Core) : Core :=
  match k.pwr.grant with
  | none => k
  | some g =>
    if g.lease = 0 || (k.glb.st == .graze && !k.pins.sysref) then k
    else powerChange k (fun k => modPwr k (fun p => { p with
      grant := none, fabSrc := none, lapsed := true, force := 1000 * rfld k oGrantDefault 10 0 }))
/-- REPORT_PERIOD (R438). -/
def reportPeriod (k : Core) (mw : Nat) : Core :=
  match k.pwr.grant with
  | none => k
  | some g => if g.report = 0 then k else sendReport k mw
/-- THERM_N demand begins or ends (R38, R435). -/
def thermDemand (k : Core) (on : Bool) : Core := powerChange k (fun k => { k with pins := { k.pins with thermDemand := on } })

/-! ## Domains (R439, R442, R444) -/

/-- The domain is in use. -/
def domInUse (k : Core) (d : Nat) : Bool := if d < 4 then isPart k d else d == 4 && quarters k != 0xF
/-- Share of a domain in percent. -/
def domShare (k : Core) (d : Nat) : Nat :=
  if d < 4 then rfld k (oPartShare d) 6 0
  else 100 - (((upFrom 0 4).filter (isPart k)).map (fun p => rfld k (oPartShare p) 6 0)).sum
/-- P_d in mW. -/
def domPower (k : Core) (d : Nat) : Nat := powerInForce k * domShare k d / 100
/-- B_d in mW from the domain's own uncore power (R439). -/
def domBudget (k : Core) (d uncore : Nat) : Nat := domPower k d - (uncore + domShare k d * 970)
/-- Calibration ratio applied in disagreement mode (R441). -/
def domEstimate (k : Core) (p : Nat) : Nat := if k.pwr.disagree then p * max 256 k.pwr.ratio / 256 else p
/-- The next ceiling (R442). -/
def nextCeil (k : Core) (c p b : Nat) : Nat :=
  if b < p then max 1 (c * b / p)
  else if p * 16 ≤ b * 15 ∧ c < 16 ∧ (k.pwr.disagree = false ∨ k.pwr.fastNo % 4 = 0) then c + 1
  else c
/-- One domain's fast period. -/
def fastDom (i : FastIn) (k : Core) (d : Nat) : Core :=
  if !domInUse k d then k
  else
    let p := domEstimate k (i.tilePower.getD d 0)
    let b := domBudget k d (i.uncore.getD d 0)
    let c := (dom k d).ceil
    let n := nextCeil k c p b
    modDom (if c < n then slew k else k) d (fun q => { q with
      ceil := n, power := p, budget := b, allLow := q.allLow && decide (c = 1), allFull := q.allFull && decide (c = 16 ∧ p * 8 < b * 7) })
/-- FAST_PERIOD: the grant ramp, the budgets and the ceilings (R436, R439, R442). -/
def fastPeriod (k : Core) (i : FastIn) : Core :=
  let k1 := powerChange k (fun k => modPwr k (fun p => { p with
    fastNo := p.fastNo + 1, periods := p.periods + 1, force := rampTo p (p.periods + 1), tmax := i.tmax.toNat }))
  (upFrom 0 5).foldl (fastDom i) k1

/-- One domain's slow period (R444). -/
def slowDom (k : Core) (d : Nat) : Core :=
  let q := dom k d
  let lo := if rfld k oPwrCtl 2 2 = 1 then 5 else 6
  let ts := domTiles k d
  let set := fun (k : Core) (g : Nat → Nat) =>
    modDom (ts.foldl (fun k t => modTile k t (fun x => { x with reqDiv := g x.reqDiv })) k) d (fun x => { x with divTurns := ts })
  let k1 :=
    if !domInUse k d then k
    else if q.allLow && decide (q.budget < q.power) then set k (fun r => min (r + 1) 12)
    else if q.allFull then set k (fun r => max (r - 1) lo)
    else k
  modDom k1 d (fun x => { x with allLow := true, allFull := true })
/-- SLOW_PERIOD. -/
def slowPeriod (k : Core) : Core := (upFrom 0 5).foldl slowDom k
/-- TILE_CLK.FCAP of a tile: what its fuses give, 5 where they list none (assumption 2). -/
def fcapOf (k : Core) (t : Nat) : Nat := mget 5 k.shadow.fcap t
/-- DIVIDER_APPLY: a tile's turn comes and its divider follows the request (R26, R444). -/
def dividerApply (k : Core) (t : Nat) : Core :=
  let d := domOfTile k t
  if (dom k d).divTurns.head? = some t then
    let n := max (tile k t).reqDiv (fcapOf k t)
    let k1 := if n < (tile k t).div then slew k else k
    modDom (modTile k1 t (fun q => { q with div := n })) d (fun q => { q with divTurns := q.divTurns.drop 1 })
  else k

/-! ## Estimate and measurement (R441) -/

/-- K of a window; where the estimate and the measurement are both 0 it is a free value in its range (assumption 1). -/
def windowRatio (k : Core) (e m : Nat) : Nat × Core :=
  if e = 0 then (if m = 0 then let (n, k1) := drawNat k; (128 + n % 385, k1) else (512, k))
  else (max 128 (min 512 (256 * m / e)), k)
/-- ESTIMATOR_WINDOW, with the window's estimated and measured power in mW. -/
def estimatorWindow (k : Core) (e m : Nat) : Core :=
  let (r, k0) := windowRatio k e m
  let bad := decide (max 1 (rfld k oDisagreePct 7 0) * m < (if e < m then m - e else e - m) * 1000)
  let k1 := modPwr k0 (fun p => { p with
    ratio := r, measured := m, energy := p.energy + 4096 * m,
    disRun := if bad then p.disRun + 1 else 0, agreeRun := if bad then 0 else p.agreeRun + 1 })
  let p := k1.pwr
  if !p.disagree && decide (16 ≤ p.disRun) then
    errRecord (bump (powerChange k1 (fun k => modPwr k (fun p => { p with disagree := true }))) oDisagreeCount 1)
      { reason := rDisagree, cls := 3, source := 6, opOnly := true, arg := r }
  else if p.disagree && decide (64 ≤ p.agreeRun) then powerChange k1 (fun k => modPwr k (fun p => { p with disagree := false }))
  else k1

/-! ## Droop, heat, compliance (R448 to R450) -/

/-- DROOP_FIRE: the clamp takes hold. -/
def droopFire (k : Core) (t : Nat) : Core :=
  bump (modTile k t (fun q => { q with droop := max 1 (min 16 (rfld k oDroop 4 0)), clamped := true })) (oDroopCount (t / 128)) 1
/-- DROOP_HOLD_END. -/
def droopHoldEnd (k : Core) (t : Nat) : Core := modTile k t (fun q => { q with clamped := false })
/-- THERMAL_LAW. -/
def thermalLaw (k : Core) (c : Nat) : Core :=
  let target := max 60 (min 98 (rfld k oTherm 7 0))
  powerChange k (fun k => modPwr k (fun p => { p with
    tmax := c,
    therm := if target < c then max 300 (p.therm - 4 * (c - target)) else if c + 2 < target then min 1800 (p.therm + 1) else p.therm }))
/-- Every ceiling is 1 and every requested divider 12. -/
def atLimits (k : Core) : Bool :=
  (upFrom 0 5).all (fun d => !domInUse k d || (dom k d).ceil == 1) && (upFrom 0 256).all (fun t => (tile k t).reqDiv == 12)
/-- COMPLIANCE_INTERVAL, with the power measured over the interval in mW. -/
def complianceInterval (k : Core) (mw : Nat) : Core :=
  let f := powerInForce k
  let over' := k.pwr.steady && decide (f * 102 < mw * 100)
  let k1 := if over' then
      errRecord (bump k oPwrOver 1) { reason := rGrantExceeded, cls := 3, source := 6, opOnly := true, arg := mw / 1000 }
    else k
  powerChange { k1 with pwr := { k1.pwr with steady := true } } (fun k => modPwr k (fun p => { p with
    shortfall := if over' && atLimits k then true else if mw ≤ f then false else p.shortfall }))

/-! ## PWR instructions (R454, R455) -/

/-- Check 4 on an instruction that names the whole device. -/
def cDevice (i : Ctl) (k : Core) (pos : Nat) : Chk := ⟨4, pos, (srcPart k i.src).isSome, rDeniedPart, 4⟩

/-- PWR.STEP_TARGET; a port with PVALID = 0 names any domain, a partition's included (R118, R455, assumption 66). -/
def pwrStepTargetSpec : CtlSpec where
  cls := 0xB
  op := 0x01
  mainRes := resA 31 3 ++ resB 31 20 ++ noC
  checks i k :=
    let d := i.fa 2 0
    let t := i.fb 19 0
    [⟨4, 64, (srcPart k i.src).isSome && domOfSrc k i.src != d, rDeniedPart, d⟩, cOnes 32 20 t, cZero 32 t,
     cRange 64 (!domInUse k d), cResetting k 64 (partOfDom d)]
  run i k := inFlight k { ins := i, key := i.fa 2 0 }
/-- Event 3 of a boundary for a waiting PWR.STEP_TARGET. -/
def targetApply (k : Core) (f : Flt) : Core := retireFlt (modDom k f.key (fun q => { q with target := f.ins.fb 19 0 })) f 0 0 []

def pwrLimitSpec : CtlSpec where
  cls := 0xB
  op := 0x02
  mainRes := resA 31 11 ++ noB ++ noC
  checks i k :=
    let w := i.fa 10 0
    [cDevice i k 64, cRange 64 (decide ((1 ≤ w ∧ w ≤ 299) ∨ 1800 < w))]
  run i k := .done (powerChange k (fun k => modPwr k (fun p => { p with limit := i.fa 10 0 }))) []

/-- Payload of PWR.QUERY. -/
def pwrQueryPayload (k : Core) (sel n : Nat) : List Byte :=
  let p := k.pwr
  if sel = 0 then
    leBytes 4 (powerInForce k) ++ leBytes 4 p.measured ++ leBytes 1 p.cause ++ leBytes 1 p.tmax ++ leBytes 2 0 ++ leBytes 4 p.therm
  else if sel = 1 then
    let ds := (domTiles k n).map (fun t => (tile k t).div)
    leBytes 4 (domPower k n) ++ leBytes 4 (dom k n).budget ++ leBytes 1 (dom k n).ceil ++ leBytes 1 (ds.foldl max 0) ++
    leBytes 1 (ds.foldl min 15) ++ leBytes 1 0 ++ leBytes 4 (dom k n).target
  else if sel = 2 then leBytes 6 (acct k n).energy
  else leBytes 2 (mset' k n).factor

def pwrQuerySpec : CtlSpec where
  cls := 0xB
  op := 0x03
  mainRes := resA 31 8 ++ noC
  checks i k :=
    let s := i.fa 7 0
    let n := if s = 1 then i.fb 2 0 else if s = 2 then i.fb 15 0 else i.fb 5 0
    cReserved 0 i.operands (if s = 0 then noB else if s = 1 then resB 31 3 else if s = 2 then resB 31 16 else if s = 3 then resB 31 6 else []) ++
    (if s = 0 then [cDevice i k 64] else if s = 1 then
       [⟨4, 32, (srcPart k i.src).isSome && domOfSrc k i.src != n, rDeniedPart, n⟩, cRange 32 (!domInUse k n), cResetting k 32 (partOfDom n)]
     else if s = 2 then
       [cRange 32 (decide (rfld k oAcctLimit 24 0 ≤ n))] ++ cTarget i k 32 (acctPart k n) ++ [cState 32 (!(acct k n).isOpen) 0]
     else if s = 3 then cTarget i k 32 (msetPart k n) ++ [cState 32 ((mset' k n).st == .none) 0] else []) ++
    [cRange 64 (decide (3 < s))]
  run i k :=
    let s := i.fa 7 0
    .done k (pwrQueryPayload k s (if s = 1 then i.fb 2 0 else if s = 2 then i.fb 15 0 else i.fb 5 0))

end Sys2Proof.Machine
end

