-- ==== Sys2Proof/Machine/Boundary.lean ====
section
/-! DEFINITION. The domain boundary and the retirement of a step (R300, R301, R262, R265, R288 to R291, R295, R297, R329, R330, R451 to
R453, R489). -/

namespace Sys2Proof.Machine

/-! ## When a boundary begins (R300) -/

/-- A delivered step whose sequences still run has not retired. -/
def retireAwaited (k : Core) (d : Nat) : Bool :=
  (dom k d).retiring.any (fun u => u.plan.any (fun p => (seq k p.seq).st == .running))
/-- Domain of an instruction that waits for a boundary. -/
def fltDom (k : Core) (f : Flt) : Option Nat :=
  let c := f.ins.cls
  let o := f.ins.op
  if c = 1 ∧ (o = 0x06 ∨ o = 0x07) then some (seqDom k f.key)
  else if c = 2 ∧ o = 0x02 then some (domOfCtx k (acct k f.key).ctx)
  else if c = 3 ∧ (o = 0x02 ∨ o = 0x03) then some (mset' k f.key).dom
  else if c = 0xB ∧ o = 0x01 then some f.key
  else none
/-- The instructions that wait for a boundary of domain d, as they came. -/
def boundaryFlts (k : Core) (d : Nat) : List Flt := k.flts.filter (fun f => fltDom k f == some d)
/-- Model sets of a domain. -/
def domSets (k : Core) (d : Nat) : List Nat := (k.msets.filter (fun e => e.2.st != .none && e.2.dom == d)).map Prod.fst
/-- The edits of a domain that can be published. -/
def readyEdits (k : Core) (d : Nat) : Bool :=
  k.sched.edits.any (fun e => e.dom == d && k.sched.edits.all (fun g => g.seq != e.seq || g.prepared))
/-- A DRAINING set has no binding left. -/
def drained (k : Core) (m : Nat) : Bool := (mset' k m).st == .draining && bindings k m == 0
/-- A change waits for the domain's boundary. -/
def changeWaits (k : Core) (d : Nat) : Bool :=
  (d == 4 && k.fab.twin.syncDue) || readyEdits k d || !(boundaryFlts k d).isEmpty || (domSets k d).any (fun m => (mset' k m).schedNext.isSome || drained k m)
/-- Its hard account cannot pay its least cost (R291). -/
def exhausted (k : Core) (s : Nat) : Bool :=
  let a := acct k (seq k s).acct
  a.hard && !a.unlim && decide (a.balance < leastCost k (seq k s))
/-- A QUEUED sequence could be served but for item 6 of R302, and a boundary can change that. -/
def moneyWaits (k : Core) (s : Nat) : Bool :=
  let a := acct k (seq k s).acct
  eligibleBase k s && !canPay a (leastCost k (seq k s)) && ((decide (a.rate ≠ 0) && decide (a.bucket < a.burst)) || exhausted k s)
/-- The domain is at a boundary. -/
def boundaryDue (k : Core) (d : Nat) : Bool :=
  let q := dom k d
  domInUse k d && (k.glb.st == .enabled || k.glb.st == .hold) &&
  match q.running with
  | some u => u.ended
  | none =>
    q.opened || changeWaits k d || ((q.lastBuilt || q.timerDue) && (domSeqs k d).any (eligible k)) ||
    (q.timerDue && (domSeqs k d).any (moneyWaits k))

/-! ## Events 1 to 3 -/

/-- Event 1: the ended step is delivered and waits to retire. -/
def event1 (k : Core) (d : Nat) : Core :=
  match (dom k d).running with
  | none => k
  | some u =>
    modDom (deliverStep k d u) d (fun q => { q with running := none, retiring := q.retiring ++ [u], gates := [] })
/-- Event 2: copied pages are mapped and edits are published; pages no step can still read return together (R268). -/
def event2 (k : Core) (d : Nat) : Core :=
  let k1 := publishAll ((domSeqs k d).foldl (fun k s => remapCopies k d s) k) d
  if latestStep k1 d = none then returnPages k1 d (dom k1 d).stepNo else k1
/-- The change of a waiting SEQ.STOP, SEQ.PRIO, ACCT.SET or PWR.STEP_TARGET. -/
def applyFlt (k : Core) (f : Flt) : Core :=
  if f.ins.cls = 1 then seqApply k f else if f.ins.cls = 2 then acctApply k f else if f.ins.cls = 0xB then targetApply k f else k
/-- Accounts of a domain. -/
def domAccts (k : Core) (d : Nat) : List Nat := (k.accts.filter (fun e => e.2.isOpen && domOfCtx k e.2.ctx == d)).map Prod.fst
/-- Event 3: waiting changes, schedules, refills, swaps and drains, drained sets, and R291. -/
def event3 (k : Core) (d : Nat) : Core :=
  let k1 := (boundaryFlts k d).foldl applyFlt k
  let k2 := (domSets k1 d).foldl schedApply k1
  let k3 := (domAccts k2 d).foldl (fun k a => if ownedAcct k a then modAcct k a refill else k) k2
  let k4 := ((boundaryFlts k3 d).filter (fun f => f.ins.cls == 3)).foldl swapApply k3
  let k5 := (domSets k4 d).foldl (fun k m => if drained k m then msetFree k m else k) k4
  (domSeqs k5 d).foldl (fun k s => if eligibleBase k s && exhausted k s then failSeq k s rBudgetExhausted else k) k5

/-! ## Event 4 -/

/-- Energy allowance in µJ (R451). -/
def allowance (k : Core) (d : Nat) : Nat := domPower k d * (dom k d).target / 1000
/-- The context changes around a confidential step (R489). -/
def wipeDue (k : Core) (d m : Nat) : Bool :=
  let c := (mset' k m).ctx
  let q := dom k d
  let conf := match c with | some n => ctxConf k n | none => false
  decide (c ≠ q.lastCtx) && (conf || q.lastConf)
/-- Zero the staging lines of a quarter. -/
def wipeQuarterStg (k : Core) (q : Nat) : Core :=
  let a := stgLine (q / 2) (262144 * (q % 2))
  { k with stg := k.stg.wipe a (a + 262144) }
/-- Wipe tile memory, output buffers and counters of the domain's tiles and the staging banks of its quarters. -/
def contextWipe (k : Core) (d : Nat) : Core :=
  let k1 := (domTiles k d).foldl (fun k t => modTile k t (fun q => { q with
    mem := Mem.empty, ctrs := [], engines := mmap (fun _ e => { e with oab := [] }) q.engines })) k
  (quartersOf k1 d).foldl wipeQuarterStg k1

/-- The plan in the order of the length table: decode rows, then prompt chunks (R298). -/
def tableOrder (p : List PlanEnt) : List PlanEnt := p.filter (·.decode) ++ p.filter (fun e => !e.decode)
/-- Prompt tokens of a plan. -/
def promptTokens (p : List PlanEnt) : Nat := ((p.filter (fun e => !e.decode)).map (·.q)).sum

/-- Count what a build counted. -/
def countBuild (k : Core) (d a : Nat) (b : Bld) : Core :=
  let o := oDom d
  let k1 := bump (bump k (o + 0x10) b.deferE) (o + 0x18) b.deferN
  if b.plan.isEmpty then k1
  else bump (bump (bump k1 (o + 0x08) 1) (o + 0x20) b.urgent) (o + 0x28) (b2n (decide (a < b.est)))

/-- Every 1,024 steps the accounts' counts of steps that left them out move on (R311). -/
def rollAccounts (k : Core) (d : Nat) : Core :=
  (domAccts k d).foldl (fun k a => modAcct k a (fun x => { x with leftLast := x.leftNow, leftNow := 0 })) k

/-- The accounts with a sequence left out by R290 count the step (R311). -/
def countLeft (k : Core) (l : List Nat) : Core := l.foldl (fun k a => modAcct k a (fun x => { x with leftNow := x.leftNow + 1 })) k
/-- Events 4 and 5 for a build that took sequences on set m. -/
def startStep (k : Core) (d m a : Nat) (b : Bld) : Core :=
  let s := mset' k m
  let p := tableOrder b.plan
  let n := (dom k d).stepNo
  let t0 := p.length
  let t1 := promptTokens p
  let t2 := (p.filter (·.decode)).length
  let conf := match s.ctx with | some c => ctxConf k c | none => false
  let u : UStep := { num := n, mset := m, plan := p, est := b.est, allow := a, fixed := s.eFix * s.factor / 256 }
  let k1 := if wipeDue k d m then contextWipe k d else k
  let k2 := (domTiles k1 d).foldl (fun k t => modTile k t (fun q => { q with owner := s.ctx })) k1
  let toks := planTokens k2 d p
  let k3 := (quartersOf toks.1 d).foldl (fun k q => writeArea k u (stepHeader n t0 t1 t2 m d b.est a) toks.2 q) toks.1
  let k4 := modDom k3 d (fun q => { q with
    running := some u, phase := 2, mset := m, t0 := t0, t1 := t1, t2 := t2, stepNo := n + 1, lastCtx := s.ctx, lastConf := conf })
  let k5 := if (n + 1) % 1024 = 0 then rollAccounts k4 d else k4
  let k6 := match s.sched with
    | some (lead, l) => prefetchLayers (modDom k5 d (fun q => { q with layer := lead })) d 0 lead l
    | none => k5
  let part := (domTiles k6 d).filter (fun t => s.table.getD (logTile k6 t) 0xFFFFFFFF != 0xFFFFFFFF)
  let k7 := part.foldl (fun k t => modTile k t (fun q => { q.stopped with phase := 1 })) k6
  let k8 := { k7 with ghcs := mfilter (fun g _ => ghcDom k7 g != d) k7.ghcs }
  addGates k8 d (part.map (fun t => (t, false)))

/-- Event 4: the build; event 5 follows where it takes a sequence. While lines of a prompt it takes from are still to come, the boundary
stays open and the build is made again once they are there (R298, R300, R303, R319, assumption 24). -/
def event4 (k : Core) (d : Nat) : Core :=
  let a := allowance k d
  let b := buildStep k d a
  let r := openPrompts k d b.plan
  let k1 := countLeft (countBuild b.k d a b) (if b.plan.isEmpty then [] else b.accts)
  match b.plan with
  | [] => modDom k1 d (fun q => { q with lastBuilt := false, phase := 0 })
  | p :: _ =>
    if r.2 then modDom r.1 d (fun q => { q with opened := true, phase := 1 })
    else startStep (modDom k1 d (fun q => { q with lastBuilt := true })) d (seq k1 p.seq).mset a b

/-- STEP_BOUNDARY. No step is built in HOLD, nor while an entry handshake runs (R459, R460). A boundary that delivers a step whose sequences
become eligible as it retires stays open after event 3, so that STEP_RETIRE can come before event 4 as well as after it: event 4 follows at
the next STEP_BOUNDARY (R301, assumption 24). -/
def stepBoundary (k : Core) (d : Nat) : Core :=
  if boundaryDue k d then
    let again := (dom k d).opened
    let k1 :=
      if again then modDom k d (fun q => { q with opened := false })
      else event3 (event2 (event1 (modDom k d (fun q => { q with timerDue := false })) d) d) d
    if k1.glb.st = .enabled ∧ k1.pst.handshake = 0 then
      if retireAwaited k1 d && !again then modDom k1 d (fun q => { q with opened := true, phase := 1 })
      else event4 k1 d
    else modDom k1 d (fun q => { q with phase := 0, lastBuilt := false })
  else k

/-- IDLE_BOUNDARY_TIMER: a step time has passed since the domain's last boundary began. -/
def idleBoundaryTimer (k : Core) (d : Nat) : Core := modDom k d (fun q => { q with timerDue := true })

/-! ## Retirement (R301) -/

/-- The step may retire: the twin has acknowledged its STEP_END in paired mode. -/
def stepMirrored (k : Core) (d : Nat) (u : UStep) : Bool :=
  d != 4 || !twinActive k || (match u.endMsn with | some n => mirrorAcked k n | none => false)

/-- Clamp to 64 to 1,024. -/
def clampF (x : Int) : Nat := (max 64 (min 1024 x)).toNat
/-- The energy factor after a step charged e (R453). -/
def nextFactor (f e est : Nat) : Nat :=
  if est = 0 then f else clampF ((f : Int) + Int.tdiv ((clampF (256 * e / est : Nat) : Int) - f) 8)

/-- An object's HOT count rises; one that reaches SCHD_OBJ_CTL.HOT is promoted (R330). -/
def hotRead (k : Core) (h : Nat) : Core :=
  let k1 := modObj k h (fun o => { o with hot := min 65535 (o.hot + 1) })
  let lim := rfld k oObjCtl 15 0
  if lim ≠ 0 ∧ lim ≤ (obj k1 h).hot ∧ (obj k1 h).st = .absent then promoteOrDrop k1 h (some (obj k1 h).hot) else k1
/-- HOT counts at a retirement. -/
def hotStep (k : Core) (d : Nat) (u : UStep) : Core :=
  let k1 := match (mset' k u.mset).sched with
    | some (_, l) => (((l.filter (fun e => e.hot && u.reads.contains e.handle)).map (·.handle)).dedup).foldl hotRead k
    | none => k
  halveHot k1 d u.num

/-- A member of a retired step: it is QUEUED again, or PAUSED with its SEQ.PAUSE retired (R286, R310). -/
def unrun (k : Core) (s : Nat) : Core :=
  let q := seq k s
  if q.st != .running || k.doms.any (fun e => (e.2.running.toList ++ e.2.retiring).any (fun u => u.plan.any (fun p => p.seq == s))) then k
  else if q.pausePending then endPause (modSeq k s (fun q => { q with st := .paused })) s rOk 0
  else modSeq k s (fun q => { q with st := .queued })

/-- STEP_RETIRE: the oldest step of the domain that has been delivered retires, charged e µJ (R301, R330, R452, R453). -/
def stepRetire (k : Core) (d e : Nat) : Core :=
  match (dom k d).retiring with
  | [] => k
  | u :: r =>
    if !stepMirrored k d u then k
    else
      let k1 := chargeEnergy k u e
      let k2 := modMset k1 u.mset (fun s => if s.st = .none then s else { s with factor := nextFactor s.factor e u.est })
      let k3 := returnPages (modDom k2 d (fun q => { q with retiring := r })) d u.num
      let k4 := retryWants (u.pins.foldl dropPin k3)
      let k5 := hotStep k4 d u
      let k6 := u.plan.foldl (fun k p => unrun k p.seq) k5
      { k6 with glb := { k6.glb with stepsRetired := k6.glb.stepsRetired + 1 } }

end Sys2Proof.Machine
end

