-- ==== Sys2Proof/Machine/Recover.lean ====
section
/-! DEFINITION. Fetches, host reads and the recovery of damaged lines (R105, R318, R323, R327, R328, R334). -/

namespace Sys2Proof.Machine

/-- An object is LOST: one record names it, the sets that name it fail for the reason, and loads name the object (R293, R294, R328,
R422). -/
def lostFor (k : Core) (h reason : Nat) : Core :=
  let o := obj k h
  if !o.alloc || o.lost then k
  else
    let k1 := modObj (orphanReads k h) h (fun o =>
      if o.home = 0 then { o with lost := true, recov := [] }
      else { o.settled with
        lost := true, recov := [], st := .absent, dirty := [], cleaning := [], redirty := [], wants := false, wantDrop := none, from_ := [] })
    let conf := objConf k h
    let k2 := errRecord k1 { reason := rWeightUnavail, cls := 2, source := 8, dom := o.dom, arg := h, ctx := o.ctx, obj := some h, conf := conf }
    let k3 := [0x01, 0x02, 0x05].foldl (fun k op => endObj k op h rWeightUnavail h) k2
    let ms := (k3.msets.filter (fun e => e.2.objs.contains h)).map Prod.fst
    let k4 := ms.foldl (fun k m => if (mset' k m).st = .loading then loadFail k m reason h 0 else msetFail k m reason) k3
    retryWants k4
/-- Every source has failed for a line of the object. -/
def markLost (k : Core) (h : Nat) : Core := loadsGoOn (lostFor k h rWeightUnavail)

/-- A source has failed for stored lines: the next one is tried, or the object is LOST (R327, R328). -/
def sourceFailed (k : Core) (h s : Nat) (ls : List Nat) : Core :=
  if (obj k h).lost then k
  else match (sources k (obj k h)).find? (fun x => decide (s < x)) with
  | none => markLost k h
  | some n => modObj k h (fun o => { o with recov := ls.foldl (fun m l => mput m l n) o.recov })

/-- The last line of a copy is written: the object is complete, and the promotions that wait retire, with their pins (R318, R334). -/
def finishFetch (k : Core) (h : Nat) : Core :=
  let k1 := modObj k h (fun o => { o.settled with st := .complete })
  let fs := k1.flts.filter (fun f => decide (f.ins.cls = 4) && decide (f.ins.op = 0x01) && f.key == h)
  loadsGoOn (fs.foldl (fun k f =>
    let k' := if f.ins.fa 24 24 = 1 then modObj k h (fun o => { o with hostPins := min 65535 (o.hostPins + 1) }) else k
    retireFlt k' f 0 0 (copyPayload (obj k' h))) k1)

/-- Copy the stored lines of a FLASH object; the lines its codewords could not supply (R323, R386). -/
def copyFlash (k : Core) (h : Nat) : Core × List Nat :=
  let o := obj k h
  (upFrom 0 (cdiv o.stored 64)).foldl (fun (r : Core × List Nat) l =>
    let n := flsLineOf k o.dom (o.haddr + l)
    if k.flash.lineBad n then (r.1, r.2 ++ [l]) else (putCopyLine r.1 h l (k.flash.line 0xFF n) false, r.2)) (k, [])

/-- The blocks of a fetched copy that fail the check stage, with the failing check (R349, R351). -/
def badBlocks (k : Core) (h : Nat) : List (Nat × Nat) :=
  let o := obj k h
  (upFrom 0 (o.len / 16)).filterMap (fun n =>
    let (b, p) := storedBytes k h (0, []) (blockSize o * n) (blockSize o)
    let c := blockCheck o.pack n b p
    if c = 0 then none else some (n, c))
/-- The first of the sources that supplied lines of a block: the home but where the fetch turned to another. -/
def blockSource (o : Obj) (n : Nat) : Nat := ((blockLines o n).map (fun l => mget 1 o.from_ l)).foldl min 3
/-- The blocks of a fetched copy pass the check stage; the lines of those that fail come from the next source, and the fetch completes
once none is left (R349, R352). -/
def checkFetch (k : Core) (h : Nat) : Core :=
  let o := obj k h
  let bad := if o.pack = 0 then [] else badBlocks k h
  if bad.isEmpty then finishFetch k h
  else bad.foldl (fun k e =>
    sourceFailed (reportBlock k (servingPxOf k { o with st := .absent } e.1) h e.1 e.2) h (blockSource o e.1) (blockLines o e.1)) k

/-- Every line of a FETCHING copy has been written once. -/
def fetchWritten (k : Core) (h : Nat) : Bool :=
  let o := obj k h
  if o.home = 1 then decide (cdiv o.stored 64 ≤ o.fetched) else !readPending k (fun r => r.obj == some h)
/-- FETCH_COMPLETE: the copy of an object in FETCHING is written, but for lines that other sources must supply. -/
def fetchComplete (k : Core) (h : Nat) : Core :=
  let o := obj k h
  if !(o.alloc && o.st == .fetching) || !o.recov.isEmpty then k
  else if o.home = 1 then
    let r := copyFlash k h
    let k1 := modObj r.1 h (fun o => { o with fetched := cdiv o.stored 64 })
    if r.2.isEmpty then checkFetch k1 h else sourceFailed k1 h 1 r.2
  else if fetchWritten k h then checkFetch k h
  else k

/-- A damaged line is supplied by source s: once none is left, a fetch completes after it, and what waited goes on (R326, R327). -/
def lineSupplied (k : Core) (h l s : Nat) (v : Line) : Core :=
  let k1 := modObj (putCopyLine k h l v false) h (fun o => { o with recov := mdel o.recov l, from_ := mset 1 o.from_ l s })
  let o := obj k1 h
  if !o.recov.isEmpty then k1
  else if o.st = .fetching then (if fetchWritten k1 h then checkFetch k1 h else k1)
  else retryWants (loadsGoOn k1)
/-- RECOVERY_LINE_DONE: a source supplies a damaged line, or fails (R327). A flash home supplies what it holds; a host home answers by
the completion of its read (R105); the line of the twin or of the broadcast reader comes with the command. -/
def recoveryLineDone (k : Core) (h l : Nat) (data : Option Line) : Core :=
  let o := obj k h
  match mget? o.recov l with
  | none => k
  | some s =>
    if s = 1 ∧ o.home = 2 then k
    else match data with
      | none => sourceFailed k h s [l]
      | some v =>
        let f := flsLineOf k o.dom (o.haddr + l)
        if s ≠ 1 then lineSupplied k h l s v
        else if k.flash.lineBad f then sourceFailed k h s [l]
        else lineSupplied k h l s (k.flash.line 0xFF f)

/-! ## Reads of host memory (R105) -/

/-- The error record of a host read that fails. -/
def hostReadError (k : Core) (h : Option Nat) (a : Nat) : Core :=
  let o := match h with | some h => obj k h | none => {}
  errRecord k { reason := rUncorrectable, cls := 2, source := 5, dom := if h.isSome then o.dom else 255, ctx := o.ctx, obj := h,
                conf := match h with | some h => objConf k h | none => false,
                addr := if (match h with | some h => objConf k h | none => false) then 0 else a }
/-- A read in place names the object it was made for, while that is still read there. -/
def readInPlace (k : Core) (h : Nat) : Bool :=
  let o := obj k h
  o.alloc && o.st == .absent && o.direct && o.home == 2 && !o.lost
/-- A host read fails: what it covered arrives poisoned, a record names the object, and the next source is tried (R105, R327). -/
def hostReadFails (k : Core) (r : HostRd) : Core :=
  let ls := upFrom r.line (cdiv r.len 64)
  match r.obj, r.handle with
  | some h, _ =>
    let k1 := hostReadError k (some h) r.line
    if (obj k h).st = .fetching then
      sourceFailed (hostReadError (ls.foldl (fun k l => putCopyLine k h l 0 true) k) (some h) r.line) h 1 ls
    else if (mget? (obj k h).recov r.line) = some 1 then sourceFailed k1 h 1 [r.line]
    else k1
  | none, some h =>
    let k1 := hostReadError k (some h) ((r.addr - (obj k h).haddr) / 64)
    if !readInPlace k h || (r.tile.isNone && r.ctl.isNone && r.seq.isNone) then checkOrphans k1 h
    else if (sources k1 (obj k1 h)).any (fun s => decide (1 < s)) then promote (checkOrphans k1 h) h
    else markLost (checkOrphans k1 h) h
  | none, none => if r.ctl.isSome then hostReadError k none 0 else k
/-- A host read succeeds. -/
def hostReadOk (k : Core) (r : HostRd) (data : List Byte) : Core :=
  match r.obj, r.handle with
  | some h, _ =>
    if (mget? (obj k h).recov r.line) = some 1 ∧ r.len ≤ 64 then lineSupplied k h r.line 1 (BitVec.ofNat 512 (ofLE data))
    else if (obj k h).st = .fetching then
      let a := (obj k h).addr + 64 * r.line
      { k with dram := (k.dram.putBytes 0 a data).setBads false (a / 8) (cdiv r.len 8) }
    else k
  | none, some h => checkOrphans { k with pci := { k.pci with got := k.pci.got ++ [⟨r, some data⟩] } } h
  | none, none => if r.ctl.isNone then k else { k with pci := { k.pci with got := k.pci.got ++ [⟨r, some data⟩] } }
/-- The request of a tag ends. -/
def dropRead (k : Core) (tag : Nat) : Core := { k with pci := { k.pci with reads := mdel k.pci.reads tag } }
/-- HOST_READ_COMPLETION. Data that do not fill the request are no completion of it. -/
def hostReadCompletion (k : Core) (tag : Nat) (s : ReadStatus) (data : List Byte) : Core :=
  match mget? k.pci.reads tag with
  | none => k
  | some r =>
    match s with
    | .ok => if data.length = r.len then hostIssue (hostReadOk (dropRead k tag) r data) else k
    | _ => hostIssue (hostReadFails (dropRead k tag) r)
/-- COMPLETION_TIMEOUT. -/
def completionTimeout (k : Core) (tag : Nat) : Core :=
  match mget? k.pci.reads tag with
  | none => k
  | some r => hostIssue (hostReadFails (dropRead k tag) r)

end Sys2Proof.Machine
end

