-- ==== Sys2Proof/Machine/Halt.lean ====
section
/-! DEFINITION. Fail-stop: the events of R511, the completion records of R543, DEVICE_DOWN and the failure record (R430, R431, R510 to
R513). -/

namespace Sys2Proof.Machine

/-- Blocks work on instructions: ENABLED or HOLD (R85, R459). -/
def alive (k : Core) : Bool := k.glb.st == .enabled || k.glb.st == .hold
/-- A change that happens only while the device works. -/
def whenAlive (f : Core → Core) (k : Core) : Core := if alive k then f k else k

/-! ## Completion records at a halt (R543) -/

/-- Insert by age, the ordinal just before the port's next one being the youngest. -/
def ageInsert (next : W32) (i : Ctl) : List Ctl → List Ctl
  | [] => [i]
  | j :: r => if (i.ord - next).toNat ≤ (j.ord - next).toNat then i :: j :: r else j :: ageInsert next i r
/-- Instructions of port n taken and not retired, oldest first. -/
def unretired (k : Core) (n : Nat) : List Ctl :=
  let p := port k n
  let l := (k.flts.map (·.ins)).filter (fun i => decide (i.src = Src.port (BitVec.ofNat 6 n))) ++ cancelsOf k n ++ p.bundle ++
    p.groups.flatMap (fun g => g.map (·.ins))
  l.dedup.foldr (ageInsert p.ordinal) []
/-- End them with WRONG_STATE and the code of HALTED, and write the port's write-back line; nothing is written where the link does
not serve. -/
def endPort (k : Core) (n : Nat) : Core :=
  let l := unretired k n
  let k1 := modPort k n (fun p => { p with bundle := [], groups := [], fenced := false, abortTail := none })
  if l.isEmpty || !hostUp k then k1
  else
    let k2 := modPort k1 n (fun p => { p with wbPaced := true })
    writeLine (l.foldl (fun k i => record k n i rWrongState DevState.halted.code []) k2) n
/-- Every instruction in flight ends. -/
def endAll (k : Core) : Core := { (k.ports.map Prod.fst).foldl endPort k with flts := [] }

/-! ## DEVICE_DOWN (R430) -/

/-- BODY of DEVICE_DOWN. -/
def downBody (node reason : Nat) (inc : W32) (proxy : Bool) (twin : Nat) : List Byte :=
  leBytes 2 node ++ leBytes 2 reason ++ leBytes 4 inc.toNat ++ leBytes 1 (b2n proxy) ++ leBytes 2 twin ++ leBytes 17 0
/-- Send a DEVICE_DOWN on every live port but one. -/
def floodDown (k : Core) (but : Option Nat) (body : List Byte) : Core :=
  ((livePorts k 0xFFFF).filter (fun p => some p != but)).foldl (fun k p => sendOn k p (mkFrame k 0xFFF tDown 0 0 0 0 body [])) k
/-- This device's own notice; its links then go down (R85). -/
def ownDown (k : Core) (reason : Nat) : Core :=
  let twin := if twinEn k then twinNode k else 0xFFF
  let k1 := floodDown k none (downBody (ownNode k) reason k.glb.incarnation false twin)
  { k1 with fab := { k1.fab with ports := mmap (fun _ (p : FPort) => { p with link := 0, width := 0, sent := [], resends := 0 }) k1.fab.ports } }

/-! ## The failure record (R431) -/

/-- An entry's source lies in a frozen stack. Where the tables lie is Chomor's own (R378), so it is a free value once a stack is frozen
(assumption 1). -/
def unreadable (k : Core) : Bool × Core := if k.stks.any (fun e => e.2.frozen) then drawBool k else (false, k)
/-- The entries of the record with whether one is unreadable. -/
def entriesOf {α : Type} (f : Core → Bool → α → List Byte) (l : List α) (k : Core) : List Byte × Bool × Core :=
  l.foldl (fun (r : List Byte × Bool × Core) x =>
    let (u, k1) := unreadable r.2.2
    (r.1 ++ f k1 u x, r.2.1 || u, k1)) ([], false, k)
/-- A sequence's entry; the pool bytes of an unbound sequence are a free value. -/
def seqEntryBytes (k : Core) (u : Bool) (s : Nat) : List Byte :=
  let q := seq k s
  leBytes 4 s ++ leBytes 1 (if u then 0xF else q.st.code) ++ leBytes 1 q.mset ++ leBytes 1 q.ring ++ leBytes 1 (b2n (!ownedSeq k s)) ++
  leBytes 2 q.acct ++ leBytes 2 (match q.pool with | some p => p | none => Config.freeNat k.fresh) ++ leBytes 4 q.next ++
  leBytes 4 q.delivered ++ leBytes 12 0
/-- An object's entry. -/
def objEntryBytes (k : Core) (u : Bool) (h : Nat) : List Byte :=
  let o := obj k h
  leBytes 3 h ++ leBytes 1 (if u then 0xF else o.code) ++ leBytes 1 (o.home + 4 * o.pack) ++
  leBytes 1 (b2n o.lost + 2 * b2n o.bcast.isSome) ++ leBytes 2 0 ++ leBytes 8 o.haddr
/-- A line of the object's copy lies in a frozen stack. -/
def inFrozen (k : Core) (h : Nat) : Bool :=
  let o := obj k h
  let ss := ((upFrom 0 (cdiv o.stored 256)).map (fun i => (stackAddr k (o.addr + 256 * i)).1)).dedup
  ss.any (fun s => (mget {} k.stks s).frozen)
/-- Write the failure record. -/
def failureRecord (k : Core) (reason : Nat) : Core :=
  match k.fab.failrec with
  | none => k
  | some h =>
    if !(obj k h).alloc || inFrozen k h then k
    else
      let ss := liveSeqs k
      let hs := handles k
      let (b1, u1, k1) := entriesOf seqEntryBytes ss k
      let (b2, u2, k2) := entriesOf objEntryBytes hs { k1 with fresh := k1.fresh + 1 }
      let hdr := leBytes 2 1 ++ leBytes 2 (ownNode k) ++ leBytes 2 reason ++ leBytes 2 0 ++ leBytes 8 k.glb.stepsRetired ++
        leBytes 4 ss.length ++ leBytes 4 hs.length ++ leBytes 40 0
      let b := hdr ++ b1 ++ b2
      let cap := (obj k2 h).len * 64
      let w := b.take cap
      let a := (obj k2 h).addr
      let k3 := noteWrite { k2 with dram := (k2.dram.putBytes 0 a w).setBads false (a / 8) (cdiv w.length 8) } h 0 (cdiv w.length 64)
      { k3 with fab := { k3.fab with written := true, part := u1 || u2 || decide (cap < b.length) } }

/-! ## Fail-stop (R511, R512) -/

/-- Abandon every domain's step; its members stay RUNNING. -/
def abandonAll (k : Core) : Core := [0, 1, 2, 3, 4].foldl abandonStep k
/-- The fatal record. -/
def fatalRec (reason source inst arg : Nat) : ErrRec :=
  { reason := reason, cls := 4, source := source, inst := inst, arg := arg, dom := if reason = rWatchdog then arg else 255 }
/-- A fatal fault: fail-stop, or the record alone of a device that has already halted. -/
def failStop (k : Core) (reason source inst arg : Nat) : Core :=
  let e := fatalRec reason source inst arg
  if k.glb.st = .off then k
  else if k.glb.st = .halted then
    let k1 := bump k oErrFatal 1
    if hostUp k1 then errRecord k1 e else k1
  else
    let old := k.glb.st
    let k0 := abandonAll k
    let k1 := { k0 with
      glb := { k0.glb with st := .halted, resetting := [], checking := false }
      pst := { k0.pst with handshake := 0, waking := false } }
    let k2 := bump (match k1.err.last with
      | none => { k1 with err := { k1.err with last := some e } }
      | some _ => k1) oErrFatal 1
    let k3 := endAll (ownDown k2 reason)
    let k4 := errRecord (errRecord k3 e) { reason := 0, cls := 0, detail := leBytes 1 old.code ++ leBytes 1 DevState.halted.code }
    failureRecord k4 reason

/-- A line of an object, or of its base, that rows of lines touch is being recovered. -/
def rowsRecover (k : Core) (h : Nat) (e : Ext) : Bool :=
  let o := obj k h
  e.starts.any (fun s => (neededLines o s e.len).any (fun l => (mget? o.recov l).isSome) ||
    (o.pack == 2 && (neededLines (obj k o.base) s e.len).any (fun l => (mget? (obj k o.base).recov l).isSome)))
/-- A place of a move is an object with such a line. -/
def placeRecovers (k : Core) (p : Nat) (e : Ext) : Bool := plSpace p == 3 && rowsRecover k (plIndex p % 2 ^ 24) e
/-- An instruction of the tile has started and waits on a recovery (R328). -/
def recoveryWait (k : Core) (t : Nat) : Bool :=
  (match (tile k t).dm with
    | some (.move i) => (i.op != 0x84 && placeRecovers k i.a.toNat i.srcExt) || placeRecovers k (dmDstPlace i) i.dstExt
    | _ => false) ||
  ((tile k t).ap.isSome && poolsRecover k)
/-- PHASE of SCHD_DOM_STATUS: a step that waits on a recovery is in phase 3 (R328). -/
def domPhase (k : Core) (d : Nat) : Nat :=
  let q := dom k d
  if q.phase = 2 && (domTiles k d).any (recoveryWait k) then 3 else q.phase
/-- A place of a move is an object with a line, or a line of its base, in a stack under a field test. -/
def placeHeld (k : Core) (p : Nat) (e : Ext) : Bool :=
  let h := plIndex p % 2 ^ 24
  plSpace p == 3 && e.starts.any (fun s => linesHeld k h (neededLines (obj k h) s e.len) ||
    ((obj k h).pack == 2 && linesHeld k (obj k h).base (neededLines (obj k (obj k h).base) s e.len)))
/-- An instruction of the tile has started and waits on a block held by a field test (R513). -/
def testWait (k : Core) (t : Nat) : Bool :=
  (match (tile k t).dm with
    | some (.move i) => (i.op != 0x84 && placeHeld k i.a.toNat i.srcExt) || placeHeld k (dmDstPlace i) i.dstExt
    | _ => false) ||
  ((tile k t).ap.isSome && (quartersOf k (domOfTile k t)).any (fun q => stackHeld k false (2 * q) || stackHeld k false (2 * q + 1)))
/-- STEP_WATCHDOG: it counts only while the domain runs in phase 2 and no request of its tiles waits on a block under test (R513). -/
def stepWatchdog (k : Core) (d : Nat) : Core :=
  if domPhase k d = 2 ∧ (dom k d).running.isSome ∧ (fieldTests k && (domTiles k d).any (testWait k)) = false then
    failStop k rWatchdog 8 0 d
  else k

end Sys2Proof.Machine
end

