-- ==== Sys2Proof/Machine/Arbiter.lean ====
section
/-! DEFINITION. The maintenance arbiter: its slots, the conflicts of R519 and what becomes of an activity that meets one (R518 to R520). -/

namespace Sys2Proof.Machine

def modMaint (k : Core) (f : Maint → Maint) : Core := { k with maint := f k.maint }
/-- ID of an activity (R518). -/
def actId (kind inst serial : Nat) : Nat := kind + inst * 256 + serial % 65536 * 65536

/-- Half of the table of R519: the activity (k, i) against (l, j). -/
def clashes (k i l j : Nat) : Bool :=
  if k = 1 then
    l == 1 || (i / 16 == 2 && (l == 2 || l == 4 || l == 5) && j == i % 16) || (i / 16 == 3 && (l == 3 || l == 6) && j == i % 16)
  else if k = 2 then (l == 2 || l == 4) && i == j
  else if k = 3 then l == 3 && i == j
  else if k = 4 then (l == 4 || l == 5) && i == j
  else false
/-- Two activities conflict (R519). -/
def conflict (k i l j : Nat) : Bool := clashes k i l j || clashes l j k i
/-- Registered activities that conflict with one. -/
def conflicting (k : Core) (kind inst : Nat) : List (Nat × Act) :=
  k.maint.slots.filter (fun e => conflict kind inst e.2.kind e.2.inst)
/-- ID of the earliest-registered of them (R520). -/
def firstConflict (k : Core) (kind inst : Nat) : Option Nat :=
  ((conflicting k kind inst).foldl (fun m e => match m with
    | none => some e.2
    | some (a : Act) => if e.2.order < a.order then some e.2 else some a) none).map (·.id)

/-- Lowest free slot from lo to lo + 15. -/
def freeSlotFrom (k : Core) (lo : Nat) : Option Nat := (upFrom lo 16).find? (fun n => (mget? k.maint.slots n).isNone)
/-- Register an activity in a slot. -/
def register (k : Core) (n kind inst st : Nat) (f : Act → Act) : Core :=
  let c := k.maint.count + 1
  modMaint k (fun m => { slots := mput m.slots n (f { id := actId kind inst c, st := st, order := c }), count := c })
def modAct (k : Core) (n : Nat) (f : Act → Act) : Core :=
  match mget? k.maint.slots n with
  | none => k
  | some a => modMaint k (fun m => { m with slots := mput m.slots n (f a) })

/-- A waiting or suspended activity goes on once nothing it conflicts with verifies or runs. -/
def wakeAct (k : Core) (n : Nat) : Core :=
  match mget? k.maint.slots n with
  | none => k
  | some a =>
    if (a.st = 3 ∨ a.st = 4) ∧ (conflicting k a.kind a.inst).all (fun e => e.1 == n || e.2.st == 3 || e.2.st == 4) then
      modAct k n (fun a => { a with st := 2 })
    else k
/-- Every waiting activity is looked at, those of hardware first. -/
def settle (k : Core) : Core := (upFrom 16 16 ++ upFrom 0 16).foldl wakeAct k
/-- Free a slot. -/
def freeAct (k : Core) (n : Nat) : Core := settle (modMaint k (fun m => { m with slots := mdel m.slots n }))

/-- A hardware activity arrives: it suspends the scrubs it meets and waits for anything else (R520). One already registered, or one
that finds no slot, changes nothing (assumption 16). -/
def hwBegin (k : Core) (kind inst : Nat) : Core :=
  if (slotOfAct k kind inst).isSome then k
  else match freeSlotFrom k 16 with
    | none => k
    | some n =>
      let cs := conflicting k kind inst
      let hard := cs.any (fun e => !(e.2.kind == 2 || e.2.kind == 3))
      let k1 := if hard then k else cs.foldl (fun k e => modAct k e.1 (fun a => { a with st := 4 })) k
      register k1 n kind inst (if hard then 3 else 2) id
/-- A hardware activity ends. -/
def hwEnd (k : Core) (kind inst : Nat) : Core :=
  match slotOfAct k kind inst with | some e => freeAct k e.1 | none => k
/-- A hardware activity may go on: it runs, or it found no slot. -/
def hwMay (k : Core) (kind inst : Nat) : Bool := match slotOfAct k kind inst with | some e => e.2.st == 2 | none => true

end Sys2Proof.Machine
end

