-- ==== Sys2Proof/Machine/Mirror.lean ====
section
/-! DEFINITION. Paired mode beyond its senders: the images a twin keeps, what each change of the owner sends, how the standby applies
frames, takeover, divergence and resynchronisation (R424 to R429). Frame bodies and image layouts are the model's (assumption 14). -/

namespace Sys2Proof.Machine

/-- n bytes at offset a as a number. -/
def fld (b : List Byte) (a n : Nat) : Nat := ofLE ((b.drop a).take n)

/-! ## Images -/

/-- The 128-byte image of a sequence descriptor (R284, R425). -/
def seqImage (q : Seq) : List Byte :=
  leBytes 1 q.st.code ++ leBytes 2 q.acct ++ leBytes 1 q.mset ++ leBytes 1 q.ring ++
  leBytes 4 (match q.pool with | some p => p + 1 | none => 0) ++ leBytes 1 q.prio ++ leBytes 1 (b2n q.follow) ++ leBytes 4 q.next ++
  leBytes 4 q.pHandle ++ leBytes 4 q.pOff ++ leBytes 4 q.pLeft ++
  leBytes 1 (b2n q.input.isSome + 2 * b2n q.pausePending + 4 * b2n q.urgent) ++ leBytes 4 (q.input.getD 0).toNat ++
  leBytes 4 q.maxnew ++ leBytes 4 q.generated ++ q.stops.flatMap (fun t => leBytes 4 t.toNat) ++ leBytes 4 q.invt.toNat ++
  leBytes 4 q.topp.toNat ++ leBytes 1 q.topk ++ leBytes 8 q.seed.toNat ++ leBytes 2 q.wait ++ leBytes 1 q.edef ++
  leBytes 4 q.delivered ++ leBytes 6 q.energy ++ leBytes 42 0
/-- The state of a code. -/
def seqStOf (n : Nat) : SeqSt :=
  [SeqSt.free, .opened, .queued, .running, .paused, .finished, .cancelled, .failed].getD n .free
/-- What an image makes of a standby sequence; its page lists stay. -/
def seqOfImage (q : Seq) (b : List Byte) : Seq :=
  { q with
    st := seqStOf (fld b 0 1), acct := fld b 1 2, mset := fld b 3 1, ring := fld b 4 1,
    pool := if fld b 5 4 = 0 then none else some (fld b 5 4 - 1), prio := fld b 9 1, follow := fld b 10 1 == 1, next := fld b 11 4,
    pHandle := fld b 15 4, pOff := fld b 19 4, pLeft := fld b 23 4, pPinned := false,
    input := if fld b 27 1 % 2 = 1 then some (BitVec.ofNat 32 (fld b 28 4)) else none,
    pausePending := bit (fld b 27 1) 1, urgent := bit (fld b 27 1) 2, maxnew := fld b 32 4, generated := fld b 36 4,
    stops := (upFrom 0 4).map (fun i => BitVec.ofNat 32 (fld b (40 + 4 * i) 4)), invt := BitVec.ofNat 32 (fld b 56 4),
    topp := BitVec.ofNat 32 (fld b 60 4), topk := fld b 64 1, seed := BitVec.ofNat 64 (fld b 65 8), wait := fld b 73 2,
    edef := fld b 75 1, delivered := fld b 76 4, energy := fld b 80 6 }

/-- The 64-byte image of an account. -/
def acctImage (a : Acct) : List Byte :=
  leBytes 1 (b2n a.isOpen) ++ leBytes 2 a.ctx ++ leBytes 4 a.rate ++ leBytes 4 a.burst ++ leBytes 1 a.pw ++
  leBytes 1 (b2n a.hard + 2 * b2n a.unlim) ++ leBytes 6 a.balance ++ leBytes 4 a.bucket ++ leBytes 6 a.energy ++
  leBytes 4 a.leftNow ++ leBytes 4 a.leftLast ++ leBytes 27 0
def acctOfImage (b : List Byte) : Acct :=
  { isOpen := fld b 0 1 == 1, ctx := fld b 1 2, rate := fld b 3 4, burst := fld b 7 4, pw := fld b 11 1, hard := bit (fld b 12 1) 0,
    unlim := bit (fld b 12 1) 1, balance := fld b 13 6, bucket := fld b 19 4, energy := fld b 23 6, leftNow := fld b 29 4,
    leftLast := fld b 33 4 }

/-- The 16 bytes of one item of a MAP frame: an entry number and its word, or a page, marked by bit 63, and its header. -/
def mapItem (x : Nat × Nat) : List Byte := leBytes 8 x.1 ++ leBytes 8 x.2
/-- A page header as one number. -/
def hdrWord (h : PageHdr) : Nat := h.refs % 2 ^ 16 + h.gen % 256 * 2 ^ 16 + b2n h.deferred.isSome * 2 ^ 24
def hdrOfWord (w : Nat) : PageHdr := { refs := bits w 15 0, gen := bits w 23 16, deferred := if bit w 24 then some (2 ^ 64) else none }

/-! ## What the owner sends (R425) -/

/-- Mirrored items: this device's, of the shared domain, and of no confidential context. -/
def mirrSeq (k : Core) (s : Nat) : Bool :=
  (seq k s).st != .free && ownedSeq k s && seqDom k s == 4 && !ctxConf k (seqCtx k s)
def mirrAcct (k : Core) (a : Nat) : Bool :=
  (acct k a).isOpen && ownedAcct k a && domOfCtx k (acct k a).ctx == 4 && !ctxConf k (acct k a).ctx
def mirrPool (k : Core) (p : Nat) : Bool :=
  (pool k p).isOpen && ownedPool k p && domOfCtx k (pool k p).ctx == 4 && !ctxConf k (pool k p).ctx

def sendSeq (k : Core) (s : Nat) : Core := mirrorSend k mSeq 0 (leBytes 4 s) (linesOf (seqImage (seq k s)) 2)
def sendAcct (k : Core) (a : Nat) : Core := mirrorSend k mAcct 0 (leBytes 4 a) (linesOf (acctImage (acct k a)) 1)
/-- No sequence: a MAP frame of page headers alone. -/
def noSeq : Nat := 0xFFFFFFFF
/-- MAP frames of some items of a pool. -/
def sendMap (k : Core) (p s : Nat) (items : List (Nat × Nat)) : Core :=
  let q := pool k p
  let body := leBytes 4 p ++ leBytes 4 s ++ leBytes 4 q.pages ++ leBytes 1 q.nl ++ leBytes 1 q.hkv ++ leBytes 1 q.dhc ++
    leBytes 1 q.kvfmt ++ leBytes 4 items.length
  mirrorBytes k mMap body (items.flatMap mapItem) 0 items.length

/-- Keys listed by either of two tables. -/
def bothKeys {α : Type} (a b : SMap α) : List Nat := (b.map Prod.fst).foldl sput ((a.map Prod.fst).foldl sput [])
/-- Entries of b that differ from those of a. -/
def changed {α : Type} [DecidableEq α] (d : α) (a b : SMap α) : List (Nat × α) :=
  (bothKeys a b).filterMap (fun n => if mget d a n = mget d b n then none else some (n, mget d b n))

/-- SEQ frames of the sequences that changed. -/
def diffSeqs (k0 k : Core) : Core :=
  ((bothKeys k0.seqs k.seqs).filter (fun s => (mirrSeq k0 s || mirrSeq k s) && decide (seqImage (seq k0 s) ≠ seqImage (seq k s)))).foldl
    sendSeq k
/-- ACCT frames of the accounts that changed. -/
def diffAccts (k0 k : Core) : Core :=
  ((bothKeys k0.accts k.accts).filter (fun a => (mirrAcct k0 a || mirrAcct k a) && decide (acctImage (acct k0 a) ≠ acctImage (acct k a)))).foldl
    sendAcct k
/-- MAP frames of the page headers and page-list entries that changed. -/
def diffMaps (k0 k : Core) : Core :=
  let k1 := ((k.pools.map Prod.fst).filter (mirrPool k)).foldl (fun k p =>
    sendMap k p noSeq ((changed {} (pool k0 p).hdrs (pool k p).hdrs).map (fun e => (e.1 + 2 ^ 63, hdrWord e.2)))) k
  ((k.seqs.map Prod.fst).filter (mirrSeq k)).foldl (fun k s =>
    match (seq k s).pool with
    | none => k
    | some p => sendMap k p s ((changed 0 (seq k0 s).pages (seq k s).pages).map (fun e => (e.1, e.2.toNat)))) k1

/-- STEP_END frames of the delivered steps of the shared domain whose records are all written. -/
def sendEnds (k : Core) : Core :=
  (dom k 4).retiring.foldl (fun k u =>
    if u.endMsn.isNone && u.plan.all (fun p => (seq k p.seq).waiting.isEmpty) then
      let n := k.fab.twin.msn
      modDom (mirrorSend k mStepEnd 0 (leBytes 8 u.num) []) 4 (fun q => { q with
        retiring := q.retiring.map (fun v => if v.num = u.num then { v with endMsn := some n } else v) })
    else k) k

/-- What a command's changes send, k0 being the state before it. -/
def mirrorDiff (k0 k : Core) : Core :=
  if mirroring k then sendEnds (if mirroring k0 then diffMaps k0 (diffAccts k0 (diffSeqs k0 k)) else k) else k

/-! ## The copy of a resynchronisation (R429) -/

/-- PAGE frames of the lines of a page. -/
def sendPage (k : Core) (p page : Nat) : Core :=
  let q := pool k p
  (upFrom 0 (cdiv q.pl 16)).foldl (fun k i =>
    let n := min 16 (q.pl - 16 * i)
    mirrorLines k mPage (BitVec.ofNat 64 (16 * i)) (leBytes 4 p ++ leBytes 4 page)
      ((upFrom (16 * i) n).map (fun l => copyLine k q.obj (page * q.pl + l)))) k
/-- Images of everything owned, then every mapped page. -/
def sendCopy (k : Core) : Core :=
  let ss := (k.seqs.map Prod.fst).filter (mirrSeq k)
  let ps := (k.pools.map Prod.fst).filter (mirrPool k)
  let k1 := ((k.accts.map Prod.fst).filter (mirrAcct k)).foldl sendAcct (ss.foldl sendSeq k)
  let k2 := ps.foldl (fun k p => sendMap k p noSeq ((pool k p).hdrs.map (fun e => (e.1 + 2 ^ 63, hdrWord e.2)))) k1
  let k3 := ss.foldl (fun k s => match (seq k s).pool with
    | none => k
    | some p => sendMap k p s ((seq k s).pages.map (fun e => (e.1, e.2.toNat)))) k2
  ps.foldl (fun k p => ((pool k p).hdrs.filter (fun e => decide (e.2.refs ≠ 0))).foldl (fun k e => sendPage k p e.1) k) k3
/-- Retire the FAB.TWIN_JOIN that waits. -/
def endJoin (k : Core) (reason arg : Nat) : Core :=
  match k.flts.find? (fun f => some f.ins == k.fab.twin.join) with
  | some f => retireFlt (modTwin k (fun w => { w with join := none })) f reason arg []
  | none => modTwin k (fun w => { w with join := none })
/-- The copy is acknowledged: ACTIVE. -/
def joinDone (k : Core) : Core := endJoin (modTwin k (fun w => { w with st := 2, syncEnd := none })) 0 0
/-- The first boundary of the shared domain after FAB.TWIN_JOIN sends the copy. -/
def syncAtBoundary (k : Core) : Core :=
  if k.fab.twin.syncDue then
    let n := k.fab.twin.msn
    let k1 := sendCopy (modTwin k (fun w => { w with syncDue := false }))
    if k1.fab.twin.msn = n then joinDone k1 else modTwin k1 (fun w => { w with syncEnd := some (w.msn - 1) })
  else k

/-! ## The standby applies (R424, R425) -/

/-- The image names a model set, a ring and a pool that this device has (R428). -/
def imageFits (k : Core) (q : Seq) : Bool :=
  (mset' k q.mset).st != .none && (dring k q.ring).isOpen && (match q.pool with | some p => (pool k p).isOpen | none => true)
/-- A standby sequence is deleted. -/
def dropStandby (k : Core) (s : Nat) : Core :=
  let k1 := sysGive k (4096 * heldFrames (seq k s))
  { k1 with seqs := mdel k1.seqs s }
/-- A cancelled sequence's token records are dropped (R425). -/
def dropTokens (k : Core) (s : Nat) : Core :=
  modTwin k (fun w => { w with records := w.records.filter (fun r => r.1 != s || bit (fld r.2 0 4) 30) })
/-- Apply a SEQ frame. -/
def applySeq (k : Core) (f : Frame) : Option Core :=
  let s := fld f.body 0 4
  let q := seqOfImage (seq k s) (bytesOfLines f.lines)
  if ownedSeq k s then none
  else if q.st = .free then some (dropStandby k s)
  else if !imageFits k q then none
  else
    let k1 := modSeq k s (fun _ => q)
    some (if q.st = .cancelled then dropTokens k1 s else k1)
/-- Apply an ACCT frame. -/
def applyAcct (k : Core) (f : Frame) : Option Core :=
  let n := fld f.body 0 4
  let a := acctOfImage (bytesOfLines f.lines)
  if ownedAcct k n then none
  else if !a.isOpen then some { k with accts := mdel k.accts n }
  else if !(ctx k a.ctx).isOpen then none
  else some (modAcct k n (fun _ => a))
/-- Apply a MAP frame. -/
def applyMap (k : Core) (f : Frame) : Option Core :=
  let p := fld f.body 0 4
  let s := fld f.body 4 4
  let q := pool k p
  let lay := decide (fld f.body 12 1 = q.nl % 256 ∧ fld f.body 13 1 = q.hkv ∧ fld f.body 14 1 = q.dhc ∧ fld f.body 15 1 = q.kvfmt)
  if ownedPool k p || !q.isOpen || q.pages != fld f.body 8 4 || !lay then none
  else
    let n := min (4 * f.lines.length) (fld f.body 16 4 - 4 * f.offset.toNat)
    let b := bytesOfLines f.lines
    some ((upFrom 0 n).foldl (fun k i =>
      let key := fld b (16 * i) 8
      let v := fld b (16 * i + 8) 8
      if bit key 63 then modHdr k p (key - 2 ^ 63) (fun _ => hdrOfWord v)
      else putEntry k s key (BitVec.ofNat 64 v)) k)
/-- Apply a PAGE frame. -/
def applyPage (k : Core) (f : Frame) : Option Core :=
  let p := fld f.body 0 4
  let q := pool k p
  if ownedPool k p || !q.isOpen || decide (q.pages ≤ fld f.body 4 4) then none
  else some (writeObj k q.obj (fld f.body 4 4 * q.pl + f.offset.toNat) (f.lines.zipIdx.map (fun v => (v.1, frameBad f v.2))))
/-- Drop the first n held records of a sequence. -/
def dropFirst (s : Nat) : Nat → List (Nat × List Byte) → List (Nat × List Byte)
  | _, [] => []
  | 0, l => l
  | n + 1, r :: l => if r.1 = s then dropFirst s n l else r :: dropFirst s (n + 1) l
/-- Apply a frame of any kind; none where the standby lacks what it names. -/
def applyMirror (k : Core) (f : Frame) : Option Core :=
  let kind := bits f.flags.toNat 15 8
  if kind = mSeq then applySeq k f
  else if kind = mAcct then applyAcct k f
  else if kind = mMap then applyMap k f
  else if kind = mPage then applyPage k f
  else if kind = mRecord then
    if (dring k (fld f.body 4 4)).isOpen then
      some (modTwin k (fun w => { w with records := w.records ++ [(fld f.body 0 4, bytesOfLines f.lines)] }))
    else none
  else if kind = mCommit then some (modTwin k (fun w => { w with records := dropFirst (fld f.body 8 4) (fld f.body 4 4) w.records }))
  else some k

/-! ## Pairing ends (R427, R428) -/

/-- Every record that waits for the twin no longer does. -/
def writeReady (k : Core) : Core := (liveSeqs k).foldl (fun k s => (seq k s).waiting.foldl (fun k _ => writeWaiting k s) k) k
/-- Standby sequences, accounts and pools. -/
def standbySeqs (k : Core) : List Nat := (liveSeqs k).filter (fun s => !ownedSeq k s)
/-- The standby frees its images: sequences, accounts and pages. -/
def freeImages (k : Core) : Core :=
  let k1 := (standbySeqs k).foldl dropStandby k
  { k1 with
    accts := mfilter (fun a _ => ownedAcct k1 a) k1.accts
    pools := mmap (fun p q => if ownedPool k1 p then q else { q with hdrs := [], freed := [], nextFresh := 0 }) k1.pools }
/-- Pairing ends: mirroring stops, standby images are freed, the state reads DIVERGED. -/
def endPairing (k : Core) : Core :=
  let k1 := freeImages (modTwin k (fun w => { w with
    st := 3, unacked := [], early := [], records := [], syncEnd := none, syncDue := false }))
  writeReady (endJoin k1 rWrongState 3)
/-- Pairing ends with a record (R428). -/
def diverge (k : Core) (arg : Nat) : Core :=
  if k.fab.twin.st = 1 ∨ k.fab.twin.st = 2 then
    endPairing (errRecord k { reason := rTwinDiverged, cls := 3, source := 4, arg := arg % 2 ^ 32 })
  else k

/-- A held record as the Delivery unit takes it. -/
def delivOf (b : List Byte) : Deliv :=
  let fl := fld b 0 4
  { kind := if bit fl 30 then .cancelled else if bit fl 29 then .failed else .token, pos := fld b 4 4,
    token := BitVec.ofNat 32 (fld b 8 4), logp := fld b 12 2, urgent := bit fl 28, stop := bit fl 31, reason := fld b 14 2 }
/-- Deliver a held record; a final one of another kind ends its sequence. -/
def deliverHeld (k : Core) (r : Nat × List Byte) : Core :=
  let d := delivOf r.2
  let k1 := match d.kind with
    | .token => k
    | .cancelled => modSeq k r.1 (fun q => { q with st := .cancelled, waiting := [] })
    | .failed => modSeq k r.1 (fun q => { q with st := .failed })
  deliver k1 r.1 d
/-- A pool taken over: every page not mapped is free. -/
def rebuildPool (q : Pool) : Pool :=
  let top := (q.hdrs.map Prod.fst).foldl (fun m n => max m (n + 1)) 0
  { q with
    hdrs := mmap (fun _ (h : PageHdr) => { h with deferred := none }) q.hdrs
    nextFresh := top
    freed := (upFrom 0 top).filter (fun n => decide ((mget ({} : PageHdr) q.hdrs n).refs = 0)) }
/-- The survivor takes over (R427); the flood of DEVICE_DOWN names the twin with its last incarnation. -/
def takeover (k : Core) : Core :=
  let ss := standbySeqs k
  let held := k.fab.twin.records
  let k1 := { k with pools := mmap (fun p q => if ownedPool k p then q else rebuildPool q) k.pools }
  let k2 := modTwin k1 (fun w => { w with
    st := 4, unacked := [], early := [], records := [], syncEnd := none, syncDue := false })
  let k3 := ss.foldl (fun k s => modSeq k s (fun q => if q.st = .running then { q with st := .queued } else q)) k2
  let k4 := held.foldl deliverHeld k3
  let k5 := writeReady (endJoin k4 rPeerLost (twinNode k))
  floodDown k5 none (downBody (twinNode k) rPeerLost (node k (twinNode k)).inc true (ownNode k))

/-! ## MIRROR and MIRROR_ACK frames (R425, R429) -/

/-- Apply the frames whose turn has come. -/
def applyEarly (k : Core) : Nat → Core
  | 0 => k
  | n + 1 =>
    let w := k.fab.twin
    match w.early.find? (fun f => f.tag.toNat == w.applied + 1) with
    | none => k
    | some f =>
      let k1 := modTwin k (fun w => { w with early := w.early.filter (fun g => g.tag.toNat != f.tag.toNat) })
      match applyMirror k1 f with
      | none => diverge k1 f.tag.toNat
      | some k2 => applyEarly (modTwin k2 (fun w => { w with applied := w.applied + 1 })) n
/-- A MIRROR frame: kept until its turn, applied in MSN order, and the highest MSN applied acknowledged on the port it came by. Before
this device has joined, frames are kept (assumption 14). -/
def takeMirror (k : Core) (p : Nat) (f : Frame) : Core :=
  let w := k.fab.twin
  if !twinEn k || f.src.toNat != twinNode k || w.st == 4 then k
  else
    let new := decide (w.applied < f.tag.toNat) && !w.early.any (fun g => g.tag == f.tag)
    let k1 := if new then modTwin k (fun w => { w with early := w.early ++ [f] }) else k
    if w.st = 1 ∨ w.st = 2 then
      let k2 := applyEarly k1 (k1.fab.twin.early.length)
      if (k2.fab.twin.st = 1 ∨ k2.fab.twin.st = 2) ∧ portLive k2 p then
        sendOn k2 p (mkFrame k2 (twinNode k2) tMirrorAck 0 (BitVec.ofNat 64 k2.fab.twin.applied) 0 0 [] [])
      else k2
    else k1
/-- A MIRROR_ACK: frames up to its MSN are released, records that waited for it are written, and a copy whose last frame it covers is
complete. -/
def takeMirrorAck (k : Core) (f : Frame) : Core :=
  if !twinEn k || f.src.toNat != twinNode k then k
  else
    let k1 := modTwin k (fun w => { w with unacked := w.unacked.filter (fun g => decide (f.tag.toNat < g.tag.toNat)) })
    let k2 := match k1.fab.twin.syncEnd with
      | some n => if k1.fab.twin.st = 1 ∧ mirrorAcked k1 n then joinDone k1 else k1
      | none => k1
    writeReady k2

end Sys2Proof.Machine
end

