-- ==== Sys2Proof/Machine/Fab.lean ====
section
/-! DEFINITION. The fabric: ports and links, frames that arrive, channels, broadcast sessions, lost nodes and the FAB instructions (R406 to
R434). -/

namespace Sys2Proof.Machine

/-! ## Broadcast sessions (R420 to R423) -/

/-- Subtypes of BCAST_CTL, in FLAGS [15:8], in the order of R410 (assumption 14). -/
def bJoin : Nat := 0
def bEnd : Nat := 1
def bBitmap : Nat := 2
def bDone : Nat := 3
/-- A session's frames use the ports of the domain that opened it (R413). -/
def sessPort (k : Core) (s p : Nat) : Bool :=
  match session k s with | some v => domOfPart (fportPart k p) == domOfSrc k v.ins.src | none => true
/-- Send a control frame of a session to a node. -/
def sendCtl (k : Core) (n s sub : Nat) (off : Nat) (lines : List Line) : Core :=
  routeVia (sessPort k s) k (mkFrame k n tCtl s 0 (BitVec.ofNat 64 off) (BitVec.ofNat 32 (sub * 256)) [] lines)

/-- Shard i of a manifest held in an object (R420). -/
def shardAt (k : Core) (h i : Nat) : Shard :=
  let b := (knownBytes k h (64 * (1 + i)) 64).1
  { handle := fld b 0 4, first := fld b 4 4, lines := fld b 8 4, digest := (b.drop 16).take 32 }
/-- Shard count of a manifest. -/
def shardCount (k : Core) (h : Nat) : Nat := fld (knownBytes k h 0 4).1 0 4
/-- The shards of a manifest. -/
def shardsOf (k : Core) (h : Nat) : List Shard := (upFrom 0 (shardCount k h)).map (shardAt k h)
/-- The manifest keeps R420 and names allocated handles. -/
def manifestOk (k : Core) (h : Nat) : Bool :=
  let n := shardCount k h
  (obj k h).pack == 0 && decide (1 ≤ n ∧ n ≤ 65535) && decide (1 + n ≤ (obj k h).len) &&
  (knownBytes k h 4 60).1.all (· == 0) &&
  (upFrom 0 n).all (fun i =>
    let b := (knownBytes k h (64 * (1 + i)) 64).1
    let s := shardAt k h i
    fld b 12 4 == 0 && (b.drop 48).all (· == 0) && decide (s.handle < 2 ^ 24) && (obj k s.handle).alloc &&
    decide (1 ≤ s.lines ∧ s.lines ≤ 65536 ∧ s.first + s.lines ≤ cdiv (obj k s.handle).stored 64))

/-- The FAB instruction of a session. -/
def sessFlt (k : Core) (v : Session) : Option Flt := k.flts.find? (fun f => f.ins == v.ins)
/-- A session is over: its instruction retires. -/
def endSession (k : Core) (s : Nat) (v : Session) (reason arg : Nat) (payload : List Byte) : Core :=
  let k1 := { k with fab := { k.fab with sessions := mdel k.fab.sessions s } }
  match sessFlt k1 v with | some f => retireFlt k1 f reason arg payload | none => k1

/-- Shards of a session not verified. -/
def Session.missing (v : Session) : List Nat := (upFrom 0 v.shards.length).filter (fun i => !v.verified.contains i)
/-- Handle of a shard. -/
def Session.handleOf (v : Session) (i : Nat) : Nat := match v.shards[i]? with | some h => h.handle | none => 0
/-- A receiver ends without success: every object with a shard not verified is LOST (R422). -/
def recvFails (k : Core) (s : Nat) (v : Session) (reason arg : Nat) : Core :=
  let hs := (v.missing.map v.handleOf).dedup
  let k1 := if reason = rShardDigest then errRecord k { reason := reason, cls := 3, source := 4, arg := arg } else k
  let k2 := endSession k1 s v reason arg []
  loadsGoOn (hs.foldl (fun k h => lostFor k h reason) k2)
/-- A receiver has every shard: DONE goes out, the objects record their source, and the instruction retires (R421, R423). -/
def recvDone (k : Core) (s : Nat) (v : Session) : Core :=
  let k1 := sendCtl k v.peer s bDone 0 []
  let k2 := v.handles.foldl (fun k h => modObj k h (fun o => { o with bcast := some v.peer })) k1
  loadsGoOn (endSession k2 s v 0 0 (leBytes 4 v.verified.length ++ leBytes 4 v.resent))

/-- The reader's session ends once every receiver is done, has failed or is lost (R422). -/
def readerCheck (k : Core) (s : Nat) : Core :=
  match session k s with
  | none => k
  | some v =>
    if v.reader && v.started && v.joined.all (fun r => r.2.done || r.2.failed) then
      let done := (v.joined.filter (fun r => r.2.done)).length
      endSession k s v 0 0 (leBytes 4 done ++ leBytes 4 (v.count - done) ++ leBytes 4 v.resent)
    else k

/-- Send frames of 16 lines of a shard to a node, or out through a forward mask. -/
def sendShard (k : Core) (s : Nat) (v : Session) (dest i : Nat) (ls : List (Line × Bool)) : Core :=
  let fs := frameRuns 0 ls ls.length
  fs.zipIdx.foldl (fun k x =>
    let f := mkFrame k dest tBcast s (BitVec.ofNat 64 i) (BitVec.ofNat 64 x.1.1) (dataFlags (decide (x.2 + 1 = fs.length)) x.1.2) []
      (x.1.2.map Prod.fst)
    if dest = 0xFFF then ((livePorts k v.mask).filter (sessPort k s)).foldl (fun k p => sendOn k p f) k else routeVia (sessPort k s) k f) k
/-- Who reads the shards of a session. -/
def Session.reads (v : Session) : Reader := { ctl := some (v.ins.src, v.ins.ord) }
/-- The reader sends what it has to send, as far as its objects can be read (R420, R421). -/
def bcastGo (k : Core) (s : Nat) : Nat → Core
  | 0 => k
  | fuel + 1 =>
    match session k s with
    | none => k
    | some v =>
      match v.todo with
      | [] => k
      | (dest, i) :: r =>
        let w := { v with todo := r }
        match v.shards[i]? with
        | none => bcastGo (sendCtl (putSession k s w) dest s bEnd 0 []) s fuel
        | some h =>
          let ls := upFrom h.first h.lines
          match openAt k v.reads 4 h.handle ls (64 * h.first) (64 * h.lines) with
          | .lost _ => endSession k s v rWeightUnavail h.handle []
          | .wait k1 => k1
          | .go k1 =>
            let host := (64 * h.first, (gotBytes k1 v.reads h.handle ((obj k1 h.handle).haddr + 64 * h.first) (64 * h.lines)).getD [])
            let lines := ls.map (fun l => storedLine k1 h.handle host l)
            bcastGo (sendShard (putSession (dropGot k1 v.reads) s w) s w dest i lines) s fuel
/-- Every reader's session goes on. -/
def bcastAll (k : Core) : Core :=
  (k.fab.sessions.filter (fun e => e.2.reader && !e.2.todo.isEmpty)).foldl (fun k e => bcastGo k e.1 (e.2.todo.length + 1)) k
/-- The reader starts: every shard to every receiver, then END to each. -/
def bcastStart (k : Core) (s : Nat) (v : Session) : Core :=
  let n := v.shards.length
  let k1 := putSession k s { v with
    started := true, todo := (upFrom 0 n).map (fun i => (0xFFF, i)) ++ v.joined.map (fun r => (r.1, n)) }
  readerCheck (bcastGo k1 s (n + v.joined.length + 1)) s

/-- A JOIN reaches the reader. -/
def takeJoin (k : Core) (f : Frame) : Core :=
  let s := f.chan.toNat
  match session k s with
  | none => k
  | some v =>
    if !v.reader || v.started then k
    else
      let w := { v with joined := mput v.joined f.src.toNat {} }
      if v.count ≤ w.joined.length then bcastStart k s w else putSession k s w
/-- A receiver asks again for some shards: the reader sends each at most four times more to each receiver; one asked for again fails
the receiver (R421, R422). -/
def askAgain (k : Core) (s : Nat) (v : Session) (n : Nat) (is : List Nat) : Core :=
  match mget? v.joined n with
  | none => k
  | some r =>
    if r.done || r.failed then k
    else
      let ok := is.filter (fun i => decide (i < v.shards.length ∧ mget 0 r.resends i < 4))
      let r1 := { r with
        resends := ok.foldl (fun m i => mput m i (mget 0 m i + 1)) r.resends
        failed := is.any (fun i => decide (4 ≤ mget 0 r.resends i)) }
      let w := { v with
        joined := mput v.joined n r1, resent := v.resent + ok.length, todo := v.todo ++ ok.map (fun i => (n, i)) }
      readerCheck (bcastGo (putSession k s w) s (w.todo.length + 1)) s
/-- Bits of the lines of a BITMAP, 512 shards a line from line OFFSET. -/
def bitmapShards (f : Frame) : List Nat :=
  f.lines.zipIdx.flatMap (fun x => ((upFrom 0 512).filter (fun i => x.1.getLsbD i)).map (fun i => (f.offset.toNat + x.2) * 512 + i))
/-- A BITMAP reaches the reader. -/
def takeBitmap (k : Core) (f : Frame) : Core :=
  let s := f.chan.toNat
  match session k s with
  | none => k
  | some v => if v.reader then askAgain k s v f.src.toNat (bitmapShards f) else k
/-- DONE reaches the reader. -/
def takeDone (k : Core) (f : Frame) : Core :=
  let s := f.chan.toNat
  match session k s with
  | none => k
  | some v =>
    match mget? v.joined f.src.toNat with
    | none => k
    | some r =>
      if v.reader then readerCheck (putSession k s { v with joined := mput v.joined f.src.toNat { r with done := !r.failed } }) s else k

/-- One line of a BITMAP. -/
def bitmapLine (is : List Nat) (l : Nat) : Line :=
  BitVec.ofNat 512 (((is.filter (fun i => i / 512 == l)).map (fun i => 2 ^ (i % 512))).sum)
/-- A receiver sends a BITMAP of its missing shards; one it has asked for four times already ends the session (R421, R422). -/
def sendBitmap (k : Core) (s : Nat) (v : Session) : Core :=
  let is := v.missing
  let n := cdiv v.shards.length 512
  let k1 := (upFrom 0 (cdiv n 16)).foldl (fun k j =>
    sendCtl k v.peer s bBitmap (16 * j) ((upFrom (16 * j) (min 16 (n - 16 * j))).map (bitmapLine is))) k
  match is.find? (fun i => decide (4 ≤ mget 0 v.tries i)) with
  | some i => recvFails k1 s v rShardDigest i
  | none => putSession k1 s { v with tries := is.foldl (fun m i => mput m i (mget 0 m i + 1)) v.tries }
/-- The reader's END: missing shards are named. -/
def takeEnd (k : Core) (f : Frame) : Core :=
  let s := f.chan.toNat
  match session k s with
  | none => k
  | some v =>
    if v.reader || v.peer != f.src.toNat then k
    else if v.missing.isEmpty then k
    else sendBitmap k s { v with gotEnd := true }
/-- BCAST_TIMEOUT: the reader starts with those that have joined; a receiver names its missing shards again. -/
def bcastTimeout (k : Core) (s : Nat) : Core :=
  match session k s with
  | none => k
  | some v =>
    if v.reader then (if v.started then k else bcastStart k s v)
    else if v.gotEnd && !v.missing.isEmpty then sendBitmap k s v else k

/-- Write the lines of a shard frame into the copy as they are. -/
def putShard (k : Core) (h : Shard) (f : Frame) : Core :=
  (f.lines.zipIdx).foldl (fun k x => putCopyLine k h.handle (h.first + f.offset.toNat + x.2) x.1 (frameBad f x.2)) k
/-- Digest of a shard in the copy. -/
def shardDigest (k : Core) (h : Shard) : List Byte :=
  sha256 ((upFrom h.first h.lines).flatMap (fun l => leBytes 64 (copyLine k h.handle l).1.toNat))
/-- The END frame of a shard: its digest is checked (R421). -/
def shardEnd (k : Core) (s i : Nat) (v : Session) (h : Shard) (uni : Bool) : Core :=
  let w := { v with resent := v.resent + b2n uni }
  if shardDigest k h = h.digest then
    let x := { w with verified := sput w.verified i }
    let k1 := putSession k s x
    if x.missing.isEmpty then recvDone k1 s x else k1
  else
    let k1 := routeVia (sessPort k s) k (mkFrame k v.peer tNack s (BitVec.ofNat 64 i) 0 0 (leBytes 2 rShardDigest) [])
    if 4 ≤ mget 0 v.tries i then recvFails k1 s w rShardDigest i
    else putSession k1 s { w with tries := mput w.tries i (mget 0 w.tries i + 1) }
/-- A shard frame for this device's session. -/
def takeShard (k : Core) (f : Frame) (uni : Bool) : Core :=
  let s := f.chan.toNat
  let i := f.tag.toNat
  match session k s with
  | none => k
  | some v =>
    if v.reader || v.peer != f.src.toNat || v.verified.contains i then k
    else match v.shards[i]? with
      | none => k
      | some h =>
        if h.lines < f.offset.toNat + f.lines.length then k
        else
          let k1 := putShard k h f
          if f.flags.getLsbD 0 then shardEnd k1 s i v h uni else k1
/-- Forward a broadcast frame out through the device's own mask for the session, except on the arrival port. -/
def forwardBcast (k : Core) (p : Nat) (f : Frame) : Core :=
  match session k f.chan.toNat with
  | none => k
  | some v =>
    if v.reader || v.peer != f.src.toNat then k
    else if f.hops = 0 then bump k oFabDrop 1
    else ((livePorts k v.mask).filter (fun q => q != p && sessPort k f.chan.toNat q)).foldl (fun k q => sendOn k q { f with hops := f.hops - 1 }) k

/-! ## Lost nodes (R426, R427) -/

/-- DM instructions that wait for an acknowledgement from a node, or for a credit of its channel, fail (R416). -/
def failPeers (k : Core) (n : Nat) : Core :=
  (k.tiles.map Prod.fst).foldl (fun k t =>
    match (tile k t).dm with
    | some (.peer i c _) =>
      if (chan k c).peer = n then tileFail (modTile k t (fun q => { q with dm := none })) t i.widx rPeerLost n else k
    | some (.move i) =>
      if plSpace (dmDstPlace i) = 4 ∧ (chan k (plIndex (dmDstPlace i) % 4096)).peer = n then
        tileFail (modTile k t (fun q => { q with dm := none })) t i.widx rPeerLost n
      else k
    | _ => k) k
/-- Sessions with a lost node: its receivers end, and a reader counts it as failed (R422). -/
def failSessions (k : Core) (n : Nat) : Core :=
  k.fab.sessions.foldl (fun k e =>
    match session k e.1 with
    | none => k
    | some v =>
      if v.reader then
        match mget? v.joined n with
        | some r => readerCheck (putSession k e.1 { v with joined := mput v.joined n { r with failed := !r.done } }) e.1
        | none => k
      else if v.peer = n then recvFails k e.1 v rPeerLost n
      else k) k
/-- A node is lost. -/
def nodeLost (k : Core) (n : Nat) : Core :=
  if (node k n).lost then k
  else
    let k1 := errRecord (modNode k n (fun q => { q with lost := true, pinged := false }))
      { reason := rPeerLost, cls := 3, source := 4, arg := n }
    let k2 := { k1 with fab := { k1.fab with
      chans := mmap (fun _ (c : Chan) => if c.st = 1 ∧ c.peer = n then { c with st := 3 } else c) k1.fab.chans } }
    let k3 := failSessions (failPeers k2 n) n
    if twinEn k3 && twinNode k3 == n && (k3.fab.twin.st == 1 || k3.fab.twin.st == 2) then takeover k3 else k3

/-! ## Ports and links (R407, R408) -/

/-- This port is a twin port in use. -/
def isTwinPort (k : Core) (p : Nat) : Bool :=
  twinEn k && (k.fab.twin.st == 1 || k.fab.twin.st == 2) && (p == twinPortA k || p == twinPortB k)
/-- A node that a downed port leaves without a live port of its route. -/
def cutOff (k : Core) (p n : Nat) : Bool := bit (node k n).mask p && !(node k n).lost && !reachable k n
/-- After a port went down: unacknowledged mirror frames go to the surviving twin port, nodes cut off are lost, and pairing ends where
both twin ports are down and the twin is not lost (R425 to R428). -/
def afterDown (k : Core) (p : Nat) : Core :=
  let k1 := if isTwinPort k p then
      match twinPort k with
      | some q => k.fab.twin.unacked.foldl (fun k f => sendOn k q f) k
      | none => k
    else k
  let k2 := ((k1.fab.nodes.map Prod.fst).filter (cutOff k1 p)).foldl nodeLost k1
  if isTwinPort k2 p && (twinPort k2).isNone then
    (if reachable k2 (twinNode k2) then diverge k2 0xFFFFFFFF else nodeLost k2 (twinNode k2))
  else k2
/-- A link goes down, its first n frames having been acknowledged: those still held for it are rerouted where a route exists, and dropped
otherwise (R408). -/
def downAfter (k : Core) (p n : Nat) : Core :=
  let q := fport k p
  let own := isTwinPort k p
  let k1 := modFport k p (fun q => { q with link := 0, width := 0, sent := [], resends := 0 })
  let fs := (q.sent.drop n).filter (fun f => !(own && f.type.toNat == tMirror && f.src.toNat == ownNode k))
  afterDown (fs.foldl routeFrame k1) p
/-- A link goes down; how many of its frames the far end has acknowledged is a free value (assumption 1). -/
def portDown (k : Core) (p : Nat) : Core :=
  if (fport k p).sent.isEmpty then downAfter k p 0
  else let (n, k1) := drawNat k; downAfter k1 p (n % ((fport k p).sent.length + 1))
/-- Lanes of a link with n good lanes. -/
def linkWidth (n : Nat) : Nat := if n = 8 then 8 else if 4 ≤ n then 4 else if 2 ≤ n then 2 else 0
/-- Good lanes of a mask. -/
def laneCount (g : BitVec 8) : Nat := ((upFrom 0 8).filter (fun i => g.getLsbD i)).length
/-- A field test of the port runs (R515). -/
def portTested (k : Core) (p : Nat) : Bool := actRuns k 1 (4 * 16 + p) || actRuns k 1 (5 * 16 + p)
/-- The device is in a state whose ports are up (R73, R458). -/
def portsServe (k : Core) : Bool := k.glb.st == .enabled || k.glb.st == .hold || k.glb.st == .graze
/-- PORT_TRAINING_DONE. -/
def portTrainingDone (k : Core) (p : Nat) (good : BitVec 8) (peer : Nat) : Core :=
  if (fport k p).link ≠ 1 then k
  else
    let w := linkWidth (laneCount good)
    let k1 := modFport k p (fun q => { q with link := if w = 0 then 0 else 2, width := w, good := good.toNat, peer := if w = 0 then 0 else peer })
    if w ≠ 0 ∧ w ≠ 8 then errRecord k1 { reason := rLinkDegraded, cls := 3, source := 4, inst := p, arg := p + w * 256 } else k1
/-- PORT_RETRY_TIMER: a port that is down tries again while EN is 1. -/
def portRetryTimer (k : Core) (p : Nat) : Core :=
  if portsServe k && (fport k p).link == 0 && rfld k (oFabPortCtl p) 0 0 == 1 && !portTested k p then
    modFport k p (fun q => { q with link := 1 })
  else k
/-- Every enabled port begins to train at entry to ENABLED (R73, R407). -/
def trainPorts (k : Core) : Core := (upFrom 0 16).foldl portRetryTimer k
/-- LINK_SILENCE. -/
def linkSilence (k : Core) (p : Nat) : Core := if portLive k p then portDown k p else k
/-- LINK_RESEND: the frames before the one that failed have been acknowledged, how many being a free value; the rest are resent. One
frame resent 16 times takes the link down, and a mirror frame that fails 4 resends ends pairing (R408, R428, assumption 1). -/
def linkResend (k : Core) (p : Nat) : Core :=
  let q := fport k p
  if q.link ≠ 2 ∨ q.sent = [] then k
  else
    let (n, k0) := drawNat k
    let a := n % q.sent.length
    let fs := q.sent.drop a
    let r := (if a = 0 then q.resends else 0) + 1
    let k1 := bump (modFport k0 p (fun x => { x with sent := fs, resends := r })) (oFabLinkRetry p) fs.length
    let k2 := fs.foldl (fun k f => emit k (.frame p f)) k1
    if 16 ≤ r then downAfter k2 p 0
    else match fs with
      | f :: _ => if 4 ≤ r ∧ isTwinPort k2 p ∧ f.type.toNat = tMirror ∧ f.src.toNat = ownNode k2 then diverge k2 f.tag.toNat else k2
      | [] => k2

/-! ## Channels (R414 to R418) -/

/-- Lines an inbound channel's transaction may reach: its window, or one slot. -/
def chanTakes (ch : Chan) (f : Frame) : Bool :=
  ch.st == 2 && ch.peer == f.src.toNat && decide (f.offset.toNat + f.lines.length ≤ ch.lines)
/-- Write the lines of a DATA frame. -/
def putData (k : Core) (ch : Chan) (f : Frame) : Core :=
  if ch.stg then
    f.lines.zipIdx.foldl (fun k x =>
      { k with stg := k.stg.putLine 0 (stgLine ch.target (ch.base + ch.slot * ch.lines + f.offset.toNat + x.2)) x.1 (frameBad f x.2) }) k
  else writeObj k ch.target (ch.base + f.offset.toNat) (f.lines.zipIdx.map (fun x => (x.1, frameBad f x.2)))
/-- The tile is in its step: it has been released and the step has not ended. -/
def inStep (k : Core) (t : Nat) : Bool :=
  ((tile k t).phase == 2 || (tile k t).phase == 3) && (match (dom k (domOfTile k t)).running with | some u => !u.ended | none => false)
/-- The increments of an arrival; one between a tile's steps is held (R417). No word of the tile made them: a failure's record gives
word 0 (assumption 64). -/
def signalArrival (k : Core) (ch : Chan) : Core :=
  (upFrom ch.arrTile ch.arrSpan).foldl (fun k l =>
    let t := physTile k l
    if inStep k t then hitchAdd k t ch.arrCtr 1 (t, 0) else heldAdd k t ch.arrCtr 1) k
/-- A DATA frame for a channel of this device (R416 to R418). -/
def takeData (k : Core) (f : Frame) : Core :=
  let c := f.chan.toNat
  let ch := chan k c
  let answer := fun (k : Core) (typ : Nat) (body : List Byte) => routeChan k c (mkFrame k f.src.toNat typ c f.tag 0 0 body [])
  if !chanTakes ch f then answer k tNack (leBytes 2 rOverrun)
  else
    let k1 := modChan (putData k ch f) c (fun q => { q with part := q.part + f.lines.length })
    if f.flags.getLsbD 0 then
      let k2 := modChan k1 c (fun q => { q with
        trans := q.trans + 1, part := 0, slot := if q.stg then (q.slot + 1) % max 1 q.slots else q.slot,
        filled := if q.stg then mput q.filled q.slot (q.part, 0) else q.filled })
      answer (signalArrival k2 ch) tAck []
    else k1
/-- The outbound channel that a peer's channel answers for. -/
def outChan (k : Core) (peer c : Nat) : Option Nat :=
  (k.fab.chans.find? (fun e => e.2.st == 1 && e.2.peer == peer && e.2.peerChan == c)).map Prod.fst
/-- The tile whose DM waits for a transaction of a channel, with the instruction. -/
def peerWaiter (k : Core) (c tag : Nat) : Option (Nat × TIns) :=
  k.tiles.findSome? (fun e => match e.2.dm with
    | some (.peer i c' g) => if c' = c ∧ g = tag then some (e.1, i) else none
    | _ => none)
/-- The ACK of an END frame retires the sending instruction (R155, R416). -/
def takeAck (k : Core) (f : Frame) : Core :=
  match outChan k f.src.toNat f.chan.toNat with
  | none => k
  | some c =>
    match peerWaiter k c f.tag.toNat with
    | none => k
    | some (t, i) => onTile k t (fun k => dmRetire (modTile k t (fun q => { q with dm := none })) t i)
/-- A NACK fails the sending instruction, or asks for a shard again (R416, R421). -/
def takeNack (k : Core) (f : Frame) : Core :=
  if fld f.body 0 2 = rShardDigest then
    match session k f.chan.toNat with
    | some v => if v.reader then askAgain k f.chan.toNat v f.src.toNat [f.tag.toNat] else k
    | none => k
  else
    match outChan k f.src.toNat f.chan.toNat with
    | none => k
    | some c =>
      match peerWaiter k c f.tag.toNat with
      | none => k
      | some (t, i) => tileFail (modTile k t (fun q => { q with dm := none })) t i.widx rOverrun 32
/-- A CREDIT returns one slot. -/
def takeCredit (k : Core) (f : Frame) : Core :=
  match outChan k f.src.toNat f.chan.toNat with
  | none => k
  | some c => modChan k c (fun q => { q with credits := if q.stg then min q.slots (q.credits + 1) else q.credits })

/-! ## Control frames (R426, R430) -/

/-- BODY of a PING or PONG: the sender's incarnation in bytes 4 to 7 (assumption 14). -/
def pingBody (inc : W32) : List Byte := leBytes 4 0 ++ leBytes 4 inc.toNat
/-- A frame from a node with an incarnation: a lost node with a new one is reachable again (R426). -/
def seenInc (k : Core) (n : Nat) (inc : W32) : Core :=
  modNode k n (fun q => { q with lost := q.lost && q.inc == inc, inc := inc })
/-- A PING is answered. -/
def takePing (k : Core) (f : Frame) : Core :=
  let n := f.src.toNat
  routeFrame (seenInc k n (BitVec.ofNat 32 (fld f.body 4 4))) (mkFrame k n tPong 0 f.tag 0 0 (pingBody k.glb.incarnation) [])
/-- A PONG confirms its node. -/
def takePong (k : Core) (f : Frame) : Core :=
  let n := f.src.toNat
  modNode (seenInc k n (BitVec.ofNat 32 (fld f.body 4 4))) n (fun q => { q with pinged := false })
/-- A DEVICE_DOWN is forwarded once per node and incarnation, and its node is lost. -/
def takeDown (k : Core) (p : Nat) (f : Frame) : Core :=
  let n := fld f.body 0 2 % 4096
  let inc : W32 := BitVec.ofNat 32 (fld f.body 4 4)
  if n = ownNode k ∨ (node k n).downs.contains inc then k
  else
    let k1 := modNode k n (fun q => { q with downs := inc :: q.downs, inc := inc })
    let k2 := if f.hops = 0 then bump k1 oFabDrop 1
      else ((livePorts k1 0xFFFF).filter (· != p)).foldl (fun k q => sendOn k q { f with hops := f.hops - 1 }) k1
    nodeLost k2 n
/-- The device awaits something from a node: an ACK, a MIRROR_ACK or a PONG. -/
def awaits (k : Core) (n : Nat) : Bool :=
  (node k n).pinged ||
  k.tiles.any (fun e => match e.2.dm with | some (.peer _ c _) => (chan k c).peer == n | _ => false) ||
  (twinEn k && twinNode k == n && mirroring k && !k.fab.twin.unacked.isEmpty)
/-- E2E_TIMEOUT. -/
def e2eTimeout (k : Core) (n : Nat) : Core :=
  if !portsServe k || (node k n).lost || !awaits k n then k
  else if (node k n).pinged then nodeLost k n
  else routeFrame (modNode k n (fun q => { q with pinged := true })) (mkFrame k n tPing 0 0 0 0 (pingBody k.glb.incarnation) [])

/-- The header line of a frame: bytes 0 to 59, then the CRC-32C over them and the data lines (R409). -/
def frameHeader (f : Frame) : List Byte :=
  let b := padTo 60 (leBytes 2 f.dest.toNat ++ leBytes 2 f.src.toNat ++ leBytes 1 f.type.toNat ++
    leBytes 1 (frameVc f.type.toNat + 16 * f.hops.toNat) ++ leBytes 2 f.lines.length ++ leBytes 2 f.chan.toNat ++ leBytes 2 0 ++
    leBytes 8 f.tag.toNat ++ leBytes 8 f.offset.toNat ++ leBytes 4 f.flags.toNat ++ f.body)
  b ++ leBytes 4 (crc32c (b ++ f.lines.flatMap (fun v => leBytes 64 v.toNat)))

/-! ## Frames that arrive (R410, R412, R413, R459) -/

/-- What a frame for this node names lies in a partition that the arrival port does not serve (R413). -/
def strayFrame (k : Core) (p : Nat) (f : Frame) : Bool :=
  let t := f.type.toNat
  let c := if t = tData then some f.chan.toNat
    else if t = tAck ∨ t = tCredit ∨ (t = tNack ∧ fld f.body 0 2 ≠ rShardDigest) then outChan k f.src.toNat f.chan.toNat else none
  match c with
  | none => false
  | some n => (chanPart k n).isSome && chanPart k n != fportPart k p
/-- Take a frame addressed to this node. -/
def serveFrame (k : Core) (p : Nat) (f : Frame) : Core :=
  let t := f.type.toNat
  let sub := bits f.flags.toNat 15 8
  if strayFrame k p f then bump k oFabDrop 1
  else if t = tData then takeData k f
  else if t = tAck then takeAck k f
  else if t = tNack then takeNack k f
  else if t = tCredit then takeCredit k f
  else if t = tBcast then takeShard k f true
  else if t = tCtl then
    (if sub = bJoin then takeJoin k f else if sub = bEnd then takeEnd k f else if sub = bBitmap then takeBitmap k f
     else if sub = bDone then takeDone k f else k)
  else if t = tMirror then takeMirror k p f
  else if t = tMirrorAck then takeMirrorAck k f
  else if t = tGrant then takeGrant k (f.body.take 24) (some f.src.toNat)
  else if t = tPing then takePing k f
  else if t = tPong then takePong k f
  else if t = tDown then takeDown k p f
  else k
/-- Forward a frame for another node (R412). -/
def forwardFrame (k : Core) (f : Frame) : Core :=
  if f.hops = 0 then bump k oFabDrop 1 else routeFrame k { f with hops := f.hops - 1 }
/-- A frame reaches a port that serves. -/
def frameIn (k : Core) (p : Nat) (f : Frame) : Core :=
  if !knownType f.type.toNat then bump k oFabDrop 1
  else if f.dest = 0xFFF then
    (if f.type.toNat = tBcast then takeShard (forwardBcast k p f) f false else serveFrame k p f)
  else if f.dest.toNat = ownNode k then serveFrame k p f
  else forwardFrame k f
/-- A frame reaches a port in GRAZE (R459): a PING is answered, the latest GRANT is kept, all else waits in the receive buffer. -/
def frameHeld (k : Core) (p : Nat) (f : Frame) : Core :=
  let mine := f.dest.toNat == ownNode k
  if mine && f.type.toNat == tPing then takePing k f
  else if mine && f.type.toNat == tGrant then modPwr k (fun q => { q with
    heldGrant := some (f.body.take 24, f.src.toNat)
    seen := if grantOk (f.body.take 24) then some (grantOf (f.body.take 24)).mw else q.seen })
  else { k with fab := { k.fab with held := k.fab.held ++ [(p, f)] } }
/-- The frame is one of the types a row takes. -/
def ofType (f : Frame) (t : Nat) : Bool := f.type.toNat == t
def ofSub (f : Frame) (s : Nat) : Bool := ofType f tCtl && bits f.flags.toNat 15 8 == s
/-- A frame of a row's kind arrives on a port; a port that is not up carries none, and a frame has at most 16 lines and 28 bytes of body
(R409). -/
def arrive (ok : Bool) (k : Core) (p : Nat) (f : Frame) : Core :=
  if !ok || !portLive k p || decide (16 < f.lines.length ∨ 28 < f.body.length) then k
  else if k.glb.st = .graze then frameHeld k p f
  else frameIn k p f
/-- A frame that this node does not take: one for another node, or of a type that is not defined. -/
def toForward (k : Core) (f : Frame) : Bool :=
  !knownType f.type.toNat || (f.dest != 0xFFF && f.dest.toNat != ownNode k)
/-- The frames held in GRAZE are taken once the exit completes. -/
def releaseHeld (k : Core) : Core :=
  k.fab.held.foldl (fun k x => if portLive k x.1 then frameIn k x.1 x.2 else k) { k with fab := { k.fab with held := [] } }

/-! ## FAB instructions (R432, R433) -/

def fabRouteSpec : CtlSpec where
  cls := 0xE
  op := 0x01
  mainRes := resA 31 12 ++ resB 31 12 ++ resC 31 16
  checks i k :=
    let n := i.fb 11 0
    let d := domOfSrc k i.src
    let bad := (upFrom 0 16).filter (fun p => bit (i.fc 15 0) p && domOfPart (fportPart k p) != d)
    cSize 32 12 n ++
    [cRange 64 (decide (4095 < i.fa 11 0 + n)),
     ⟨4, 0, decide (i.src ≠ Src.conductor) && !bad.isEmpty, rDeniedPart, domArg (domOfPart (fportPart k (bad.headD 0)))⟩]
  run i k := .done ((upFrom (i.fa 11 0) (i.fb 11 0)).foldl (fun k n => modNode k n (fun q => { q with mask := i.fc 15 0 })) k) []

/-- Object window of an inbound object channel. -/
def cWindow (i : Ctl) (k : Core) : List Chk :=
  let c := i.fa 27 16
  let h := i.fc 23 0
  let o := obj k h
  cHandle i k 0 h ++
  [cRange 0 (o.alloc && (o.home != 0 || o.pack != 0 || objForeign o (some c))),
   cRange 128 (o.alloc && decide (o.len < i.fx 31 0 + i.fx 63 32)), cState 0 (!o.alloc) o.arg]
/-- Slots of an inbound staging channel. -/
def cSlots (i : Ctl) (k : Core) : List Chk :=
  let stop := i.fx 31 0 + i.fx 71 64 * i.fx 63 32
  let d := domOfCtx k (i.fa 27 16)
  let qs := if stop ≤ 524288 then ([i.fx 31 0, stop - 1].map (stgQuarter (i.fc 0 0))).dedup else []
  let bad := qs.filter (fun q => domOfPart (if isPart k q then some q else none) != d)
  [cRange 128 (decide (524288 < stop)),
   ⟨4, 128, !bad.isEmpty, rDeniedPart, domArg (domOfPart (if isPart k (bad.headD 0) then bad.head? else none))⟩]
/-- Tiles an inbound channel signals. -/
def cArrTiles (i : Ctl) (k : Core) : List Chk :=
  let a := i.fx 87 80
  let n := i.fx 94 88
  let ts := if a + n ≤ 256 then (upFrom a n).map (physTile k) else []
  let bad := ts.filter (fun t => domOfTile k t != domOfCtx k (i.fa 27 16))
  [cOnes 216 7 n, cRange 216 (decide (64 < n ∨ 256 < a + n)), ⟨4, 208, !bad.isEmpty, rDeniedPart, domArg (domOfTile k (bad.headD 0))⟩]

def fabChanOpenSpec : CtlSpec where
  cls := 0xE
  op := 0x81
  mainRes := resA 15 14 ++ resA 31 28 ++ resB 15 12 ++ resB 31 28
  extRes := resX 95 95 ++ resX 127 102
  checks i k :=
    let n := i.fa 11 0
    let isIn := i.fa 12 12 == 1
    let stg := i.fa 13 13 == 1
    let c := i.fa 27 16
    cReserved 0 i.operands (if isIn then resB 27 16 ++ (if stg then resC 31 1 else resC 31 24) else noC) ++
    cReserved 128 i.x.toNat ((if isIn then [] else resX 31 0 ++ resX 79 72 ++ resX 87 80 ++ resX 94 88 ++ resX 101 96) ++
      (if stg then [] else resX 71 64 ++ (if isIn then resX 79 72 else []))) ++
    cTarget i k 80 (ctxPart k c) ++ cTarget i k 64 (chanPart k n) ++
    [⟨4, 64, (ctx k c).isOpen && chanPart k n != ctxPart k c, rDeniedPart, domArg (domOfPart (chanPart k n))⟩,
     ⟨4, 80, ctxConf k c, rDeniedConf, c⟩] ++
    cSize 160 32 (i.fx 63 32) ++ (if stg then cSize 192 8 (i.fx 71 64) else []) ++
    (if isIn && stg then cSize 200 8 (i.fx 79 72) else []) ++
    (if isIn then cArrTiles i k ++ (if stg then cSlots i k else cWindow i k) else []) ++
    [cState 80 (!(ctx k c).isOpen) 0, cState 64 ((chan k n).st != 0) (chan k n).st]
  run i k :=
    let isIn := i.fa 12 12 == 1
    let stg := i.fa 13 13 == 1
    let k1 := if isIn && !stg then takePin k (i.fc 23 0) else k
    .done (modChan k1 (i.fa 11 0) (fun _ =>
      { st := if isIn then 2 else 1, inbound := isIn, stg := stg, ctx := i.fa 27 16, peer := i.fb 11 0, peerChan := i.fb 27 16,
        target := if stg then i.fc 0 0 else i.fc 23 0, base := i.fx 31 0, lines := i.fx 63 32, slots := i.fx 71 64,
        reads := i.fx 79 72, arrTile := i.fx 87 80, arrSpan := i.fx 94 88, arrCtr := i.fx 101 96,
        credits := if stg && !isIn then i.fx 71 64 else 0 })) []

/-- A DM instruction of the channel has not retired. -/
def chanBusy (k : Core) (c : Nat) : Bool :=
  k.tiles.any (fun e => match e.2.dm with
    | some (.peer _ n _) => n == c
    | some (.move i) => plSpace (dmDstPlace i) == 4 && plIndex (dmDstPlace i) % 4096 == c
    | _ => false)
/-- A channel closes; an inbound object channel gives its pin back. -/
def closeChan (k : Core) (c : Nat) : Core :=
  let ch := chan k c
  let k1 := if ch.st = 2 ∧ ch.stg = false then dropPin k ch.target else k
  retryWants { k1 with fab := { k1.fab with chans := mdel k1.fab.chans c } }
def fabChanCloseSpec : CtlSpec where
  cls := 0xE
  op := 0x02
  mainRes := resA 31 12 ++ noB ++ noC
  checks i k :=
    let c := i.fa 11 0
    cTarget i k 64 (chanPart k c) ++ [⟨10, 64, chanBusy k c, rBusy, 255⟩, cState 64 ((chan k c).st == 0) 0]
  run i k := .done (closeChan k (i.fa 11 0)) (leBytes 4 (chan k (i.fa 11 0)).trans)

/-- Checks on a session and its manifest. -/
def cSession (i : Ctl) (k : Core) : List Chk :=
  let h := i.fb 23 0
  cHandle i k 32 h ++
  [cRange 32 ((obj k h).alloc && !manifestOk k h), cState 32 (!(obj k h).alloc) (obj k h).arg,
   cState 64 (session k (i.fa 7 0)).isSome 1]
def fabBcastSendSpec : CtlSpec where
  cls := 0xE
  op := 0x03
  mainRes := resA 31 20 ++ resB 31 24 ++ resC 31 16
  checks i k := cSize 72 12 (i.fa 19 8) ++ cSession i k
  run i k :=
    let v : Session :=
      { reader := true, mask := i.fc 15 0, count := i.fa 19 8, ins := i, shards := shardsOf k (i.fb 23 0) }
    inFlight (putSession k (i.fa 7 0) v) { ins := i, key := i.fa 7 0 }

/-- A session receives into the object. -/
def inSession (k : Core) (h : Nat) : Bool := k.fab.sessions.any (fun e => !e.2.reader && e.2.handles.contains h)
/-- Destination objects of a manifest that cannot receive: of a wrong home, or in use. -/
def cDests (i : Ctl) (k : Core) : List Chk :=
  let hs := if (obj k (i.fb 23 0)).alloc && manifestOk k (i.fb 23 0) then ((shardsOf k (i.fb 23 0)).map (·.handle)).dedup else []
  let used := hs.find? (fun h => decide ((obj k h).refs ≠ 0 ∨ (obj k h).pins ≠ 0) || inSession k h)
  [cRange 32 (hs.any (fun h => (obj k h).home != 0)),
   match used with | some h => cState 32 true (obj k h).arg | none => cState 32 false 0]
def fabBcastRecvSpec : CtlSpec where
  cls := 0xE
  op := 0x04
  mainRes := resA 31 20 ++ resB 31 24 ++ resC 31 16
  checks i k := cSession i k ++ cDests i k
  run i k :=
    let ss := shardsOf k (i.fb 23 0)
    let s := i.fa 7 0
    let v : Session :=
      { reader := false, peer := i.fa 19 8, mask := i.fc 15 0, ins := i, shards := ss, handles := (ss.map (·.handle)).dedup }
    inFlight (sendCtl (putSession k s v) v.peer s bJoin 0 []) { ins := i, key := s }

def fabTwinJoinSpec : CtlSpec where
  cls := 0xE
  op := 0x06
  mainRes := noA ++ noB ++ noC
  checks i k :=
    let st := k.fab.twin.st
    [cDevice i k 64, cFeature 64 (!twinEn k) oTwinCtl, cState 64 (st == 1 || st == 2) st]
  run i k := inFlight (modTwin k (fun w => { w with
    st := 1, msn := 1, unacked := [], applied := 0, records := [], syncEnd := none, syncDue := true, join := some i })) { ins := i }
def fabTwinLeaveSpec : CtlSpec where
  cls := 0xE
  op := 0x07
  mainRes := noA ++ noB ++ noC
  checks i k := [cDevice i k 64]
  run _ k := .done (if k.fab.twin.st = 1 ∨ k.fab.twin.st = 2 then endPairing k else k) []

def fabFailrecSpec : CtlSpec where
  cls := 0xE
  op := 0x08
  mainRes := noA ++ resB 31 24 ++ noC
  checks i k :=
    let o := obj k (i.fb 23 0)
    cHandle i k 32 (i.fb 23 0) ++
    [cRange 32 (o.alloc && (o.home != 0 || o.pack != 0 || o.ctx.isSome)), cState 32 (!o.alloc) o.arg]
  run i k := .done { k with fab := { k.fab with failrec := some (i.fb 23 0) } } []

def fabNodeQuerySpec : CtlSpec where
  cls := 0xE
  op := 0x09
  mainRes := resA 31 12 ++ noB ++ noC
  run i k :=
    let n := i.fa 11 0
    let q := node k n
    .done k (leBytes 1 (if q.lost then 2 else if reachable k n then 0 else 1) ++ leBytes 2 q.mask ++ leBytes 1 0 ++ leBytes 4 q.inc.toNat)

end Sys2Proof.Machine
end

