-- ==== Sys2Proof/Machine/Ecc.lean ====
section
/-! DEFINITION. The code of every stored or carried 64-bit word: its 16 check bits and the codeword of 80 bits, and how a received one decodes (R357, R501 to R503). -/

namespace Sys2Proof.Machine

/-- One coefficient of the message, from the highest down, through the remainder modulo g(x) = x^14 + x^9 + x^8 + x^6 + x^5 + x^4 +
x^2 + x + 1. -/
def bchStep (r : BitVec 14) (b : Bool) : BitVec 14 := if r.getLsbD 13 != b then (r <<< 1) ^^^ 0x377#14 else r <<< 1
/-- The coefficients of M(x) from x^64, the POISON bit, down to x^0. -/
def messageBits (w : BitVec 64) (poison : Bool) : List Bool := poison :: (List.range 64).map (fun i => w.getLsbD (63 - i))
/-- The remainder of M(x) × x^14 divided by g(x): bit j is c_j. -/
def bchOf (w : BitVec 64) (poison : Bool) : BitVec 14 := (messageBits w poison).foldl bchStep 0#14
/-- Exclusive-OR of the bits of a word. -/
def xorBits {n : Nat} (v : BitVec n) : Bool := (List.range n).foldl (fun b i => b != v.getLsbD i) false
/-- The check bits of a word: POISON in bit 0, the BCH bits in [14:1], PARITY over the other 79 bits in bit 15. -/
def checkBits (w : BitVec 64) (poison : Bool) : BitVec 16 :=
  let c := bchOf w poison
  BitVec.ofBool ((xorBits w != xorBits c) != poison) ++ c ++ BitVec.ofBool poison
/-- The 80 bits of a word as stored or carried: data low, check bits above. -/
def codeword (w : BitVec 64) (poison : Bool) : BitVec 80 := checkBits w poison ++ w
/-- A codeword whose check bits are those of its data and its POISON bit. -/
def codewordOk (c : BitVec 80) : Bool := decide (c = codeword (c.extractLsb' 0 64) (c.getLsbD 64))

/-- The codeword with bit i flipped. -/
def flipBit (c : BitVec 80) (i : Nat) : BitVec 80 := c ^^^ (1#80 <<< i)
/-- The codeword with one bit flipped that is a codeword, if there is one. -/
def oneFlip (c : BitVec 80) : Option (BitVec 80) := ((List.range 80).map (flipBit c)).find? codewordOk
/-- What the decoder takes 80 received bits for, with the number of bits it corrected: the codeword at a distance of none, one or two bits.
Where there is none the word is uncorrectable (R503). -/
def decodeWord (c : BitVec 80) : Option (BitVec 80 × Nat) :=
  if codewordOk c then some (c, 0)
  else match oneFlip c with
    | some d => some (d, 1)
    | none => ((List.range 80).findSome? (fun i => oneFlip (flipBit c i))).map (fun d => (d, 2))

/-- Word w of a line. -/
def lineWord (v : Line) (w : Nat) : BitVec 64 := v.extractLsb' (64 * w) 64
/-- The eight codewords of a line. -/
def lineCode (v : Line) (poison : Bool) : List (BitVec 80) := (List.range 8).map (fun w => codeword (lineWord v w) poison)
/-- The 16 check bytes of a line: those of word w at bytes 2w and 2w + 1 (R357). -/
def checkBytes (v : Line) (poison : Bool) : List Byte :=
  (List.range 8).flatMap (fun w => let c := checkBits (lineWord v w) poison; [c.extractLsb' 0 8, c.extractLsb' 8 8])

end Sys2Proof.Machine
end

