-- ==== Sys2Proof/Machine/Stack.lean ====
section
/-! DEFINITION. The Stack Controllers: where a line lies, their slots, the command a pseudo-channel issues, refresh, correctable and
uncorrectable lines, retirement of slices, retraining and the DRAM scrub (R355 to R378, R503, R522). -/

namespace Sys2Proof.Machine

def stk (k : Core) (s : Nat) : Stk := mget {} k.stks s
def modStk (k : Core) (s : Nat) (f : Stk → Stk) : Core := { k with stks := mmod {} k.stks s f }
def Stk.pc (s : Stk) (c : Nat) : Pc := mget {} s.pcs c
def modPc (k : Core) (s c : Nat) (f : Pc → Pc) : Core := modStk k s (fun q => { q with pcs := mmod {} q.pcs c f })

/-! ## Addresses (R358 to R364) -/

/-- The coarse layout is in use. -/
def coarse (k : Core) : Bool := rfld k (oMapOrder 0) 0 0 == 1
/-- Unit index, slice and pseudo-channel of a stack-local address. -/
def unitIx (a : Nat) : Nat := bits a 34 21
def sidOf (a : Nat) : Nat := unitIx a / 4812
def pcOf (k : Core) (a : Nat) : Nat := if coarse k then bits a 16 12 else bits a 12 8
/-- Slice number: PC + 32 × SID. -/
def sliceOf (k : Core) (a : Nat) : Nat := pcOf k a + 32 * sidOf a
/-- Frame in its row group. -/
def frameOf (k : Core) (a : Nat) : Nat := if coarse k then bits a 11 8 else bits a 20 17
/-- Parity of a number's low n bits. -/
def parity (x n : Nat) : Bool := (upFrom 0 n).foldl (fun b i => b != bit x i) false
/-- Natural bits of the bank. -/
def bankBits (k : Core) (a : Nat) : Nat := if coarse k then bits a 20 17 else bits a 16 13
/-- Number of a frame in its slice, in which order a migration takes them (assumption 77). -/
def frameNo (k : Core) (a : Nat) : Nat := unitIx a % 4812 * 256 + bankBits k a * 16 + frameOf k a
/-- Frames of a slice. -/
def sliceFrames : Nat := 4812 * 256
/-- Stack-local address of frame n of a pseudo-channel, counted through its three stack IDs. -/
def frameAddr (k : Core) (c n : Nat) : Nat :=
  let u := n / 256
  let f := n % 16
  let b := n / 16 % 16
  if coarse k then u * 2 ^ 21 + b * 2 ^ 17 + c * 2 ^ 12 + f * 256 else u * 2 ^ 21 + f * 2 ^ 17 + b * 2 ^ 13 + c * 256
/-- Hashed bank: BG in bits [1:0], BA in [3:2] (R364). -/
def bankOf (k : Core) (s a : Nat) : Nat :=
  ((upFrom 0 4).map (fun i => b2n (parity (Nat.land (a / 256) (rfld k (oBankXor s i) 31 0)) 32) * 2 ^ i)).sum
/-- Where a frame lies: stack ID, pseudo-channel, bank, first row of its row group, and its number in the group. -/
structure Place where
  sid : Nat
  pc : Nat
  bank : Nat
  row : Nat
  frame : Nat
  deriving DecidableEq, Repr

/-- The frame has moved to a spare: its slice is retired, and migration has passed it (R375). -/
def inSpare (k : Core) (s a : Nat) : Bool :=
  let q := stk k s
  let sl := sliceOf k a
  q.spares.contains sl && (q.migrating != some sl || decide (frameNo k a < q.moved))
/-- The place of a line's frame: its own, or one in the spare, in some slice other than the retired one (R358, R360, assumption 77). -/
def placeOf (k : Core) (s a : Nat) : Place :=
  if inSpare k s a then
    let sl := sliceOf k a
    let v := Config.sparePlace s sl (frameNo k a)
    let t := if v % 95 < sl then v % 95 else v % 95 + 1
    { sid := t / 32, pc := t % 32, bank := v / 95 % 16
      row := 24064 + 256 * ((stk k s).spares.idxOf sl) + 5 * (v / 1520 % 51), frame := v / 77520 % 16 }
  else { sid := sidOf a, pc := pcOf k a, bank := bankOf k s a, row := 5 * (unitIx a % 4812), frame := frameOf k a }
/-- Bank number within the pseudo-channel: bank + 16 × SID (R355). -/
def Place.bankNo (p : Place) : Nat := p.bank + 16 * p.sid
/-- Row and column of burst i of a frame (R358). -/
def Place.burst (p : Place) (i : Nat) : Nat × Nat := (p.row + (10 * p.frame + i) / 32, (10 * p.frame + i) % 32)
/-- Rows an access to the frame activates: one, or two where the frame crosses a row boundary (R358). -/
def Place.rows (p : Place) : List Nat := [(p.burst 0).1, (p.burst 9).1].dedup
/-- The line lies in the system region (R363). -/
def systemLine (k : Core) (a : Nat) : Bool := decide (14436 - 32 * rfld k oSysRegion 8 0 ≤ unitIx a)
/-- Object-space address of a stack-local address (R362). -/
def objSpaceAddr (k : Core) (s a : Nat) : Nat :=
  let order := rfld k (oMapOrder 0) 1 0
  if order = 0 then a / 256 * 2048 + s * 256 + a % 256
  else if order = 1 then a / 4096 * 32768 + s * 4096 + a % 4096
  else s * ((14436 - 32 * rfld k oSysRegion 8 0) * 2 ^ 21) + a

/-! ## Retirement of slices (R375 to R377) -/

/-- Begin to migrate a slice into the lowest free spare. -/
def startMigration (k : Core) (s sl : Nat) : Core :=
  let k1 := modStk k s (fun q => { q with spares := q.spares ++ [sl], migrating := some sl, moved := 0 })
  hwBegin (errRecord k1 { reason := rRankRetired, cls := 3, source := 2, inst := s, arg := s + sl % 32 * 256 + sl / 32 * 8192 }) 4 s
/-- Retire a slice unless it is retired or retiring; with both spares in use NOSPARE is set (R374 to R376). -/
def retireSlice (k : Core) (s sl : Nat) : Core :=
  let q := stk k s
  if q.spares.contains sl || q.waiting.contains sl then k
  else if 2 ≤ q.spares.length + q.waiting.length then modStk k s (fun q => { q with noSpare := true })
  else if q.migrating.isSome then modStk k s (fun q => { q with waiting := q.waiting ++ [sl] })
  else startMigration k s sl
/-- Channels wait for their turn to train; the next starts where nothing prevents it (R372). -/
def nextTraining (k : Core) (s : Nat) : Core :=
  let q := stk k s
  match q.trainWait with
  | [] => if q.training.isEmpty then hwEnd k 5 s else k
  | c :: r =>
    if !q.training.isEmpty || q.migrating.isSome then k
    else
      let k1 := hwBegin k 5 s
      if hwMay k1 5 s then modStk k1 s (fun q => { q with training := [c], trainWait := r }) else k1
/-- MIGRATION_COMPLETE: every frame has moved, MIGRATING clears and the next queued slice retires. -/
def migrationComplete (k : Core) (s : Nat) : Core :=
  let q := stk k s
  if q.migrating.isSome && hwMay k 4 s && q.moved == sliceFrames then
    let k1 := hwEnd (modStk k s (fun q => { q with migrating := none, moved := 0 })) 4 s
    match q.waiting with
    | sl :: r => startMigration (modStk k1 s (fun q => { q with waiting := r })) s sl
    | [] => nextTraining k1 s
  else k

/-! ## Errors (R373, R374, R378, R503) -/

/-- A correctable error of the stack: counted, and recorded for the operator. -/
def stackCorrected (k : Core) (s : Nat) : Core := corrected (bump k (oMem s + 0x100) 1) 2 s {}
/-- A slice whose corrected lines have reached the limit is retired (R377). -/
def ceLimit (k : Core) (s sl : Nat) : Core :=
  let lim := rfld k (oCeLimit s) 15 0
  if lim ≠ 0 ∧ lim ≤ mget 0 (stk k s).ce sl then retireSlice k s sl else k
/-- A corrected line: its slice counts it. -/
def correctedLine (k : Core) (s a : Nat) : Core :=
  let sl := sliceOf k a
  ceLimit (modStk (stackCorrected k s) s (fun q => { q with ce := mmod 0 q.ce sl (· + 1) })) s sl
/-- MEM_CE_LIMIT is written: slices already past the new limit are retired. -/
def ceLimitWritten (k : Core) (s : Nat) : Core := (stk k s).ce.foldl (fun k e => ceLimit k s e.1) k
/-- The object manager takes an uncorrectable line of a copy: it is read again where it can be (R326, R327). -/
def damagedLine (k : Core) (h l : Nat) : Core :=
  let o := obj k h
  if l * 64 < o.stored ∧ (o.st = .fetching ∨ (o.st = .complete ∧ recoverable o l)) then startRecovery k h [l] else k
/-- An uncorrectable line. One in a frame already moved to a spare sets NOSPARE in place of retiring (R376). -/
def uncorrectableLine (k : Core) (s a : Nat) : Core :=
  let sys := systemLine k a
  let k1 := modStk (bump k (oMem s + 0x108) 1) s (fun q => { q with errAddr := a / 64 * 64 + b2n sys * 2 ^ 35 + 2 ^ 36 })
  if sys then failStop (modStk k1 s (fun q => { q with frozen := true })) rUncorrectable 2 s s
  else
    let o := objSpaceAddr k s a
    let k2 := { k1 with dram := k1.dram.setBads true (o / 64 * 8) 8 }
    let h := objAt k2 o
    let b := match h with | some h => obj k2 h | none => {}
    let conf := match h with | some h => objConf k2 h | none => false
    let k3 := errRecord k2
      { reason := rUncorrectable, cls := 2, source := 2, inst := s, dom := if h.isSome then b.dom else 255, ctx := b.ctx, obj := h,
        conf := conf, addr := if conf then 0 else a / 64 * 64 }
    let k4 := match h with | some h => damagedLine k3 h ((o - b.addr) / 64) | none => k3
    if inSpare k s a then modStk k4 s (fun q => { q with noSpare := true }) else retireSlice k4 s (sliceOf k a)
/-- Put an unspecified line in place of a tenant line that was miscorrected (R503, assumption 1). -/
def miscorrect (k : Core) (s a : Nat) : Core :=
  let (v, k1) := drawLine k
  if systemLine k a then k1 else { k1 with dram := k1.dram.putLine 0 (objSpaceAddr k s a / 64) v false }
/-- How a read of a line decodes: up to two bits in error in a word are corrected, three are detected, and of more nothing is
promised (R503). -/
def decodeLine (k : Core) (s a n : Nat) : Core :=
  if n = 0 then k
  else if n ≤ 2 then correctedLine k s a
  else if n = 3 then uncorrectableLine k s a
  else
    let (found, k1) := drawBool k
    if found then uncorrectableLine k1 s a else correctedLine (miscorrect k1 s a) s a

/-! ## Commands of a pseudo-channel (R366, R367, R370) -/

/-- Urgency of a request. -/
def urgency (k : Core) (s : Nat) (r : DramReq) : Nat :=
  let t := rfld k (oPortTarget s r.port.toNat) 15 0
  if t = 0 ∨ 2 * r.age < t then 0 else if 4 * r.age < 3 * t then 1 else if r.age < t then 2 else 3
/-- r is chosen before q, which came earlier: the higher urgency, then the lower port, then the greater age (R367). -/
def chosenBefore (k : Core) (s : Nat) (r q : DramReq) : Bool :=
  let u := urgency k s r
  let v := urgency k s q
  decide (v < u) || (u == v && (decide (r.port.toNat < q.port.toNat) || (r.port == q.port && decide (q.age < r.age))))
/-- The request chosen of those that can start. -/
def chosen (k : Core) (s : Nat) (l : List DramReq) : Option DramReq :=
  l.foldl (fun m r => match m with | none => some r | some q => if chosenBefore k s r q then some r else some q) none
/-- Stack-local address of a request's line. -/
def reqAddr (r : DramReq) : Nat := 64 * r.line
/-- Requests of one frame are served in their order of arrival: the first of each frame (R365). -/
def firstOfFrame : List DramReq → List DramReq
  | [] => []
  | r :: t => r :: (firstOfFrame t).filter (fun q => q.line / 4 != r.line / 4)
/-- Requests in the slots of pseudo-channel c. -/
def slotsOf (k : Core) (s c : Nat) : List DramReq := (stk k s).slots.filter (fun r => (placeOf k s (reqAddr r)).pc == c)
/-- Requests that can start: no earlier one is for the same frame, and the bank is not busy. -/
def startable (k : Core) (s c : Nat) (busy : List Nat) : List DramReq :=
  (firstOfFrame (slotsOf k s c)).filter (fun r => !busy.contains (placeOf k s (reqAddr r)).bankNo)

/-- The LFSR of a pseudo-channel; its seed is a free value (R370, assumption 1). -/
def lfsrOf (k : Core) (s c : Nat) : W32 × Core :=
  match ((stk k s).pc c).lfsr with
  | some v => (v, k)
  | none => let (v, k1) := drawWord k; (v.truncate 32, k1)
/-- One step of the LFSR with polynomial x^32 + x^22 + x^2 + x + 1, shifting toward the high end (assumption 17). -/
def lfsrStep (v : W32) : W32 :=
  (v <<< 1) ||| (BitVec.ofBool ((v.getLsbD 31 != v.getLsbD 21) != (v.getLsbD 1 != v.getLsbD 0))).zeroExtend 32
/-- An activate of a row in a bank, numbered through the stack IDs. -/
def activate (k : Core) (s c b r : Nat) : Core :=
  let (v, k1) := lfsrOf k s c
  let w := lfsrStep v
  modPc k1 s c (fun p => { p with
    lfsr := some w, nbr := if w.toNat % 2 ^ rfld k1 (oNbrK s) 4 0 = 0 then p.nbr ++ [(b, r)] else p.nbr })
/-- Neighbour refresh of the oldest entry: its row's two neighbours are activated (R370). -/
def neighbourRefresh (k : Core) (s c : Nat) : Core :=
  match ((stk k s).pc c).nbr with
  | [] => k
  | (b, r) :: t =>
    let k1 := bump (modPc k s c (fun p => { p with nbr := t })) (oMem s + 0x110) 1
    (((if r = 0 then [] else [r - 1]) ++ [r + 1]).filter (fun x => decide (x ≤ 24575))).foldl (fun k x => activate k s c b x) k1
/-- One refresh of a pseudo-channel. -/
def refresh (k : Core) (s c : Nat) : Core :=
  modPc k s c (fun p => { p with owed := p.owed - 1, burst := p.burst && decide (1 < p.owed) })
/-- Activate the rows of a frame, with auto-precharge (R365). -/
def openFrame (k : Core) (s : Nat) (p : Place) : Core := p.rows.foldl (fun k x => activate k s p.pc p.bankNo x) k
/-- A line as the stack holds it; what a system line or one beyond the stack holds is a free value (assumption 1). -/
def dramLine (k : Core) (s a : Nat) : (Line × Bool) × Core :=
  if systemLine k a then let (v, k1) := drawLine k; ((v, decide (14436 ≤ unitIx a)), k1)
  else ((k.dram.line 0 (objSpaceAddr k s a / 64), k.dram.lineBad (objSpaceAddr k s a / 64)), k)
/-- The other line of a line's check burst. -/
def otherLine (a : Nat) : Nat := if a / 64 % 2 = 0 then a + 64 else a - 64
/-- Bytes from..from + n - 1 of a line. -/
def lineSlice (v : Line) (i n : Nat) : List Byte := (leBytes 64 v.toNat).drop i |>.take n
/-- The data bursts of line l of a frame. -/
def dataBursts (p : Place) (l : Nat) (v : Line) : List (Nat × Nat × List Byte) :=
  [((p.burst (2 * l)).1, (p.burst (2 * l)).2, lineSlice v 0 32), ((p.burst (2 * l + 1)).1, (p.burst (2 * l + 1)).2, lineSlice v 32 32)]
/-- What an access transfers: the data bursts of its lines and their check burst, in which the even line's check bytes come first (R357,
R359); a read delivers its line with the codewords the mesh carries (R501). -/
def transfer (k : Core) (s : Nat) (r : DramReq) (p : Place) : Access × Core :=
  let a := reqAddr r
  let l := r.line % 4
  let ((v, bad), k1) := dramLine k s a
  let ((w, wbad), k2) := dramLine k1 s (otherLine a)
  let data := if r.write && r.both then (if l % 2 = 0 then dataBursts p l v ++ dataBursts p (l + 1) w else dataBursts p (l - 1) w ++ dataBursts p l v)
    else dataBursts p l v
  let check := if l % 2 = 0 then checkBytes v bad ++ checkBytes w wbad else checkBytes w wbad ++ checkBytes v bad
  let at_ := p.burst (8 + l / 2)
  ({ req := r, sid := p.sid, bank := p.bank, rows := p.rows, bursts := data ++ [(at_.1, at_.2, check)]
     out := if r.write then [] else lineCode v bad }, k2)
/-- A parity error that the stack reported: the command was given again, and the error counts (R355). -/
def parityRetry (k : Core) (s : Nat) (e : ReadErrors) : Core := if e.parity then stackCorrected k s else k
/-- Serve a request: its rows are activated and what it reads is decoded, the line of a read, or the other line of the check burst of a
one-line write; a write of both lines reads nothing (R359). A frozen stack transfers no line. A request beyond the stack reads poisoned
data or is discarded, and sets BADADDR (R368). -/
def serve (k : Core) (s c : Nat) (r : DramReq) (e : ReadErrors) : Core :=
  let a := reqAddr r
  let p := placeOf k s a
  let last (k : Core) (x : Access) : Core := modPc k s c (fun p => { p with last := some x })
  if 14436 ≤ unitIx a then
    let ((v, _), k1) := dramLine k s a
    last (modStk k1 s (fun q => { q with badAddr := true }))
      { req := r, sid := p.sid, bank := p.bank, rows := [], bursts := [], out := if r.write then [] else lineCode v true }
  else
    let k1 := parityRetry (openFrame k s p) s e
    let k2 := if r.write then (if r.both then k1 else decodeLine k1 s (otherLine a) e.bits) else decodeLine k1 s a e.bits
    if (stk k2 s).frozen then k2 else let (x, k3) := transfer k2 s r p; last k3 x
/-- The command a pseudo-channel issues (R367). -/
def pcCommand (k : Core) (s c : Nat) (y : DramCycle) : Core :=
  let p := (stk k s).pc c
  let lim := min 8 (rfld k (oRefPostpone s) 3 0)
  let umax := ((slotsOf k s c).map (urgency k s)).foldl max 0
  if p.burst then refresh k s c
  else if lim < p.owed then refresh (bump (modPc k s c (fun p => { p with burst := true })) (oMem s + 0x118) 1) s c
  else if 0 < p.owed ∧ umax < 2 then refresh k s c
  else if 8 ≤ p.nbr.length ∨ (p.nbr ≠ [] ∧ umax < 2) then neighbourRefresh k s c
  else if (stk k s).frozen then k
  else match chosen k s (startable k s c y.busy) with
    | some r => serve (modStk k s (fun q => { q with slots := q.slots.erase r })) s c r y.err
    | none => k
/-- Requests at the input take free slots in turn, 64 to a pseudo-channel, up to the first that finds none (R356). -/
def fillFrom (k : Core) (s : Nat) : List DramReq → List DramReq → List DramReq × List DramReq
  | sl, [] => (sl, [])
  | sl, r :: t =>
    let c := (placeOf k s (reqAddr r)).pc
    if sl.countP (fun q => (placeOf k s (reqAddr q)).pc == c) < 64 then fillFrom k s (sl ++ [r]) t else (sl, r :: t)
def fillSlots (k : Core) (s : Nat) : Core :=
  let q := stk k s
  let (sl, w) := fillFrom k s q.slots q.input
  if w.length = q.input.length then k else modStk k s (fun q => { q with slots := sl, input := w })
/-- Requests arrive: those held grow older by the DCLK cycles that passed. -/
def takeRequests (k : Core) (s dclks : Nat) (l : List DramReq) : Core :=
  let older := fun r : DramReq => { r with age := r.age + dclks }
  let q := stk k s
  if q.slots.isEmpty && q.input.isEmpty && l.isEmpty then k
  else fillSlots (modStk k s (fun q => { q with slots := q.slots.map older, input := q.input.map older ++ l })) s
/-- The waits of R356 and R372 count: for the pseudo-channel of the request first at the input, and for a channel that trains with
requests. -/
def countWaits (k : Core) (s dclks : Nat) : Core :=
  let q := stk k s
  let k1 := match q.input with
    | [] => k
    | r :: _ => bump k (oMem s + 0x200 + 8 * (placeOf k s (reqAddr r)).pc) dclks
  if q.slots.any (fun r => q.training.contains ((placeOf k s (reqAddr r)).pc / 2)) then bump k1 (oMem s + 0x120) dclks else k1
/-- DRAM_REQUEST: one DCLK of a pseudo-channel, with the requests that reach the controller. A frozen stack serves none (R378); a channel
that trains and a stack under test hold theirs (R372, R516). -/
def dramRequest (k : Core) (s : Nat) (l : List DramReq) (c : Nat) (y : DramCycle) : Core :=
  let k1 := countWaits (takeRequests k s y.dclks l) s y.dclks
  if (stk k1 s).training.contains (c / 2) || stackHeld k1 false s then k1 else fillSlots (pcCommand k1 s c y) s

/-- MIGRATION_FRAME: the next frame is read through the slice, with its lines corrected or poisoned, and written to the spare, where its
requests go from then on (R375). -/
def migrationFrame (k : Core) (s : Nat) (errs : List Nat) : Core :=
  let q := stk k s
  match q.migrating with
  | none => k
  | some sl =>
    if q.moved < sliceFrames ∧ hwMay k 4 s = true ∧ q.frozen = false then
      let a := frameAddr k (sl % 32) (sl / 32 * sliceFrames + q.moved)
      let k1 := openFrame k s (placeOf k s a)
      let k2 := (errs.take 4).zipIdx.foldl (fun k e => if (stk k s).frozen then k else decodeLine k s (a + 64 * e.2) e.1) k1
      if (stk k2 s).frozen then k2
      else
        let k3 := modStk k2 s (fun q => { q with moved := q.moved + 1 })
        openFrame k3 s (placeOf k3 s a)
    else k

/-- REFRESH_DUE. -/
def refreshDue (k : Core) (s c : Nat) : Core := modPc k s c (fun p => { p with owed := p.owed + 1 })
/-! ## Retraining (R372) -/

/-- A channel takes its turn to train. -/
def retrain (k : Core) (s c : Nat) : Core :=
  let q := stk k s
  if q.training.contains c ∨ q.trainWait.contains c then k
  else nextTraining (modStk k s (fun q => { q with trainWait := q.trainWait ++ [c] })) s
/-- The stack's temperature has moved by TDELTA or more since the channel's last training. -/
def tempMoved (k : Core) (s c : Nat) : Bool :=
  let d := rfld k (oRetrain s) 39 32
  match mget? (stk k s).trainTemp c with
  | some t => d != 0 && decide (t + d ≤ (stk k s).temp ∨ (stk k s).temp + d ≤ t)
  | none => false
/-- A temperature reading. The first one after start-up stands for the temperature of the training at start-up (assumption 78). -/
def takeTemp (k : Core) (s t : Nat) : Core :=
  modStk k s (fun q => { q with
    temp := t, trainTemp := (upFrom 0 16).foldl (fun m c => match mget? m c with | some _ => m | none => mput m c t) q.trainTemp })
/-- Channels whose temperature has moved far enough take their turn to train. -/
def tempTriggers (k : Core) (s : Nat) : Core := (upFrom 0 16).foldl (fun k c => if tempMoved k s c then retrain k s c else k) k
/-- RETRAIN_START: a channel's interval or temperature trigger; it takes its turn. -/
def retrainStart (k : Core) (s c : Nat) : Core :=
  if rfld k (oRetrain s) 31 0 ≠ 0 ∨ tempMoved k s c = true then retrain k s c else k
/-- RETRAIN_DONE. -/
def retrainDone (k : Core) (s c : Nat) (ok : Bool) : Core :=
  if (stk k s).training.contains c then
    let k1 := modStk k s (fun q => { q with training := q.training.erase c, trainTemp := mput q.trainTemp c q.temp })
    let k2 := if ok then k1 else
      errRecord k1 { reason := rRetrainFailed, cls := 1, source := 2, inst := s, opOnly := true, arg := s + c * 256 }
    nextTraining k2 s
  else k

/-! ## DRAM scrub (R522) -/

/-- Frames of a pseudo-channel. -/
def pcFrames : Nat := 3 * sliceFrames
/-- A pass ends; a scrub with PASSES above zero frees its slot after the last. -/
def passEnds (k : Core) (n : Nat) (a : Act) : Core :=
  if a.passes ≠ 0 ∧ a.passes ≤ a.pass + 1 then freeAct k n else modAct k n (fun a => { a with pass := a.pass + 1 })
/-- DRAM_SCRUB_FRAME: the scrub reads the next frame of a pseudo-channel. Which of its lines the worst word lies in is a free value
(assumption 1). -/
def dramScrubFrame (k : Core) (s c : Nat) (e : ReadErrors) : Core :=
  match slotOfAct k 2 s with
  | none => k
  | some (n, a) =>
    let f := mget 0 (stk k s).scrubbed c
    if a.st ≠ 2 ∨ (stk k s).frozen ∨ pcFrames ≤ f then k
    else
      let (l, k0) := drawNat k
      let ad := frameAddr k c f + 64 * (l % 4)
      let k1 := modStk k0 s (fun q => { q with scrubbed := mput q.scrubbed c (f + 1) })
      let k2 := modAct k1 n (fun a => { a with
        done := a.done + 1, good := a.good + b2n (decide (1 ≤ e.bits ∧ e.bits ≤ 2)), bad := a.bad + b2n (decide (3 ≤ e.bits)) })
      let k3 := decodeLine (parityRetry (openFrame k2 s (placeOf k2 s ad)) s e) s ad e.bits
      if (upFrom 0 32).all (fun c => decide (pcFrames ≤ mget 0 (stk k3 s).scrubbed c)) then
        passEnds (modStk k3 s (fun q => { q with scrubbed := [] })) n a
      else k3

end Sys2Proof.Machine
end

