-- ==== Sys2Proof/Machine/Flash.lean ====
section
/-! DEFINITION. The weight flash: unit maps, spares, the erase journal, erases and stores with the Pack Encoder, reads and their retries,
the flash scrub and the Conductor's fetch path (R380 to R405, R341, R342, R346, R520, R523). -/

namespace Sys2Proof.Machine

def fls (k : Core) (s : Nat) : Fls := mget {} k.flss s
def modFls (k : Core) (s : Nat) (f : Fls → Fls) : Core := { k with flss := mmod {} k.flss s f }

/-! ## Units and the unit map (R380 to R382, R388, R395) -/

/-- Units for user data that the calibration row lists as bad at test (R380, R397). -/
def Fls.badUnits (f : Fls) : List Nat := f.cal.bad.filter (fun u => decide (64 ≤ u))
/-- A physical unit as the part leaves test: reserved, bad, or one of the good units, on which the logical units lie in order; the rest
are spare (assumption 18). -/
def Fls.born (f : Fls) (u : Nat) : PUnit :=
  let l := u - 64 - (f.badUnits.filter (fun b => decide (b < u))).length
  if u < 64 then { kind := 3 } else if f.badUnits.contains u then { kind := 2 } else if l < 57344 then { kind := 0, lunit := l } else {}
def Fls.punit (f : Fls) (u : Nat) : PUnit := match mget? f.punits u with | some p => p | none => f.born u
def Fls.setPunit (f : Fls) (u : Nat) (g : PUnit → PUnit) : Fls := { f with punits := mput f.punits u (g (f.punit u)) }
/-- Physical unit of logical unit l. -/
def Fls.phys (f : Fls) (l : Nat) : Nat := match mget? f.lmap l with | some u => u | none => f.badUnits.foldl (fun u b => if b ≤ u then u + 1 else u) (l + 64)
def Fls.lun (f : Fls) (l : Nat) : LUnit := mget {} f.lunits l
def Fls.setLun (f : Fls) (l : Nat) (g : LUnit → LUnit) : Fls := { f with lunits := mmod {} f.lunits l g }
/-- A page was programmed since its unit's last erase (R385, R388). -/
def Fls.programmed (f : Fls) (l p : Nat) : Bool :=
  decide (p < (f.lun l).frontier) && !(f.lun l).gaps.any (fun g => decide (g.1 ≤ p ∧ p < g.2))
/-- Unit state code of R388. -/
def unitCode (k : Core) (s l : Nat) : Nat :=
  let f := fls k s
  if f.erasing.any (fun e => e.lunit == l && e.punit == f.phys l) then 4
  else if (f.lun l).frontier = 0 then 1 else if (f.lun l).frontier < 2048 then 2 else 3
/-- ARG of a refusal that names a unit (R388). -/
def unitArg (k : Core) (s l : Nat) : Nat := unitCode k s l + l * 16 + s * 2 ^ 20
/-- A spare: neither reserved, retired nor mapped, and not being erased. -/
def Fls.isSpare (f : Fls) (u : Nat) : Bool := (f.punit u).kind == 1 && !f.erasing.any (fun e => e.punit == u)
/-- Spares left (FLS_STATUS.SPARES). -/
def Fls.spares (f : Fls) : Nat :=
  (f.punits.filter (fun e => f.isSpare e.1)).length + 8128 - f.badUnits.length -
    (f.punits.filter (fun e => (f.born e.1).kind == 1)).length
/-- The spare with the lowest erase count, the lowest unit first among equals (assumption 18). -/
def Fls.bestSpare (f : Fls) : Option Nat :=
  let fresh := (upFrom 57408 8128).find? (fun u => (mget? f.punits u).isNone && (f.born u).kind == 1)
  let cand := (f.punits.map Prod.fst).filter f.isSpare ++ fresh.toList
  cand.foldl (fun m u => match m with
    | none => some u
    | some v => if (f.punit u).ecount < (f.punit v).ecount ∨ ((f.punit u).ecount = (f.punit v).ecount ∧ u < v) then some u else m) none
/-- The flash lines of a logical unit read as blank. -/
def wipeUnit (k : Core) (s l : Nat) : Core := { k with flash := k.flash.wipe (flsLine s l 0 0) (flsLine s (l + 1) 0 0) }

/-! ## The journal (R393 to R395) -/

/-- Types of journal entry. -/
def jEraseBegin : Nat := 1
def jEraseEnd : Nat := 2
def jProgOpen : Nat := 3
def jProgClose : Nat := 4
def jMap : Nat := 5
def jRetire : Nat := 6
def jCheckpoint : Nat := 7
/-- Operations announced and not ended: they are still open after a rotation. -/
def openEntries (l : List JEnt) : List JEnt :=
  l.filter (fun e =>
    (e.typ == jEraseBegin && !l.any (fun g => g.typ == jEraseEnd && g.punit == e.punit && decide (e.seq < g.seq))) ||
    (e.typ == jProgOpen && !l.any (fun g => (g.typ == jProgClose || g.typ == jEraseBegin) && g.lunit == e.lunit && decide (e.seq < g.seq))))
/-- Program one entry; the unit it fills gives way to the next, which opens with a CHECKPOINT of 257 codewords. -/
def journal (k : Core) (s : Nat) (e : JEnt) : Core :=
  modFls k s (fun f =>
    let l := f.journal ++ [{ e with seq := f.jseq }]
    if 4096 ≤ f.used + 1 then
      { f with
        journal := openEntries l ++ [{ typ := jCheckpoint, seq := f.jseq + 1 }], jseq := f.jseq + 2, used := 257,
        junit := f.junit % 8 + 1 }
    else { f with journal := l, jseq := f.jseq + 1, used := f.used + 1 })

/-- The 64 bytes of a journal entry of stack s (R393). -/
def JEnt.bytes (s : Nat) (e : JEnt) : List Byte :=
  let b := leBytes 1 e.typ ++ leBytes 1 s ++ leBytes 2 0 ++ leBytes 8 e.seq ++ leBytes 2 e.lunit ++ leBytes 2 e.punit ++ leBytes 2 e.page ++
    leBytes 1 e.loops ++ leBytes 1 e.mfail ++ leBytes 4 e.ecount ++ leBytes 36 0
  b ++ leBytes 4 (crc32c b)
/-- The 8 bytes of a physical unit in a CHECKPOINT's map (R395). -/
def mapBytes (k : Core) (s u : Nat) : List Byte :=
  let f := fls k s
  let p := f.punit u
  let user := p.kind == 0
  leBytes 8 (p.lunit + atBit 16 p.kind + atBit 18 (if user then unitCode k s p.lunit - 1 else 0) +
    atBit 20 (if user then (f.lun p.lunit).frontier else 0) + atBit 32 (p.ecount % 2 ^ 20) + atBit 52 (min 255 p.loops) + atBit 60 (b2n p.pend))
/-- Map codeword n of a CHECKPOINT: 256 units (R395). -/
def mapCodeword (k : Core) (s n : Nat) : List Byte := (upFrom (256 * n) 256).flatMap (mapBytes k s)
/-- The header codeword of a CHECKPOINT: its entry, whose CRC covers the CRCs of the map codewords too (R395). -/
def checkpointHeader (k : Core) (s : Nat) (e : JEnt) : List Byte :=
  let crcs := (upFrom 0 256).flatMap (fun n => leBytes 4 (crc32c (mapCodeword k s n)))
  let b := (e.bytes s).take 60
  padTo 2048 (b ++ leBytes 4 (crc32c (b ++ crcs)) ++ crcs)

/-! ## Spares, retirement and wear (R382, R390, R391) -/

/-- A physical unit leaves use. -/
def retireUnit (k : Core) (s u : Nat) : Core :=
  let k1 := journal k s { typ := jRetire, seq := 0, punit := u }
  bump (modFls k1 s (fun f => f.setPunit u (fun p => { p with kind := 2, lunit := 0xFFFF, pend := false }))) (oFls s + 0x40) 1
/-- Take the best spare: it is checked at the strict erase margin, erased once more where it is not blank, and retired where it then
fails again (what the checks find is a free value, assumption 1). -/
def takeSpare (k : Core) (s : Nat) : Nat → Option Nat × Core
  | 0 => (none, k)
  | fuel + 1 =>
    match (fls k s).bestSpare with
    | none => (none, k)
    | some v =>
      let (blank, k1) := drawBool k
      if blank then (some v, k1)
      else
        let (again, k2) := drawBool k1
        let k3 := modFls k2 s (fun f => f.setPunit v (fun p => { p with ecount := p.ecount + 1 }))
        if again then (some v, k3) else takeSpare (retireUnit k3 s v) s fuel
/-- Map a logical unit to a spare. -/
def mapUnit (k : Core) (s l v : Nat) : Core :=
  modFls (journal k s { typ := jMap, seq := 0, lunit := l, punit := v }) s (fun f =>
    let g := f.setPunit v (fun p => { p with kind := 0, lunit := l, loops := 0, pend := false })
    { g with lmap := mput g.lmap l v })
/-- Replace the unit under logical unit l by a spare; without a spare it stays in use. The answer tells whether it was replaced. -/
def replaceUnit (k : Core) (s l : Nat) : Bool × Core :=
  let u := (fls k s).phys l
  match takeSpare k s ((fls k s).spares + 1) with
  | (none, k1) => (false, k1)
  | (some v, k1) => (true, mapUnit (retireUnit k1 s u) s l v)

/-! ## Ends of erases and stores (R401, R404, R520) -/

/-- Stacks an operation still touches. -/
def FlOp.stacks (o : FlOp) : List Nat := if o.erase then [o.stack] else ((o.pages.map (·.stack)) ++ o.opened.map (·.stack)).dedup
/-- The controller has nothing left to write. -/
def flsIdle (k : Core) (s : Nat) : Bool :=
  (fls k s).erasing.isEmpty && (fls k s).toErase.isEmpty && k.flOps.all (fun o => !o.stacks.contains s)
/-- The flash-write activity of a stack ends with its last write. -/
def flsRest (k : Core) (s : Nat) : Core := if flsIdle k s then hwEnd k 6 s else k
/-- The page program under way at a stack: the next page there of its earliest store (R392). -/
def currentPage (k : Core) (s : Nat) : Option (FlOp × StPage) :=
  (k.flOps.find? (fun o => !o.erase && o.pages.any (fun p => p.stack == s))).bind (fun o =>
    (o.pages.find? (fun p => p.stack == s)).map (fun p => (o, p)))
/-- A page program ends: its suspensions start again from none (R387). -/
def programEnds (k : Core) (s : Nat) : Core :=
  modFls k s (fun f => { f with progSusp := 0, suspended := f.suspended.erase 65536 })
/-- Close the units a store has opened: PROG-CLOSE with the frontier. -/
def closeUnits (k : Core) (l : List OpenUnit) : Core :=
  l.foldl (fun k e => journal k e.stack
    { typ := jProgClose, seq := 0, lunit := e.unit, punit := (fls k e.stack).phys e.unit, page := ((fls k e.stack).lun e.unit).frontier
      loops := e.loops, mfail := e.mfail }) k
/-- The reader of a store's source. -/
def flReader (o : FlOp) : Reader := { ctl := some (o.ins.src, o.ins.ord) }
/-- An operation ends: what it held is given back and its instruction retires. -/
def endFlOp (k : Core) (o : FlOp) (reason arg : Nat) (payload : List Byte) : Core :=
  let k0 := (o.stacks.filter (fun s => (currentPage k s).map Prod.fst == some o)).foldl programEnds k
  let k1 := { k0 with flOps := k0.flOps.erase o }
  let k2 :=
    if o.erase then modFls k1 o.stack (fun f => { f with toErase := f.toErase.filter (fun l => !o.units.contains l) })
    else
      let k3 := dropPin (dropRef (closeUnits k1 o.opened) o.dest) o.src
      dropGot (match o.base with | some b => dropPin k3 b | none => k3) (flReader o)
  let k4 := o.stacks.foldl flsRest k2
  match k4.flts.find? (fun f => decide (f.ins = o.ins)) with
  | some f => retireFlt k4 f reason arg payload
  | none => k4
/-- The stack becomes worn: every erase and store under way there ends (R391). -/
def becomeWorn (k : Core) (s : Nat) : Core :=
  let k1 := if (fls k s).worn then k else
    errRecord (modFls k s (fun f => { f with worn := true })) { reason := rFlashWorn, cls := 3, source := 3, inst := s, arg := s }
  (k1.flOps.filter (fun o => o.stacks.contains s)).foldl (fun k o => endFlOp k o rFlashWorn s []) k1

/-! ## Erases (R382, R389, R390, R392, R394, R401) -/

/-- A logical unit of a stack is BLANK for the erase that asked for it, whose retired units rise by n. -/
def unitErased (k : Core) (s l n : Nat) : Core :=
  { k with flOps := k.flOps.map (fun o =>
      if o.erase && o.stack == s && o.units.contains l then { o with units := o.units.erase l, retired := o.retired + n } else o) }
/-- Erases with nothing left to do retire. -/
def finishErases (k : Core) : Core :=
  (k.flOps.filter (fun o => o.erase && o.units.isEmpty)).foldl (fun k o => endFlOp k o 0 0 (leBytes 4 o.retired)) k
/-- Begin to erase a physical unit for a logical one. -/
def eraseUnit (k : Core) (s l u : Nat) : Core :=
  modFls (journal k s { typ := jEraseBegin, seq := 0, lunit := l, punit := u }) s (fun f =>
    { f with erasing := f.erasing ++ [{ lunit := l, punit := u }] })
/-- A unit marked RETIRE_PENDING is retired in place of being erased; a much less worn spare takes the place of the others. -/
def beginErase (k : Core) (s l : Nat) : Core :=
  let f := fls k s
  let u := f.phys l
  if (f.punit u).pend then
    match replaceUnit k s l with
    | (true, k1) => finishErases (unitErased (wipeUnit (modFls k1 s (fun f => f.setLun l (fun _ => {}))) s l) s l 1)
    | (false, k1) => becomeWorn k1 s
  else
    match f.bestSpare with
    | some v =>
      if (f.punit v).ecount + 64 ≤ (f.punit u).ecount then
        match takeSpare k s (f.spares + 1) with
        | (some w, k1) =>
          let k2 := wipeUnit (modFls (mapUnit k1 s l w) s (fun f =>
            (f.setPunit u (fun p => { p with kind := 1, lunit := 0xFFFF })).setLun l (fun _ => {}))) s l
          eraseUnit k2 s l u
        | (none, k1) => eraseUnit k1 s l u
      else eraseUnit k s l u
    | none => eraseUnit k s l u
/-- Erases begin while fewer than two are under way and nothing holds the stack's writes. -/
def startErases (k : Core) (s : Nat) : Nat → Core
  | 0 => k
  | fuel + 1 =>
    match (fls k s).toErase with
    | [] => k
    | l :: r =>
      if (fls k s).erasing.length < 2 ∧ hwMay k 6 s = true then
        startErases (beginErase (modFls k s (fun f => { f with toErase := r })) s l) s fuel
      else k
/-- Every stack's waiting erases go on. -/
def kickErases (k : Core) : Core := [0, 1, 2, 3].foldl (fun k s => startErases k s (fls k s).toErase.length) k

/-- FLASH_ERASE_DONE: the erase of a physical unit ends after its pulses, or fails after 8 of them (R389, R390). -/
def flashEraseDone (k : Core) (s u pulses mfail : Nat) : Core :=
  let f := fls k s
  match f.erasing.find? (fun e => e.punit == u) with
  | none => k
  | some e =>
    if f.suspended.contains u then k
    else
      let mapped := f.phys e.lunit == u
      let k1 := modFls k s (fun f => { f with erasing := f.erasing.erase e })
      let k2 :=
        if pulses ≤ 8 then
          let n := (f.punit u).ecount + 1
          let k3 := journal k1 s { typ := jEraseEnd, seq := 0, lunit := e.lunit, punit := u, loops := pulses, mfail := mfail, ecount := n }
          let k4 := modFls k3 s (fun f => f.setPunit u (fun p => { p with ecount := n, loops := 0, mfail := 0, pend := false }))
          let k5 := if mapped then wipeUnit (modFls k4 s (fun f => f.setLun e.lunit (fun _ => {}))) s e.lunit else k4
          finishErases (unitErased k5 s e.lunit 0)
        else if mapped then
          match replaceUnit k1 s e.lunit with
          | (true, k3) => finishErases (unitErased (wipeUnit (modFls k3 s (fun f => f.setLun e.lunit (fun _ => {}))) s e.lunit) s e.lunit 1)
          | (false, k3) => becomeWorn k3 s
        else finishErases (unitErased (retireUnit k1 s u) s e.lunit 1)
      flsRest (startErases k2 s (fls k2 s).toErase.length) s

/-! ## The Pack Encoder (R341, R342, R346) -/

/-- Put a block's ID and CRC around its head of 8 bytes and its body. -/
def sealBlock (pack n : Nat) (head body : List Byte) : List Byte :=
  let a := head ++ leBytes 4 (n + pack * 2 ^ 28)
  a ++ leBytes 4 (crc32c (a ++ body)) ++ body
/-- The exponent table T[1] to T[7] of a block's weights (R341). -/
def expTable (ws : List Nat) : List Nat :=
  let xs := (upFrom 1 255).filter (fun e => ws.any (fun w => w / 128 % 256 == e))
  let d := xs.length
  if d = 0 then List.replicate 7 1
  else if d < 7 then List.replicate (7 - d) (xs.headD 1) ++ xs
  else xs.drop (d - 7)
/-- Index and sign-and-mantissa byte of one weight (R342). -/
def codeWeight (t : List Nat) (w : Nat) : Nat × Nat :=
  let e := w / 128 % 256
  let s := w / 2 ^ 15 % 2 * 128
  match (if e = 0 then none else (upFrom 0 7).find? (fun j => t.getD j 0 == e)) with
  | some j => (j + 1, s + w % 128)
  | none =>
    let m := roundAt (if e = 0 then w % 128 else 128 + w % 128) ((if e = 0 then -133 else (e : Int) - 134)) ((t.headD 1 : Int) - 134)
    if m < 128 then (0, s + m) else (1, s)
/-- A weight-pack block. -/
def encodeWeights (n : Nat) (ws : List Nat) : List Byte :=
  let t := expTable ws
  let cs := ws.map (codeWeight t)
  let ix := (cs.zipIdx.map (fun c => c.1.1 * 8 ^ c.2)).sum
  sealBlock 1 n (((t.headD 1 - 1) :: t).map (BitVec.ofNat 8)) (cs.map (fun c => BitVec.ofNat 8 c.2) ++ leBytes 192 ix)
/-- ⌈m × 2^e / 448⌉ at quantum 2^q. -/
def ceilDiv448 (m : Nat) (e q : Int) : Nat := if q ≤ e then cdiv (m * 2 ^ (e - q).toNat) 448 else cdiv m (448 * 2 ^ (q - e).toNat)
/-- SCALE as significand and exponent: the smallest BF16 value that is at least M / 448 and 2^−126. -/
def deltaScale (m : Nat) (e : Int) : Nat × Int :=
  let lo := max ((Nat.log2 m : Int) + e - 17) (-133)
  let q := ((upFrom 0 4).map (fun (j : Nat) => lo + (j : Int))).find? (fun q => decide (ceilDiv448 m e q ≤ 255))
  let q' := match q with | some x => x | none => lo
  (max 128 (ceilDiv448 m e q'), q')
/-- The magnitude of E4M3 code c in units of 2^−9. -/
def e4m3Mag (c : Nat) : Nat := if c / 8 = 0 then c else (8 + c % 8) * 2 ^ (c / 8 - 1)
/-- The E4M3 code of a difference over SCALE, rounded once to nearest, ties away (R189, R346). -/
def codeDelta (scale : Option (Nat × Int)) (d : Num) : Nat :=
  match d, scale with
  | .fin _ _ _, none => 0
  | .fin neg m e, some (x, q) =>
    b2n neg * 128 + ((upFrom 0 126).filter (fun c => !magGt ((e4m3Mag c + e4m3Mag (c + 1)) * x) (q - 10) m e)).length
  | _, _ => 0x7F
/-- The difference of a target and a base weight; one that is no number marks it (R346). -/
def deltaDiff (t b : Nat) : Num :=
  match Fmt.bf16.decode t, Fmt.bf16.decode b with
  | .fin a m e, .fin c n f => (addExact (.fin a m e) (.fin (!c) n f) {}).1
  | _, _ => .nan
/-- A delta-pack block of target weights over base weights. -/
def encodeDeltas (n : Nat) (ts bs : List Nat) : List Byte :=
  let ds := ts.zipWith deltaDiff bs
  let mx := ds.foldl (fun (a : Nat × Int) d => match d with | .fin _ m e => if magGt m e a.1 a.2 then (m, e) else a | _ => a) (0, 0)
  let scale := if mx.1 = 0 then none else some (deltaScale mx.1 mx.2)
  let code := match scale with | none => 0 | some (x, q) => Fmt.bf16.encode (.fin false x q)
  sealBlock 2 n (leBytes 2 code ++ leBytes 6 0) (ds.map (fun d => BitVec.ofNat 8 (codeDelta scale d)))

/-! ## Stores (R383, R388 to R394, R402 to R404) -/

/-- Stored lines of the extent a store writes. -/
def storeLines (o : Obj) : Nat := cdiv o.stored 64
/-- The destination is coded by the Pack Encoder. -/
def FlOp.codes (k : Core) (o : FlOp) : Bool := !o.raw && decide ((obj k o.dest).pack ≠ 0)
/-- Pages of an extent, in ascending order. -/
def storePages (k : Core) (o : Obj) : List StPage :=
  let a := o.haddr / 256
  (upFrom a ((o.haddr + storeLines o - 1) / 256 - a + 1)).map (fun p =>
    let (s, l, q, _) := flsLoc k o.dom (256 * p)
    { stack := s, unit := l, page := q, dpage := p })

/-- The bytes of stored lines a to b − 1 of a store's extent, or why they cannot be had. -/
inductive StoreData where
  | ok (k : Core) (b : List Byte)
  | wait (k : Core)
  | lost (h : Nat)
  | bad (line : Nat)
  deriving DecidableEq, Repr
/-- A read for a store: its bytes, or the first poisoned line. -/
def storeRead (k : Core) (o : FlOp) (h l n : Nat) : StoreData :=
  match readObj k (flReader o) (obj k o.dest).dom h l n with
  | .wait k1 => .wait k1
  | .lost g => .lost g
  | .lines k1 vs =>
    match vs.zipIdx.find? (fun v => v.1.2) with
    | some v => .bad (l + v.2)
    | none => .ok k1 (bytesOfLines (vs.map Prod.fst))
/-- BF16 weights of bytes. -/
def bf16s (b : List Byte) : List Nat := (pieces 2 (b.length / 2) b).map ofLE
/-- Code one block of the destination. -/
def storeBlock (k : Core) (o : FlOp) (n : Nat) : StoreData :=
  match storeRead k o o.src (o.off + 16 * n) 16 with
  | .ok k1 b =>
    match o.base with
    | none => .ok k1 (encodeWeights n (bf16s b))
    | some g =>
      match storeRead k1 o g (16 * n) 16 with
      | .ok k2 c => .ok k2 (encodeDeltas n (bf16s b) (bf16s c))
      | r => r
  | r => r
/-- Code a run of blocks. -/
def storeBlocks (k : Core) (o : FlOp) (n : Nat) : Nat → StoreData
  | 0 => .ok k []
  | m + 1 =>
    match storeBlock k o n with
    | .ok k1 b => match storeBlocks k1 o (n + 1) m with | .ok k2 c => .ok k2 (b ++ c) | r => r
    | r => r
/-- The 16 KiB of a page: the bytes of the extent that lie in it, and zeros (R402). -/
def pageBytes (k : Core) (o : FlOp) (p : StPage) : StoreData :=
  let d := obj k o.dest
  let lo := max d.haddr (256 * p.dpage) - d.haddr
  let hi := min (d.haddr + storeLines d) (256 * p.dpage + 256) - d.haddr
  let pad := leBytes (64 * (d.haddr + lo - 256 * p.dpage)) 0
  let fill := fun (b : List Byte) => ((pad ++ b) ++ List.replicate 16384 0).take 16384
  if FlOp.codes k o then
    let bs := blockSize d
    let a := 64 * lo / bs
    let e := min (d.len / 16) (cdiv (64 * hi) bs)
    match storeBlocks k o a (e - a) with
    | .ok k1 b => .ok k1 (fill ((b.drop (64 * lo - a * bs)).take (64 * (hi - lo))))
    | r => r
  else
    match storeRead k o o.src (o.off + lo) (hi - lo) with
    | .ok k1 b => .ok k1 (fill b)
    | r => r

/-- Ask for the source lines of the page to be programmed next at a stack. -/
def kickStore (k : Core) (s : Nat) : Core :=
  match currentPage k s with
  | some (o, p) => (match pageBytes k o p with | .wait k1 => k1 | _ => k)
  | none => k
/-- Replace one operation. -/
def setFlOp (k : Core) (o o' : FlOp) : Core := { k with flOps := k.flOps.map (fun x => if x = o then o' else x) }
/-- Payload of OBJ.FL_STORE. -/
def storePayload (k : Core) (o : FlOp) : List Byte :=
  leBytes 4 o.programmed ++ leBytes 4 (if FlOp.codes k o then (obj k o.dest).len / 16 else 0) ++ leBytes 1 o.loops
/-- A page is verified: its data stay, the frontier moves past it, and the store ends with its last page. -/
def pageVerified (k : Core) (s : Nat) (o : FlOp) (p : StPage) (loops mfail : Nat) (b : List Byte) : Core :=
  let n := flsLine s p.unit p.page 0
  let f := fls k s
  let u := f.phys p.unit
  let lim := rfld k oRetireLoops 7 0
  let k1 := modFls { k with flash := (k.flash.putBytes 0xFF (64 * n) b).setBads false (8 * n) 2048 } s (fun f =>
    let g := f.setPunit u (fun q => { q with loops := max q.loops loops, mfail := q.mfail + mfail, pend := q.pend || decide (lim < loops) })
    g.setLun p.unit (fun q => { q with
      frontier := p.page + 1, gaps := if q.frontier < p.page then q.gaps ++ [(q.frontier, p.page)] else q.gaps }))
  let ps := o.pages.erase p
  let mine := fun (e : OpenUnit) => e.stack == s && e.unit == p.unit
  let es := o.opened.map (fun e => if mine e then { e with loops := max e.loops loops, mfail := e.mfail + mfail } else e)
  let o' := { o with
    pages := ps, programmed := o.programmed + 1, loops := max o.loops loops,
    opened := if ps.any (fun q => q.stack == s && q.unit == p.unit) then es else es.filter (fun e => !mine e) }
  let k0 := programEnds k1 s
  let k2 := setFlOp (if o'.opened.any mine then k0 else closeUnits k0 (es.filter mine)) o o'
  if ps.isEmpty then endFlOp k2 o' 0 0 (storePayload k2 o') else kickStore (flsRest k2 s) s
/-- Announce a unit's first page (R394). -/
def openUnit (k : Core) (o : FlOp) (p : StPage) : FlOp × Core :=
  if o.opened.any (fun e => e.stack == p.stack && e.unit == p.unit) then (o, k)
  else
    let o' := { o with opened := o.opened ++ [{ stack := p.stack, unit := p.unit }] }
    (o', setFlOp (journal k p.stack { typ := jProgOpen, seq := 0, lunit := p.unit, punit := (fls k p.stack).phys p.unit, page := p.page }) o o')
/-- FLASH_PAGE_PROGRAMMED: the page program under way ends after its loops. A page that fails after 24 of them is programmed into a
spare, after how many loops being a free value (R389, R390, assumption 1). -/
def flashPageProgrammed (k : Core) (s loops mfail : Nat) : Core :=
  match currentPage k s with
  | none => k
  | some (o, p) =>
    if hwMay k 6 s = false ∨ (fls k s).suspended.contains 65536 = true then k
    else
      let d := obj k o.dest
      match pageBytes k o p with
      | .wait k1 => k1
      | .lost h => endFlOp k o rWeightUnavail h []
      | .bad l => endFlOp k o rUncorrectable l []
      | .ok k1 b =>
        let (o1, k2) := openUnit k1 o p
        if d.len = 0 then k2
        else if loops ≤ 24 then pageVerified k2 s o1 p loops mfail b
        else
          match replaceUnit k2 s p.unit with
          | (true, k3) => let (n, k4) := drawNat k3; pageVerified k4 s o1 p (n % 24 + 1) mfail b
          | (false, k3) => becomeWorn k3 s

/-- Stores whose source or base is LOST end (R404). -/
def sweepStores (k : Core) : Core :=
  (k.flOps.filter (fun o => !o.erase)).foldl (fun k o =>
    if (obj k o.src).lost then endFlOp k o rWeightUnavail o.src []
    else match o.base with
      | some b => if (obj k b).lost then endFlOp k o rWeightUnavail b [] else k
      | none => k) k

/-! ## The OBJ instructions of the flash (R400, R401, R403) -/

/-- Check 4 on a flash stack (R401). -/
def cStack (i : Ctl) (k : Core) (pos s : Nat) : Chk :=
  ⟨4, pos, decide (i.src ≠ Src.conductor) && (match srcPart k i.src with | some p => decide (p ≠ s) | none => isPart k s), rDeniedPart, if isPart k s then s else 4⟩
/-- The erase or store that is changing unit l of stack s. -/
def changing (k : Core) (s l : Nat) : Option Flt :=
  match k.flOps.find? (fun o => if o.erase then o.stack == s && o.units.contains l else
      o.pages.any (fun p => p.stack == s && p.unit == l) || o.opened.any (fun e => e.stack == s && e.unit == l)) with
  | some o => k.flts.find? (fun f => decide (f.ins = o.ins))
  | none => none
/-- Allocated objects whose home touches a unit. -/
def touching (k : Core) (s l : Nat) : Nat :=
  (k.objs.filter (fun e => e.2.alloc && e.2.home == 1 && (storePages k e.2).any (fun p => p.stack == s && p.unit == l))).length
/-- First unit and stack of A. -/
def Ctl.flUnit (i : Ctl) : Nat := i.fa 15 0
def Ctl.flStack (i : Ctl) : Nat := i.fa 17 16

def objFlEraseSpec : CtlSpec where
  cls := 4
  op := 0x10
  mainRes := resA 31 18 ++ resB 31 16 ++ noC
  checks i k :=
    let s := i.flStack
    let n := i.fb 15 0
    let ls := upFrom i.flUnit n
    [cStack i k 80 s, cResetting k 80 (if isPart k s then some s else none), cOnes 32 16 n, cZero 32 n,
     cRange 64 (decide (57344 < i.flUnit + n)), cBusy 64 ((ls.filterMap (changing k s)).head?),
     match ls.find? (fun l => decide (touching k s l ≠ 0)) with
     | some l => cRes 64 true rObjBusy l
     | none => cRes 64 false rObjBusy 0,
     cRes 80 (fls k s).worn rFlashWorn s]
  run i k :=
    let s := i.flStack
    let ls := upFrom i.flUnit (i.fb 15 0)
    let k1 := hwBegin { k with flts := k.flts ++ [{ ins := i }], flOps := k.flOps ++ [{ ins := i, erase := true, stack := s, units := ls }] } 6 s
    .later (startErases (modFls k1 s (fun f => { f with toErase := f.toErase ++ ls })) s ls.length)

/-- Payload of OBJ.FL_QUERY. -/
def flQueryPayload (k : Core) (s l : Nat) : List Byte :=
  let f := fls k s
  let u := f.phys l
  leBytes 1 (unitCode k s l) ++ leBytes 1 (b2n (f.punit u).pend + 2 * b2n (f.lun l).again + 4 * b2n f.worn) ++
  leBytes 2 (f.lun l).frontier ++ leBytes 2 u ++ leBytes 2 (min 0xFFFF (touching k s l)) ++ leBytes 4 (f.punit u).ecount ++
  leBytes 1 (f.punit u).loops
def objFlQuerySpec : CtlSpec where
  cls := 4
  op := 0x11
  mainRes := resA 31 18 ++ noB ++ noC
  checks i k := [cStack i k 80 i.flStack, cResetting k 80 (if isPart k i.flStack then some i.flStack else none),
    cRange 64 (decide (57344 ≤ i.flUnit))]
  run i k := .done k (flQueryPayload k i.flStack i.flUnit)

/-- The source lines a store reads. -/
def storeNeed (d : Obj) (raw : Bool) : Nat := if raw || d.pack = 0 then storeLines d else d.len
def objFlStoreSpec : CtlSpec where
  cls := 4
  op := 0x12
  mainRes := resA 31 25 ++ resB 31 24
  checks i k :=
    let h := i.fa 23 0
    let g := i.fb 23 0
    let d := obj k h
    let s := obj k g
    let ps := if d.alloc && d.home == 1 then storePages k d else []
    let us := (ps.map (fun p => (p.stack, p.unit))).dedup
    cHandle i k 64 h ++ cHandle i k 32 g ++
    [cRange 64 (d.alloc && decide (d.home ≠ 1)), cRange 32 (s.alloc && decide (s.pack ≠ 0)),
     cRange 0 (s.alloc && d.alloc && decide (s.len < i.c.toNat + storeNeed d (i.fa 24 24 == 1))),
     cBusy 64 ((us.filterMap (fun u => changing k u.1 u.2)).head?),
     cState 64 (!d.alloc || d.st != .absent || decide (d.refs ≠ 0)) d.arg,
     cState 32 (!s.alloc || s.lost) s.arg,
     match ps.find? (fun p => decide (p.page < ((fls k p.stack).lun p.unit).frontier) || unitCode k p.stack p.unit == 4) with
     | some p => cState 64 true (unitArg k p.stack p.unit)
     | none => cState 64 false 0,
     match ps.find? (fun p => (fls k p.stack).worn) with
     | some p => cRes 64 true rFlashWorn p.stack
     | none => cRes 64 false rFlashWorn 0]
  run i k :=
    let h := i.fa 23 0
    let d := obj k h
    let base := if d.pack = 2 then some d.base else none
    let ps := storePages k d
    let o : FlOp :=
      { ins := i, erase := false, dest := h, src := i.fb 23 0, off := i.c.toNat, raw := i.fa 24 24 == 1, pages := ps
        base := if i.fa 24 24 = 1 then none else base }
    let k1 := pinObj (addRef { k with flts := k.flts ++ [{ ins := i }], flOps := k.flOps ++ [o] } h) o.src
    let k2 := match o.base with | some b => pinObj k1 b | none => k1
    let ss := (ps.map (·.stack)).dedup
    .later (ss.foldl kickStore (ss.foldl (fun k s => hwBegin k 6 s) k2))

/-! ## Reads (R385 to R387, R523) -/

/-- Domain flash line of a codeword's first line. -/
def cwLine (k : Core) (s l page cw : Nat) : Nat :=
  let d := if isPart k s then s else 4
  let ss := domFlash k d
  (((l * 2048 + page) * ss.length + ss.idxOf s) * 256) + 32 * cw
/-- Set or clear the poison of a codeword's lines. -/
def markCw (k : Core) (s l page cw : Nat) (p : Bool) : Core :=
  { k with flash := k.flash.setBads p (8 * (flsLine s l page (32 * cw))) 256 }
/-- A program or an erase that a read finds at its die is suspended; whether it meets one there is a free value (R387, assumption 1). -/
def suspendOp (k : Core) (s : Nat) : Core :=
  let f := fls k s
  let ops : List (Nat × Nat) := ((if (currentPage k s).isSome then [(65536, f.progSusp)] else []) ++
    f.erasing.map (fun (e : Erase) => (e.punit, e.susp))).filter (fun e => !f.suspended.contains e.1)
  if ops.isEmpty then k
  else
    let (n, k1) := drawNat k
    match ops[n % (ops.length + 1)]? with
    | none => k1
    | some (o, c) =>
      if 64 ≤ c then k1
      else bump (modFls k1 s (fun f => { f with
        suspended := f.suspended ++ [o], progSusp := if o = 65536 then f.progSusp + 1 else f.progSusp,
        erasing := f.erasing.map (fun e => if e.punit = o then { e with susp := e.susp + 1 } else e) })) (oFls s + 0x48) 1
/-- Read levels of the first reading (0) and of retries 1 to 3: those of the calibration row or the built-in trims, lowered by ΔR, raised by
ΔR and lowered by 2ΔR (R386, R397). -/
def Fls.readLevels (f : Fls) (n : Nat) : List Int :=
  let base := if f.calDefault then (upFrom 0 7).map Config.trim else f.cal.levels
  let d : Int := if f.calDefault then Config.trim 7 else f.cal.deltaR
  base.map (fun v => (v : Int) + (if n = 1 then -d else if n = 2 then d else if n = 3 then -(2 * d) else 0))
/-- A codeword is read: the wait for one of 1,024 slots is a free number (R18, R387, assumption 34), and an operation may be suspended. -/
def flsFetch (k : Core) (s n : Nat) : Core :=
  let (c, k1) := drawNat k
  suspendOp (modFls (bump k1 (oFls s + 0x18) c) s (fun f => { f with levels := f.readLevels n })) s
/-- FLASH_OP_RESUME: the operation suspended earliest goes on. -/
def flashOpResume (k : Core) (s : Nat) : Core := modFls k s (fun f => { f with suspended := f.suspended.drop 1 })
/-- The operands name a page of the user space. -/
def userCw (l page cw : Nat) : Bool := decide (l < 57344) && decide (page < 2048) && decide (cw < 8)
/-- FLASH_READ: a codeword is fetched and decoded; the code corrects up to 120 bit errors, and one of a page not programmed reads as 0xFF
bytes without error (R380, R385). -/
def flashRead (k : Core) (s l page cw errs : Nat) : Core :=
  if !userCw l page cw then k
  else
    let k1 := flsFetch k s 0
    if errs ≤ 120 ∨ (fls k s).programmed l page = false then markCw k1 s l page cw false else k1
/-- Retries from the first in order: their number, and whether the last of them decoded. -/
def retryOf (errs : List Nat) : Nat × Bool :=
  match (errs.take 3).findIdx? (fun e => decide (e ≤ 120)) with | some n => (n + 1, true) | none => (min 3 errs.length, false)
/-- A retry decodes, or the third fails: FLS_RETRY or FLS_RDFAIL counts (R386). -/
def countRetry (k : Core) (s n : Nat) : Core := bump k (if n ≤ 3 then oFls s + 0x20 + 8 * (n - 1) else oFls s + 0x38) 1
/-- Allocated objects whose FLASH home covers a flash line. -/
def homesAt (k : Core) (s f : Nat) : List Nat :=
  let d := if isPart k s then s else 4
  (k.objs.filter (fun e => e.2.alloc && e.2.home == 1 && e.2.dom == d &&
    decide (e.2.haddr < f + 32 ∧ f < e.2.haddr + storeLines e.2))).map Prod.fst
/-- The record of a codeword that failed every retry. -/
def cwRecord (k : Core) (s f : Nat) : Core :=
  let h := (homesAt k s f).head?
  let o := match h with | some h => obj k h | none => {}
  errRecord (countRetry k s 4)
    { reason := rUncorrectable, cls := 2, source := 3, inst := s, dom := if h.isSome then o.dom else 255, ctx := o.ctx, obj := h, addr := f }
/-- FLASH_READ_RETRY: the retries in order, up to the first that decodes; where all three fail the codeword's lines are poisoned, and
objects read in place there take their next source (R327, R328, R386). -/
def flashReadRetry (k : Core) (s l page cw : Nat) (errs : List Nat) : Core :=
  if !userCw l page cw || !(fls k s).programmed l page || errs.isEmpty then k
  else
    let r := retryOf errs
    let k0 := flsFetch k s r.1
    if r.2 then markCw (countRetry k0 s r.1) s l page cw false
    else if r.1 < 3 then k0
    else
      let f := cwLine k s l page cw
      let k1 := cwRecord (markCw k0 s l page cw true) s f
      (homesAt k1 s f).foldl (fun k h =>
        let o := obj k h
        if o.st != .absent || !o.direct || o.lost then k
        else if (sources k o).any (fun x => decide (1 < x)) then promote k h else markLost k h) k1

/-- The next page below a frontier at or after (unit, page) (R523). -/
def nextScrub (f : Fls) (l p : Nat) : Option (Nat × Nat) :=
  (f.lunits.find? (fun e => (e.1 == l && decide (p < e.2.frontier)) || (decide (l < e.1) && decide (e.2.frontier ≠ 0)))).map
    (fun e => (e.1, if e.1 = l then p else 0))
/-- FLASH_SCRUB_PAGE: the scrub reads its next page. retries gives, for each codeword in turn, 0 where it decodes at once, 1 to 3 for
the retry that decodes it, and more where every retry fails. -/
def flashScrubPage (k : Core) (s : Nat) (retries : List Nat) : Core :=
  match slotOfAct k 3 s with
  | none => k
  | some (n, a) =>
    if a.st ≠ 2 then k
    else match nextScrub (fls k s) (fls k s).scrubUnit (fls k s).scrubPage with
      | none => passEnds (modFls k s (fun f => { f with scrubUnit := 0, scrubPage := 0 })) n a
      | some (l, p) =>
        let rs := (if (fls k s).programmed l p then retries.take 8 else []).zipIdx
        let k1 := rs.foldl (fun k r =>
          if r.1 = 0 then k else if r.1 ≤ 3 then countRetry k s r.1 else cwRecord k s (cwLine k s l p r.2))
          (flsFetch k s (min 3 (rs.foldl (fun m r => max m r.1) 0)))
        let k2 := modAct k1 n (fun a => { a with
          done := a.done + 1, good := a.good + (rs.filter (fun r => decide (1 ≤ r.1 ∧ r.1 ≤ 3))).length,
          bad := a.bad + (rs.filter (fun r => decide (3 < r.1))).length })
        match nextScrub (fls k2 s) l (p + 1) with
        | some (l', p') => modFls k2 s (fun f => { f with scrubUnit := l', scrubPage := p' })
        | none => passEnds (modFls k2 s (fun f => { f with scrubUnit := 0, scrubPage := 0 })) n a

/-! ## The scan at start-up (R396) -/

/-- Erase a physical unit again at start-up; whether it passes is a free value (assumption 1). -/
def reErase (k : Core) (s l u : Nat) : Core :=
  let (ok, k1) := drawBool (journal k s { typ := jEraseBegin, seq := 0, lunit := l, punit := u })
  let n := ((fls k1 s).punit u).ecount + 1
  let mapped := (fls k1 s).phys l == u
  let k2 :=
    if ok then modFls (journal k1 s { typ := jEraseEnd, seq := 0, lunit := l, punit := u, ecount := n }) s
      (fun f => f.setPunit u (fun p => { p with ecount := n, loops := 0, mfail := 0, pend := false }))
    else if mapped then (match replaceUnit k1 s l with | (true, k3) => k3 | (false, k3) => becomeWorn k3 s)
    else retireUnit k1 s u
  let k4 := modFls k2 s (fun f => { f with suspect := f.suspect + 1 })
  if mapped then wipeUnit (modFls k4 s (fun f => f.setLun l (fun _ => { frontier := 0, again := true }))) s l else k4
/-- ERASE_JOURNAL_SCAN of one stack: interrupted erases are made again, and units left open are closed at their frontier or, where the
frontier is suspect, erased again (whether it is, is a free value, assumption 1). -/
def journalScan (k : Core) (s : Nat) : Core :=
  let k1 := modFls k s (fun f => { f with
    calDefault := !f.calOk.contains true, suspect := 0, erasing := [], toErase := [], progSusp := 0, suspended := [], lunits := mmap (fun _ u => { u with again := false }) f.lunits })
  let open_ := openEntries (fls k1 s).journal
  let k2 := (open_.filter (fun e => e.typ == jEraseBegin)).foldl (fun k e => reErase k s e.lunit e.punit) k1
  let ls := ((open_.filter (fun e => e.typ == jProgOpen)).map (·.lunit)).dedup
  (ls.filter (fun l => !(((fls k2 s).lun l).again))).foldl (fun k l =>
    let (bad, k3) := drawBool k
    if bad then reErase k3 s l ((fls k3 s).phys l)
    else journal k3 s { typ := jProgClose, seq := 0, lunit := l, punit := (fls k3 s).phys l, page := ((fls k3 s).lun l).frontier }) k2

/-! ## The code region (R398, R399, R476) -/

/-- An activation record: the count and its CRC-32C (R476). -/
def activation (count : Nat) : List Byte := leBytes 4 count ++ leBytes 4 (crc32c (leBytes 4 count))
/-- n bytes of the code region from a byte address: the slots' headers, images and activation
records, blank flash, then the two copies of the boot record. -/
def codeBytes (k : Core) (a n : Nat) : List Byte :=
  (upFrom a n).map (fun x =>
    if 30 ≤ x / 2 ^ 25 then Config.bootByte k.lifeMarker (x % 2 ^ 25) else
    let slot := if x / 2 ^ 25 < 15 then k.slotA else k.slotB
    let o := if x / 2 ^ 25 < 15 then x else x - 15 * 2 ^ 25
    if o < 16384 then slot.header.getD o 0xFF
    else if 15 * 2 ^ 25 - 16384 ≤ o then (if slot.count = 0 then [] else activation slot.count).getD (o - (15 * 2 ^ 25 - 16384)) 0xFF
    else slot.image.getD (o - 16384) 0xFF)
/-- CODE_REGION_FETCH: a fetch of the Conductor. A miss reads the line and those after it into the buffer, at once or at a retry (1 to 3),
and fails the device where every retry of a codeword fails; the target of a taken branch is kept, the entry it replaces being a free value (assumption 1). -/
def codeRegionFetch (k0 : Core) (a : Nat) (taken : Bool) (retries : Nat) : Core :=
  if !k0.glb.startup.bootDone || k0.glb.st == .off || decide (2 ^ 30 ≤ a) then k0
  else
    let l := a / 512
    let hit := k0.code.buffer.any (fun e => e.1 == l)
    let k := if hit then k0 else
      let k1 := flsFetch k0 0 (min 3 retries)
      if retries = 0 then k1 else countRetry k1 0 retries
    if !hit && decide (3 < retries) then failStop k rUncorrectable 3 0 (32768 + a / 16384)
    else
      let k1 := if hit then k else
        { k with code := { k.code with buffer := (upFrom l 8).map (fun n => (n, codeBytes k (512 * n) 512)) } }
      if !taken || k1.code.targets.any (fun e => e.1 == a) then k1
      else
        let ent := (a, codeBytes k1 a 64)
        if k1.code.targets.length < 64 then { k1 with code := { k1.code with targets := k1.code.targets ++ [ent] } }
        else
          let (n, k2) := drawNat k1
          { k2 with code := { k2.code with targets := k2.code.targets.set (n % 64) ent } }

end Sys2Proof.Machine
end

