-- ==== Sys2Proof/Machine/Secure.lean ====
section
/-! DEFINITION. The Security Core: life cycle, firmware slots, device key, measurements, quotes, context keys, debug levels and the SEC
instructions (R471 to R500). -/

namespace Sys2Proof.Machine

def modSec (k : Core) (f : Sec → Sec) : Core := { k with sec := f k.sec }

/-! ## Fuses and life cycle (R471 to R474) -/

/-- Life-cycle rows as their majorities read. -/
def Fuses.row (f : Fuses) (n : Nat) : Bool :=
  decide (2 ≤ b2n (f.lifeRows.getLsbD (3 * n)) + b2n (f.lifeRows.getLsbD (3 * n + 1)) + b2n (f.lifeRows.getLsbD (3 * n + 2)))
/-- Life-cycle code: the rows that are blown. -/
def Fuses.life (f : Fuses) : Nat := ((upFrom 0 4).filter f.row).length
/-- The rows form a thermometer. -/
def Fuses.lifeOk (f : Fuses) : Bool := (upFrom 0 3).all (fun n => f.row n || !f.row (n + 1))
/-- Minimum SVN: the thermometer's length. -/
def Fuses.svn (f : Fuses) : Nat := ((upFrom 0 64).filter (fun i => f.svnMin.getLsbD i)).length
/-- The lowest n bits set, of 12 or of 64. -/
def thermo (w n : Nat) : BitVec w := BitVec.ofNat w (2 ^ n - 1)
/-- Program fuses: bits are only ever set (R471, R474). -/
def Fuses.program (f : Fuses) : FuseWrite → Fuses
  | .lifeCycle r => { f with lifeRows := f.lifeRows ||| thermo 12 (3 * min r.toNat 4) }
  | .tveddaKeyHash v => { f with tveddaKeyHash := f.tveddaKeyHash ||| v }
  | .operatorKeyHash v => { f with operatorKeyHash := f.operatorKeyHash ||| v }
  | .minSvn n => { f with svnMin := f.svnMin ||| thermo 64 (min n.toNat 64) }
  | .deviceSecret v => { f with secret := f.secret ||| v }
/-- The life cycle the next reset loads, once a fuse is blown: a row is blown with those below it, and none is ever cleared (R471). -/
def nextLife (n : Nat) : FuseWrite → Nat
  | .lifeCycle r => max n (min r.toNat 4)
  | _ => n
/-- A fuse to be blown: the fuses themselves change at the end of the command. -/
def burnFuse (k : Core) (w : FuseWrite) : Core :=
  { k with burn := k.burn ++ [w], sec := { k.sec with lcNext := nextLife k.sec.lcNext w } }

/-- SHA-256 of bytes as the fused 256-bit hash: byte 0 in the lowest bits (R8). -/
def hashFuse (l : List Byte) : BitVec 256 := BitVec.ofNat 256 (ofLE (sha256 l))
/-- The party that signs: the operator in DEPLOYED, Tvedda otherwise. -/
def partyHash (k : Core) (lc : Nat) : BitVec 256 := if lc = 2 then k.shadow.operatorKeyHash else k.shadow.tveddaKeyHash

/-! ## Firmware slots (R476 to R481) -/

/-- An image and its header as R477 step 4 checks them, but for the digest: 0 for a pass, else the ARG of R479. -/
def headerCheck (k : Core) (h : List Byte) : Nat :=
  if fld h 0 2 ≠ 1 ∨ fld h 8 4 = 0 ∨ 16777216 < fld h 8 4 then 5
  else if hashFuse ((h.drop 48).take 48) ≠ k.shadow.tveddaKeyHash then 4
  else if fld h 2 1 < k.shadow.svn then 3
  else if !Config.slhVerify ((h.drop 48).take 48) (h.take 128) ((h.drop 128).take 16224) then 1
  else 0
/-- The digest of the image. -/
def digestOk (h img : List Byte) : Bool := decide (fld h 8 4 ≤ img.length) && sha256 (img.take (fld h 8 4)) == (h.drop 16).take 32
/-- A slot passes verification (R477). -/
def slotOk (k : Core) (s : FwSlot) : Bool := headerCheck k s.header == 0 && digestOk s.header s.image
/-- Slot A or B. -/
def fwSlot (k : Core) (b : Bool) : FwSlot := if b then k.slotB else k.slotA
def setFwSlot (k : Core) (b : Bool) (s : FwSlot) : Core := if b then { k with slotB := s } else { k with slotA := s }
/-- The slot the boot ROM starts, and whether the first one it tried failed (R74). -/
def chooseSlot (k : Core) : Option (Bool × Bool) :=
  let first := decide (k.slotA.count < k.slotB.count)
  if slotOk k (fwSlot k first) then some (first, false)
  else if slotOk k (fwSlot k !first) then some (!first, true)
  else none

/-- The measurement is unsettled (R481). -/
def unsettled (k : Core) : Bool := k.sec.fw != 0

/-! ## Device key (R483) -/

/-- SK.seed, SK.prf and PK.seed of the class: 1 field, 2 return. -/
def devSeeds (k : Core) (cls : Nat) : List Byte :=
  [1, 2, 3].flatMap (fun l => (hmac (leBytes 32 k.shadow.secret.toNat) [BitVec.ofNat 8 l, BitVec.ofNat 8 cls]).take 24)
/-- Class of the life cycle. -/
def keyClass (lc : Nat) : Nat := if lc = 3 then 2 else 1

/-! ## The boot ROM (R72, R74, R477, R482) -/

def modStart (k : Core) (f : Startup → Startup) : Core := { k with glb := { k.glb with startup := f k.glb.startup } }
/-- Every user block of the weight flash is erased; the marker is written once the boot ROM is through (R65). -/
def lifeWipe (k : Core) : Core :=
  let wiped := (upFrom 0 4).foldl (fun k s => modFls k s (fun f =>
    (upFrom 0 57344).foldl (fun f l => { f.setPunit (f.phys l) (fun p => { p with ecount := p.ecount + 1 }) with lunits := [] }) f)) k
  modStart { wiped with flash := Mem.empty } (fun s => { s with lifeWiping := true })
/-- The measurements of a boot (R482); the widths of the values in MREG0 are the model's (assumption 19). -/
def bootMeasure (k : Core) (b fallback recovered : Bool) : Core :=
  let h := (fwSlot k b).header
  let m0 := leBytes 1 k.sec.lc ++ leBytes 1 k.shadow.grade ++ leBytes 1 k.shadow.svn ++ leBytes 32 k.shadow.tveddaKeyHash.toNat ++
    leBytes 32 k.shadow.operatorKeyHash.toNat
  let k0 := modSec k (fun s => { s with mregs := [] })
  extendMreg (extendMreg (extendMreg (extendMreg k0 0 (sha256 m0)) 1 ((h.drop 16).take 32)) 2 (sha256 (h.take 128))) 3
    (sha256 [BitVec.ofBool b |>.zeroExtend 8, BitVec.ofBool fallback |>.zeroExtend 8, BitVec.ofBool recovered |>.zeroExtend 8])
/-- Start-up stops in RESET, with a recovery load awaited or not (R75, R473). -/
def stopStartup (k : Core) (recovery : Bool) : Core :=
  let k1 := modStart k (fun s => { s with stopped := true, bootRunning := false })
  { k1 with glb := { k1.glb with recovery := recovery } }
/-- The boot ROM from its self-test on. -/
def bootRom (k : Core) (b : BootReads) : Core :=
  if !b.sha then stopStartup k true
  else if k.sec.lc = 4 then stopStartup k false
  else if !b.region then stopStartup k true
  else
    let k1 := if k.lifeMarker = k.sec.lc then k else lifeWipe k
    match chooseSlot k1 with
    | none => stopStartup k1 true
    | some (b, fb) =>
      let h := (fwSlot k1 b).header
      let k2 := bootMeasure k1 b fb k1.sec.recovered
      let k3 := { k2 with glb := { k2.glb with slotB := b, fallback := fb, recovery := false, svn := fld h 2 1, version := fld h 4 4 } }
      let k4 := modSec k3 (fun s => { s with devKey := padTo 48 (Config.slhPublic (devSeeds k3 (keyClass s.lc))) })
      modStart k4 (fun s => { s with stopped := false, bootRunning := true })

/-! ## Debug port (R493, R494, R478) -/

/-- A debug level is open in a life cycle. -/
def levelOpen (lc n : Nat) : Bool := n == 0 || (lc != 4 && decide (n ≤ 2)) || (n == 3 && (lc == 0 || lc == 3))
/-- The level the port serves: 0 in GRAZE (R494). -/
def debugLevel (k : Core) : Nat := if k.glb.st = .graze then 0 else k.sec.level
/-- The port answers: PWRGOOD is high (R35). -/
def debugOn (k : Core) : Bool := k.pins.vaon && k.pins.pwrgood && k.glb.st != .off
def setTap (k : Core) (n : Nat) : Core := { k with pins := { k.pins with tapIns := n } }
/-- The message of R475. -/
def signedMsg (k : Core) (code : Nat) (tail : List Byte) : List Byte := padTo 48 k.sec.devKey ++ leBytes 1 code ++ padTo 32 tail
/-- DBG_CHALLENGE. -/
def dbgChallenge (k : Core) (r : BitVec 256) : Core :=
  if debugOn k then emit (modSec (setTap k 2) (fun s => { s with challenge := some r })) (.tdo (leBytes 32 r.toNat)) else k
/-- DBG_UNLOCK: the challenge is used up and verification begins; without a challenge, or during the lockout, it is refused. -/
def dbgUnlock (k : Core) (level : Nat) (pk sig : List Byte) : Core :=
  if !debugOn k then k
  else match k.sec.challenge with
    | none => setTap k 2
    | some c =>
      if k.sec.lockout then setTap k 2
      else modSec (setTap k 2) (fun s => { s with challenge := none, unlock := some { level := level, pk := pk, sig := sig, challenge := c } })
/-- The credential of an UNLOCK holds. -/
def unlockOk (k : Core) (u : Unlock) : Bool :=
  levelOpen k.sec.lc u.level && hashFuse u.pk == (if u.level = 3 then k.shadow.tveddaKeyHash else partyHash k k.sec.lc) &&
  Config.slhVerify u.pk (signedMsg k u.level (leBytes 32 u.challenge.toNat)) u.sig
/-- DBG_UNLOCK_VERIFIED: a pass holds the level; the 8th failure in a row starts the lockout. -/
def dbgUnlockVerified (k : Core) : Core :=
  match k.sec.unlock with
  | none => k
  | some u =>
    if unlockOk k u then modSec k (fun s => { s with unlock := none, level := u.level, fails := 0 })
    else modSec (bump k oDbgFail 1) (fun s => { s with unlock := none, fails := min 8 (s.fails + 1), lockout := decide (8 ≤ s.fails + 1) })
/-- DBG_LOCKOUT_END. -/
def dbgLockoutEnd (k : Core) : Core := if k.sec.lockout then modSec k (fun s => { s with lockout := false, fails := 0 }) else k
/-- DBG_LOCK. -/
def dbgLock (k : Core) : Core := if debugOn k then modSec (setTap k 2) (fun s => { s with level := 0 }) else k
/-- DBG_RECOVER: an image that passes is written into slot A with count 1, and start-up goes on from step 3 (R478). -/
def dbgRecover (k : Core) (h img : List Byte) : Core :=
  let s : FwSlot := { header := padTo 16352 h, image := img, count := 1 }
  if !debugOn k || !k.glb.recovery then k
  else if slotOk k s && !(fls k 0).worn then
    bootRom (modSec (setTap (setFwSlot k false s) 2) (fun q => { q with recovered := true })) ⟨true, true⟩
  else setTap k 2
/-- DBG_FUSE_PROGRAM at level 3; a life cycle goes from MANUFACTURE to PROVISIONED, which Tvedda does here (R472, R514). -/
def dbgFuseProgram (k : Core) (w : FuseWrite) : Core := if debugOn k && debugLevel k == 3 then burnFuse (setTap k 2) w else k
/-- BIST_ENTRY: the test engine's session begins as a fatal fault (R514). -/
def bistEntry (k : Core) : Core :=
  if debugOn k && debugLevel k == 3 && k.glb.st != .reset then
    failStop (modSec (setTap k 2) (fun s => { s with bist := true })) rControlFault 0x0A 0 0x0A
  else k

/-! ## Reads of object extents -/

/-- Checks on an extent of lines of an unpacked object: handle at pos, offset B, count C. -/
def cExtent (i : Ctl) (k : Core) : List Chk :=
  let o := obj k i.handle
  cHandle i k 64 i.handle ++ cSize 0 32 i.c.toNat ++
  [cRange 64 (o.alloc && decide (o.pack ≠ 0)), cRange 32 (o.alloc && decide (o.len < i.b.toNat + i.c.toNat)),
   cState 64 (!o.resident) o.arg]
/-- The bytes of the extent. -/
def readExtent (k : Core) (i : Ctl) : ByteRead := readBytes k { ctl := some (i.src, i.ord) } i.handle (64 * i.b.toNat) (64 * i.c.toNat)
/-- An instruction that reads an extent retires: what it received from the host is given back. -/
def retireReader (k : Core) (f : Flt) (reason arg : Nat) (payload : List Byte) : Core :=
  retireFlt (dropGot k { ctl := some (f.ins.src, f.ins.ord) }) f reason arg payload
/-- Check 4 while a life-cycle change waits for its reset (R473). -/
def cPending (k : Core) : Chk := ⟨4, 64, k.sec.pend.isSome, rDeniedLife, k.sec.pend.getD 0⟩

/-! ## SEC instructions (R498, R499) -/

def secExtendSpec : CtlSpec where
  cls := 0xC
  op := 0x01
  mainRes := resA 31 28
  checks i k :=
    let m := i.fa 27 24
    let want := match srcPart k i.src with | some p => 12 + p | none => 7
    [⟨4, 88, m != want, rDeniedPart, if 8 ≤ m then m % 4 else 4⟩] ++ cExtent i k
  run i k :=
    let m := i.fa 27 24
    match readExtent k i with
    | .ok k0 b => let k1 := extendMreg k0 m (sha256 b); .done k1 ((mreg k1 m).take 16)
    | .wait k1 => inFlight k1 { ins := i }
    | .lost h => .refuse rWeightUnavail h
/-- A SEC.EXTEND that waits for its lines goes on; an object LOST meanwhile ends it (assumption 80). -/
def extendGo (k : Core) (f : Flt) : Core :=
  let m := f.ins.fa 27 24
  match readExtent k f.ins with
  | .ok k0 b => let k1 := extendMreg k0 m (sha256 b); retireReader k1 f 0 0 ((mreg k1 m).take 16)
  | .wait k1 => k1
  | .lost h => retireReader k f rWeightUnavail h []
/-- Every waiting SEC.EXTEND is looked at. -/
def extendsGo (k : Core) : Core := (k.flts.filter (fun f => decide (f.ins.cls = 0xC ∧ f.ins.op = 0x01))).foldl extendGo k

/-- The payload of a firmware image staged into slot b. -/
def stagePayload (h : List Byte) (b : Bool) : List Byte := leBytes 4 (fld h 4 4) ++ leBytes 1 (fld h 2 1) ++ leBytes 1 (b2n b)
/-- SEC.FW_STAGE with the bytes of its extent, once flash stack 0 may be written: check, erase, program, read back (R479). -/
def stageRun (k1 : Core) (b : List Byte) (fin : Core → Nat → Nat → List Byte → Core) : Core :=
  let h := b.take 16352
  let img := (b.drop 16384).take (fld h 8 4)
  let slot := !k1.glb.slotB
  let c := if 16384 + fld h 8 4 ≤ b.length then headerCheck k1 h else 5
  if c ≠ 0 then fin (modSec k1 (fun s => { s with fw := 0 })) rSignature c []
  else
    let k2 := setFwSlot k1 slot { header := h, image := img, count := 0 }
    if digestOk h img then
      fin (modSec k2 (fun s => { s with fw := 2, fwSvn := fld h 2 1, fwVersion := fld h 4 4 })) 0 0 (stagePayload h slot)
    else fin (modSec k2 (fun s => { s with fw := 0 })) rSignature 2 []
/-- The header of an image to be staged is measured (R482). -/
def measureImage (k : Core) (b : List Byte) : Core := extendMreg k 5 (sha256 (b.take 16352))
def secFwStageSpec : CtlSpec where
  cls := 0xC
  op := 0x02
  mainRes := resA 31 24
  checks i k :=
    [cDevice i k 64, cPending k] ++ cExtent i k ++
    [cState 65 (k.sec.fw != 0) k.sec.fw, cRes 64 (fls k 0).worn rFlashWorn 0]
  run i k :=
    let k1 := modSec k (fun s => { s with fw := 1 })
    match readExtent k1 i with
    | .ok k2 b => inFlight (hwBegin (measureImage k2 b) 6 0) { ins := i }
    | .wait k2 => inFlight (hwBegin k2 6 0) { ins := i, aux := 1 }
    | .lost h => .refuse rWeightUnavail h
/-- Staged images go on where nothing holds flash stack 0 and their lines are there (R327, R520, assumption 80). -/
def stageGo (k : Core) : Core :=
  match findFlt k 0xC 0x02 (fun _ => true) with
  | none => k
  | some f =>
    let fin : Core → Nat → Nat → List Byte → Core := fun k r a p =>
      let k1 := retireReader k f r a p
      if k1.flOps.any (fun o => o.stack == 0) then k1 else hwEnd k1 6 0
    if hwMay k 6 0 then
      match readExtent k f.ins with
      | .ok k1 b => stageRun (if f.aux = 1 then measureImage k1 b else k1) b fin
      | .wait k1 => k1
      | .lost h => fin (modSec k (fun s => { s with fw := 0 })) rWeightUnavail h []
    else k

def secFwActivateSpec : CtlSpec where
  cls := 0xC
  op := 0x03
  mainRes := noA ++ noB ++ noC
  checks i k := [cDevice i k 64, cState 64 (k.sec.fw != 2) k.sec.fw]
  run _ k :=
    let b := !k.glb.slotB
    let n := (fwSlot k k.glb.slotB).count + 1
    let k1 := setFwSlot k b { fwSlot k b with count := n }
    .done (extendMreg (modSec k1 (fun s => { s with fw := 3 })) 5 (sha256 (leBytes 4 n))) (leBytes 1 (b2n b) ++ leBytes 3 0 ++ leBytes 4 n)
def secFwAbortSpec : CtlSpec where
  cls := 0xC
  op := 0x04
  mainRes := noA ++ noB ++ noC
  checks i k := [cDevice i k 64, cState 64 (k.sec.fw != 2) k.sec.fw]
  run _ k := .done (extendMreg (modSec k (fun s => { s with fw := 0 })) 5 (sha256 [0])) []
def secFwCommitSpec : CtlSpec where
  cls := 0xC
  op := 0x05
  mainRes := noA ++ noB ++ noC
  checks i k := [cDevice i k 64, cRange 64 (decide (k.glb.svn ≤ k.shadow.svn)), cState 64 (k.sec.fw != 0) k.sec.fw]
  run _ k :=
    let w : FuseWrite := .minSvn (BitVec.ofNat 7 k.glb.svn)
    .done (burnFuse { k with shadow := k.shadow.program w } w) (leBytes 1 k.glb.svn)

/-- Transitions of R472 that SEC.LC_ADVANCE makes. -/
def lcMay (a b : Nat) : Bool := (a == 1 && b == 2) || (a == 2 && b == 3) || (b == 4 && decide (a < 4))
/-- The authorisation object's public key and signature hold for a message (R475). -/
def authOk (k : Core) (h : Nat) (hash : BitVec 256) (msg : List Byte) : Bool :=
  let b := (knownBytes k h 0 16288).1
  hashFuse (b.take 48) == hash && ((b.drop 48).take 16).all (· == 0) && Config.slhVerify (b.take 48) msg ((b.drop 64).take 16224)
def secLcAdvanceSpec : CtlSpec where
  cls := 0xC
  op := 0x06
  mainRes := resA 31 3 ++ resB 31 24 ++ noC
  checks i k :=
    let t := i.fa 2 0
    let h := i.fb 23 0
    let o := obj k h
    [cDevice i k 64, cPending k, ⟨4, 64, !lcMay k.sec.lc t, rDeniedLife, k.sec.lc⟩] ++ cHandle i k 32 h ++
    [cState 32 (!o.resident) o.arg,
     cRes 32 (!(k.sec.lc == 1 && t == 2) && !authOk k h (partyHash k k.sec.lc) (signedMsg k t (leBytes 4 k.glb.incarnation.toNat)))
       rSignature 1]
  run i k :=
    let t := i.fa 2 0
    let k1 := burnFuse k (.lifeCycle (BitVec.ofNat 3 t))
    let k2 := if k.sec.lc = 1 ∧ t = 2 then burnFuse k1 (.operatorKeyHash (hashFuse (knownBytes k (i.fb 23 0) 0 48).1)) else k1
    .done (modSec k2 (fun s => { s with pend := some t, level := 0 })) (leBytes 1 t)

/-- Registers named in a mask, ascending. -/
def maskRegs (m : Nat) : List Nat := (upFrom 0 16).filter (bit m)
/-- Registers a scope may name (R485). -/
def mayName (p : Option Nat) (i : Nat) : Bool :=
  match p with | none => decide (i ≤ 7) | some q => decide (i ≤ 5) || i == 8 + q || i == 12 + q
/-- Length of a quote body, and lines a quote takes (R484, R487). -/
def quoteBody (m : Nat) : Nat := 144 + 32 * (maskRegs m).length
def quoteBytes (m : Nat) : Nat := cdiv (quoteBody m) 64 * 64 + 35664
/-- The body of a quote. -/
def quoteOf (k : Core) (i : Ctl) : List Byte :=
  let m := i.fb 15 0
  leBytes 2 1 ++ leBytes 1 k.sec.lc ++ leBytes 1 k.shadow.grade ++ leBytes 1 ((srcPart k i.src).getD 4) ++ leBytes 1 k.shadow.svn ++
  leBytes 2 0 ++ leBytes 4 k.glb.version ++ leBytes 1 k.glb.svn ++ leBytes 1 (b2n k.glb.slotB) ++ leBytes 2 0 ++
  leBytes 4 k.glb.incarnation.toNat ++ leBytes 4 k.sec.partResets ++ leBytes 8 k.glb.stepsRetired ++ leBytes 2 m ++ leBytes 30 0 ++
  leBytes 16 i.x.toNat ++ leBytes 16 0 ++ padTo 48 k.sec.devKey ++ (maskRegs m).flatMap (mreg k)
/-- The scope's partition is RESETTING. -/
def scopeResetting (k : Core) (s : Src) : Option Nat := (srcPart k s).filter (isResetting k)
def secQuoteSpec : CtlSpec where
  cls := 0xC
  op := 0x81
  mainRes := resA 31 24 ++ resB 31 16 ++ noC
  checks i k :=
    let m := i.fb 15 0
    let h := i.handle
    let o := obj k h
    let bad := ((maskRegs m).filter (fun r => !mayName (srcPart k i.src) r)).getLast?
    [cPending k, ⟨4, 64, k.sec.lc == 0, rDeniedLife, 0⟩,
     ⟨4, 32, bad.isSome, rDeniedPart, match bad with | some r => if 8 ≤ r then r % 4 else 4 | none => 0⟩,
     cZero 32 m] ++ cHandle i k 64 h ++
    [cRange 64 (o.alloc && (decide (o.home ≠ 0 ∨ o.pack ≠ 0) || objConf k h || decide (o.len < cdiv (quoteBytes m) 64))),
     ⟨11, 95, unsettled k, rUnsettled, 1⟩,
     ⟨11, 94, (scopeResetting k i.src).isSome, rUnsettled, 0x10 + (scopeResetting k i.src).getD 0⟩,
     cState 64 (!o.alloc) o.arg,
     cRes 64 (decide (4 ≤ (k.flts.filter (fun f => decide (f.ins.cls = 0xC ∧ f.ins.op = 0x81))).length)) rNoResource 0]
  run i k := inFlight k { ins := i, data := quoteOf k i }
/-- The instruction in flight that a header names. -/
def namedFlt (k : Core) (cls op : Nat) (h : CtlHdr) : Option Flt :=
  findFlt k cls op (fun f => decide (f.ins.src = h.src) && decide (f.ins.ord = h.ord))
/-- Lines of a byte string from line 0 of an object's copy. -/
def writeBytes (k : Core) (h : Nat) (b : List Byte) : Core := writeObj k h 0 ((linesOf b (cdiv b.length 64)).map (fun v => (v, false)))
/-- QUOTE_SIGNED. -/
def quoteSigned (k : Core) (h : CtlHdr) : Core :=
  match namedFlt k 0xC 0x81 h with
  | none => k
  | some f =>
    let (n, k1) := drawNat k
    let sig := padTo 35664 (Config.slhSign (devSeeds k (keyClass k.sec.lc)) f.data n)
    let b := padTo (cdiv f.data.length 64 * 64) f.data ++ sig
    let k2 := if (obj k1 f.ins.handle).complete then writeBytes k1 f.ins.handle b else k1
    retireFlt (bump k2 oQuotes 1) f 0 0 (leBytes 4 b.length)
/-- The quotes of a scope that enters RESETTING end; their destinations hold unspecified lines (R487, assumption 1). -/
def endQuotes (k : Core) (p : Nat) : Core :=
  (k.flts.filter (fun f => decide (f.ins.cls = 0xC ∧ f.ins.op = 0x81) && srcPart k f.ins.src == some p)).foldl (fun k f =>
    let n := if (obj k f.ins.handle).complete then cdiv (quoteBytes (f.ins.fb 15 0)) 64 else 0
    let k1 := (upFrom 0 n).foldl (fun k l => let (v, k') := drawLine k; writeObj k' f.ins.handle l [(v, false)]) k
    retireFlt (bump k1 oQuoteRefused 1) f rUnsettled (0x10 + p) []) k

/-- Keys installed. -/
def keyCount (k : Core) : Nat := (k.ctxs.filter (fun e => e.2.isOpen && e.2.key.isSome)).length
/-- Objects of a context, ascending. -/
def ctxObjs (k : Core) (c : Nat) : List Nat := (handles k).filter (fun h => (obj k h).ctx == some c)
def secCtxKeySpec : CtlSpec where
  cls := 0xC
  op := 0x82
  mainRes := resA 31 12 ++ noB ++ noC
  extRes := resX 127 64
  checks i k :=
    let c := i.fa 11 0
    let x := ctx k c
    cTarget i k 64 (ctxPart k c) ++
    [cAlign 128 (decide (i.fx 5 0 ≠ 0)), cRange 64 (x.isOpen && !x.conf), cState 64 (!x.isOpen) 0,
     cRes 65 (x.key.isSome && !(ctxObjs k c).isEmpty) rObjBusy ((ctxObjs k c).headD 0),
     cRes 64 (x.key.isNone && decide (512 ≤ keyCount k)) rNoResource 0]
  run i k := inFlight (hostRead k { ctl := some (i.src, i.ord), addr := i.fx 63 0, len := 64 }) { ins := i, key := i.fa 11 0 }
/-- The read of a context's key is over. -/
def dropKeyRead (k : Core) (i : Ctl) : Core :=
  { k with pci := { k.pci with
    reads := mfilter (fun _ r => !(r.ctl == some (i.src, i.ord))) k.pci.reads
    waiting := k.pci.waiting.filter (fun r => !(r.ctl == some (i.src, i.ord)))
    got := k.pci.got.filter (fun g => !(g.rd.ctl == some (i.src, i.ord))) } }
/-- CTX_KEY_READ_DONE: the key is installed unless the read failed or its halves are equal (R491). -/
def ctxKeyReadDone (k : Core) (h : CtlHdr) (ok : Bool) (key : BitVec 512) : Core :=
  match namedFlt k 0xC 0x82 h with
  | none => k
  | some f =>
    let k1 := dropKeyRead k f.ins
    if !ok then retireFlt k1 f rUncorrectable 0 []
    else if key.toNat / 2 ^ 256 = key.toNat % 2 ^ 256 then retireFlt k1 f rOverrun 128 []
    else if (ctx k1 f.key).isOpen then retireFlt (modCtx k1 f.key (fun c => { c with key := some key })) f 0 0 []
    else retireFlt k1 f rWrongState 0 []
/-- A context's key is erased: its objects read unspecified until written again (R491). -/
def eraseKey (k : Core) (c : Nat) : Core :=
  if (ctx k c).key.isNone then k
  else (ctxObjs k c).foldl (fun k h => modObj k h (fun o => { o with stale := true, rewritten := [] })) (modCtx k c (fun x => { x with key := none }))

end Sys2Proof.Machine
end

