-- ==== Sys2Proof/Machine/Reset.lean ====
section
/-! DEFINITION. Power, pins and resets of the whole device, start-up from PWRGOOD to CONFIG, the host link's training and configuration,
and the SMBus commands (R34 to R44, R48 to R53, R56, R58 to R66, R72 to R77, R84, R87 to R90, R437, R438). -/

namespace Sys2Proof.Machine

/-! ## What a reset leaves (R62, R63) -/

/-- Kinds of reset, as GLB_RESET_CAUSE codes them (R77, R533). -/
def rkPowerOn : Nat := 1
def rkBoard : Nat := 2
def rkFundamental : Nat := 3
def rkHot : Nat := 4
def rkFunction : Nat := 5
def rkRail : Nat := 6
/-- A flash stack keeps its units and its journal; its registers return to their reset values. -/
def Fls.survives (f : Fls) : Fls :=
  { lmap := f.lmap, punits := f.punits, lunits := f.lunits, worn := f.worn, cal := f.cal, calOk := f.calOk, calDefault := f.calDefault, journal := f.journal, jseq := f.jseq,
    junit := f.junit, used := f.used }
/-- The registers of the PCIe link, which a function-level reset keeps. -/
def Pci.linkOnly (p : Pci) : Pci := { lanes := p.lanes, speed := p.speed, flit := p.flit, downtrain := p.downtrain }
/-- The device at the start of a reset: the always-on domain, the fuses, the flash and what left the device stay; memories keep their
bytes until their wipes, which nothing reads before; everything else is at its reset value. Instructions taken and not retired end
without a record (R543). The life cycle in force and a pending change stay until fuses are loaded (R473). -/
def resetCore (k : Core) (kind : Nat) : Core :=
  { pins := k.pins, shadow := k.shadow, burn := k.burn
    glb :=
      { st := .reset, causeKind := kind, wasHalted := k.glb.st == .halted
        startup :=
          { pll := k.glb.startup.pll, pllTimedOut := k.glb.startup.pllTimedOut
            hbmTrained := (kind == rkHot || kind == rkFunction) && k.glb.startup.hbmTrained } }
    pci := if kind = rkFunction then k.pci.linkOnly else {}
    sec := { lc := k.sec.lc, lcNext := k.sec.lcNext, pend := k.sec.pend }
    dram := k.dram, stg := k.stg, tiles := mmap (fun _ (t : Tile) => ({ mem := t.mem } : Tile)) k.tiles
    flss := mmap (fun _ f => f.survives) k.flss
    stks := if kind = rkHot ∨ kind = rkFunction then mmap (fun _ (q : Stk) => ({ trainTemp := q.trainTemp } : Stk)) k.stks else []
    flash := k.flash, slotA := k.slotA, slotB := k.slotB, lifeMarker := k.lifeMarker
    host := k.host, out := k.out, fresh := k.fresh }

/-- A start-up failure sends the device to HALTED (R76, R510). -/
def startupFault (k : Core) (arg : Nat) : Core := failStop k rStartupFault 0 0 arg
/-- Step 1 of R72: the fuse shadow, and with it the life cycle in force (R473); a shadow that fails its check halts the device. -/
def loadShadow (k : Core) (f : Fuses) (ok : Bool) : Core :=
  let k1 := { k with shadow := f, sec := { k.sec with lc := f.life, lcNext := f.life, pend := none } }
  if ok && f.lifeOk then k1 else startupFault (modStart k1 (fun s => { s with fuseBad := true })) 4

/-! ## Power (R34 to R36, R40, R48, R50 to R53, R59) -/

/-- VAON comes into regulation: the straps are sampled and the always-on status starts again (R36, R40, R44). -/
def vaonIn (k : Core) (straps : BitVec 2) : Core :=
  if k.pins.vaon then k
  else { k with pins := { vaon := true, sysref := k.pins.sysref, pwrgood := false, smbAddr := straps, pwrgoodSeen := false } }
/-- PWRGOOD rises: RESET, the fuse shadow, and the root PLL begins to lock. RESET_N and PERST_N are low then (R49). Chomor's own drive of
THERM_N and a demand on it end with the power-on (assumption 68). -/
def pwrgoodRise (f : Fuses) (ok : Bool) (k : Core) : Core :=
  if !k.pins.vaon || k.pins.pwrgood then k
  else
    let k1 := { k with pins := { k.pins with
      pwrgood := true, pwrgoodSeen := true, resetN := false, perstN := false, tripped := false, thermDrive := false, thermDemand := false } }
    let k2 := resetCore k1 (if k.pins.tripped then rkRail else rkPowerOn)
    loadShadow { k2 with glb := { k2.glb with startup := {}, wasHalted := k.pins.tripped && k.glb.wasHalted } } f ok
/-- PWRGOOD is low: the device is in RESET, its memories are lost (R7, R35, R51). A flash program or erase under way is cut off
(assumption 69). -/
def powerLost (k : Core) : Core :=
  let k1 := resetCore k k.glb.causeKind
  { k1 with
    glb := { k1.glb with startup := {}, wasHalted := k.glb.st == .halted }
    dram := Mem.empty, stg := Mem.empty, tiles := [] }
def pwrgoodFall (k : Core) : Core :=
  if k.pins.pwrgood then powerLost { k with pins := { k.pins with pwrgood := false } } else k
/-- A rail monitor trips while PWRGOOD is high (R48, R52). -/
def railTrip (k : Core) : Core :=
  if k.pins.pwrgood then powerLost { k with pins := { k.pins with pwrgood := false, railLow := true, tripped := true } } else k
/-- VAON falls out of regulation after PWRGOOD: OFF. -/
def vaonOut (k : Core) : Core :=
  if k.pins.vaon && !k.pins.pwrgood then
    { k with pins := { k.pins with vaon := false }, glb := { k.glb with st := .off } }
  else k
/-- SYSREF stops or runs again (R53). -/
def setSysref (k : Core) (on : Bool) : Core := { k with pins := { k.pins with sysref := on } }
/-- The ACLK domain runs. -/
def aclkOn (k : Core) : Bool := k.pins.vaon && k.pins.sysref
/-- The device is powered: PWRGOOD is high. -/
def powered (k : Core) : Bool := k.pins.vaon && k.pins.pwrgood && k.glb.st != .off

/-- The root PLL has locked, so the boot ROM may start once t0 has passed (R25, R50, R72). -/
def rootPllLock (k : Core) : Core :=
  if powered k && k.pins.sysref && !k.glb.startup.pll && !k.glb.startup.pllTimedOut then
    let k1 := modStart k (fun s => { s with pll := true })
    if k.glb.st == .reset && k.glb.startup.released then bootRom k1 k.glb.startup.boot else k1
  else k
def pllLockTimeout (k : Core) : Core :=
  if powered k && k.pins.sysref && !k.glb.startup.pll then modStart k (fun s => { s with pllTimedOut := true }) else k

/-! ## Resets (R34, R62, R66, R71) -/

/-- A reset pin is held low for n ACLK cycles; fewer than 10 are not recognised (R34). -/
def pinReset (k : Core) (n kind : Nat) : Core :=
  if powered k && k.pins.sysref && decide (10 ≤ n) then
    let k1 := resetCore k kind
    { k1 with pins := { k1.pins with resetN := k1.pins.resetN && kind != rkBoard, perstN := k1.pins.perstN && kind != rkFundamental } }
  else k
/-- t0: the last of the pins rises, and the link trains. In RESET the fuse shadow is loaded and the boot ROM starts once the root PLL has
locked; after a failure of the fuse shadow the device stays HALTED (R72, R76). -/
def resetRelease (f : Fuses) (b : BootReads) (k : Core) : Core :=
  if powered k && k.pins.sysref && !k.glb.startup.released && !(k.pins.resetN && k.pins.perstN) then
    let k1 := modStart { k with pins := { k.pins with resetN := true, perstN := true } } (fun s => { s with released := true, boot := b })
    if k1.glb.st == .reset then
      let k2 := loadShadow k1 f true
      if k2.glb.st == .reset && k2.glb.startup.pll then bootRom k2 b else k2
    else k1
  else k
/-- The link carries requests of the host: start-up has passed t0 and the root PLL has locked. -/
def linkAlive (k : Core) : Bool := powered k && k.pins.resetN && k.pins.perstN && k.glb.startup.pll
/-- A hot or function-level reset: the boot ROM starts at once (R62, R72). -/
def warmReset (k : Core) (kind : Nat) (b : BootReads) : Core :=
  if linkAlive k then bootRom (modStart (resetCore k kind) (fun s => { s with released := true, boot := b })) b
  else k

/-! ## Start-up after the boot ROM (R72, R76, R371, R396) -/

/-- BOOT_ROM_COMPLETE: the SRAM wipe and the scans of the erase journals. -/
def bootRomComplete (k : Core) (sramOk : Bool) (journalOk : BitVec 4) : Core :=
  if k.glb.st == .reset && k.glb.startup.bootRunning then
    let k1 := modStart { k with tiles := [], stg := Mem.empty, lifeMarker := if k.glb.startup.lifeWiping then k.sec.lc else k.lifeMarker }
      (fun s => { s with bootRunning := false, bootDone := true, sramWiped := sramOk, lifeWiping := false })
    if !sramOk then startupFault k1 2
    else if journalOk != 15 then startupFault k1 3
    else modStart ((upFrom 0 4).foldl journalScan k1) (fun s => { s with journalDone := true })
  else k
/-- HBM_TRAINING_DONE: a stack that fails its training halts the device; the DRAM wipe follows. A hot or function-level reset keeps the
training. -/
def hbmTrainingDone (k : Core) (trained : BitVec 8) (wipeOk : Bool) : Core :=
  if k.glb.st == .reset && k.glb.startup.bootDone && !k.glb.startup.dramWiped then
    if !k.glb.startup.hbmTrained && trained != 0xFF then startupFault k 1
    else
      let k1 := modStart { k with dram := Mem.empty } (fun s => { s with hbmTrained := true, dramWiped := wipeOk })
      if wipeOk then k1 else startupFault k1 2
  else k
/-- STARTUP_COMPLETE: steps 5 to 8 are done. -/
def startupComplete (k : Core) : Core :=
  let s := k.glb.startup
  if k.glb.st == .reset && s.bootDone && s.sramWiped && s.hbmTrained && s.dramWiped && s.journalDone then setState k .config else k

/-! ## The host link (R73, R87 to R90) -/

/-- PCIE_LINK_TRAINED. x16, x8 and x4 are the only widths, and 64 GT/s comes with Flit mode (R41, R88); every training that ends below x16
or 64 GT/s counts and is recorded (assumption 70). -/
def linkTrained (k : Core) (lanes speed : Nat) (flit : Bool) : Core :=
  if linkAlive k && (lanes == 16 || lanes == 8 || lanes == 4) && decide (1 ≤ speed ∧ speed ≤ 6) && (speed != 6 || flit) then
    let low := decide (lanes < 16 ∨ speed < 6)
    let k1 := { k with pci := { k.pci with
      lanes := lanes, speed := speed, flit := flit, downtrain := if low then min 255 (k.pci.downtrain + 1) else k.pci.downtrain } }
    hostFlush (if low then errRecord k1 { reason := rLinkDegraded, cls := 3, source := 5, arg := 0x80 + 256 * lanes } else k1)
  else k
/-- Start-up has stopped in RESET, so the host may look (R73, R75, R473). -/
def startupStopped (k : Core) : Bool := k.glb.startup.stopped
/-- Configuration requests are served (R73, R85). -/
def cfgServes (k : Core) : Bool := k.glb.st != .reset || startupStopped k
/-- Send the vectors that are pending and no longer masked (R103). -/
def msixKick (k : Core) : Core :=
  k.pci.msixPend.foldl (fun k v =>
    if msixMasked k v then k else hostReq { k with pci := { k.pci with msixPend := sdel k.pci.msixPend v } } (.msix v)) k
/-- One setting of the configuration space; a value the function does not offer changes nothing (R87). -/
def cfgSet (p : Pci) : CfgReq → Pci
  | .completionRange n => if n ≤ 4 then { p with cplRange := n } else p
  | .ecrc g c => { p with ecrcGen := g, ecrcCheck := c }
  | .aerClear => { p with aerHdr := none }
  | .read _ => p
  | .busMaster b => { p with busMaster := b }
  | .d3hot b => { p with d3hot := b }
  | .tagBits n => if n = 8 ∨ n = 10 ∨ (n = 14 ∧ p.flit = true) then { p with tagBits := n } else p
  | .maxPayload n => if n = 128 ∨ n = 256 ∨ n = 512 then { p with maxPayload := n } else p
  | .maxReadRequest n => if 128 ≤ n ∧ n ≤ 4096 ∧ isPow2 n = true then { p with maxReadRequest := n } else p
  | .bar4Size n => if n ≤ 256 ∧ isPow2 n = true then { p with bar4Gib := n } else p
  | .msixEnable b => { p with msixOn := b }
  | .functionMask b => { p with msixMaskAll := b }
/-- What a read of the configuration space returns: speeds and widths with a bit for each code and each width, tags and sizes as numbers,
completion ranges A to D as bits 0 to 3, and zero for what is not supported (R87). -/
def cfgValue (p : Pci) : CfgItem → Nat
  | .linkSpeeds => 0x7E
  | .linkWidths => 4 + 8 + 16
  | .flitMode => b2n p.flit
  | .payloadMax => 512
  | .payload => p.maxPayload
  | .readRequestMax => 4096
  | .readRequest => p.maxReadRequest
  | .tagBitsMax => if p.flit then 14 else 10
  | .tagBits => p.tagBits
  | .aer => 1
  | .aerHeader => match p.aerHdr with | none => 0 | some h => 1 + 2 * b2n h.read + 4 * h.bar + 32 * h.len + 2 ^ 32 * h.off
  | .ecrcGenerate => b2n p.ecrcGen
  | .ecrcCheck => b2n p.ecrcCheck
  | .msixVectors => 2048
  | .msixEnable => b2n p.msixOn
  | .functionMask => b2n p.msixMaskAll
  | .bar0Mib => 4
  | .bar2Mib => 4
  | .bar4Gib => p.bar4Gib
  | .bar4GibMax => 256
  | .functionLevelReset => 1
  | .busMaster => b2n p.busMaster
  | .d3hot => b2n p.d3hot
  | .noSoftReset => 1
  | .completionRanges => 15
  | .completionRange => p.cplRange
  | .relaxedOrdering => 1
  | .notOffered => 0
/-- What the host sees of a configuration request that is served. -/
def cfgAnswer (p : Pci) : CfgReq → Emit
  | .read i => .cfgData (cfgValue p i)
  | _ => .cfgServed
/-- PCIE_CONFIG_REQUEST: what was held goes out once nothing holds it (R89). -/
def configRequest (k : Core) (r : CfgReq) : Core :=
  if !linkAlive k || decide (k.pci.lanes = 0) then k
  else if cfgServes k then msixKick (hostFlush (emit { k with pci := cfgSet k.pci r } (cfgAnswer k.pci r)))
  else emit k .cfgRetry

/-! ## THERM_N and shutdown (R37, R38, R56) -/

def thermNAssert (k : Core) (c : Nat) : Core :=
  if powered k && decide (100 ≤ c) then { k with pins := { k.pins with thermDrive := true } } else k
def thermNRelease (k : Core) (c : Nat) : Core :=
  if powered k && decide (c ≤ 95) then { k with pins := { k.pins with thermDrive := false } } else k
/-- The pin sampled low, or high, for 4 ACLK cycles; while Chomor drives it, neither is seen (R38). -/
def thermNDemand (k : Core) (on : Bool) : Core := if powered k && k.pins.sysref && !k.pins.thermDrive then thermDemand k on else k
def thermalShutdown (k : Core) (c : Nat) : Core :=
  if powered k && decide (110 ≤ c) then
    let k1 := { k with pins := { k.pins with thermShut := true } }
    if k.glb.st == .reset then k1 else failStop k1 rThermal 0 0 c
  else k

/-! ## SMBus (R40, R42, R44, R437, R438) -/

/-- The Packet Error Code of a transfer: CRC-8 with polynomial x^8 + x^2 + x + 1 (SMBus 3.1, PRESUMED, assumption 21). -/
def crc8 (l : List Byte) : Byte :=
  l.foldl (fun c b => loop (fun (x : Byte) _ => if x.getLsbD 7 then (x <<< 1) ^^^ 0x07 else x <<< 1) (c ^^^ b) 8) 0
/-- The 7-bit address. -/
def smbAddress (k : Core) : Nat := 0x6C + k.pins.smbAddr.toNat
/-- Answer a read of a command, with its Packet Error Checking byte where it is asked for. -/
def smbAnswer (k : Core) (cmd : Nat) (l : List Byte) (pec : Bool) : Core :=
  let a := 2 * smbAddress k
  emit k (.smb (if pec then l ++ [crc8 ([BitVec.ofNat 8 a, BitVec.ofNat 8 cmd, BitVec.ofNat 8 (a + 1)] ++ l)] else l))
/-- The always-on status byte. -/
def aonStatus (k : Core) : Nat := b2n k.pins.sysref + 2 * b2n k.pins.thermShut + 4 * b2n k.pins.railLow + 8 * b2n k.pins.pwrgoodSeen
def smbReadGrade (f : Fuses) (pec : Bool) (k : Core) : Core := if aclkOn k then smbAnswer k 0xF0 (leBytes 1 f.grade) pec else k
def smbReadSetPoints (f : Fuses) (pec : Bool) (k : Core) : Core :=
  if aclkOn k then smbAnswer k 0xF1 (leBytes 1 2 ++ leBytes 1 f.vcore0 ++ leBytes 1 f.vcore1) pec else k
def smbReadStatus (k : Core) (pec : Bool) : Core := if aclkOn k then smbAnswer k 0xF2 (leBytes 1 (aonStatus k)) pec else k
/-- A write of command 0xF2; one with a wrong Packet Error Checking byte is not acknowledged and clears nothing (assumption 71). -/
def smbWriteStatus (k : Core) (v : Byte) (pec : Pec) : Core :=
  if !aclkOn k then k
  else if pec = .bad then emit k .smbNack
  else { k with pins := { k.pins with thermShut := k.pins.thermShut && !v.getLsbD 1, railLow := k.pins.railLow && !v.getLsbD 2 } }
/-- The management protocol answers from CONFIG onward (R85, R437, R459). -/
def smbManages (k : Core) : Bool := aclkOn k && k.pins.pwrgood && k.glb.st != .off && k.glb.st != .reset
def smbGrant (k : Core) (b : List Byte) (pec : Pec) : Core :=
  if !smbManages k then (if aclkOn k then emit k .smbNack else k)
  else if pec = .good then takeGrant k b none
  else bump k oGrantIgnored 1
/-- MEASURED of a report read now: the last GRAZE sample in GRAZE; else an average that the model does not keep, so a free value
(R438, R467, assumption 1). -/
def smbReport (k : Core) : Core :=
  if !smbManages k then (if aclkOn k then emit k .smbNack else k)
  else if k.glb.st = .graze then
    let w := bits k.pst.last.toNat 46 36
    smbAnswer k 0x11 (leBytes 1 28 ++ reportBody (modPwr k (fun p => { p with tmax := bits k.pst.last.toNat 7 0 })) (1000 * w)) true
  else
    let (n, k1) := drawNat k
    smbAnswer k1 0x11 (leBytes 1 28 ++ reportBody k1 (n % 2 ^ 32)) true
/-- SMBUS_TIMEOUT: the bus is released; a transfer not complete has no effect. -/
def smbusTimeout (k : Core) : Core := k

end Sys2Proof.Machine
end

