-- ==== Sys2Proof/Machine/Sys.lean ====
section
/-! DEFINITION. The SYS instructions (R102, R146 to R149). -/

namespace Sys2Proof.Machine

/-- Enabled engines of the part (R4). -/
def engineCount (k : Core) : Nat := ((upFrom 0 1024).filter (fun i => k.shadow.engines.getLsbD i)).length

def sysNopSpec : CtlSpec where
  cls := 0
  op := 0x01
  mainRes := noA
  run i k := .done k (leBytes 4 i.b.toNat ++ leBytes 4 i.c.toNat)

/-- Items of one partition, or of the device where the port serves none. -/
def countOf {α : Type} (l : SMap α) (p : α → Bool) : Nat := (l.filter (fun e => p e.2)).length
/-- Payload of SYS.QUERY (R149). -/
def sysQueryPayload (k : Core) (part : Option Nat) (sel : Nat) : List Byte :=
  if sel = 0 then
    leBytes 1 k.glb.st.code ++ leBytes 1 k.shadow.grade ++ leBytes 1 (quarters k) ++
    leBytes 1 (((upFrom 0 4).map (fun p => b2n (isResetting k p) * 2 ^ p)).sum) ++ leBytes 2 (engineCount k) ++ leBytes 2 0 ++
    leBytes 8 k.glb.stepsRetired
  else
    let mine := fun (q : Option Nat) => part.isNone || q == part
    leBytes 4 (countOf k.ctxs (fun c => c.isOpen && mine c.part)) ++ leBytes 4 (countOf k.rings (fun r => r.isOpen && mine r.part)) ++
    leBytes 4 ((liveSeqs k).filter (fun s => mine (seqPart k s))).length ++
    leBytes 4 ((handles k).filter (fun h => mine (objPart k h))).length
def sysQuerySpec : CtlSpec where
  cls := 0
  op := 0x02
  mainRes := resA 31 8 ++ noB ++ noC
  checks i _ := [cRange 64 (decide (1 < i.fa 7 0))]
  run i k := .done k (sysQueryPayload k (srcPart k i.src) (i.fa 7 0))

/-- Partition of an open delivery ring. -/
def ringPart (k : Core) (r : Nat) : Option Nat := if (dring k r).isOpen then (dring k r).part else none
def sysRingOpenSpec : CtlSpec where
  cls := 0
  op := 0x84
  mainRes := resA 31 19 ++ resC 31 24
  checks i k :=
    let r := i.fa 7 0
    let n := i.b.toNat
    [cPart i k 64 (ringPart k r), cResetting k 64 (if (dring k r).isOpen then ringPart k r else srcPart k i.src)] ++ cSize 32 32 n ++
    [cAlign 32 (!isPow2 n), cAlign 128 (decide (i.fx 5 0 ≠ 0)), cAlign 192 (decide (i.fx 69 64 ≠ 0)),
     cRange 32 (decide (n < 64 ∨ 1048576 < n)), cState 64 (dring k r).isOpen 1]
  run i k :=
    let d : DRing :=
      { isOpen := true, vec := i.fa 18 8, size := i.b.toNat, count := i.fc 7 0, time := i.fc 23 8, base := i.fx 63 0
        wb := i.fx 127 64, part := srcPart k i.src }
    .done (hostWrite (modRing k (i.fa 7 0) (fun q => { d with badHead := q.badHead })) d.wb (leBytes 4 0)) []

/-- A live sequence names the ring, or a record for it waits in the Delivery unit (R102). -/
def ringInUse (k : Core) (r : Nat) : Bool :=
  k.seqs.any (fun e => e.2.ring == r && (e.2.live || !e.2.waiting.isEmpty))
def sysRingCloseSpec : CtlSpec where
  cls := 0
  op := 0x05
  mainRes := resA 31 8 ++ noB ++ noC
  checks i k :=
    let r := i.fa 7 0
    cTarget i k 64 (ringPart k r) ++ [cState 64 (!(dring k r).isOpen) 0, cState 64 ((dring k r).isOpen && ringInUse k r) 1]
  run i k :=
    let r := i.fa 7 0
    .done (modRing k r (fun q => { q with isOpen := false, part := none })) (leBytes 4 (dring k r).produced.toNat)

def sysCtxOpenSpec : CtlSpec where
  cls := 0
  op := 0x06
  mainRes := resA 31 12 ++ resB 31 4 ++ noC
  checks i k :=
    let c := i.fa 11 0
    let pv := i.fb 1 1 == 1
    let p := i.fb 3 2
    cTarget i k 64 (ctxPart k c) ++ cTarget i k 34 (if pv && isPart k p then some p else none) ++
    [cRange 34 (pv && partsInUse k && !isPart k p), cFeature 33 (pv && !partsInUse k) oPartMode,
     cState 64 (ctx k c).isOpen 1, cRes 33 (!pv && decide (quarters k = 15)) rNoResource 0]
  run i k := .done (modCtx k (i.fa 11 0) (fun _ =>
    { isOpen := true, conf := i.fb 0 0 == 1, part := if i.fb 1 1 = 1 then some (i.fb 3 2) else none })) []

/-- What a context may still own when it is closed (R148). -/
def ctxOwns (k : Core) (c : Nat) : Bool :=
  (liveSeqs k).any (fun s => seqCtx k s == c) || (handles k).any (fun h => (obj k h).ctx == some c) ||
  k.accts.any (fun e => e.2.isOpen && e.2.ctx == c) || k.msets.any (fun e => e.2.st != .none && e.2.ctx == some c) ||
  k.pools.any (fun e => e.2.isOpen && e.2.ctx == c) || k.fab.chans.any (fun e => decide (e.2.st ≠ 0) && e.2.ctx == c)
/-- A context that closes is no longer the context of a domain's step before (R148, R489): 4,096 names none. -/
def forgetCtx (k : Core) (c : Nat) : Core :=
  { k with ctxs := mdel k.ctxs c, doms := mmap (fun _ (q : Dom) => if q.lastCtx = some c then { q with lastCtx := some 4096 } else q) k.doms }
def sysCtxCloseSpec : CtlSpec where
  cls := 0
  op := 0x07
  mainRes := resA 31 12 ++ noB ++ noC
  checks i k :=
    let c := i.fa 11 0
    cTarget i k 64 (ctxPart k c) ++
    [cBusy 64 (findFlt k 0xC 0x82 (fun f => f.key == c)), cState 64 (!(ctx k c).isOpen) 0, cState 64 ((ctx k c).isOpen && ctxOwns k c) 1]
  run i k := .done (forgetCtx k (i.fa 11 0)) []

end Sys2Proof.Machine
end

