-- ==== Sys2Proof/Machine/Enable.lean ====
section
/-! DEFINITION. The consistency check and entry to ENABLED (R60, R61, R79 to R84, R364, R430, R446, R482, R541). -/

namespace Sys2Proof.Machine

/-! ## The checks of R83's table -/

/-- Engines a grade has (R4). -/
def gradeEngines (g : Nat) : Nat := if g = 1 then 960 else if g = 2 then 896 else 768
/-- 0x0A01. A frequency cap at fault names its tile. -/
def chkFuses (k : Core) : Option Nat :=
  match k.shadow.fcap.find? (fun e => decide (e.1 < 256 ∧ (e.2 < 5 ∨ 6 < e.2))) with
  | some e => some e.1
  | none => if engineCount k = gradeEngines k.shadow.grade then none else some 0xFFFFFFFF
/-- Least size of the system region in bytes (R80). -/
def sysNeed (k : Core) : Nat := sysFixed k + 2 ^ 30
/-- 0x0A02. -/
def chkSysSmall (k : Core) : Option Nat := if sysBytes k < sysNeed k then some (cdiv (sysNeed k - sysBytes k) (2 ^ 20)) else none
/-- 0x0A03. -/
def chkSysLarge (k : Core) : Option Nat := if 150 < rfld k oSysRegion 8 0 then some (rfld k oSysRegion 8 0) else none
/-- 0x0A04, with the largest values of R541's table. -/
def chkLimits (k : Core) : Option Nat :=
  ([(oSeqLimit, 4194304), (oAcctLimit, 65536), (oObjLimit, 16777216)].find? (fun e =>
    decide (rfld k e.1 24 0 = 0 ∨ e.2 < rfld k e.1 24 0))).map Prod.fst
/-- 0x0A05. -/
def chkOrder (k : Core) : Option Nat :=
  let o := fun s => rfld k (oMapOrder s) 1 0
  match (upFrom 1 7).find? (fun s => o s != o 0) with
  | some s => some (s + 256 * o s)
  | none => if partsInUse k && decide (o 0 < 2) then some (256 * o 0) else none
/-- Row k of the matrix of R364: the mask at the four natural bank bits of the order. -/
def bankRow (k : Core) (s i : Nat) : Nat :=
  let m := rfld k (oBankXor s i) 31 0
  if coarse k then bits m 12 9 else bits m 8 5
/-- The sums over GF(2) of the first n rows. -/
def bankSpan (k : Core) (s : Nat) : Nat → List Nat
  | 0 => [0]
  | n + 1 => bankSpan k s n ++ (bankSpan k s n).map (fun x => Nat.xor x (bankRow k s n))
/-- Mask i of a stack is at fault: it is zero, selects a bit beyond the stack, or its row depends on those before it. -/
def bankBad (k : Core) (s i : Nat) : Bool :=
  let m := rfld k (oBankXor s i) 31 0
  decide (m = 0) || decide (2 ^ 27 ≤ m) || (bankSpan k s i).contains (bankRow k s i)
/-- 0x0A06. -/
def chkBanks (k : Core) : Option Nat :=
  ((upFrom 0 8).flatMap (fun s => (upFrom 0 4).map (fun i => (s, i)))).findSome? (fun e =>
    if bankBad k e.1 e.2 then some (e.1 + 256 * e.2) else none)
/-- 0x0A07. -/
def chkRefresh (k : Core) : Option Nat :=
  (upFrom 0 8).find? (fun s => decide (8 < rfld k (oRefPostpone s) 3 0 ∨ rfld k (oNbrK s) 4 0 < 8 ∨ 16 < rfld k (oNbrK s) 4 0))
/-- Feed ports that are enabled, ascending. -/
def openPorts (k : Core) : List Nat := (upFrom 0 64).filter (fun n => (port k n).st == .opened)
/-- A ring's base, write-back address and size hold (check 0x0A09, R508). -/
def ringRule (wb base size : Nat) : Bool :=
  decide (wb ≠ 0 ∧ base ≠ 0 ∧ wb % 64 = 0 ∧ base % 64 = 0 ∧ 64 ≤ size ∧ size ≤ 65536) && isPow2 size
/-- The rule of check 0x0A09 for a port. -/
def portRule (k : Core) (n : Nat) : Bool := ringRule (rreg k (oWbAddr n)).toNat (rreg k (oCqBase n)).toNat (rfld k (oCqSize n) 16 0)
/-- 0x0A08 and 0x0A09. -/
def chkPorts (k : Core) : Option Nat := if (openPorts k).isEmpty then some 0 else none
def chkPortRule (k : Core) : Option Nat := (openPorts k).find? (fun n => !portRule k n)
/-- 0x0A0A. -/
def chkPartPorts (k : Core) : Option Nat :=
  (upFrom 0 4).find? (fun p => isPart k p && !(openPorts k).any (fun n => srcPart k (.port (BitVec.ofNat 6 n)) == some p))
/-- 0x0A0B. -/
def chkPower (k : Core) : Option Nat :=
  let g := rfld k oGrantDefault 10 0
  let s := rfld k oSoftStart 4 0
  if g < 300 ∨ 1800 < g then some oGrantDefault
  else if s < 1 ∨ 16 < s then some oSoftStart
  else if rfld k oGateRamp 8 0 = 0 ∨ rfld k oGateRamp 31 16 = 0 then some oGateRamp
  else none
/-- 0x0A0C. -/
def chkShares (k : Core) : Option Nat :=
  let t := (((upFrom 0 4).filter (isPart k)).map (fun p => rfld k (oPartShare p) 6 0)).sum
  if partsInUse k && decide (100 < t) then some t else none
/-- 0x0A0D. -/
def chkFabric (k : Core) : Option Nat :=
  let a := twinPortA k
  let b := twinPortB k
  if ownNode k = 0xFFF then some 0xFFF
  else if !twinEn k then none
  else if a = b then some a
  else if isPart k (a / 4) then some a
  else if isPart k (b / 4) then some b
  else none
/-- 0x0A0E. -/
def chkWatch (k : Core) : Option Nat :=
  let r := rfld k oRetireLoops 7 0
  let w := rfld k oStepWdog 15 0
  if r = 0 ∨ r = 0xFF then some oRetireLoops else if w = 0 ∨ w = 0xFFFF then some oStepWdog else none

/-- The checks in table order: code, and ARG where the check fails. -/
def cfgChecks (k : Core) : List (Nat × Option Nat) :=
  [(0x0A01, chkFuses k), (0x0A02, chkSysSmall k), (0x0A03, chkSysLarge k), (0x0A04, chkLimits k), (0x0A05, chkOrder k),
   (0x0A06, chkBanks k), (0x0A07, chkRefresh k), (0x0A08, chkPorts k), (0x0A09, chkPortRule k), (0x0A0A, chkPartPorts k),
   (0x0A0B, chkPower k), (0x0A0C, chkShares k), (0x0A0D, chkFabric k), (0x0A0E, chkWatch k)]
/-- The first check that fails. -/
def cfgFault (k : Core) : Option (Nat × Nat) := (cfgChecks k).findSome? (fun e => e.2.map (fun a => (e.1, a)))

/-! ## ENABLE (R60, R81 to R84) -/

/-- GLB_ENABLE: a write of 1 in CONFIG starts the check; in any other state, or during a check, it has no effect. -/
def glbEnable (k : Core) : Core :=
  if k.glb.st == .config && !k.glb.checking then { k with glb := { k.glb with checking := true, reason := 0, reasonArg := 0 } } else k

/-- Every tile's soft-start rein is set (R446). -/
def softStartAll (k : Core) (l : List Nat) : Core := l.foldl (fun k t => modTile k t (fun q => { q with soft := softStart k })) k
/-- The power in force on entry: the lower of the last grant and PWR_GRANT_DEFAULT (R84). -/
def entryForce (k : Core) : Nat :=
  let d := 1000 * rfld k oGrantDefault 10 0
  match k.pwr.grant with | some g => min g.mw d | none => d
/-- Entry to ENABLED (R61, R84, R430, R482, R515). -/
def enterEnabled (k : Core) (inc : W32) : Core :=
  let k1 := extendMreg k 4 (sha256 (rwlBytes k))
  let k2 := { k1 with
    glb := { k1.glb with checking := false, incarnation := inc, stepsRetired := 0 }
    sec := { k1.sec with partResets := 0 }
    maint := { k1.maint with count := 0 }
    err := { k1.err with maintSeq := 0 }
    doms := mmap (fun _ (q : Dom) => { q with stepNo := 0, ceil := 16 }) k1.doms }
  let k3 := powerChange k2 (fun k => modPwr k (fun p => { p with force := entryForce k, from0 := entryForce k, periods := 0 }))
  trainPorts (setState (softStartAll k3 (upFrom 0 256)) .enabled)
/-- CONSISTENCY_CHECK_DONE (R81). -/
def consistencyCheckDone (k : Core) (inc : W32) : Core :=
  if k.glb.st == .config && k.glb.checking then
    match cfgFault k with
    | some (c, a) => { k with glb := { k.glb with checking := false, reason := c, reasonArg := a } }
    | none => enterEnabled k inc
  else k

end Sys2Proof.Machine
end

