-- ==== Sys2Proof/Machine/PartReset.lean ====
section
/-! DEFINITION. Partition reset (R67 to R71, R270, R335, R404, R446, R482, R487, R489, R491, R521). -/

namespace Sys2Proof.Machine

/-! ## The start (R68, R69 events 1 to 3) -/

/-- Objects: what is under way for them is abandoned; every one is ABSENT but DRAM objects (R335). -/
def settleObj (k : Core) (h : Nat) : Core :=
  let k1 := [0x01, 0x02, 0x05, 0x81].foldl (fun k op => endObj k op h rWrongState 2) k
  modObj (orphanReads k1 h) h (fun o => { o.settled with
    st := if o.home = 0 then .complete else .absent
    recov := [], dirty := [], cleaning := [], redirty := [], zeroing := false, wants := false, wantDrop := none, from_ := [], bcast := none })
/-- The objects of partition p. -/
def settleObjs (k : Core) (p : Nat) : Core := ((handles k).filter (fun h => objPart k h == some p)).foldl settleObj k

/-- Live sequences of a domain. -/
def domLive (k : Core) (d : Nat) : List Nat := (domSeqs k d).filter (fun s => (seq k s).live)
/-- Partition p becomes RESETTING: its step is abandoned, quotes of its scope end, its live sequences end CANCELLED, and what
is under way for its objects is abandoned (R335). -/
def partResetStart (k : Core) (p : Nat) : Core :=
  if k.glb.st == .enabled && partCode k p == 1 then
    let k1 := { k with glb := { k.glb with resetting := sput k.glb.resetting p }, sec := { k.sec with partResets := k.sec.partResets + 1 } }
    let k2 := endQuotes (abandonStep k1 p) p
    settleObjs ((domLive k2 p).foldl (fun k s => cancelSeq k s none) k2) p
  else k
/-- A write to GLB_PART_RESET: each bit set starts one reset. -/
def glbPartReset (k : Core) (bits : Nat) : Core := ((upFrom 0 4).filter (bit bits)).foldl partResetStart k

/-! ## What the reset settles (R69 event 4, R70) -/

/-- Contexts of partition p. -/
def partCtxs (k : Core) (p : Nat) : List Nat := (k.ctxs.filter (fun e => e.2.isOpen && e.2.part == some p)).map Prod.fst
/-- Model sets: LOADING ones are freed, READY and DRAINING ones are FAILED, and schedules are detached. -/
def settleSet (k : Core) (m : Nat) : Core :=
  if (mset' k m).st = .loading then loadFail k m rWrongState 2 0
  else
    let k1 := msetFail k m rWrongState
    let s := mset' k1 m
    let k2 := match s.sched with | some (_, l) => (schedRefs l).foldl dropRef k1 | none => k1
    let k3 := match s.schedNext with | some (some (_, l)) => (schedRefs l).foldl dropRef k2 | _ => k2
    modMset k3 m (fun s => { s with sched := none, schedNext := none })
/-- A sequence's page list is cleared and its index pages and segments are freed. -/
def clearPages (k : Core) (s : Nat) : Core :=
  modSeq (sysGive k (4096 * heldFrames (seq k s))) s (fun q => { q with pages := [], idx := [], segs := [], copying := [], copied := [] })
/-- Staged edits of the partition end without publication; with the UNMAP of a sequence returned to FREE, opened again or not, what its
page lists held goes (R270). -/
def settleEdits (k : Core) (p : Nat) : Core :=
  (k.sched.edits.filter (fun e => e.dom == p)).foldl (fun k e =>
    let k1 := retireEdit (sysGive { k with sched := { k.sched with edits := k.sched.edits.erase e } } (4096 * e.frames)) e rWrongState 2
    if e.ins.isNone then clearPages k1 e.seq else k1) k
/-- A pool's pages are free, in the order of PT.POOL_OPEN; sequences bound to it lose their entries. -/
def settlePool (k : Core) (p : Nat) : Core :=
  let k1 := modPool k p (fun q => { q with
    hdrs := mmap (fun _ (h : PageHdr) => { h with refs := 0, deferred := none }) q.hdrs, freed := [], nextFresh := 0 })
  ((k1.seqs.filter (fun e => e.2.pool == some p)).map Prod.fst).foldl clearPages k1
/-- Stores of the partition's objects end (R404). -/
def settleStores (k : Core) (p : Nat) : Core :=
  (k.flOps.filter (fun o => !o.erase && (obj k o.dest).dom == p)).foldl (fun k o => endFlOp k o rWrongState 2 []) k
/-- Channels of the partition's contexts close, and sessions that receive into its objects end. -/
def settleFabric (k : Core) (p : Nat) : Core :=
  let cs := (k.fab.chans.filter (fun e => decide (e.2.st ≠ 0) && (partCtxs k p).contains e.2.ctx)).map Prod.fst
  let k1 := cs.foldl closeChan k
  (k1.fab.sessions.filter (fun e => !e.2.reader && e.2.handles.any (fun h => objPart k1 h == some p))).foldl
    (fun k e => endSession k e.1 e.2 rWrongState 2 []) k1
/-- The wipe: tile memory and hitch counters, staging banks, and the object space of the partition's two stacks; the scrubs of those
stacks end (R62, R69, R521). -/
def partWipe (k : Core) (p : Nat) : Core :=
  let ts := domTiles k p
  let k1 := ts.foldl (fun k t => modTile k t (fun q => { q.stopped with
    mem := Mem.empty, ctrs := [], held := [], regs := [], soft := softStart k, owner := none })) k
  let k2 := wipeQuarterStg { k1 with ghcs := mfilter (fun g _ => ghcDom k1 g != p) k1.ghcs, incs := k1.incs.filter (fun x => domOfTile k1 x.tile != p) } p
  let u := 1024 * stackUnits k2
  let k3 := { k2 with dram := k2.dram.wipe (2 * p * u) ((2 * p + 2) * u) }
  [2 * p, 2 * p + 1].foldl (fun k s => match slotOfAct k 2 s with | some e => freeAct k e.1 | none => k) k3
/-- A field test of the partition's stacks or ports is registered, so the wipe waits (R521). -/
def partTested (k : Core) (p : Nat) : Bool :=
  k.maint.slots.any (fun e => e.2.kind == 1 &&
    (let b := e.2.inst / 16
     let u := e.2.inst % 16
     (b == 2 && u / 2 == p) || (b == 3 && u == p) || ((b == 4 || b == 5) && u / 4 == p)))
/-- The records of event 3 are all written. -/
def partRecorded (k : Core) (p : Nat) : Bool := (domSeqs k p).all (fun s => (seq k s).waiting.isEmpty)
/-- PARTITION_RESET_DONE: the partition is settled, wiped and ACTIVE. -/
def partitionResetDone (k : Core) (p : Nat) : Core :=
  if isResetting k p && !partTested k p && partRecorded k p then
    let k1 := (domSets k p).foldl settleSet k
    let k2 := settleFabric (settleStores (settleEdits k1 p) p) p
    let k3 := (partCtxs k2 p).foldl eraseKey k2
    let k4 := ((k3.pools.filter (fun e => e.2.isOpen && ctxPart k3 e.2.ctx == some p)).map Prod.fst).foldl settlePool k3
    let k5 := settleObjs k4 p
    let k6 := zeroMreg (zeroMreg (partWipe k5 p) (8 + p)) (12 + p)
    let k7 := modDom k6 p (fun q => { q with lastCtx := none, lastConf := false, lastBuilt := true, opened := false, gates := [], layer := 0 })
    retryWants { k7 with glb := { k7.glb with resetting := sdel k7.glb.resetting p } }
  else k

end Sys2Proof.Machine
end

