-- ==== Sys2Proof/Machine/Maint.lean ====
section
/-! DEFINITION. Field tests and the MAINT instructions (R515 to R518, R520 to R525). -/

namespace Sys2Proof.Machine

/-! ## Blocks under test (R515) -/

/-- Block and unit of a field test. -/
def Ctl.block (i : Ctl) : Nat := i.fa 7 0
def Ctl.unit (i : Ctl) : Nat := i.fa 15 8
/-- Units of a block. -/
def blockUnits (b : Nat) : Nat := if b = 1 then 1 else if b = 2 then 8 else if b = 3 then 4 else if b = 4 ∨ b = 5 then 16 else if b = 6 then 2 else 0
/-- Partition whose stacks or ports a unit of a block is. -/
def blockPart (k : Core) (b u : Nat) : Option Nat :=
  let q := if b = 2 then some (u / 2) else if b = 3 then some u else if b = 4 ∨ b = 5 then some (u / 4) else none
  q.filter (isPart k)
/-- Check 11 on the device: ENABLED alone. -/
def cEnabled (k : Core) : Chk := cState 64 (k.glb.st != .enabled) k.glb.st.code
/-- Check 12: a registered activity conflicts. -/
def cConflict (k : Core) (kind inst : Nat) : Chk :=
  match firstConflict k kind inst with
  | some a => cRes 64 true rMaintConflict a
  | none => cRes 64 false rMaintConflict 0

/-! ## MAINT instructions (R524, R525) -/

def maintTestSpec : CtlSpec where
  cls := 0xD
  op := 0x01
  mainRes := resA 31 16 ++ resB 31 24 ++ noC
  checks i k :=
    let b := i.block
    let u := i.unit
    let h := i.fb 23 0
    let o := obj k h
    let pairing := decide (k.fab.twin.st = 1 ∨ k.fab.twin.st = 2)
    [cDevice i k 64, ⟨4, 72, b == 3 && u == 0 && !(k.sec.lc == 0 || k.sec.lc == 3), rDeniedLife, k.sec.lc⟩,
     cRange 64 (decide (b = 0 ∨ 6 < b)), cRange 72 (decide (1 ≤ b ∧ b ≤ 6 ∧ blockUnits b ≤ u))] ++ cHandle i k 32 h ++
    [cRange 32 (o.alloc && (decide (o.pack ≠ 0) || decide (o.len * 64 < 16288))),
     cEnabled k, cResetting k 72 (blockPart k b u), cState 32 (!o.resident) o.arg,
     cState 72 ((b == 4 || b == 5) && isTwinPort k u && pairing) k.fab.twin.st,
     cConflict k 1 (b * 16 + u)]
  run i k :=
    match freeSlotFrom k 0 with
    | some n => inFlight (register k n 1 (i.block * 16 + i.unit) 1 (fun a => { a with ins := some i })) { ins := i, key := n }
    | none => .refuse rNoResource 0

/-- Partition of a scrub's stack. -/
def scrubPart (k : Core) (flash : Bool) (s : Nat) : Option Nat := (some (if flash then s else s / 2)).filter (isPart k)
def maintScrubSpec : CtlSpec where
  cls := 0xD
  op := 0x02
  mainRes := resA 7 1 ++ resA 31 11 ++ resB 31 16 ++ resC 31 16
  checks i k :=
    let flash := i.fa 0 0 == 1
    let s := i.fa 10 8
    let p := i.fb 15 0
    [cDevice i k 64, cOnes 32 16 p, cZero 32 p, cOnes 0 16 (i.fc 15 0), cRange 72 (flash && decide (3 < s)),
     cRange 32 (!flash && decide (p < 64)), cEnabled k, cResetting k 72 (scrubPart k flash s), cConflict k (if flash then 3 else 2) s]
  run i k :=
    let flash := i.fa 0 0 == 1
    let s := i.fa 10 8
    let kind := if flash then 3 else 2
    match freeSlotFrom k 0 with
    | none => .refuse rNoResource 0
    | some n =>
      let k1 := if flash then modFls k s (fun f => { f with scrubUnit := 0, scrubPage := 0 }) else modStk k s (fun q => { q with scrubbed := [] })
      let k2 := register k1 n kind s 2 (fun a => { a with period := i.fb 15 0, passes := i.fc 15 0 })
      .done k2 (leBytes 4 (actId kind s k2.maint.count))

def maintStopSpec : CtlSpec where
  cls := 0xD
  op := 0x03
  mainRes := resA 31 16 ++ noB ++ noC
  checks i k :=
    let kind := i.fa 7 0
    [cDevice i k 64, cRange 64 (decide (kind ≠ 2 ∧ kind ≠ 3)), cState 64 (slotOfAct k kind (i.fa 15 8)).isNone 0]
  run i k :=
    match slotOfAct k (i.fa 7 0) (i.fa 15 8) with
    | none => .refuse rWrongState 0
    | some (n, a) => .done (freeAct k n) (leBytes 8 a.done ++ leBytes 4 a.good ++ leBytes 4 a.bad)

/-- Payload of MAINT.QUERY. -/
def slotPayload (k : Core) (n : Nat) : List Byte :=
  match mget? k.maint.slots n with
  | none => []
  | some a => leBytes 4 a.id ++ leBytes 1 a.st ++ leBytes 3 0 ++ leBytes 8 (if a.kind = 2 ∨ a.kind = 3 then a.done else 0)
def maintQuerySpec : CtlSpec where
  cls := 0xD
  op := 0x04
  mainRes := resA 31 5 ++ noB ++ noC
  checks i k := [cDevice i k 64]
  run i k := .done k (slotPayload k (i.fa 4 0))

/-! ## A field test runs (R516, R517) -/

/-- The message an authorisation signs. -/
def testMsg (k : Core) (b u : Nat) : List Byte :=
  padTo 48 k.sec.devKey ++ leBytes 1 0x10 ++ leBytes 1 b ++ leBytes 1 u ++ leBytes 1 0 ++ leBytes 4 k.glb.incarnation.toNat ++
  leBytes 4 k.err.maintSeq.toNat ++ leBytes 21 0
/-- The MAINT.TEST of a slot. -/
def testFlt (k : Core) (n : Nat) : Option Flt := findFlt k 0xD 0x01 (fun f => f.key == n)
/-- A field test ends: its slot empties, channels that waited for it train, and its instruction retires. -/
def endTest (k : Core) (n reason arg : Nat) (payload : List Byte) : Core :=
  let k1 := (upFrom 0 8).foldl nextTraining (freeAct k n)
  match testFlt k1 n with | some f => retireFlt k1 f reason arg payload | none => k1
/-- FIELD_TEST_VERIFIED: the block is isolated, or the test ends. -/
def fieldTestVerified (k : Core) (n : Nat) : Core :=
  match mget? k.maint.slots n, testFlt k n with
  | some a, some f =>
    if a.kind = 1 ∧ a.st = 1 then
      let b := f.ins.block
      let u := f.ins.unit
      if authOk k (f.ins.fb 23 0) (partyHash k k.sec.lc) (testMsg k b u) then
        let k1 := modAct { k with err := { k.err with maintSeq := k.err.maintSeq + 1 } } n (fun a => { a with st := 2 })
        if b = 4 ∨ b = 5 then portDown k1 u else k1
      else endTest k n rSignature 1 []
    else k
  | _, _ => k
/-- FIELD_TEST_DONE: check, re-initialisation, release. A stack that re-initialises has trained its channels, a port trains again. -/
def fieldTestDone (k : Core) (n : Nat) (passed : Bool) (detail : Nat) (reinitOk : Bool) : Core :=
  match mget? k.maint.slots n, testFlt k n with
  | some a, some f =>
    if a.kind = 1 ∧ a.st = 2 then
      let b := f.ins.block
      let u := f.ins.unit
      let k1 := if passed then k else
        errRecord k { reason := rTestFailed, cls := 3, source := 0x0A, opOnly := true, arg := a.id
                      detail := leBytes 1 b ++ leBytes 1 u ++ leBytes 2 0 ++ leBytes 4 detail }
      let k1 := if b = 2 ∧ reinitOk = true then
          modStk k1 u (fun q => { q with trainTemp := (upFrom 0 16).foldl (fun m c => mput m c q.temp) q.trainTemp }) else k1
      let k2 := endTest k1 n 0 0 (leBytes 1 (b2n !passed) ++ leBytes 1 b ++ leBytes 1 u ++ leBytes 1 0 ++ leBytes 4 a.id ++ leBytes 4 detail)
      if (b = 4 ∨ b = 5) ∧ reinitOk = true then portRetryTimer k2 u else k2
    else k
  | _, _ => k

end Sys2Proof.Machine
end

