-- ==== Sys2Proof/Machine/Aperture.lean ====
section
/-! DEFINITION. The BAR4 aperture onto device memory (R85, R92, R104, R321, R322, R325, R326, R459, R490, R516). -/

namespace Sys2Proof.Machine

/-- Object-space address of an aperture offset (R92). -/
def apAddr (k : Core) (x : Nat) : Nat := rfld k oAperture 7 0 * 2 ^ 30 + x
/-- The 64-byte lines an access touches. -/
def apLines (a n : Nat) : List Nat := if n = 0 then [] else upFrom (a / 64) ((a + n - 1) / 64 - a / 64 + 1)
/-- Stack that holds an object-space line. -/
def lineStack (k : Core) (l : Nat) : Nat := (stackAddr k (64 * l)).1
/-- The line lies in the memory of a RESETTING partition (R92). -/
def lineResetting (k : Core) (l : Nat) : Bool := partsInUse k && isResetting k (lineStack k l / 2)
/-- The access passes the end of the aperture or of the object space, or meets a RESETTING partition (R92). -/
def apOutside (k : Core) (x n : Nat) : Bool :=
  decide (k.pci.bar4Gib * 2 ^ 30 < x + n) || decide (objSpaceBytes k < apAddr k x + n) ||
  (apLines (apAddr k x) n).any (lineResetting k)
/-- The object whose copy holds a line, the rest of its last 64 KiB included (R315): its handle and the line within the copy. -/
def lineObj (k : Core) (l : Nat) : Option (Nat × Nat) := (objAt k (64 * l)).map (fun h => (h, l - (obj k h).addr / 64))
/-- The access meets memory of a confidential context (R92, R490). -/
def apConf (k : Core) (x n : Nat) : Bool :=
  (apLines (apAddr k x) n).any (fun l => match lineObj k l with | some e => objConf k e.1 | none => false)
/-- The line cannot be reached yet: it is being recovered, its stack is under test, or an operation on its object holds its reads. -/
def lineWaits (k : Core) (read : Bool) (l : Nat) : Bool :=
  stackHeld k false (lineStack k l) ||
  match lineObj k l with
  | some e => (mget? (obj k e.1).recov e.2).isSome || (read && heldRead k e.1 [e.2])
  | none => false
/-- The access waits: in GRAZE all do (R459). A halted device serves reads of what its memory holds (R85). -/
def apWaits (k : Core) (q : ApReq) : Bool :=
  k.glb.st == .graze ||
  (k.glb.st != .halted && (apLines (apAddr k q.off) q.len).any (lineWaits k q.data.isNone))

/-- Refuse an access: Unsupported Request for a read, an AER report for a write (R92). -/
def apRefuse (k : Core) (q : ApReq) : Core := 
  if q.data.isNone then emit k .unsupported else aerReport k ⟨false, 4, q.off, q.len⟩
/-- The byte a read returns: of a copy that is complete or being evicted, else zero (R322). -/
def apByte (k : Core) (a : Nat) : Byte :=
  match lineObj k (a / 64) with
  | some e => if (obj k e.1).st = .complete ∨ (obj k e.1).st = .evicting then k.dram.byte 0 a else 0
  | none => 0
/-- A line a read serves is poisoned. -/
def apBad (k : Core) (l : Nat) : Bool :=
  match lineObj k l with
  | some e => ((obj k e.1).st == .complete || (obj k e.1).st == .evicting) && k.dram.lineBad l
  | none => false
/-- Serve a read (R85, R92, R322). -/
def apRead (k : Core) (q : ApReq) : Core :=
  let a := apAddr k q.off
  let ls := apLines a q.len
  if ls.any (fun l => (stk k (lineStack k l)).frozen) then emit k .completerAbort
  else emit k (.data ((upFrom a q.len).map (apByte k)) (ls.any (apBad k)))
/-- Poison of the words a write carries: all of them where the write is poisoned; a word written whole is clean otherwise. -/
def apPoison (m : Mem) (a n : Nat) (poisoned : Bool) : Mem :=
  if poisoned then m.setBads true (a / 8) ((a + n - 1) / 8 - a / 8 + 1) else m.setBads false (cdiv a 8) ((a + n) / 8 - cdiv a 8)
/-- Write the part of the data that lies in line l into a copy, or discard it (R322, R325). -/
def apWriteLine (q : ApReq) (b : List Byte) (k : Core) (l : Nat) : Core :=
  let a := apAddr k q.off
  let lo := max a (64 * l)
  let part := (b.drop (lo - a)).take (64 * (l + 1) - lo)
  match lineObj k l with
  | none => { k with sched := { k.sched with apDrop := true } }
  | some e =>
    if (obj k e.1).home = 1 ∨ ¬((obj k e.1).st = .complete ∨ (obj k e.1).st = .evicting) then
      { k with sched := { k.sched with apDrop := true } }
    else
      let k1 := if (obj k e.1).st = .evicting then stopEviction k e.1 else k
      noteWrite { k1 with dram := apPoison (k1.dram.putBytes 0 lo part) lo part.length q.poisoned } e.1 e.2 1
/-- Carry out an access that waits for nothing. -/
def apServe (k : Core) (q : ApReq) : Core :=
  if k.glb.st = .halted ∧ q.data.isSome then k
  else if apOutside k q.off q.len then apRefuse k q
  else if apConf k q.off q.len then
    errRecord (apRefuse k q) { reason := rDeniedConf, cls := 2, source := 5, opOnly := true, arg := 0xFFFFFFFF }
  else match q.data with
  | none => apRead k q
  | some b => (apLines (apAddr k q.off) q.len).foldl (apWriteLine q b) k
/-- Hold an access behind those held before it. -/
def apHold (k : Core) (q : ApReq) : Core :=
  { k with pst := { k.pst with heldBar4 := k.pst.heldBar4 ++ [q], apHeld := k.pst.apHeld + 1 } }
/-- A BAR4 access arrives (R85, R459). -/
def apAccess (k : Core) (q : ApReq) : Core :=
  if !powered k then k
  else if k.glb.st = .reset ∨ k.glb.st = .config then
    (if q.data.isNone then emit k (.data (List.replicate q.len 0) false) else k)
  else if apWaits k q then apHold k { q with no := k.pst.apHeld }
  else apServe k q
/-- Serve the held accesses that need wait no longer. -/
def apRetry (k : Core) : Core :=
  k.pst.heldBar4.foldl (fun k q =>
    if apWaits k q then { k with pst := { k.pst with heldBar4 := k.pst.heldBar4 ++ [q] } } else apServe k q)
    { k with pst := { k.pst with heldBar4 := [] } }

/-- BAR4_READ. -/
def bar4Read (k : Core) (x n : Nat) : Core := apAccess k { off := x, data := none, len := n, poisoned := false }
/-- BAR4_WRITE. -/
def bar4Write (k : Core) (x : Nat) (b : List Byte) (w : WriteAttr) : Core :=
  apAccess k { off := x, data := some b, len := b.length, poisoned := w.poisoned, relaxed := w.relaxed }

end Sys2Proof.Machine
end

