-- ==== Sys2Proof/Machine/PowerStates.lean ====
section
/-! DEFINITION. Power states: the entry handshake, HOLD and GRAZE, wake, exit and the GRAZE sampler (R457 to R470). -/

namespace Sys2Proof.Machine

def modPst (k : Core) (f : Pst → Pst) : Core := { k with pst := f k.pst }

/-! ## The entry handshake (R460, R461) -/

/-- A block's answer: it agrees, delays, or refuses with a cause. -/
inductive Answer where
  | agrees | delays | refuses (cause : Nat)
  deriving DecidableEq, Repr

/-- A slot is written whole. -/
def slotFull (p : Port) (s : Nat) : Bool := (upFrom 0 16).all (fun i => (mget? p.slots (16 * s + i)).isSome)
/-- Slots of all ports that are written and not consumed. -/
def filledSlots (k : Core) : Nat :=
  (k.ports.map (fun e => ((e.2.slots.map (fun x => x.1 / 16)).dedup.filter (slotFull e.2)).length)).sum
/-- A sequence is eligible for a step. -/
def someEligible (k : Core) : Bool := (liveSeqs k).any (eligible k)
/-- A DATA or MIRROR frame awaits its acknowledgement. -/
def frameAwaited (k : Core) : Bool :=
  !k.fab.twin.unacked.isEmpty || k.tiles.any (fun e => match e.2.dm with | some (.peer _ _ _) => true | _ => false)
/-- What a block of R460's table answers now. -/
def blockAnswer (k : Core) : Nat → Answer
  | 1 =>
    if k.doms.any (fun e => e.2.running.isSome || !e.2.retiring.isEmpty) then .delays
    else if someEligible k then .refuses 1 else .agrees
  | 2 =>
    if k.objs.any (fun e => e.2.alloc && (e.2.st == .fetching || e.2.st == .evicting || !e.2.recov.isEmpty)) then .delays else .agrees
  | 3 =>
    if k.fab.twin.st = 1 ∨ k.fab.twin.st = 2 then .refuses 1
    else if k.fab.chans.any (fun e => e.2.st != 0) then .refuses 2
    else if !k.fab.sessions.isEmpty then .refuses 3
    else if frameAwaited k then .delays else .agrees
  | 4 => if !k.flOps.isEmpty || k.flss.any (fun e => !e.2.erasing.isEmpty || !e.2.toErase.isEmpty) then .refuses 1 else .agrees
  | 5 =>
    if k.stks.any (fun e => e.2.migrating.isSome) then .refuses 1
    else if k.stks.any (fun e => !e.2.training.isEmpty) then .delays else .agrees
  | 6 => if k.maint.slots.any (fun e => decide (e.1 < 16) && (e.2.st == 1 || e.2.st == 2)) then .refuses 1 else .agrees
  | 7 =>
    if unsettled k then .refuses 1
    else if (findFlt k 0xC 0x81 (fun _ => true)).isSome then .delays else .agrees
  | 8 => if k.seqs.any (fun e => !e.2.waiting.isEmpty) then .refuses 1 else if !k.held.isEmpty then .delays else .agrees
  | 9 => if !k.glb.resetting.isEmpty then .refuses 1 else .agrees
  | _ => .agrees

/-- A change that an entry handshake holds back: a block but the Scheduler, the Host link and the Partitions, which agrees, would no longer
agree after it (R461, assumption 81). -/
def handshakeHolds (k k' : Core) : Bool :=
  k.pst.handshake == 1 && (upFrom 2 6).any (fun b => blockAnswer k b == .agrees && blockAnswer k' b != .agrees)
/-- Work that an entry handshake holds back waits (R461). -/
def unlessHeld (f : Core → Core) (k : Core) : Core := if handshakeHolds k (f k) then k else f k

/-- The comparator's count of samples, and whether it is active (R467). -/
def cmpActive (k : Core) (n : Nat) : Bool := decide (max 1 (rfld k (oGrazeCmp n) 11 8) ≤ mget 0 k.pst.runs n)
/-- WAKE_N is a wake source, and its kind (R464). -/
def wakeNOn (k : Core) (edge : Nat) : Bool := rfld k oWakeCtl 0 0 == 1 && rfld k oWakeCtl 1 1 == edge && k.pst.wakeSeen
/-- A wake source of R464 is active for power state target 1 HOLD or 2 GRAZE. -/
def sourceActive (k : Core) (target : Nat) : Nat → Bool
  | 1 => wakeNOn k 0
  | 2 => wakeNOn k 1
  | 3 => target == 2 && decide (0 < filledSlots k)
  | 4 => target == 2 && !k.pst.heldBar4.isEmpty
  | 5 => target == 2 && !k.fab.held.isEmpty
  | 6 => target == 1 && someEligible k
  | 7 => target == 2 && (upFrom 0 8).any (fun n => cmpActive k n && rfld k (oGrazeCmp n) 5 5 == 1)
  | 8 => target == 1 && k.pst.asked
  | _ => false
/-- The PWR.ENTER in flight. -/
def enterFlt (k : Core) : Option Flt := findFlt k 0xB 0x04 (fun _ => true)

def pwrEnterSpec : CtlSpec where
  cls := 0xB
  op := 0x04
  mainRes := resA 31 2 ++ noB ++ noC
  checks i k :=
    let t := i.fa 1 0
    [cDevice i k 64, cRange 64 (t == 0 || t == 3), cBusy 64 (enterFlt k), cState 64 (k.glb.st != .enabled) k.glb.st.code]
  run i k := inFlight (modPst k (fun p => { p with handshake := 1, target := i.fa 1 0, wakeSeen := false, asked := false })) { ins := i }
def pwrWakeSpec : CtlSpec where
  cls := 0xB
  op := 0x05
  mainRes := noA ++ noB ++ noC
  checks i k := [cDevice i k 64]
  run _ k :=
    .done (if k.glb.st = .hold then modPst k (fun p => { p with asked := true }) else k) (leBytes 4 k.glb.st.code)

/-- Before self refresh a controller pays every refresh it owes (R458). -/
def payRefresh (k : Core) : Core :=
  { k with stks := mmap (fun _ (s : Stk) => { s with pcs := mmap (fun _ (c : Pc) => { c with owed := 0, burst := false }) s.pcs }) k.stks }
/-- Every block agrees and nothing wakes the device. -/
def mayCommit (k : Core) : Bool :=
  (upFrom 1 9).all (fun b => blockAnswer k b == .agrees) && (upFrom 1 8).all (fun n => !sourceActive k k.pst.target n)
/-- ENTRY_COMMIT, cclk after the handshake began (R462). -/
def entryCommit (k : Core) (cclk : W32) : Core :=
  match enterFlt k with
  | none => k
  | some f =>
    if k.glb.st = .enabled ∧ mayCommit k = true then
      let st : DevState := if k.pst.target = 2 then .graze else .hold
      let k1 := modPst (payRefresh k) (fun p => { p with handshake := 2, runs := [], wakeSeen := false, asked := false, waking := false })
      retireFlt (setState k1 st) f 0 0 (leBytes 4 st.code ++ leBytes 4 cclk.toNat)
    else k
/-- The handshake ends without entry (R461). -/
def entryFails (k : Core) (arg : Nat) : Core :=
  match enterFlt k with
  | none => k
  | some f =>
    retireFlt (bump (modPst k (fun p => { p with handshake := 0, wakeSeen := false })) oEntryRefused 1) f rPowerRefused arg []
/-- ENTRY_REFUSED, where the block or the source gives it cause. -/
def entryRefused (k : Core) (stop : EntryStop) : Core :=
  if k.glb.st = .enabled then
    match stop with
    | .refused b => match blockAnswer k b.toNat with | .refuses c => entryFails k (b.toNat + 256 * c) | _ => k
    | .delayLimit b => if blockAnswer k b.toNat = .delays then entryFails k (b.toNat + 2 ^ 16) else k
    | .woken s => if sourceActive k k.pst.target s.toNat then entryFails k (0x80 + s.toNat) else k
  else k

/-! ## Wake and exit (R464 to R466) -/

/-- The target code of the state the device is in. -/
def pstateOf (k : Core) : Nat := if k.glb.st = .hold then 1 else if k.glb.st = .graze then 2 else 0
/-- WAKE_N low for n ACLK cycles. Its level or its edge counts only after it has held for 2 cycles behind the synchroniser; a pulse of 2
or 3 cycles may count (R39, assumption 1). -/
def wakeNAssert (k : Core) (n : Nat) : Core :=
  if aclkOn k && (k.pst.handshake == 1 || pstateOf k != 0) && decide (2 ≤ n) then
    let (b, k1) := drawBool k
    if decide (4 ≤ n) || b then modPst k1 (fun p => { p with wakeSeen := true }) else k1
  else k
/-- POWER_WAKE: an active source begins the exit, unless one is under way. -/
def powerWake (k : Core) (s : Nat) : Core :=
  if pstateOf k ≠ 0 ∧ k.pst.waking = false ∧ sourceActive k (pstateOf k) s = true then
    modPst k (fun p => { p with waking := true, lastWake := s, fromGraze := k.glb.st == .graze })
  else k
/-- A grant held in GRAZE is decided at exit (R459). -/
def heldGrantTaken (k : Core) : Core :=
  match k.pwr.heldGrant with
  | some (b, src) => takeGrant (modPwr k (fun p => { p with heldGrant := none })) b (some src)
  | none => k
/-- POWER_EXIT_COMPLETE: a save image with an uncorrectable error halts the device (R465). -/
def powerExitComplete (k : Core) (imageOk : Bool) : Core :=
  if !k.pst.waking then k
  else if k.pst.fromGraze && !imageOk then failStop k rUncorrectable 0 0 0
  else
    let k1 := modPst (setState k .enabled) (fun p => { p with
      handshake := 0, waking := false, wakeSeen := false, asked := false, runs := [] })
    releaseHeld (heldGrantTaken (apRetry (softStartAll k1 (upFrom 0 256))))

/-! ## The GRAZE sampler (R467, R470) -/

/-- The value of a sample source; source 5 before any grant is a free value (assumption 1). -/
def sampleOf (k : Core) (r : GrazeReadings) (grant : Nat) : Nat → Nat
  | 0 => r.temp.toNat
  | 1 => r.core0.toNat
  | 2 => r.core1.toNat
  | 3 => r.hbm.toNat
  | 4 => r.power.toNat
  | 5 => grant
  | 6 => min 65535 (filledSlots k)
  | _ => min 65535 (k.fab.held.length + (if k.pwr.heldGrant.isSome then 1 else 0))
/-- The condition of a comparator holds in a sample. -/
def cmpHolds (k : Core) (v : Nat) (n : Nat) : Bool :=
  let t := rfld k (oGrazeCmp n) 31 16
  match rfld k (oGrazeCmp n) 4 3 with
  | 1 => decide (t < v)
  | 2 => decide (v < t)
  | _ => false
/-- One comparator's turn: its run of samples, and its HIT bit when it becomes active. -/
def cmpStep (r : GrazeReadings) (g : Nat) (k : Core) (n : Nat) : Core :=
  let on := cmpHolds k (sampleOf k r g (rfld k (oGrazeCmp n) 2 0)) n
  let k1 := modPst k (fun p => { p with runs := mset 0 p.runs n (if on then min 15 (mget 0 p.runs n + 1) else 0) })
  if cmpActive k1 n then modPst k1 (fun p => { p with hit := Nat.lor p.hit (2 ^ n) }) else k1
/-- GRAZE_SAMPLE. -/
def grazeSample (k : Core) (r : GrazeReadings) : Core :=
  if k.glb.st = .graze ∧ aclkOn k = true ∧ k.pst.waking = false then
    let (free, k0) := drawNat k
    let g := (match k.pwr.seen with | some mw => mw / 1000 | none => free) % 2048
    let k1 := modPst (bump k0 oGrazeCycles 1) (fun p => { p with
      last := BitVec.ofNat 64 (r.temp.toNat + r.core0.toNat * 2 ^ 8 + r.core1.toNat * 2 ^ 18 + r.hbm.toNat * 2 ^ 28 +
        r.power.toNat * 2 ^ 36 + g * 2 ^ 47) })
    (upFrom 0 8).foldl (cmpStep r g) k1
  else k

end Sys2Proof.Machine
end

