-- ==== Sys2Proof/Machine/Feed.lean ====
section
/-! DEFINITION. Feed ports: words in slots, the taking of instructions, bundles and FENCE, opening and closing, rings and heads
(R93 to R103, R106 to R125). -/

namespace Sys2Proof.Machine

/-! ## The control instructions -/

/-- SYS, SEQ, PT and ACCT instructions. -/
def ctlTableA : List CtlSpec :=
  [sysNopSpec, sysQuerySpec, sysRingOpenSpec, sysRingCloseSpec, sysCtxOpenSpec, sysCtxCloseSpec, seqOpenSpec, seqPromptSpec, seqStartSpec,
   seqPauseSpec, seqResumeSpec, seqCancelSpec, seqCloseSpec, seqStopSpec, seqPrioSpec, seqQuerySpec, ptPoolOpenSpec, ptPoolCloseSpec,
   ptPoolStatSpec, ptBindSpec, ptReadSpec, ptEditSpec, acctOpenSpec, acctSetSpec, acctGrantSpec, acctCloseSpec, acctStatSpec]
/-- MSET, OBJ, PWR, SEC, MAINT and FAB instructions. -/
def ctlTableB : List CtlSpec :=
  [msetLoadSpec, msetSwapSpec, msetDrainSpec, msetQuerySpec, objAllocSpec, objPromoteSpec, objEvictSpec, objPinSpec, objUnpinSpec,
   objCleanSpec, objFreeSpec, objQuerySpec, objSchedSpec, objFlEraseSpec, objFlQuerySpec, objFlStoreSpec, pwrStepTargetSpec,
   pwrLimitSpec, pwrQuerySpec, pwrEnterSpec, pwrWakeSpec, secExtendSpec, secFwStageSpec, secFwActivateSpec, secFwAbortSpec,
   secFwCommitSpec, secLcAdvanceSpec, secQuoteSpec, secCtxKeySpec, maintTestSpec, maintScrubSpec, maintStopSpec, maintQuerySpec,
   fabRouteSpec, fabChanOpenSpec, fabChanCloseSpec, fabBcastSendSpec, fabBcastRecvSpec, fabTwinJoinSpec, fabTwinLeaveSpec, fabFailrecSpec,
   fabNodeQuerySpec]
/-- Every control instruction (R109). -/
def ctlTable : List CtlSpec := ctlTableA ++ ctlTableB
/-- Classes a feed port may send (R109). -/
def ctlClass (c : Nat) : Bool := [0x0, 0x1, 0x2, 0x3, 0x4, 0xB, 0xC, 0xD, 0xE].contains c
/-- An instruction as it stands in a port's slots: checks 1 and 2, then those of its own kind (R111). -/
def runIns (inBundle : Bool) (i : Ctl) (k : Core) : Res :=
  if !ctlClass i.cls then .refuse rBadClass i.cls
  else match ctlTable.find? (fun s => s.cls == i.cls && s.op == i.op) with
  | none => .refuse rBadOpcode i.op
  | some sp => ctlRun sp inBundle i k

/-! ## Words (R93, R94) -/

/-- The word in slot s. -/
def slotWord (p : Port) (s : Nat) : W128 := BitVec.ofNat 128 (ofLE ((upFrom 0 16).map (fun i => mget 0 p.slots (16 * s + i))))
/-- Slot of word number w. -/
def slotOf (w : Nat) : Nat := w % 4096
/-- Words of the instruction whose first word is w (R108). -/
def wordsAt (p : Port) (w : Nat) : Nat := if (slotWord p (slotOf w)).getLsbD 127 then 2 else 1
/-- The instruction that starts at word w is written whole. -/
def insReady (p : Port) (w : Nat) : Bool := slotFull p (slotOf w) && (wordsAt p w == 1 || slotFull p (slotOf (w + 1)))
/-- The instruction that starts at word w, with its ordinal. -/
def insAt (p : Port) (n w : Nat) (ord : W32) : Ctl :=
  let m := slotWord p (slotOf w)
  let v := m.toNat
  { src := .port (BitVec.ofNat 6 n), ord := ord, flags := BitVec.ofNat 4 (bits v 115 112), hdr := BitVec.ofNat 16 (bits v 111 96),
    cls := bits v 119 116, op := bits v 127 120, a := BitVec.ofNat 32 (bits v 95 64), b := BitVec.ofNat 32 (bits v 63 32),
    c := BitVec.ofNat 32 (bits v 31 0), x := if m.getLsbD 127 then slotWord p (slotOf (w + 1)) else 0 }
/-- Mark slot s unwritten. -/
def clearSlot (p : Port) (s : Nat) : Port := { p with slots := mfilter (fun a _ => a / 16 != s) p.slots, stamps := mset 0 p.stamps s 0 }

/-! ## Bundles (R121 to R125) -/

/-- The port's collected bundle is complete and waits for its FENCE. -/
def bundleWaits (p : Port) : Bool := match p.bundle.getLast? with | some i => i.isLast | none => false
/-- Write the records of a bundle that does not take effect, consecutively and in ordinal order: the refused instruction's own reason,
and BUNDLE_ABORTED with an ordinal for the others. -/
def abortBundle (k : Core) (n : Nat) (l : List Ctl) (ord reason arg : Nat) : Core :=
  l.foldl (fun k i => if i.ord.toNat = ord then record k n i reason arg [] else record k n i rBundleAborted ord []) k
/-- Apply the instructions of a bundle one after another; the first refusal ends it. -/
def applyBundle : Nat → List Ctl → Core → Core × Option (Ctl × Nat × Nat)
  | _, [], k => (k, none)
  | j, i :: r, k =>
    match runIns (decide (0 < j)) i k with
    | .refuse a b => (k, some (i, a, b))
    | res => applyBundle (j + 1) r (ctlEnd k i res)
/-- Apply the port's complete bundle: all of it, or none (R122). -/
def runBundle (k : Core) (n : Nat) : Core :=
  let l := (port k n).bundle
  let k0 := modPort k n (fun p => { p with bundle := [] })
  match l with
  | [] => k0
  | [i] => unfence (ctlEnd k0 i (runIns false i k0)) n
  | _ =>
    let k1 := modPort k0 n (fun p => { p with groups := p.groups ++ [l.map (fun i => { ins := i })] })
    match applyBundle 0 l k1 with
    | (k2, none) => unfence k2 n
    | (_, some (i, r, a)) => unfence (abortBundle (noteRefusal k0 i r) n l i.ord.toNat r a) n
/-- Start the bundles that a FENCE or an entry handshake holds no longer (R121, R461). -/
def startFenced (k : Core) : Core :=
  if ctlServed k then
    (k.ports.map Prod.fst).foldl (fun k n =>
      let p := port k n
      if bundleWaits p && (portIdle k n || !(match p.bundle with | i :: _ => i.fence | [] => false)) then unlessHeld (runBundle · n) k else k) k
  else k
/-- An instruction of port n joins its bundle; the last one applies it (R122, R123). -/
def joinBundle (k : Core) (n : Nat) (i : Ctl) : Core :=
  let p := port k n
  match p.abortTail with
  | some o =>
    let k1 := record k n i rBundleAborted o.toNat []
    if i.isLast then modPort k1 n (fun q => { q with abortTail := none }) else k1
  | none =>
    let l := p.bundle ++ [i]
    let k1 := modPort k n (fun q => { q with bundle := l, fenced := q.fenced || (q.bundle.isEmpty && i.fence) })
    if i.isLast then (if (l.headD i).fence && !portIdle k n then k1 else unlessHeld (runBundle · n) k1)
    else if l.length = 16 then
      let k2 := abortBundle (modPort k1 n (fun q => { q with bundle := [], abortTail := some i.ord, fenced := false })) n
        (l.take 15) i.ord.toNat 0 0
      record k2 n i rOverrun 113 []
    else k1

/-! ## Taking (R96, R98) -/

/-- A BAR4 write that arrived before the port's next instruction is not visible yet; one with Relaxed Ordering is exempt (R104). -/
def behindBar4 (k : Core) (n : Nat) : Bool :=
  let p := port k n
  (upFrom p.consumed (wordsAt p p.consumed)).any (fun w =>
    k.pst.heldBar4.any (fun q => q.data.isSome && !q.relaxed && decide (q.no < mget 0 p.stamps (slotOf w))))
/-- WAIT of FEED_PORT_STATUS: a closed port reads 5 from reset on (assumption 73). -/
def portWait (k : Core) (n : Nat) : Nat :=
  let p := port k n
  match p.st with
  | .closed => 5
  | .closing => 6
  | .opened =>
    if !insReady p p.consumed then 1
    else if !cqFree k n then 2
    else if bundleWaits p || (p.fenced && p.bundle.isEmpty) then 3
    else 0
/-- Consume the words of the port's next instruction; the write-back line follows every 64th word and a drain (R96). -/
def consume (k : Core) (n : Nat) : Ctl × Core :=
  let p := port k n
  let w := wordsAt p p.consumed
  let i := insAt p n p.consumed p.ordinal
  let q := (upFrom 0 w).foldl (fun q j => clearSlot q (slotOf (p.consumed + j))) p
  let c := p.consumed + w
  let k1 := modPort k n (fun _ => { q with consumed := c, ordinal := p.ordinal + 1 })
  (i, if c / 64 ≠ p.consumed / 64 ∨ slotFull q (slotOf c) = false then writeLine k1 n else k1)
/-- FEED_TAKE: a port takes its next instruction where nothing holds it. -/
def feedTake (k : Core) (n : Nat) : Core :=
  if ctlServed k && portWait k n == 0 && !behindBar4 k n then
    let (i, k1) := consume k n
    joinBundle k1 n i
  else k

/-! ## BAR2 (R85, R93, R95) -/

/-- Ordinal the word in slot s will carry: instructions are counted from the port's next word, a slot not written counting as one. -/
def ordinalOf (p : Port) (s : Nat) : Nat → Nat → W32 → Nat × W32
  | 0, w, o => (w, o)
  | f + 1, w, o =>
    let n := if slotFull p (slotOf w) then wordsAt p w else 1
    if (upFrom w n).any (fun v => slotOf v == s) then (w, o) else ordinalOf p s f (w + n) (o + 1)
/-- A write meets a slot that holds a written word (R95). -/
def feedOverflow (k : Core) (n s : Nat) : Core :=
  let p := port k n
  let k1 := modPort k n (fun q => { q with overflow := true })
  let (w, o) := ordinalOf p s 4096 p.consumed p.ordinal
  if cqFree k1 n then record k1 n (insAt p n w o) rFeedOverflow s [] else k1
/-- Bytes of one write for one slot of a port. -/
def slotWrite (k : Core) (n s lo : Nat) (b : List Byte) : Core :=
  let p := port k n
  if p.st ≠ .opened then { k with glb := { k.glb with earlyFeed := true } }
  else if slotFull p s then feedOverflow k n s
  else modPort k n (fun q => { q with
    slots := b.zipIdx.foldl (fun m x => mput m (16 * s + lo + x.2) x.1) q.slots, stamps := mset 0 q.stamps s k.pst.apHeld })
/-- Slot by slot, from BAR2 offset a. -/
def slotWrites (k : Core) : Nat → Nat → List Byte → Core
  | 0, _, _ => k
  | f + 1, a, b =>
    if b.isEmpty then k
    else
      let m := 16 - a % 16
      let k1 := if a < 2 ^ 22 then slotWrite k (a / 65536) (a / 16 % 4096) (a % 16) (b.take m) else k
      slotWrites k1 f (a + m) (b.drop m)
/-- BAR2_FEED_WRITE. -/
def bar2FeedWrite (k : Core) (a : Nat) (b : List Byte) : Core :=
  if !powered k then k
  else if ctlServed k || k.glb.st == .graze then slotWrites k (b.length + 1) a b
  else { k with glb := { k.glb with earlyFeed := true } }

/-! ## Opening and closing (R97) -/

/-- Open a closed port whose settings hold. -/
def portOpen (k : Core) (n : Nat) : Core :=
  if portRule k n then
    modPort k n (fun p => { st := .opened, overflow := p.overflow, badHead := p.badHead, openErr := p.openErr })
  else modPort k n (fun p => { p with openErr := true })
/-- A write of EN = 1: only a closed port opens, in CONFIG and ENABLED. -/
def portEnable (k : Core) (n : Nat) : Core :=
  match (port k n).st with
  | .opened => k
  | .closing => modPort k n (fun p => { p with openErr := true })
  | .closed => if k.glb.st = .config ∨ k.glb.st = .enabled then portOpen k n else k
/-- The final write-back line, and the port is closed. -/
def portShut (k : Core) (n : Nat) : Core :=
  modPort (writeLine k n) n (fun p => { p with st := .closed, fenced := false, wbPaced := false })
/-- Every instruction of the opening has retired. -/
def portDone (k : Core) (n : Nat) : Bool := portIdle k n && (port k n).bundle.isEmpty
/-- A write of EN = 0. -/
def portClose (k : Core) (n : Nat) : Core :=
  let p := port k n
  if p.st ≠ .opened then k
  else
    let k1 := if bundleWaits p then k
      else modPort (abortBundle k n p.bundle 0xFFFFFFFF rBundleAborted 0xFFFFFFFF) n (fun q => { q with bundle := [] })
    let k2 := modPort k1 n (fun q => { q with slots := [], stamps := [], abortTail := none, st := .closing })
    if portDone k2 n then portShut k2 n else k2
/-- FEED_PORT_CLOSED. -/
def feedPortClosed (k : Core) (n : Nat) : Core := if (port k n).st == .closing && portDone k n then portShut k n else k

/-! ## Heads and pacing (R99, R100, R103, R508) -/

/-- A running count of freed records: it may not pass the records written. A count below the present HEAD is one that wraps past them
(assumption 74). -/
def headOk (produced head v : W32) : Bool := decide ((v - head).toNat ≤ (produced - head).toNat)
/-- FEED_CQ_HEAD. -/
def cqHead (k : Core) (n : Nat) (v : W32) : Core :=
  if headOk (port k n).produced (port k n).head v then modPort k n (fun p => { p with head := v })
  else modPort k n (fun p => { p with badHead := true })
/-- HEAD of FEED_DR_HEAD. -/
def drHead (k : Core) (r : Nat) (v : W32) : Core :=
  if headOk (dring k r).produced (dring k r).head v then modRing k r (fun d => { d with head := v })
  else modRing k r (fun d => { d with badHead := true })
/-- HEAD of ERR_RING_HEAD. -/
def errHead (k : Core) (r : Nat) (v : W32) : Core :=
  if headOk (ering k r).produced (ering k r).head v then modERing k r (fun g => { g with head := v })
  else modERing k r (fun g => { g with badHead := true })
/-- EN of ERR_RING_CTL. -/
def errRingEn (k : Core) (r : Nat) (on : Bool) : Core :=
  if !on then modERing k r (fun g => { g with en := false })
  else if (ering k r).en then k
  else if ringRule (rreg k (oErrWb r)).toNat (rreg k (oErrBase r)).toNat (rfld k (oErrSize r) 16 0) then
    modERing k r (fun g => { g with en := true, produced := 0, head := 0 })
  else modERing k r (fun g => { g with openErr := true })
/-- MSIX_TIME_TRIGGER; a time of zero disables the trigger. -/
def msixTimeTrigger (k : Core) : PacedRing → Core
  | .completion n => if rfld k (oPortCtl n.toNat) 55 40 = 0 then k else portSignal k n.toNat true
  | .delivery r => if (dring k r.toNat).time = 0 then k else ringSignal k r.toNat true
/-- WRITEBACK_COALESCE_EXPIRY: the pending write-back is made and a new interval begins. -/
def coalesceExpiry (k : Core) (n : Nat) : Core :=
  if !(port k n).wbPaced then k
  else if (port k n).wbDue then writeLine k n
  else modPort k n (fun p => { p with wbPaced := false })

end Sys2Proof.Machine
end

