-- ==== Sys2Proof/Machine/Host.lean ====
section
/-! DEFINITION. BAR0 as host software writes it: access types by device state, the registers whose writes act, the MSI-X table
(R8, R9, R81, R82, R85, R92, R103, R459, R527 to R534). -/

namespace Sys2Proof.Machine

/-- n ones from bit lo, as a mask. -/
def fieldMask (hi lo : Nat) : W64 := BitVec.ofNat 64 (2 ^ (hi + 1) - 2 ^ lo)
/-- A write of v under a byte mask writes 1 to bit i. -/
def writes1 (v mask : W64) (i : Nat) : Bool := v.getLsbD i && mask.getLsbD i
/-- BAR0 writes are served (R85, R459). -/
def bar0Served (k : Core) : Bool := k.glb.st == .config || k.glb.st == .enabled || k.glb.st == .hold
/-- RWL bits can be written: in CONFIG, outside the check (R82). -/
def rwlOpen (k : Core) : Bool := k.glb.st == .config && !k.glb.checking
/-- The register's stored bits are held: a port's while it is open or closing (R97), an error ring's while it is enabled (R534). -/
def regHeld (k : Core) (off : Nat) : Bool :=
  if 0x20000 ≤ off ∧ off < 0x21000 then (port k ((off - 0x20000) / 0x40)).st != .closed
  else if 0x1E0100 ≤ off ∧ off < 0x1E0180 then (ering k ((off - 0x1E0100) / 0x40)).en
  else false
/-- Store the bits a write may change; an RWL write during the check is noted (R9, R82). -/
def storeReg (k : Core) (off : Nat) (v mask : W64) : Core :=
  match regRow off with
  | none => k
  | some r =>
    let rwl := BitVec.ofNat 64 r.rwl &&& mask
    let m := (BitVec.ofNat 64 r.rw &&& mask) ||| (if rwlOpen k then rwl else 0)
    let k1 := if k.glb.st = .config ∧ k.glb.checking = true ∧ rwl ≠ 0 then { k with glb := { k.glb with lateWrite := true } } else k
    if regHeld k off then k1 else wreg k1 off (merge (rreg k1 off) v m)

/-! ## CLR bits (R531) -/

/-- A CLR register: its offset, its CLR bit, and the offsets of its counters. -/
structure ClrReg where
  bitNo : Nat
  lo : Nat
  hi : Nat
  deriving DecidableEq, Repr

/-- The CLR register at an offset. -/
def clrReg (off : Nat) : Option ClrReg :=
  if off = oGlbCtrl then some ⟨1, 0x60, 0x70⟩
  else if off = oPciCtl then some ⟨1, 0x10018, 0x10020⟩
  else if off = oSchdCtl then some ⟨0, 0x40100, 0x40400⟩
  else if off = oObjCtl then some ⟨16, 0x40500, 0x40800⟩
  else if off = oFabCtl then some ⟨0, 0x140000, 0x180000⟩
  else if off = oPwrCtl then some ⟨0, 0x180000, 0x1C0000⟩
  else if off = oSecCtl then some ⟨0, 0x1C0000, 0x1E0000⟩
  else if off = oErrCtl then some ⟨32, 0x1E0000, 0x200000⟩
  else if 0x80000 ≤ off ∧ off < 0x100000 ∧ off % 0x10000 = 0x48 then some ⟨0, off, off / 0x10000 * 0x10000 + 0xF000⟩
  else if 0x100000 ≤ off ∧ off < 0x140000 ∧ off % 0x10000 = 8 then some ⟨0, off, off / 0x10000 * 0x10000 + 0xF000⟩
  else if 0x80000 ≤ off ∧ off < 0x140000 ∧ off % 0x10000 = 0xF000 then some ⟨0, off, off + 0x1000⟩
  else if 0x200000 ≤ off ∧ off < 0x400000 then
    let w := off / 0x2000 * 0x2000
    match off % 0x2000 with
    | 0x100 => some ⟨0, w + 0x200, w + 0x400⟩
    | 0x500 => some ⟨0, w + 0x400, w + 0x500⟩
    | 0x600 => some ⟨0, w + 0x608, w + 0x700⟩
    | 0x718 => some ⟨0, w + 0x708, w + 0x718⟩
    | 0x830 => some ⟨0, w + 0x808, w + 0x830⟩
    | _ => none
  else none
/-- What else a CLR clears: MEM_ERR_ADDR, and PX_LAST. -/
def clrAlso (k : Core) (off : Nat) : Core :=
  if 0x80000 ≤ off ∧ off < 0x100000 then
    (if off % 0x10000 = 0x48 then modStk k ((off - 0x80000) / 0x10000) (fun s => { s with errAddr := 0 })
     else if off % 0x10000 = 0xF000 then modStk k ((off - 0x80000) / 0x10000) (fun s => { s with pxLast := 0 })
     else k)
  else if 0x100000 ≤ off ∧ off < 0x140000 ∧ off % 0x10000 = 0xF000 then modFls k ((off - 0x100000) / 0x10000) (fun s => { s with pxLast := 0 })
  else k
/-- A write to a CLR register that sets its CLR bit. -/
def clrWrite (k : Core) (off : Nat) (v mask : W64) : Core :=
  match clrReg off with
  | some c => if writes1 v mask c.bitNo then clrAlso (clrCtrs k c.lo c.hi) off else k
  | none => k

/-! ## Registers whose writes act -/

/-- The MSI-X table: double word i takes a value; reserved bits stay zero, and pending vectors that are unmasked go out (R103, R532). -/
def msixWrite (k : Core) (i : Nat) (v : W32) : Core :=
  let w := if i % 4 = 3 then v &&& 1 else if i % 4 = 0 then v &&& ~~~3 else v
  msixKick { k with pci := { k.pci with msixTab := mset (if i % 4 = 3 then 1 else 0) k.pci.msixTab i w } }
/-- A write of 8 bytes, or of half of them, in the MSI-X table. -/
def msixWrites (k : Core) (off : Nat) (v mask : W64) : Core :=
  let i := (off - 0x18000) / 4
  let k1 := if mask.getLsbD 0 then msixWrite k i (v.truncate 32) else k
  if mask.getLsbD 32 then msixWrite k1 (i + 1) (v.extractLsb' 32 32) else k1
/-- Port control and status, and the completion ring's head. -/
def feedWrite (k : Core) (off : Nat) (v mask : W64) : Core :=
  let n := (off - 0x20000) / 0x40
  match (off - 0x20000) % 0x40 with
  | 0x0 => if mask.getLsbD 0 then (if v.getLsbD 0 then portEnable k n else portClose k n) else k
  | 0x20 => if mask.getLsbD 0 then cqHead k n (v.truncate 32) else k
  | 0x28 => modPort k n (fun p => { p with
      overflow := p.overflow && !writes1 v mask 3, badHead := p.badHead && !writes1 v mask 4, openErr := p.openErr && !writes1 v mask 5 })
  | _ => k
/-- FEED_DR_HEAD. -/
def drWrite (k : Core) (r : Nat) (v mask : W64) : Core :=
  let k1 := if writes1 v mask 32 then modRing k r (fun d => { d with badHead := false }) else k
  if mask.getLsbD 0 then drHead k1 r (v.truncate 32) else k1
/-- ERR_RING_HEAD and ERR_RING_CTL. -/
def errWrite (k : Core) (off : Nat) (v mask : W64) : Core :=
  let r := (off - 0x1E0100) / 0x40
  match (off - 0x1E0100) % 0x40 with
  | 0x18 =>
    let k1 := if writes1 v mask 32 then modERing k r (fun g => { g with badHead := false }) else k
    if mask.getLsbD 0 then errHead k1 r (v.truncate 32) else k1
  | 0x20 =>
    let k1 := if writes1 v mask 1 then modERing k r (fun g => { g with openErr := false }) else k
    if mask.getLsbD 0 then errRingEn k1 r (v.getLsbD 0) else k1
  | _ => k
/-- Write-one-to-clear bits outside the rings, and the W1S bits of GLB_CTRL and GLB_PART_RESET. -/
def actWrite (k : Core) (off : Nat) (v mask : W64) : Core :=
  if off = oGlbCtrl then (if writes1 v mask 0 then glbEnable k else k)
  else if off = 0x10 then
    { k with glb := { k.glb with
      lateWrite := k.glb.lateWrite && !writes1 v mask 4, earlyFeed := k.glb.earlyFeed && !writes1 v mask 5 } }
  else if off = oPartReset then glbPartReset k (bits (v &&& mask).toNat 3 0)
  else if off = oObjStatus then { k with sched := { k.sched with apDrop := k.sched.apDrop && !writes1 v mask 16 } }
  else if off = oPstate then { k with pst := { k.pst with hit := Nat.land k.pst.hit (255 - bits (v &&& mask).toNat 23 16) } }
  else if 0x80000 ≤ off ∧ off < 0x100000 ∧ off % 0x10000 = 0x40 then ceLimitWritten k ((off - 0x80000) / 0x10000)
  else if 0x80000 ≤ off ∧ off < 0x100000 ∧ off % 0x10000 = 0x50 then
    modStk k ((off - 0x80000) / 0x10000) (fun s => { s with badAddr := s.badAddr && !writes1 v mask 19 })
  else k
/-- A BAR0 write of v to the register at off, of the halves in mask (R528, R530). -/
def bar0Write (k : Core) (off : Nat) (v mask : W64) : Core :=
  if !bar0Served k then k
  else if 0x18000 ≤ off ∧ off < 0x20000 then msixWrites k off v mask
  else
    let k1 := clrWrite (storeReg k off v mask) off v mask
    if 0x20000 ≤ off ∧ off < 0x21000 then feedWrite k1 off v mask
    else if 0x21000 ≤ off ∧ off < 0x21800 then drWrite k1 ((off - 0x21000) / 8) v mask
    else if 0x1E0100 ≤ off ∧ off < 0x1E0180 then errWrite k1 off v mask
    else actWrite k1 off v mask
/-- Every bit, and the low half. -/
def m64 : W64 := BitVec.allOnes 64
def m32 : W64 := 0xFFFFFFFF
/-- BAR0_BAD_ACCESS (R528). -/
def badAccess (k : Core) (read : Bool) (off n : Nat) : Core :=
  if !powered k || ((n == 4 || n == 8) && off % n == 0) then k else 
  if read then emit k .unsupported else aerReport k ⟨false, 0, off, n⟩
/-- REGISTER_WRITE of 4 or 8 bytes; one that is not aligned is discarded (R528). -/
def registerWrite (k : Core) (off : Nat) (eight : Bool) (v : W64) : Core :=
  if eight then (if off % 8 = 0 then bar0Write k off v m64 else badAccess k false off 8)
  else if off % 8 = 0 then bar0Write k off v m32
  else if off % 8 = 4 then bar0Write k (off - 4) (v <<< 32) (~~~m32)
  else badAccess k false off 4
/-- MSIX_UNMASK: the vector's mask bit is written zero. -/
def msixUnmask (k : Core) (n : Nat) : Core := bar0Write k (0x18008 + 16 * n) 0 (~~~m32)
/-- A write that sets a CLR bit, the register's other bits as v. -/
def clrRow (k : Core) (off : Nat) (v : W64) : Core :=
  match clrReg off with | some c => bar0Write k off (v ||| BitVec.ofNat 64 (2 ^ c.bitNo)) m64 | none => k

end Sys2Proof.Machine
end

