-- ==== Sys2Proof/Machine/Debug.lean ====
section
/-! DEFINITION. What every BAR0 register reads, and the reads and commands of the debug port (R8, R527 to R534, R493, R495). -/

namespace Sys2Proof.Machine

/-! ## Registers by block -/

/-- GLB registers that are not stored bits (R533). -/
def readGlb (k : Core) (off : Nat) : Nat :=
  let g := k.glb
  if off = 0x0 then k.shadow.grade + atBit 8 k.shadow.stepping + atBit 16 (engineCount k)
  else if off = oGlbCtrl then b2n (g.st == .enabled || g.st == .hold || g.st == .graze)
  else if off = 0x10 then g.st.code + atBit 3 (b2n g.checking) + atBit 4 (b2n g.lateWrite) + atBit 5 (b2n g.earlyFeed)
  else if off = 0x18 then g.reason
  else if off = 0x20 then g.reasonArg
  else if off = 0x28 then
    b2n g.slotB + atBit 1 (b2n g.fallback) + atBit 2 (b2n g.recovery) + atBit 8 g.svn + atBit 32 g.version
  else if off = 0x30 then g.causeKind + atBit 3 (b2n g.wasHalted)
  else if off = oPartReset then ((upFrom 0 4).map (fun p => atBit p (b2n (isResetting k p)))).sum
  else if 0x100 ≤ off ∧ off < 0x180 then bits k.shadow.engines.toNat ((off - 0x100) * 8 + 63) ((off - 0x100) * 8)
  else if 0x200 ≤ off ∧ off < 0x300 then ((upFrom 0 8).map (fun b => atBit (8 * b) (physTile k (off - 0x200 + b)))).sum
  else 0
/-- PCI registers (R88, R103). -/
def readPci (k : Core) (off : Nat) : Nat :=
  let p := k.pci
  if off = 0x10000 then
    (if p.lanes = 4 then 1 else if p.lanes = 8 then 2 else if p.lanes = 16 then 3 else 0) + atBit 2 p.speed + atBit 5 (b2n p.flit) +
    atBit 6 (b2n (decide (p.lanes ≠ 0 ∧ (p.lanes < 16 ∨ p.speed < 6)))) + atBit 16 p.downtrain
  else if 0x17F00 ≤ off ∧ off < 0x18000 then
    ((upFrom 0 64).map (fun b => atBit b (b2n (p.msixPend.contains ((off - 0x17F00) * 8 + b))))).sum
  else if 0x18000 ≤ off then
    (msixDw k ((off - 0x18000) / 4)).toNat + atBit 32 (msixDw k ((off - 0x18000) / 4 + 1)).toNat
  else 0
/-- FEED registers (R97 to R100). -/
def readFeed (k : Core) (off : Nat) : Nat :=
  if off < 0x21000 then
    let n := (off - 0x20000) / 0x40
    let p := port k n
    match (off - 0x20000) % 0x40 with
    | 0x0 => b2n (p.st == .opened)
    | 0x20 => p.head.toNat
    | 0x28 =>
      portWait k n + atBit 3 (b2n p.overflow) + atBit 4 (b2n p.badHead) + atBit 5 (b2n p.openErr) + atBit 32 p.ordinal.toNat
    | _ => 0
  else if off < 0x21800 then
    let d := dring k ((off - 0x21000) / 8)
    d.head.toNat + atBit 32 (b2n d.badHead) + atBit 33 (b2n d.isOpen)
  else 0
/-- SCHD registers (R313, R336). -/
def readSchd (k : Core) (off : Nat) : Nat :=
  if off = oObjStatus then
    (k.objs.filter (fun e => e.2.alloc && e.2.st == .fetching)).length + atBit 16 (b2n k.sched.apDrop) +
    atBit 17 (b2n (k.objs.any (fun e => e.2.alloc && !e.2.recov.isEmpty)))
  else if 0x40100 ≤ off ∧ off < 0x40240 ∧ off % 0x40 = 0 then
    let d := (off - 0x40100) / 0x40
    if domInUse k d then domPhase k d + atBit 8 (dom k d).mset + atBit 16 (dom k d).t0 + atBit 32 (dom k d).t1 else 0
  else if 0x40500 ≤ off ∧ off < 0x40640 ∧ off % 0x40 = 0 then
    let d := (off - 0x40500) / 0x40
    ((k.objs.filter (fun e => e.2.alloc && e.2.dom == d && e.2.st != .absent)).map (fun e => e.2.units)).sum + atBit 32 (heldUnits k d)
  else 0
/-- PX_LAST of an expander (R353); the window's other registers there are counters. -/
def readPx (v off : Nat) : Nat := if off = 0xF020 then v else 0
/-- MEM registers of stack s (R368, R376, R378). -/
def readMem (k : Core) (s off : Nat) : Nat :=
  let q := stk k s
  if off = 0x50 then
    let spare := fun i => match q.spares[i]? with | some sl => sl + 128 | none => 0
    spare 0 + atBit 8 (spare 1) + atBit 16 (b2n q.migrating.isSome) + atBit 17 (b2n q.noSpare) + atBit 18 (b2n q.frozen) +
    atBit 19 (b2n q.badAddr) + atBit 24 q.temp
  else if off = 0x58 then q.errAddr
  else readPx q.pxLast off
/-- FLS registers of stack s (R386 to R397). -/
def readFls (k : Core) (s off : Nat) : Nat :=
  let q := fls k s
  if off = 0x10 then
    q.spares + atBit 16 (b2n q.worn) + atBit 17 (b2n q.calDefault) + atBit 18 q.erasing.length +
    atBit 20 (b2n (k.flOps.any (fun o => !o.erase && o.stacks.contains s))) + atBit 32 q.suspect
  else readPx q.pxLast off
/-- FAB registers (R407, R412, R424, R431). -/
def readFab (k : Core) (off : Nat) : Nat :=
  let f := k.fab
  if off = 0x140020 then
    f.twin.st + atBit 8 (if twinEn k then b2n (portLive k (twinPortA k)) + 2 * b2n (portLive k (twinPortB k)) else 0)
  else if off = 0x140028 then f.failrec.getD 0 + atBit 24 (b2n f.failrec.isSome) + atBit 25 (b2n f.written) + atBit 26 (b2n f.part)
  else if 0x140100 ≤ off ∧ off < 0x140300 ∧ off % 0x20 = 8 then
    let p := fport k ((off - 0x140100) / 0x20)
    p.link + atBit 2 p.width + atBit 6 (b2n (p.link == 2 && decide (p.width < 8))) + atBit 8 p.good + atBit 16 p.peer
  else if 0x148000 ≤ off ∧ off < 0x150000 then (node k ((off - 0x148000) / 8)).mask
  else 0
/-- PWR registers (R435 to R470). -/
def readPwr (k : Core) (off : Nat) : Nat :=
  let p := k.pwr
  if off = 0x180080 then
    powerInForce k / 1000 + atBit 16 p.cause + atBit 24 (b2n p.disagree) + atBit 32 p.tmax + atBit 40 p.therm
  else if off = 0x180088 then p.measured % 2 ^ 32 + atBit 32 p.ratio
  else if off = 0x180090 then p.energy / 150000 % 2 ^ 64
  else if 0x180100 ≤ off ∧ off < 0x180128 then
    let d := (off - 0x180100) / 8
    if domInUse k d then
      (dom k d).ceil + atBit 8 (((domTiles k d).map (fun t => (tile k t).reqDiv)).foldl max 0) +
      atBit 16 (domPower k d / 1000) + atBit 32 ((dom k d).budget / 1000) + atBit 44 (dom k d).target
    else 16 + atBit 8 6 + atBit 44 10000
  else if off = oPstate then k.pst.handshake + atBit 8 k.pst.lastWake + atBit 16 k.pst.hit
  else if off = 0x180260 then k.pst.last.toNat
  else 0
/-- Eight bytes of a byte string from byte a. -/
def wordAt (b : List Byte) (a : Nat) : Nat := ofLE ((b.drop a).take 8)
/-- SEC registers (R471 to R494). -/
def readSec (k : Core) (off : Nat) : Nat :=
  let s := k.sec
  if off = 0x1C0000 then
    s.lc + atBit 3 s.lcNext + atBit 6 (b2n s.pend.isSome) + atBit 7 (b2n (k.shadow.operatorKeyHash != 0)) +
    atBit 8 k.shadow.svn + atBit 16 (keyCount k) + atBit 32 k.glb.incarnation.toNat
  else if off = 0x1C0008 then s.fw + atBit 2 (b2n (unsettled k)) + atBit 8 s.fwSvn + atBit 32 s.fwVersion
  else if off = 0x1C0010 then s.level + atBit 2 (b2n s.lockout) + atBit 8 s.fails
  else if 0x1C0040 ≤ off ∧ off < 0x1C0070 then wordAt s.devKey (off - 0x1C0040)
  else if 0x1C0100 ≤ off ∧ off < 0x1C0300 then wordAt (mreg k ((off - 0x1C0100) / 32)) ((off - 0x1C0100) % 32)
  else 0
/-- ERR registers (R534). -/
def readErr (k : Core) (off : Nat) : Nat :=
  if off = 0x1E0010 then
    (match k.err.last with
     | some e => e.reason + atBit 16 e.source + atBit 20 (e.inst % 256) + atBit 31 1 + atBit 32 e.arg
     | none => 0)
  else if off = 0x1E0018 then k.err.maintSeq.toNat
  else if 0x1E0100 ≤ off ∧ off < 0x1E0180 then
    let g := ering k ((off - 0x1E0100) / 0x40)
    match (off - 0x1E0100) % 0x40 with
    | 0x18 => g.head.toNat + atBit 32 (b2n g.badHead)
    | 0x20 => b2n g.en + atBit 1 (b2n g.openErr) + atBit 32 g.produced.toNat
    | _ => 0
  else 0
/-- TILE registers of window t (R26, R163, R186, R233, R255). -/
def readTile (k : Core) (t off : Nat) : Nat :=
  let q := tile k t
  let depth := fun u => (q.queue u).length
  if off = 0x8 then fcapOf k t + atBit 8 q.div
  else if off = 0x400 ∨ off = 0x440 ∨ off = 0x480 ∨ off = 0x4C0 then
    let e := (off - 0x400) / 0x40
    (q.eng e).s0.st + atBit 4 (q.eng e).s1.st + atBit 8 (b2n (q.eng e).tag) + atBit 16 (depth e) + atBit 24 (b2n (!engOn k t e))
  else if off = 0x700 then
    b2n q.cf.isSome + ((upFrom 0 4).map (fun e => atBit (4 + 5 * e) (q.eng e).stream.length)).sum + atBit 24 q.veStream.length +
    atBit 32 (depth uCf) + atBit 40 (depth uVe)
  else if off = 0x800 then depth uAp + (match q.ap with | some a => atBit 7 1 + atBit 8 a.fetch + atBit 16 a.entries | none => 0)
  else 0
/-- Fields that are neither stored bits nor counters. -/
def readField (k : Core) (off : Nat) : Nat :=
  if off < 0x10000 then readGlb k off
  else if off < 0x20000 then readPci k off
  else if off < 0x40000 then readFeed k off
  else if off < 0x80000 then readSchd k off
  else if off < 0x100000 then readMem k ((off - 0x80000) / 0x10000) (off % 0x10000)
  else if off < 0x140000 then readFls k ((off - 0x100000) / 0x10000) (off % 0x10000)
  else if off < 0x180000 then readFab k off
  else if off < 0x1C0000 then readPwr k off
  else if off < 0x1E0000 then readSec k off
  else if off < 0x1F0000 then readErr k off
  else if off < 0x200000 then 0
  else if off < 0x400000 then readTile k ((off - 0x200000) / 0x2000) (off % 0x2000)
  else 0
/-- The object-manager registers of a domain that does not exist read zero (R336). -/
def absentDomain (k : Core) (off : Nat) : Bool := decide (0x40500 ≤ off ∧ off < 0x40640) && !domInUse k ((off - 0x40500) / 0x40)
/-- What the register at an offset holds: its stored bits, its count and its other fields, which lie in different bits (R8, R529). -/
def readReg (k : Core) (off : Nat) : W64 :=
  if absentDomain k off then 0
  else rreg k off ||| BitVec.ofNat 64 (mget 0 k.ctr off) ||| BitVec.ofNat 64 (readField k off)

/-- What a read of BAR0 by the host returns: in RESET only three registers are readable, in GRAZE PWR_PSTATE_STATUS with them, and the
others read zero (R75, R85, R459). -/
def bar0Read (k : Core) (off : Nat) : W64 :=
  if (k.glb.st == .reset || k.glb.st == .off) && !([0x10, 0x28, 0x30].contains off) then 0
  else if k.glb.st == .graze && !([0x10, 0x28, 0x30, oPstate].contains off) then 0
  else readReg k off
/-- What a read of BAR2 returns (R91). -/
def bar2Read (_k : Core) (_off : Nat) : W64 := 0

/-! ## The debug port (R43, R64, R493, R495) -/

/-- The 3.3 V sideband pins, which are all that the boundary-scan register covers (R43); no instruction of R493 but the scan of level 3
selects it, and the spec gives its cells no order (assumption 72). -/
inductive SidePin where
  | perstN | resetN | pwrgood | faultN | thermN | wakeN | smclk | smdat | smbAddr (i : Fin 2)
  deriving DecidableEq, Repr
/-- The level the boundary-scan register captures at a pin, where the device holds it: a pin the board drives and nothing has sampled has
none. -/
def boundaryCell (k : Core) : SidePin → Option Bool
  | .perstN => some k.pins.perstN
  | .resetN => some k.pins.resetN
  | .pwrgood => some k.pins.pwrgood
  | .faultN => some (!faultNLow k)
  | .thermN => if k.pins.thermDrive || k.pins.thermDemand then some false else none
  | .smbAddr i => some (k.pins.smbAddr.getLsbD i)
  | .wakeN | .smclk | .smdat => none

/-- DBG_TAP_RESET: DBG_TMS high for 5 DBG_TCK cycles. -/
def dbgTapReset (k : Core) (n : Nat) : Core := if debugOn k && decide (5 ≤ n) then setTap k 0 else k
def dbgBypass (k : Core) : Core := if debugOn k then setTap k 1 else k
def dbgIdcode (k : Core) : Core := if debugOn k then emit (setTap k 0) (.tdo (leBytes 4 Config.idcode.toNat)) else k

/-- The level a read needs. -/
def dbgNeeds : DbgTarget → Nat
  | .register _ => 1 | .errRecord _ _ => 1 | .sequence _ => 1 | .object _ => 1
  | .tileLine _ _ => 2 | .stagingLine _ _ => 2 | .dramLine _ => 2 | .systemFrame _ _ => 2
/-- The m-th record formed of those a ring takes. -/
def errNth (k : Core) (ringO : Bool) (m : Nat) : List Byte :=
  match (k.err.log.reverse.filter (fun e => ringO || !e.2.opOnly))[m]? with
  | some e => errBytes e.2 e.1 false
  | none => List.replicate 64 0
/-- A descriptor as debug reads it: secrets of a confidential sequence read as zero. -/
def dbgSeq (k : Core) (s : Nat) : List Byte :=
  let q := seq k s
  seqImage (if q.st != .free && ctxConf k (seqCtx k s) then { q with input := q.input.map (fun _ => 0), stops := [0, 0, 0, 0], seed := 0 } else q)
/-- A confidential step owns the staging memory that holds a line. -/
def stgConf (k : Core) (die line : Nat) : Bool :=
  let q := die * 2 + line / 262144
  (domTiles k (if isPart k q then q else 4)).any (tileConf k)
/-- Page directory of a sequence (R247). -/
def dirBytes (k : Core) (s : Nat) : List Byte :=
  let q := seq k s
  leBytes 2 (q.pool.getD 0 + atBit 15 (b2n q.pool.isSome)) ++ leBytes 2 0 ++
  leBytes 4 (q.pages.filter (fun e => entryMapped (pubEntry q e.1))).length ++ leBytes 8 0 ++
  (upFrom 0 8).flatMap (fun x => leBytes 4 (mget 0 q.idx x)) ++ leBytes 16 0
/-- Line j of frame n of the system region: a page directory, or a line of an index page or of an entry segment. Every other line is
Chomor's own table, a free value (R247, R248, R378, assumptions 1 and 72). -/
def sysLine (k : Core) (n j : Nat) : List Byte :=
  match (k.seqs.map Prod.fst).find? (fun s => decide ((seq k s).st ≠ .free) && decide (Config.dirSlot s = 64 * n + j)) with
  | some s => dirBytes k s
  | none =>
    match k.seqs.findSome? (fun e => (e.2.idx.find? (fun x => x.2 == n)).map (fun x => (e.2, x.1))) with
    | some (q, x) => (upFrom 0 16).flatMap (fun w => leBytes 4 (mget 0 q.segs (1024 * x + 16 * j + w)))
    | none =>
      match k.seqs.findSome? (fun e => (e.2.segs.find? (fun x => x.2 == n)).map (fun x => (e.2, x.1))) with
      | some (q, g) => (upFrom 0 8).flatMap (fun w => leBytes 8 (pubEntry q (512 * g + 8 * j + w)).toNat)
      | none => leBytes 64 (Config.freeLine (k.fresh + j)).toNat
/-- What a debug read returns. The frames of the system region are numbered stack by stack (assumption 72). -/
def dbgData (k : Core) : DbgTarget → List Byte
  | .register off => leBytes 8 (readReg k (off.toNat / 8 * 8)).toNat
  | .errRecord o m => errNth k o m
  | .sequence s => dbgSeq k s.toNat
  | .object h => objEntryBytes k false h.toNat ++ objQueryPayload (obj k h.toNat)
  | .tileLine t l => if tileConf k t.toNat then List.replicate 64 0 else leBytes 64 (tmLine k t.toNat l).toNat
  | .stagingLine d l => if stgConf k (b2n d) l then List.replicate 64 0 else leBytes 64 (k.stg.line 0 (stgLine (b2n d) l)).toNat
  | .dramLine l => leBytes 64 (k.dram.line 0 l).toNat
  | .systemFrame st f => (upFrom 0 64).flatMap (sysLine k (st.toNat * (sysBytes k / 8 / 4096) + f))
/-- A location whose wipe is not complete: of a memory in start-up, or of a partition that is RESETTING (R64). -/
def dbgUnwiped (k : Core) : DbgTarget → Bool
  | .tileLine t _ => !k.glb.startup.sramWiped || isResetting k (quarterOfTile t.toNat)
  | .stagingLine d l => !k.glb.startup.sramWiped || isResetting k (2 * b2n d + l / 262144)
  | .dramLine l => !k.glb.startup.dramWiped || isResetting k (l / (2048 * stackUnits k))
  | .systemFrame _ _ => !k.glb.startup.dramWiped
  | _ => false
/-- DBG_READ; a location that is not wiped yet is not read (R64, assumption 72). -/
def dbgRead (k : Core) (x : DbgTarget) : Core :=
  if !debugOn k then k
  else if debugLevel k < dbgNeeds x || dbgUnwiped k x then setTap k 2
  else
    let k1 := emit (setTap k 2) (.tdo (dbgData k x))
    match x with | .systemFrame _ _ => { k1 with fresh := k1.fresh + 64 } | _ => k1
/-- DBG_TS_HALT. -/
def dbgTsHalt (k : Core) (t : Nat) : Core :=
  if debugOn k && decide (2 ≤ debugLevel k) then modTile (setTap k 2) t (fun q => { q with dbgHalt := true }) else k
/-- One dispatch, or one instruction of its own, of a halted Tile Sequencer. -/
def tsStep (k : Core) (t : Nat) : Core :=
  let q := tile k t
  if q.phase ≠ 2 ∨ (q.fenced && !tileIdle k t) = true then k
  else
    let k0 := modTile k t (fun q => { q with fenced := false })
    match tsWord k0 t q.pc with
    | none => k0
    | some i => if isTs i.cls i.op then (if tsReady k0 t i then tsEffect t i k0 else k0) else (tsDispatch k0 t).getD k0
/-- DBG_TS_STEP. -/
def dbgTsStep (k : Core) (t : Nat) : Core :=
  if debugOn k && decide (2 ≤ debugLevel k) && (tile k t).dbgHalt then tsStep (setTap k 2) t else k

end Sys2Proof.Machine
end

