-- ==== Sys2Proof/Machine/Run.lean ====
section
/-! DEFINITION. How a command's effect becomes a step of the machine: what the device does of itself once the command has acted, and the
changes of owned state its twin is told. -/

namespace Sys2Proof.Machine

/-- The device works on what a command left ready: stores whose source is lost end, erases start, a staged image and a measurement go on, fenced bundles
start, broadcast shards go out (R121, R328, R385, R421, R479, R520). -/
def workOn (k : Core) : Core := bcastAll (startFenced (extendsGo (stageGo (kickErases (sweepStores k)))))
/-- What follows a command: a device in ENABLED or HOLD works on, and BAR4 accesses that waited are looked at again. -/
def followUps (k : Core) : Core :=
  let k1 := if alive k then workOn k else k
  if k1.pst.heldBar4.isEmpty then k1 else apRetry k1
/-- The twin is told what changed, while the device works (R425). -/
def tellTwin (k0 k : Core) : Core := if alive k then mirrorDiff k0 k else k
/-- The state after a command whose own effect leaves k: what follows it, and the fuses it blew. -/
def State.finish (s : State) (k : Core) : State :=
  let k1 := tellTwin s.core (followUps k)
  { s with fuse := k1.burn.foldl Fuses.program s.fuse, core := { k1 with burn := [] } }
/-- A command whose effect lets the device go on. -/
def onCore (s : State) (f : Core → Core) : Host.Outcome State Fault Refusal := .next (s.finish (f s.core))
/-- A command after which nothing else moves: one on pins, resets, registers, power figures and the debug port. -/
def onPlain (s : State) (f : Core → Core) : Host.Outcome State Fault Refusal := .next { s with core := f s.core }

/-- Device memory, flash and CCLK serve: CONFIG, ENABLED, HOLD and HALTED. -/
def memoryOn (k : Core) : Bool := k.glb.st == .config || alive k || k.glb.st == .halted
/-- The stacks are out of self refresh (R458). -/
def stacksRun (k : Core) : Bool := k.glb.st == .config || k.glb.st == .enabled || k.glb.st == .halted
/-- The device is past start-up, GRAZE included. -/
def started (k : Core) : Bool := memoryOn k || k.glb.st == .graze
/-- A change that happens only where the condition holds. -/
def onlyIf (p : Core → Bool) (f : Core → Core) (k : Core) : Core := if p k then f k else k
/-- The stack answers: it is not isolated by a field test (R516). -/
def stackServes (flash : Bool) (s : Nat) (k : Core) : Bool := memoryOn k && !stackHeld k flash s

/-! ## Rows over shared operations -/

/-- A control row of a class whose instructions give blocks work: an entry handshake may hold it back (R461). -/
def heldExec (sp : CtlSpec) (h : CtlHdr) (a b c : W32) (x : W128) : Core → Core := unlessHeld (ctlExec sp h a b c x)

/-- A rail stays below its monitor threshold, whichever it is (R48). -/
def railTripOf (k : Core) (_rail : Rail) : Core := railTrip k
/-- A hot reset, a link disable or a Data Link Layer down of the PCIe link: each is a hot reset (R62). -/
def hotReset (k : Core) (_cause : HotCause) (b : BootReads) : Core := warmReset k rkHot b
/-- STEP_BOUNDARY; the shared domain's boundary sends the copy a new pair asked for (R429). -/
def boundaryOf (k : Core) (d : Nat) : Core := if d = 4 && boundaryDue k 4 then syncAtBoundary (stepBoundary k d) else stepBoundary k d
/-- PX_CLR: the monitor of a device-memory stack or of a flash stack (R514). -/
def pxClear (k : Core) (flash : Bool) (s : Nat) (v : W64) : Core := clrRow k (oPx flash (if flash then s % 4 else s)) v
/-- An event of a unit of tile t, after which its sequencer goes on (R129). -/
def unitEvent (k : Core) (t : Nat) (f : Core → Core) : Core := onTile k t f

/-- Hand an instruction to a tile whose sequencer then goes on. -/
def toUnit (f : Core → Nat → TIns → Core) (k : Core) (t : Nat) (i : TIns) : Core := onTile k t (fun k => f k t i)
/-- Execute an instruction at the head of a tile's sequencer. -/
def atHead (f : Nat → TIns → Core → Core) (k : Core) (t : Nat) (i : TIns) : Core := tsExec k t i (f t i)
/-- A Data Mover starts; what an entry handshake holds back stays at the head of its queue (R461). -/
def dmRow : Core → Nat → TIns → Core := toUnit (fun k t i => unlessHeld (fun k => dmStart k t i) k)
/-- A retraining starts, unless an entry handshake holds it back (R461). -/
def retrainRow (k : Core) (s c : Nat) : Core := unlessHeld (fun k => retrainStart k s c) k
/-- STACK_TEMP_READ: the reading is taken, and TDELTA's trigger is judged while the stacks are out of self refresh; what an entry handshake
holds back, a RETRAIN_START starts (R372, R461). -/
def stackTempRow (k : Core) (s t : Nat) : Core := onlyIf stacksRun (unlessHeld (fun k => tempTriggers k s)) (takeTemp k s t)
def tsetRow : Core → Nat → TIns → Core := atHead tsetEffect
def taddRow : Core → Nat → TIns → Core := atHead taddEffect
def tloadRow : Core → Nat → TIns → Core := atHead tloadEffect
def jumpRow : Core → Nat → TIns → Core := atHead jumpEffect
def branchRow : Core → Nat → TIns → Core := atHead branchEffect
def loopRow : Core → Nat → TIns → Core := atHead loopEffect
def mxLoadsRow : Core → Nat → TIns → Core := toUnit mxLoads
def mxPassRow : Core → Nat → TIns → Core := toUnit mxPass
def mxDrainRow : Core → Nat → TIns → Core := toUnit mxDrain
def vxMapRow : Core → Nat → TIns → Core := toUnit vxMap
/-- A VE instruction that works row by row. -/
def vxRowsRow (row : Nat → TIns → Core × Exc → Nat → Core × Exc) : Core → Nat → TIns → Core :=
  toUnit (fun k t i => vxRun k t i (fun k => vxRows k t i (row t i)))
def vxReduceRow : Core → Nat → TIns → Core := toUnit (fun k t i => vxRun k t i (fun k => vxReduce k t i))
def vxMaxabsRow : Core → Nat → TIns → Core := toUnit (fun k t i => vxRun k t i (fun k => vxMaxabs k t i))
def vxWindowRow : Core → Nat → TIns → Core := toUnit vxWindow
def cvSetupRow : Core → Nat → TIns → Core := toUnit cvSetup
def cvFeedRow : Core → Nat → TIns → Core := toUnit cvFeed
def atRunRow : Core → Nat → TIns → Core := toUnit atRun
def atKvputRow : Core → Nat → TIns → Core := toUnit atKvput
def atMergeRow : Core → Nat → TIns → Core := toUnit atMerge

end Sys2Proof.Machine
end

