-- ==== Sys2Proof/Machine/ExecDebug.lean ====
section
/-! DEFINITION. Meanings: the debug port (R43, R478, R493 to R495, R514). -/

namespace Sys2Proof.Machine

/-- DBG_TAP_RESET (R43). -/
def execDbgTapReset (tckHigh : Nat) (s : State) : Host.Outcome State Fault Refusal := onPlain s (fun k => dbgTapReset k tckHigh)
/-- DBG_BYPASS (R43). -/
def execDbgBypass (s : State) : Host.Outcome State Fault Refusal := onPlain s (dbgBypass)
/-- DBG_IDCODE (R43). -/
def execDbgIdcode (s : State) : Host.Outcome State Fault Refusal := onPlain s (dbgIdcode)
/-- DBG_CHALLENGE (R494). -/
def execDbgChallenge (random : BitVec 256) (s : State) : Host.Outcome State Fault Refusal := onPlain s (fun k => dbgChallenge k random)
/-- DBG_UNLOCK (R494). -/
def execDbgUnlock (level : BitVec 2) (publicKey : List Byte) (signature : List Byte) (s : State) : Host.Outcome State Fault Refusal :=
  onPlain s (fun k => dbgUnlock k level.toNat publicKey signature)
/-- DBG_UNLOCK_VERIFIED (R494). -/
def execDbgUnlockVerified (s : State) : Host.Outcome State Fault Refusal := onPlain s (dbgUnlockVerified)
/-- DBG_LOCKOUT_END (R494). -/
def execDbgLockoutEnd (s : State) : Host.Outcome State Fault Refusal := onPlain s (dbgLockoutEnd)
/-- DBG_LOCK (R494). -/
def execDbgLock (s : State) : Host.Outcome State Fault Refusal := onPlain s (dbgLock)
/-- DBG_RECOVER (R478). -/
def execDbgRecover (header : List Byte) (image : List Byte) (s : State) : Host.Outcome State Fault Refusal :=
  onPlain s (fun k => dbgRecover k header image)
/-- DBG_READ (R493). -/
def execDbgRead (target : DbgTarget) (s : State) : Host.Outcome State Fault Refusal := onPlain s (fun k => dbgRead k target)
/-- DBG_TS_HALT (R493). -/
def execDbgTsHalt (tile : BitVec 8) (s : State) : Host.Outcome State Fault Refusal := onPlain s (fun k => dbgTsHalt k tile.toNat)
/-- DBG_TS_STEP (R493). -/
def execDbgTsStep (tile : BitVec 8) (s : State) : Host.Outcome State Fault Refusal := onCore s (fun k => dbgTsStep k tile.toNat)
/-- DBG_FUSE_PROGRAM (R493). -/
def execDbgFuseProgram (f : FuseWrite) (s : State) : Host.Outcome State Fault Refusal := onCore s (fun k => dbgFuseProgram k f)
/-- BIST_ENTRY (R514). -/
def execBistEntry (s : State) : Host.Outcome State Fault Refusal := onPlain s (bistEntry)

end Sys2Proof.Machine
end

