-- ==== Sys2Proof/Machine/ExecFab.lean ====
section
/-! DEFINITION. Meanings: the fabric: ports, frames and FAB instructions (R406 to R434). -/

namespace Sys2Proof.Machine

/-- PORT_TRAINING_DONE (R407). -/
def execPortTrainingDone (port : BitVec 4) (goodLanes : BitVec 8) (peer : BitVec 12) (s : State) : Host.Outcome State Fault Refusal :=
  onPlain s (onlyIf portsServe (fun k => portTrainingDone k port.toNat goodLanes peer.toNat))
/-- PORT_RETRY_TIMER (R407). -/
def execPortRetryTimer (port : BitVec 4) (s : State) : Host.Outcome State Fault Refusal := onPlain s (fun k => portRetryTimer k port.toNat)
/-- LINK_SILENCE (R408). -/
def execLinkSilence (port : BitVec 4) (s : State) : Host.Outcome State Fault Refusal :=
  onCore s (onlyIf portsServe (fun k => linkSilence k port.toNat))
/-- LINK_RESEND (R408). -/
def execLinkResend (port : BitVec 4) (s : State) : Host.Outcome State Fault Refusal := onCore s (onlyIf portsServe (fun k => linkResend k port.toNat))
/-- FRAME_FORWARD (R412). -/
def execFrameForward (port : BitVec 4) (f : Frame) (s : State) : Host.Outcome State Fault Refusal :=
  onCore s (fun k => arrive (toForward k f) k port.toNat f)
/-- FAB_DATA (R416). -/
def execFabData (port : BitVec 4) (f : Frame) (s : State) : Host.Outcome State Fault Refusal :=
  onCore s (fun k => arrive (ofType f tData) k port.toNat f)
/-- FAB_ACK (R416). -/
def execFabAck (port : BitVec 4) (f : Frame) (s : State) : Host.Outcome State Fault Refusal :=
  onCore s (fun k => arrive (ofType f tAck) k port.toNat f)
/-- FAB_NACK (R416). -/
def execFabNack (port : BitVec 4) (f : Frame) (s : State) : Host.Outcome State Fault Refusal :=
  onCore s (fun k => arrive (ofType f tNack) k port.toNat f)
/-- FAB_CREDIT (R418). -/
def execFabCredit (port : BitVec 4) (f : Frame) (s : State) : Host.Outcome State Fault Refusal :=
  onCore s (fun k => arrive (ofType f tCredit) k port.toNat f)
/-- FAB_BCAST (R421). -/
def execFabBcast (port : BitVec 4) (f : Frame) (s : State) : Host.Outcome State Fault Refusal :=
  onCore s (fun k => arrive (ofType f tBcast) k port.toNat f)
/-- BCAST_JOIN (R421). -/
def execBcastJoin (port : BitVec 4) (f : Frame) (s : State) : Host.Outcome State Fault Refusal :=
  onCore s (fun k => arrive (ofSub f bJoin) k port.toNat f)
/-- BCAST_END (R421). -/
def execBcastEnd (port : BitVec 4) (f : Frame) (s : State) : Host.Outcome State Fault Refusal :=
  onCore s (fun k => arrive (ofSub f bEnd) k port.toNat f)
/-- BCAST_BITMAP (R421). -/
def execBcastBitmap (port : BitVec 4) (f : Frame) (s : State) : Host.Outcome State Fault Refusal :=
  onCore s (fun k => arrive (ofSub f bBitmap) k port.toNat f)
/-- BCAST_DONE (R421). -/
def execBcastDone (port : BitVec 4) (f : Frame) (s : State) : Host.Outcome State Fault Refusal :=
  onCore s (fun k => arrive (ofSub f bDone) k port.toNat f)
/-- BCAST_TIMEOUT (R421). -/
def execBcastTimeout (session : BitVec 8) (s : State) : Host.Outcome State Fault Refusal :=
  onCore s (whenAlive (fun k => bcastTimeout k session.toNat))
/-- FAB_MIRROR (R425). -/
def execFabMirror (port : BitVec 4) (f : Frame) (s : State) : Host.Outcome State Fault Refusal :=
  onCore s (fun k => arrive (ofType f tMirror) k port.toNat f)
/-- FAB_MIRROR_ACK (R425). -/
def execFabMirrorAck (port : BitVec 4) (f : Frame) (s : State) : Host.Outcome State Fault Refusal :=
  onCore s (fun k => arrive (ofType f tMirrorAck) k port.toNat f)
/-- FAB_GRANT (R437). -/
def execFabGrant (port : BitVec 4) (f : Frame) (s : State) : Host.Outcome State Fault Refusal :=
  onCore s (fun k => arrive (ofType f tGrant) k port.toNat f)
/-- FAB_PING (R426). -/
def execFabPing (port : BitVec 4) (f : Frame) (s : State) : Host.Outcome State Fault Refusal :=
  onCore s (fun k => arrive (ofType f tPing) k port.toNat f)
/-- FAB_PONG (R426). -/
def execFabPong (port : BitVec 4) (f : Frame) (s : State) : Host.Outcome State Fault Refusal :=
  onCore s (fun k => arrive (ofType f tPong) k port.toNat f)
/-- FAB_DEVICE_DOWN (R430). -/
def execFabDeviceDown (port : BitVec 4) (f : Frame) (s : State) : Host.Outcome State Fault Refusal :=
  onCore s (fun k => arrive (ofType f tDown) k port.toNat f)
/-- E2E_TIMEOUT (R426). -/
def execE2eTimeout (node : BitVec 12) (s : State) : Host.Outcome State Fault Refusal :=
  onCore s (onlyIf portsServe (fun k => e2eTimeout k node.toNat))
/-- FAB_ROUTE (R433). -/
def execFabRoute (h : CtlHdr) (a b c : W32) (s : State) : Host.Outcome State Fault Refusal := onCore s (heldExec fabRouteSpec h a b c 0)
/-- FAB_CHAN_OPEN (R433). -/
def execFabChanOpen (h : CtlHdr) (a b c : W32) (x : W128) (s : State) : Host.Outcome State Fault Refusal :=
  onCore s (heldExec fabChanOpenSpec h a b c x)
/-- FAB_CHAN_CLOSE (R433). -/
def execFabChanClose (h : CtlHdr) (a b c : W32) (s : State) : Host.Outcome State Fault Refusal := onCore s (heldExec fabChanCloseSpec h a b c 0)
/-- FAB_BCAST_SEND (R421). -/
def execFabBcastSend (h : CtlHdr) (a b c : W32) (s : State) : Host.Outcome State Fault Refusal := onCore s (heldExec fabBcastSendSpec h a b c 0)
/-- FAB_BCAST_RECV (R421). -/
def execFabBcastRecv (h : CtlHdr) (a b c : W32) (s : State) : Host.Outcome State Fault Refusal := onCore s (heldExec fabBcastRecvSpec h a b c 0)
/-- FAB_TWIN_JOIN (R429). -/
def execFabTwinJoin (h : CtlHdr) (a b c : W32) (s : State) : Host.Outcome State Fault Refusal := onCore s (heldExec fabTwinJoinSpec h a b c 0)
/-- FAB_TWIN_LEAVE (R433). -/
def execFabTwinLeave (h : CtlHdr) (a b c : W32) (s : State) : Host.Outcome State Fault Refusal := onCore s (heldExec fabTwinLeaveSpec h a b c 0)
/-- FAB_FAILREC (R431). -/
def execFabFailrec (h : CtlHdr) (a b c : W32) (s : State) : Host.Outcome State Fault Refusal := onCore s (heldExec fabFailrecSpec h a b c 0)
/-- FAB_NODE_QUERY (R432). -/
def execFabNodeQuery (h : CtlHdr) (a b c : W32) (s : State) : Host.Outcome State Fault Refusal := onCore s (heldExec fabNodeQuerySpec h a b c 0)

end Sys2Proof.Machine
end

