-- ==== Sys2Proof/Machine/ExecHost.lean ====
section
/-! DEFINITION. Meanings: host accesses, feed ports, rings and register writes (R81 to R104, R508, R527 to R534). -/

namespace Sys2Proof.Machine

/-- BAR0_BAD_ACCESS (R528). -/
def execBar0BadAccess (read : Bool) (offset : BitVec 22) (len : Nat) (s : State) : Host.Outcome State Fault Refusal :=
  onPlain s (fun k => badAccess k read offset.toNat len)
/-- BAR2_FEED_WRITE (R93). -/
def execBar2FeedWrite (offset : BitVec 22) (data : List Byte) (s : State) : Host.Outcome State Fault Refusal :=
  onPlain s (fun k => bar2FeedWrite k offset.toNat data)
/-- BAR4_READ (R322). -/
def execBar4Read (offset : Nat) (len : Nat) (s : State) : Host.Outcome State Fault Refusal := onPlain s (fun k => bar4Read k offset len)
/-- BAR4_WRITE (R322). -/
def execBar4Write (offset : Nat) (data : List Byte) (attr : WriteAttr) (s : State) : Host.Outcome State Fault Refusal :=
  onCore s (fun k => bar4Write k offset data attr)
/-- MSIX_UNMASK (R103). -/
def execMsixUnmask (vector : BitVec 11) (s : State) : Host.Outcome State Fault Refusal := onPlain s (fun k => msixUnmask k vector.toNat)
/-- MSIX_TIME_TRIGGER (R103). -/
def execMsixTimeTrigger (ring : PacedRing) (s : State) : Host.Outcome State Fault Refusal := onPlain s (fun k => msixTimeTrigger k ring)
/-- WRITEBACK_COALESCE_EXPIRY (R99). -/
def execWritebackCoalesceExpiry (port : BitVec 6) (s : State) : Host.Outcome State Fault Refusal := onPlain s (fun k => coalesceExpiry k port.toNat)
/-- GLB_ENABLE (R81). -/
def execGlbEnable (s : State) : Host.Outcome State Fault Refusal := onPlain s (glbEnable)
/-- CONSISTENCY_CHECK_DONE (R81). -/
def execConsistencyCheckDone (incarnation : W32) (s : State) : Host.Outcome State Fault Refusal :=
  onPlain s (fun k => consistencyCheckDone k incarnation)
/-- GLB_PART_RESET (R68). -/
def execGlbPartReset (bits : BitVec 4) (s : State) : Host.Outcome State Fault Refusal := onCore s (fun k => glbPartReset k bits.toNat)
/-- PARTITION_RESET_DONE (R69). -/
def execPartitionResetDone (p : BitVec 2) (s : State) : Host.Outcome State Fault Refusal := onCore s (fun k => partitionResetDone k p.toNat)
/-- FEED_PORT_OPEN (R97). -/
def execFeedPortOpen (port : BitVec 6) (ctl : W64) (s : State) : Host.Outcome State Fault Refusal :=
  onPlain s (fun k => bar0Write k (oPortCtl port.toNat) (ctl ||| 1) m64)
/-- FEED_PORT_CLOSE (R97). -/
def execFeedPortClose (port : BitVec 6) (s : State) : Host.Outcome State Fault Refusal :=
  onPlain s (fun k => onlyIf bar0Served (fun k => portClose k port.toNat) k)
/-- FEED_PORT_CLOSED (R97). -/
def execFeedPortClosed (port : BitVec 6) (s : State) : Host.Outcome State Fault Refusal := onPlain s (fun k => feedPortClosed k port.toNat)
/-- FEED_CQ_HEAD_WRITE (R99). -/
def execFeedCqHeadWrite (port : BitVec 6) (head : W32) (s : State) : Host.Outcome State Fault Refusal :=
  onPlain s (fun k => bar0Write k (oCqHead port.toNat) (head.zeroExtend 64) m32)
/-- FEED_DR_HEAD_WRITE (R100). -/
def execFeedDrHeadWrite (ring : BitVec 8) (v : W64) (s : State) : Host.Outcome State Fault Refusal :=
  onPlain s (fun k => bar0Write k (oDrHead ring.toNat) v m64)
/-- ERR_RING_ENABLE (R508). -/
def execErrRingEnable (ringO : Bool) (s : State) : Host.Outcome State Fault Refusal :=
  onPlain s (fun k => bar0Write k (oErrRingCtl (b2n ringO)) 1 m32)
/-- ERR_RING_DISABLE (R534). -/
def execErrRingDisable (ringO : Bool) (s : State) : Host.Outcome State Fault Refusal :=
  onPlain s (fun k => bar0Write k (oErrRingCtl (b2n ringO)) 0 m32)
/-- ERR_RING_HEAD_WRITE (R508). -/
def execErrRingHeadWrite (ringO : Bool) (v : W64) (s : State) : Host.Outcome State Fault Refusal :=
  onPlain s (fun k => bar0Write k (oErrHead (b2n ringO)) v m64)
/-- TILE_STALL_CLR (R531). -/
def execTileStallClr (tile : BitVec 8) (v : W64) (s : State) : Host.Outcome State Fault Refusal :=
  onPlain s (fun k => clrRow k (oTileStallCtl tile.toNat) v)
/-- TILE_ME_CLR (R531). -/
def execTileMeClr (tile : BitVec 8) (v : W64) (s : State) : Host.Outcome State Fault Refusal := onPlain s (fun k => clrRow k (oMeCtl tile.toNat) v)
/-- TILE_NUM_CLR (R531). -/
def execTileNumClr (tile : BitVec 8) (v : W64) (s : State) : Host.Outcome State Fault Refusal := onPlain s (fun k => clrRow k (oNumCtl tile.toNat) v)
/-- TILE_VC_CLR (R531). -/
def execTileVcClr (tile : BitVec 8) (v : W64) (s : State) : Host.Outcome State Fault Refusal := onPlain s (fun k => clrRow k (oVcCtl tile.toNat) v)
/-- TILE_AT_CLR (R531). -/
def execTileAtClr (tile : BitVec 8) (v : W64) (s : State) : Host.Outcome State Fault Refusal := onPlain s (fun k => clrRow k (oAtCtl tile.toNat) v)
/-- PCI_STALL_CLR (R531). -/
def execPciStallClr (v : W64) (s : State) : Host.Outcome State Fault Refusal := onPlain s (fun k => clrRow k oPciCtl v)
/-- GLB_BR_CLR (R531). -/
def execGlbBrClr (v : W64) (s : State) : Host.Outcome State Fault Refusal := onPlain s (fun k => clrRow k oGlbCtrl v)
/-- SCHD_CLR (R531). -/
def execSchdClr (v : W64) (s : State) : Host.Outcome State Fault Refusal := onPlain s (fun k => clrRow k oSchdCtl v)
/-- SCHD_OBJ_CLR (R531). -/
def execSchdObjClr (v : W64) (s : State) : Host.Outcome State Fault Refusal := onPlain s (fun k => clrRow k oObjCtl v)
/-- MEM_CLR (R531). -/
def execMemClr (stack : BitVec 3) (v : W64) (s : State) : Host.Outcome State Fault Refusal := onPlain s (fun k => clrRow k (oMemCtl stack.toNat) v)
/-- PX_CLR (R531). -/
def execPxClr (flash : Bool) (stack : BitVec 3) (v : W64) (s : State) : Host.Outcome State Fault Refusal :=
  onPlain s (fun k => pxClear k flash stack.toNat v)
/-- FLS_CLR (R531). -/
def execFlsClr (stack : BitVec 2) (v : W64) (s : State) : Host.Outcome State Fault Refusal := onPlain s (fun k => clrRow k (oFlsCtl stack.toNat) v)
/-- FAB_CLR (R531). -/
def execFabClr (v : W64) (s : State) : Host.Outcome State Fault Refusal := onPlain s (fun k => clrRow k oFabCtl v)
/-- PWR_CLR (R531). -/
def execPwrClr (v : W64) (s : State) : Host.Outcome State Fault Refusal := onPlain s (fun k => clrRow k oPwrCtl v)
/-- SEC_CLR (R531). -/
def execSecClr (v : W64) (s : State) : Host.Outcome State Fault Refusal := onPlain s (fun k => clrRow k oSecCtl v)
/-- ERR_CLR (R531). -/
def execErrClr (v : W64) (s : State) : Host.Outcome State Fault Refusal := onPlain s (fun k => clrRow k oErrCtl v)
/-- REGISTER_WRITE (R9). -/
def execRegisterWrite (offset : BitVec 22) (eight : Bool) (v : W64) (s : State) : Host.Outcome State Fault Refusal :=
  onCore s (fun k => registerWrite k offset.toNat eight v)
/-- FEED_TAKE (R98). -/
def execFeedTake (port : BitVec 6) (s : State) : Host.Outcome State Fault Refusal := onCore s (fun k => feedTake k port.toNat)
/-- HOST_READ_COMPLETION (R105). -/
def execHostReadCompletion (tag : Nat) (status : ReadStatus) (data : List Byte) (s : State) : Host.Outcome State Fault Refusal :=
  onCore s (fun k => onlyIf portsServe (fun k => hostReadCompletion k tag status data) k)
/-- COMPLETION_TIMEOUT (R87). -/
def execCompletionTimeout (tag : Nat) (s : State) : Host.Outcome State Fault Refusal :=
  onCore s (fun k => onlyIf portsServe (fun k => completionTimeout k tag) k)

end Sys2Proof.Machine
end

