-- ==== Sys2Proof/Machine/ExecObj.lean ====
section
/-! DEFINITION. Meanings: OBJ instructions, object movement, the weight flash and the code region (R314 to R354, R380 to R405). -/

namespace Sys2Proof.Machine

/-- OBJ_ALLOC (R333). -/
def execObjAlloc (h : CtlHdr) (a b c : W32) (x : W128) (s : State) : Host.Outcome State Fault Refusal := onCore s (heldExec objAllocSpec h a b c x)
/-- DRAM_ZERO_COMPLETE (R333). -/
def execDramZeroComplete (handle : BitVec 24) (s : State) : Host.Outcome State Fault Refusal :=
  onCore s (whenAlive (fun k => dramZeroComplete k handle.toNat))
/-- OBJ_PROMOTE (R334). -/
def execObjPromote (h : CtlHdr) (a b c : W32) (s : State) : Host.Outcome State Fault Refusal := onCore s (heldExec objPromoteSpec h a b c 0)
/-- FETCH_COMPLETE (R318). -/
def execFetchComplete (handle : BitVec 24) (s : State) : Host.Outcome State Fault Refusal :=
  onCore s (whenAlive (fun k => fetchComplete k handle.toNat))
/-- OBJ_EVICT (R334). -/
def execObjEvict (h : CtlHdr) (a b c : W32) (s : State) : Host.Outcome State Fault Refusal := onCore s (heldExec objEvictSpec h a b c 0)
/-- EVICTION_COMPLETE (R324). -/
def execEvictionComplete (handle : BitVec 24) (s : State) : Host.Outcome State Fault Refusal :=
  onCore s (whenAlive (fun k => evictionComplete k handle.toNat))
/-- OBJ_PIN (R334). -/
def execObjPin (h : CtlHdr) (a b c : W32) (s : State) : Host.Outcome State Fault Refusal := onCore s (heldExec objPinSpec h a b c 0)
/-- OBJ_UNPIN (R334). -/
def execObjUnpin (h : CtlHdr) (a b c : W32) (s : State) : Host.Outcome State Fault Refusal := onCore s (heldExec objUnpinSpec h a b c 0)
/-- OBJ_CLEAN (R334). -/
def execObjClean (h : CtlHdr) (a b c : W32) (s : State) : Host.Outcome State Fault Refusal := onCore s (heldExec objCleanSpec h a b c 0)
/-- OBJ_FREE (R334). -/
def execObjFree (h : CtlHdr) (a b c : W32) (s : State) : Host.Outcome State Fault Refusal := onCore s (heldExec objFreeSpec h a b c 0)
/-- OBJ_QUERY (R332). -/
def execObjQuery (h : CtlHdr) (a b c : W32) (s : State) : Host.Outcome State Fault Refusal := onCore s (heldExec objQuerySpec h a b c 0)
/-- OBJ_SCHED (R334). -/
def execObjSched (h : CtlHdr) (a b c : W32) (s : State) : Host.Outcome State Fault Refusal := onCore s (heldExec objSchedSpec h a b c 0)
/-- OBJ_FL_ERASE (R401). -/
def execObjFlErase (h : CtlHdr) (a b c : W32) (s : State) : Host.Outcome State Fault Refusal := onCore s (heldExec objFlEraseSpec h a b c 0)
/-- OBJ_FL_QUERY (R400). -/
def execObjFlQuery (h : CtlHdr) (a b c : W32) (s : State) : Host.Outcome State Fault Refusal := onCore s (heldExec objFlQuerySpec h a b c 0)
/-- OBJ_FL_STORE (R404). -/
def execObjFlStore (h : CtlHdr) (a b c : W32) (s : State) : Host.Outcome State Fault Refusal := onCore s (heldExec objFlStoreSpec h a b c 0)
/-- FLASH_ERASE_DONE (R389). -/
def execFlashEraseDone (stack : BitVec 2) (unit : BitVec 16) (pulses : Nat) (marginFails : Nat) (s : State) : Host.Outcome State Fault Refusal :=
  onCore s (whenAlive (fun k => flashEraseDone k stack.toNat unit.toNat pulses marginFails))
/-- FLASH_PAGE_PROGRAMMED (R389). -/
def execFlashPageProgrammed (stack : BitVec 2) (loops : Nat) (marginFails : Nat) (s : State) : Host.Outcome State Fault Refusal :=
  onCore s (whenAlive (fun k => flashPageProgrammed k stack.toNat loops marginFails))
/-- FLASH_READ (R385). -/
def execFlashRead (stack : BitVec 2) (unit : BitVec 16) (page : Nat) (codeword : Nat) (bitErrors : Nat) (s : State) : Host.Outcome State Fault Refusal :=
  onCore s (onlyIf (stackServes true stack.toNat) (fun k => flashRead k stack.toNat unit.toNat page codeword bitErrors))
/-- FLASH_READ_RETRY (R386). -/
def execFlashReadRetry (stack : BitVec 2) (unit : BitVec 16) (page : Nat) (codeword : Nat) (errors : List Nat) (s : State) : Host.Outcome State Fault Refusal :=
  onCore s (onlyIf (stackServes true stack.toNat) (fun k => flashReadRetry k stack.toNat unit.toNat page codeword errors))
/-- FLASH_OP_RESUME (R387). -/
def execFlashOpResume (stack : BitVec 2) (s : State) : Host.Outcome State Fault Refusal :=
  onCore s (onlyIf memoryOn (fun k => flashOpResume k stack.toNat))
/-- CODE_REGION_FETCH (R398). -/
def execCodeRegionFetch (address : Nat) (taken : Bool) (retries : Nat) (s : State) : Host.Outcome State Fault Refusal :=
  onCore s (fun k => codeRegionFetch k address taken retries)
/-- OBJ_CLEAN_COMPLETE (R334). -/
def execObjCleanComplete (handle : BitVec 24) (s : State) : Host.Outcome State Fault Refusal :=
  onCore s (whenAlive (fun k => objCleanComplete k handle.toNat))
/-- RECOVERY_LINE_DONE (R327). -/
def execRecoveryLineDone (handle : BitVec 24) (line : Nat) (data : Option Line) (s : State) : Host.Outcome State Fault Refusal :=
  onCore s (whenAlive (fun k => recoveryLineDone k handle.toNat line data))
/-- FLASH_SCRUB_PAGE (R523). -/
def execFlashScrubPage (stack : BitVec 2) (retries : List Nat) (s : State) : Host.Outcome State Fault Refusal :=
  onCore s (whenAlive (fun k => flashScrubPage k stack.toNat retries))

end Sys2Proof.Machine
end

