-- ==== Sys2Proof/Machine/ExecPwr.lean ====
section
/-! DEFINITION. Meanings: the power budget and power states (R435 to R470). -/

namespace Sys2Proof.Machine

/-- FAST_PERIOD (R442). -/
def execFastPeriod (est : FastIn) (s : State) : Host.Outcome State Fault Refusal := onPlain s (whenAlive (fun k => fastPeriod k est))
/-- SLOW_PERIOD (R444). -/
def execSlowPeriod (s : State) : Host.Outcome State Fault Refusal := onPlain s (whenAlive slowPeriod)
/-- DIVIDER_APPLY (R444). -/
def execDividerApply (tile : BitVec 8) (s : State) : Host.Outcome State Fault Refusal := onPlain s (whenAlive (fun k => dividerApply k tile.toNat))
/-- ESTIMATOR_WINDOW (R441). -/
def execEstimatorWindow (estimate measured : Nat) (s : State) : Host.Outcome State Fault Refusal :=
  onPlain s (onlyIf memoryOn (fun k => estimatorWindow k estimate measured))
/-- THERMAL_LAW (R449). -/
def execThermalLaw (celsius : Nat) (s : State) : Host.Outcome State Fault Refusal := onPlain s (onlyIf memoryOn (fun k => thermalLaw k celsius))
/-- COMPLIANCE_INTERVAL (R450). -/
def execComplianceInterval (milliwatts : Nat) (s : State) : Host.Outcome State Fault Refusal :=
  onPlain s (whenAlive (fun k => complianceInterval k milliwatts))
/-- LEASE_EXPIRY (R436). -/
def execLeaseExpiry (s : State) : Host.Outcome State Fault Refusal := onPlain s (onlyIf started leaseExpiry)
/-- REPORT_PERIOD (R438). -/
def execReportPeriod (milliwatts : Nat) (s : State) : Host.Outcome State Fault Refusal :=
  onPlain s (onlyIf memoryOn (fun k => reportPeriod k milliwatts))
/-- DROOP_FIRE (R448). -/
def execDroopFire (tile : BitVec 8) (s : State) : Host.Outcome State Fault Refusal := onPlain s (whenAlive (fun k => droopFire k tile.toNat))
/-- DROOP_HOLD_END (R448). -/
def execDroopHoldEnd (tile : BitVec 8) (s : State) : Host.Outcome State Fault Refusal := onPlain s (whenAlive (fun k => droopHoldEnd k tile.toNat))
/-- PWR_STEP_TARGET (R455). -/
def execPwrStepTarget (h : CtlHdr) (a b c : W32) (s : State) : Host.Outcome State Fault Refusal := onCore s (ctlExec pwrStepTargetSpec h a b c 0)
/-- PWR_LIMIT (R455). -/
def execPwrLimit (h : CtlHdr) (a b c : W32) (s : State) : Host.Outcome State Fault Refusal := onCore s (ctlExec pwrLimitSpec h a b c 0)
/-- PWR_QUERY (R454). -/
def execPwrQuery (h : CtlHdr) (a b c : W32) (s : State) : Host.Outcome State Fault Refusal := onCore s (ctlExec pwrQuerySpec h a b c 0)
/-- PWR_ENTER (R460). -/
def execPwrEnter (h : CtlHdr) (a b c : W32) (s : State) : Host.Outcome State Fault Refusal := onCore s (ctlExec pwrEnterSpec h a b c 0)
/-- ENTRY_COMMIT (R462). -/
def execEntryCommit (cclk : W32) (s : State) : Host.Outcome State Fault Refusal := onPlain s (fun k => entryCommit k cclk)
/-- ENTRY_REFUSED (R461). -/
def execEntryRefused (stop : EntryStop) (s : State) : Host.Outcome State Fault Refusal := onCore s (fun k => entryRefused k stop)
/-- PWR_WAKE (R469). -/
def execPwrWake (h : CtlHdr) (a b c : W32) (s : State) : Host.Outcome State Fault Refusal := onCore s (ctlExec pwrWakeSpec h a b c 0)
/-- POWER_WAKE (R465). -/
def execPowerWake (source : BitVec 8) (s : State) : Host.Outcome State Fault Refusal := onPlain s (fun k => powerWake k source.toNat)
/-- POWER_EXIT_COMPLETE (R465). -/
def execPowerExitComplete (imageOk : Bool) (s : State) : Host.Outcome State Fault Refusal := onCore s (fun k => powerExitComplete k imageOk)
/-- GRAZE_SAMPLE (R467). -/
def execGrazeSample (r : GrazeReadings) (s : State) : Host.Outcome State Fault Refusal := onPlain s (fun k => grazeSample k r)

end Sys2Proof.Machine
end

