-- ==== Sys2Proof/Machine/ExecReset.lean ====
section
/-! DEFINITION. Meanings: power, pins, resets, start-up, the PCIe link and the SMBus (R34 to R77, R87 to R90, R437, R438). -/

namespace Sys2Proof.Machine

/-- VAON_IN_REGULATION (R40). -/
def execVaonInRegulation (straps : BitVec 2) (s : State) : Host.Outcome State Fault Refusal := onPlain s (fun k => vaonIn k straps)
/-- PWRGOOD_RISE (R72). -/
def execPwrgoodRise (fuseShadowOk : Bool) (s : State) : Host.Outcome State Fault Refusal := onPlain s (pwrgoodRise s.fuse fuseShadowOk)
/-- ROOT_PLL_LOCK (R25). -/
def execRootPllLock (s : State) : Host.Outcome State Fault Refusal := onPlain s (rootPllLock)
/-- PLL_LOCK_TIMEOUT (R50). -/
def execPllLockTimeout (s : State) : Host.Outcome State Fault Refusal := onPlain s (pllLockTimeout)
/-- PWRGOOD_FALL (R51). -/
def execPwrgoodFall (s : State) : Host.Outcome State Fault Refusal := onPlain s (pwrgoodFall)
/-- RAIL_TRIP (R48). -/
def execRailTrip (rail : Rail) (s : State) : Host.Outcome State Fault Refusal := onPlain s (fun k => railTripOf k rail)
/-- RESET_N_LOW (R62). -/
def execResetNLow (aclk : Nat) (s : State) : Host.Outcome State Fault Refusal := onPlain s (fun k => pinReset k aclk rkBoard)
/-- PERST_N_LOW (R62). -/
def execPerstNLow (aclk : Nat) (s : State) : Host.Outcome State Fault Refusal := onPlain s (fun k => pinReset k aclk rkFundamental)
/-- PCIE_HOT_RESET (R62). -/
def execPcieHotReset (cause : HotCause) (boot : BootReads) (s : State) : Host.Outcome State Fault Refusal :=
  onPlain s (fun k => hotReset k cause boot)
/-- FUNCTION_LEVEL_RESET (R62). -/
def execFunctionLevelReset (boot : BootReads) (s : State) : Host.Outcome State Fault Refusal := onPlain s (fun k => warmReset k rkFunction boot)
/-- RESET_RELEASE (R72). -/
def execResetRelease (boot : BootReads) (s : State) : Host.Outcome State Fault Refusal := onPlain s (resetRelease s.fuse boot)
/-- BOOT_ROM_COMPLETE (R72). -/
def execBootRomComplete (sramWipeOk : Bool) (journalOk : BitVec 4) (s : State) : Host.Outcome State Fault Refusal :=
  onPlain s (fun k => bootRomComplete k sramWipeOk journalOk)
/-- HBM_TRAINING_DONE (R371). -/
def execHbmTrainingDone (trained : BitVec 8) (dramWipeOk : Bool) (s : State) : Host.Outcome State Fault Refusal :=
  onPlain s (fun k => hbmTrainingDone k trained dramWipeOk)
/-- STARTUP_COMPLETE (R72). -/
def execStartupComplete (s : State) : Host.Outcome State Fault Refusal := onPlain s (startupComplete)
/-- PCIE_LINK_TRAINED (R88). -/
def execPcieLinkTrained (lanes : Nat) (speed : BitVec 3) (flit : Bool) (s : State) : Host.Outcome State Fault Refusal :=
  onPlain s (fun k => linkTrained k lanes speed.toNat flit)
/-- PCIE_CONFIG_REQUEST (R73). -/
def execPcieConfigRequest (r : CfgReq) (s : State) : Host.Outcome State Fault Refusal := onPlain s (fun k => configRequest k r)
/-- THERM_N_ASSERT (R37). -/
def execThermNAssert (celsius : Nat) (s : State) : Host.Outcome State Fault Refusal := onPlain s (fun k => thermNAssert k celsius)
/-- THERM_N_RELEASE (R37). -/
def execThermNRelease (celsius : Nat) (s : State) : Host.Outcome State Fault Refusal := onPlain s (fun k => thermNRelease k celsius)
/-- THERM_N_DEMAND_START (R38). -/
def execThermNDemandStart (s : State) : Host.Outcome State Fault Refusal := onPlain s (fun k => thermNDemand k true)
/-- THERM_N_DEMAND_END (R38). -/
def execThermNDemandEnd (s : State) : Host.Outcome State Fault Refusal := onPlain s (fun k => thermNDemand k false)
/-- THERMAL_SHUTDOWN (R56). -/
def execThermalShutdown (celsius : Nat) (s : State) : Host.Outcome State Fault Refusal := onPlain s (fun k => thermalShutdown k celsius)
/-- WAKE_N_ASSERT (R39). -/
def execWakeNAssert (aclk : Nat) (s : State) : Host.Outcome State Fault Refusal := onPlain s (fun k => wakeNAssert k aclk)
/-- SMB_READ_GRADE (R44). -/
def execSmbReadGrade (pec : Bool) (s : State) : Host.Outcome State Fault Refusal := onPlain s (smbReadGrade s.fuse pec)
/-- SMB_READ_SET_POINTS (R44). -/
def execSmbReadSetPoints (pec : Bool) (s : State) : Host.Outcome State Fault Refusal := onPlain s (smbReadSetPoints s.fuse pec)
/-- SMB_READ_AON_STATUS (R44). -/
def execSmbReadAonStatus (pec : Bool) (s : State) : Host.Outcome State Fault Refusal := onPlain s (fun k => smbReadStatus k pec)
/-- SMB_WRITE_AON_STATUS (R44). -/
def execSmbWriteAonStatus (v : Byte) (pec : Pec) (s : State) : Host.Outcome State Fault Refusal := onPlain s (fun k => smbWriteStatus k v pec)
/-- SMB_GRANT (R437). -/
def execSmbGrant (body : List Byte) (pec : Pec) (s : State) : Host.Outcome State Fault Refusal := onPlain s (fun k => smbGrant k body pec)
/-- SMB_REPORT (R438). -/
def execSmbReport (s : State) : Host.Outcome State Fault Refusal := onPlain s (smbReport)
/-- SYSREF_LOSS (R53). -/
def execSysrefLoss (s : State) : Host.Outcome State Fault Refusal := onPlain s (fun k => setSysref k false)
/-- SYSREF_RETURN (R53). -/
def execSysrefReturn (s : State) : Host.Outcome State Fault Refusal := onPlain s (fun k => setSysref k true)
/-- VAON_OUT_OF_REGULATION (R59). -/
def execVaonOutOfRegulation (s : State) : Host.Outcome State Fault Refusal := onPlain s (vaonOut)
/-- SMBUS_TIMEOUT (R42). -/
def execSmbusTimeout (s : State) : Host.Outcome State Fault Refusal := onPlain s (smbusTimeout)

end Sys2Proof.Machine
end

