-- ==== Sys2Proof/Machine/ExecSec.lean ====
section
/-! DEFINITION. Meanings: SEC and MAINT instructions and what completes them (R471 to R500, R514 to R526). -/

namespace Sys2Proof.Machine

/-- SEC_EXTEND (R482). -/
def execSecExtend (h : CtlHdr) (a b c : W32) (s : State) : Host.Outcome State Fault Refusal := onCore s (heldExec secExtendSpec h a b c 0)
/-- SEC_FW_STAGE (R479). -/
def execSecFwStage (h : CtlHdr) (a b c : W32) (s : State) : Host.Outcome State Fault Refusal := onCore s (heldExec secFwStageSpec h a b c 0)
/-- SEC_FW_ACTIVATE (R480). -/
def execSecFwActivate (h : CtlHdr) (a b c : W32) (s : State) : Host.Outcome State Fault Refusal := onCore s (heldExec secFwActivateSpec h a b c 0)
/-- SEC_FW_ABORT (R480). -/
def execSecFwAbort (h : CtlHdr) (a b c : W32) (s : State) : Host.Outcome State Fault Refusal := onCore s (heldExec secFwAbortSpec h a b c 0)
/-- SEC_FW_COMMIT (R480). -/
def execSecFwCommit (h : CtlHdr) (a b c : W32) (s : State) : Host.Outcome State Fault Refusal := onCore s (heldExec secFwCommitSpec h a b c 0)
/-- SEC_LC_ADVANCE (R473). -/
def execSecLcAdvance (h : CtlHdr) (a b c : W32) (s : State) : Host.Outcome State Fault Refusal := onCore s (heldExec secLcAdvanceSpec h a b c 0)
/-- SEC_QUOTE (R484). -/
def execSecQuote (h : CtlHdr) (a b c : W32) (x : W128) (s : State) : Host.Outcome State Fault Refusal := onCore s (heldExec secQuoteSpec h a b c x)
/-- QUOTE_SIGNED (R487). -/
def execQuoteSigned (h : CtlHdr) (s : State) : Host.Outcome State Fault Refusal := onCore s (whenAlive (fun k => quoteSigned k h))
/-- SEC_CTX_KEY (R491). -/
def execSecCtxKey (h : CtlHdr) (a b c : W32) (x : W128) (s : State) : Host.Outcome State Fault Refusal := onCore s (heldExec secCtxKeySpec h a b c x)
/-- CTX_KEY_READ_DONE (R491). -/
def execCtxKeyReadDone (h : CtlHdr) (ok : Bool) (key : BitVec 512) (s : State) : Host.Outcome State Fault Refusal :=
  onCore s (onlyIf portsServe (fun k => ctxKeyReadDone k h ok key))
/-- MAINT_TEST (R516). -/
def execMaintTest (h : CtlHdr) (a b c : W32) (s : State) : Host.Outcome State Fault Refusal := onCore s (heldExec maintTestSpec h a b c 0)
/-- FIELD_TEST_VERIFIED (R517). -/
def execFieldTestVerified (slot : BitVec 5) (s : State) : Host.Outcome State Fault Refusal :=
  onCore s (whenAlive (fun k => fieldTestVerified k slot.toNat))
/-- FIELD_TEST_DONE (R516). -/
def execFieldTestDone (slot : BitVec 5) (passed : Bool) (detail : W32) (reinitOk : Bool) (s : State) : Host.Outcome State Fault Refusal :=
  onCore s (whenAlive (fun k => fieldTestDone k slot.toNat passed detail.toNat reinitOk))
/-- MAINT_SCRUB (R524). -/
def execMaintScrub (h : CtlHdr) (a b c : W32) (s : State) : Host.Outcome State Fault Refusal := onCore s (heldExec maintScrubSpec h a b c 0)
/-- MAINT_STOP (R524). -/
def execMaintStop (h : CtlHdr) (a b c : W32) (s : State) : Host.Outcome State Fault Refusal := onCore s (heldExec maintStopSpec h a b c 0)
/-- MAINT_QUERY (R524). -/
def execMaintQuery (h : CtlHdr) (a b c : W32) (s : State) : Host.Outcome State Fault Refusal := onCore s (heldExec maintQuerySpec h a b c 0)

end Sys2Proof.Machine
end

