-- ==== Sys2Proof/Machine/ExecServe.lean ====
section
/-! DEFINITION. Meanings: SYS, SEQ, PT, ACCT and MSET instructions and the boundaries of step domains (R146 to R149, R264 to R313). -/

namespace Sys2Proof.Machine

/-- SYS_NOP (R146). -/
def execSysNop (h : CtlHdr) (a b c : W32) (s : State) : Host.Outcome State Fault Refusal := onCore s (ctlExec sysNopSpec h a b c 0)
/-- SYS_QUERY (R149). -/
def execSysQuery (h : CtlHdr) (a b c : W32) (s : State) : Host.Outcome State Fault Refusal := onCore s (ctlExec sysQuerySpec h a b c 0)
/-- SYS_RING_OPEN (R147). -/
def execSysRingOpen (h : CtlHdr) (a b c : W32) (x : W128) (s : State) : Host.Outcome State Fault Refusal :=
  onCore s (ctlExec sysRingOpenSpec h a b c x)
/-- SYS_RING_CLOSE (R102). -/
def execSysRingClose (h : CtlHdr) (a b c : W32) (s : State) : Host.Outcome State Fault Refusal := onCore s (ctlExec sysRingCloseSpec h a b c 0)
/-- SYS_CTX_OPEN (R148). -/
def execSysCtxOpen (h : CtlHdr) (a b c : W32) (s : State) : Host.Outcome State Fault Refusal := onCore s (ctlExec sysCtxOpenSpec h a b c 0)
/-- SYS_CTX_CLOSE (R148). -/
def execSysCtxClose (h : CtlHdr) (a b c : W32) (s : State) : Host.Outcome State Fault Refusal := onCore s (ctlExec sysCtxCloseSpec h a b c 0)
/-- SEQ_OPEN (R310). -/
def execSeqOpen (h : CtlHdr) (a b c : W32) (x : W128) (s : State) : Host.Outcome State Fault Refusal := onCore s (ctlExec seqOpenSpec h a b c x)
/-- SEQ_PROMPT (R310). -/
def execSeqPrompt (h : CtlHdr) (a b c : W32) (x : W128) (s : State) : Host.Outcome State Fault Refusal := onCore s (ctlExec seqPromptSpec h a b c x)
/-- SEQ_START (R286). -/
def execSeqStart (h : CtlHdr) (a b c : W32) (s : State) : Host.Outcome State Fault Refusal := onCore s (ctlExec seqStartSpec h a b c 0)
/-- SEQ_PAUSE (R310). -/
def execSeqPause (h : CtlHdr) (a b c : W32) (s : State) : Host.Outcome State Fault Refusal := onCore s (ctlExec seqPauseSpec h a b c 0)
/-- SEQ_RESUME (R286). -/
def execSeqResume (h : CtlHdr) (a b c : W32) (s : State) : Host.Outcome State Fault Refusal := onCore s (ctlExec seqResumeSpec h a b c 0)
/-- SEQ_CANCEL (R307). -/
def execSeqCancel (h : CtlHdr) (a b c : W32) (s : State) : Host.Outcome State Fault Refusal := onCore s (ctlExec seqCancelSpec h a b c 0)
/-- SEQ_CLOSE (R310). -/
def execSeqClose (h : CtlHdr) (a b c : W32) (s : State) : Host.Outcome State Fault Refusal := onCore s (ctlExec seqCloseSpec h a b c 0)
/-- SEQ_STOP (R310). -/
def execSeqStop (h : CtlHdr) (a b c : W32) (s : State) : Host.Outcome State Fault Refusal := onCore s (ctlExec seqStopSpec h a b c 0)
/-- SEQ_PRIO (R310). -/
def execSeqPrio (h : CtlHdr) (a b c : W32) (s : State) : Host.Outcome State Fault Refusal := onCore s (ctlExec seqPrioSpec h a b c 0)
/-- SEQ_QUERY (R310). -/
def execSeqQuery (h : CtlHdr) (a b c : W32) (s : State) : Host.Outcome State Fault Refusal := onCore s (ctlExec seqQuerySpec h a b c 0)
/-- PT_POOL_OPEN (R278). -/
def execPtPoolOpen (h : CtlHdr) (a b c : W32) (s : State) : Host.Outcome State Fault Refusal := onCore s (ctlExec ptPoolOpenSpec h a b c 0)
/-- PT_POOL_CLOSE (R278). -/
def execPtPoolClose (h : CtlHdr) (a b c : W32) (s : State) : Host.Outcome State Fault Refusal := onCore s (ctlExec ptPoolCloseSpec h a b c 0)
/-- PT_POOL_STAT (R277). -/
def execPtPoolStat (h : CtlHdr) (a b c : W32) (s : State) : Host.Outcome State Fault Refusal := onCore s (ctlExec ptPoolStatSpec h a b c 0)
/-- PT_BIND (R279). -/
def execPtBind (h : CtlHdr) (a b c : W32) (s : State) : Host.Outcome State Fault Refusal := onCore s (ctlExec ptBindSpec h a b c 0)
/-- PT_READ (R277). -/
def execPtRead (h : CtlHdr) (a b c : W32) (s : State) : Host.Outcome State Fault Refusal := onCore s (ctlExec ptReadSpec h a b c 0)
/-- PT_EDIT (R280). -/
def execPtEdit (h : CtlHdr) (a b c : W32) (x : W128) (s : State) : Host.Outcome State Fault Refusal := onCore s (ctlExec ptEditSpec h a b c x)
/-- PAGE_EDIT_PREPARED (R265). -/
def execPageEditPrepared (seq : BitVec 22) (s : State) : Host.Outcome State Fault Refusal :=
  onCore s (whenAlive (fun k => pageEditPrepared k seq.toNat))
/-- ACCT_OPEN (R311). -/
def execAcctOpen (h : CtlHdr) (a b c : W32) (s : State) : Host.Outcome State Fault Refusal := onCore s (ctlExec acctOpenSpec h a b c 0)
/-- ACCT_SET (R311). -/
def execAcctSet (h : CtlHdr) (a b c : W32) (s : State) : Host.Outcome State Fault Refusal := onCore s (ctlExec acctSetSpec h a b c 0)
/-- ACCT_GRANT (R311). -/
def execAcctGrant (h : CtlHdr) (a b c : W32) (s : State) : Host.Outcome State Fault Refusal := onCore s (ctlExec acctGrantSpec h a b c 0)
/-- ACCT_CLOSE (R311). -/
def execAcctClose (h : CtlHdr) (a b c : W32) (s : State) : Host.Outcome State Fault Refusal := onCore s (ctlExec acctCloseSpec h a b c 0)
/-- ACCT_STAT (R311). -/
def execAcctStat (h : CtlHdr) (a b c : W32) (s : State) : Host.Outcome State Fault Refusal := onCore s (ctlExec acctStatSpec h a b c 0)
/-- MSET_LOAD (R294). -/
def execMsetLoad (h : CtlHdr) (a b c : W32) (s : State) : Host.Outcome State Fault Refusal := onCore s (ctlExec msetLoadSpec h a b c 0)
/-- MSET_SWAP (R295). -/
def execMsetSwap (h : CtlHdr) (a b c : W32) (s : State) : Host.Outcome State Fault Refusal := onCore s (ctlExec msetSwapSpec h a b c 0)
/-- MSET_DRAIN (R312). -/
def execMsetDrain (h : CtlHdr) (a b c : W32) (s : State) : Host.Outcome State Fault Refusal := onCore s (ctlExec msetDrainSpec h a b c 0)
/-- MSET_QUERY (R312). -/
def execMsetQuery (h : CtlHdr) (a b c : W32) (s : State) : Host.Outcome State Fault Refusal := onCore s (ctlExec msetQuerySpec h a b c 0)
/-- STEP_BOUNDARY (R300). -/
def execStepBoundary (dom : Fin 5) (s : State) : Host.Outcome State Fault Refusal := onCore s (whenAlive (fun k => boundaryOf k dom.val))
/-- IDLE_BOUNDARY_TIMER (R300). -/
def execIdleBoundaryTimer (dom : Fin 5) (s : State) : Host.Outcome State Fault Refusal := onCore s (whenAlive (fun k => idleBoundaryTimer k dom.val))
/-- GATE_GROUP_RELEASE (R445). -/
def execGateGroupRelease (dom : Fin 5) (s : State) : Host.Outcome State Fault Refusal := onCore s (whenAlive (fun k => gateGroupRelease k dom.val))
/-- SOFT_START_RISE (R446). -/
def execSoftStartRise (tile : BitVec 8) (s : State) : Host.Outcome State Fault Refusal := onPlain s (whenAlive (fun k => softStartRise k tile.toNat))
/-- PAGE_COPY_DONE (R266). -/
def execPageCopyDone (seq : BitVec 22) (s : State) : Host.Outcome State Fault Refusal := onCore s (whenAlive (fun k => pageCopyDone k seq.toNat))
/-- WAITING_RECORD_WRITE (R101). -/
def execWaitingRecordWrite (ring : BitVec 8) (s : State) : Host.Outcome State Fault Refusal :=
  onCore s (whenAlive (fun k => waitingRecordWrite k ring.toNat))
/-- STEP_RETIRE (R301). -/
def execStepRetire (dom : Fin 5) (energy : Nat) (s : State) : Host.Outcome State Fault Refusal :=
  onCore s (whenAlive (fun k => stepRetire k dom.val energy))
/-- STEP_WATCHDOG (R513). -/
def execStepWatchdog (dom : Fin 5) (s : State) : Host.Outcome State Fault Refusal := onCore s (fun k => stepWatchdog k dom.val)

end Sys2Proof.Machine
end

