-- ==== Sys2Proof/Machine/ExecStack.lean ====
section
/-! DEFINITION. Meanings: the Stack Controllers (R355 to R379, R522). -/

namespace Sys2Proof.Machine

/-- DRAM_REQUEST (R367). -/
def execDramRequest (stack : BitVec 3) (requests : List DramReq) (pc : BitVec 5) (cycle : DramCycle) (s : State) : Host.Outcome State Fault Refusal :=
  onCore s (onlyIf memoryOn (fun k => dramRequest k stack.toNat requests pc.toNat cycle))
/-- REFRESH_DUE (R369). -/
def execRefreshDue (stack : BitVec 3) (pc : BitVec 5) (s : State) : Host.Outcome State Fault Refusal :=
  onPlain s (onlyIf stacksRun (fun k => refreshDue k stack.toNat pc.toNat))
/-- STACK_TEMP_READ (R369). -/
def execStackTempRead (stack : BitVec 3) (celsius : BitVec 8) (s : State) : Host.Outcome State Fault Refusal :=
  onPlain s (onlyIf memoryOn (fun k => stackTempRow k stack.toNat celsius.toNat))
/-- MIGRATION_FRAME (R375). -/
def execMigrationFrame (frame : FrameRead) (s : State) : Host.Outcome State Fault Refusal :=
  onCore s (onlyIf memoryOn (fun k => migrationFrame k frame.stack.toNat frame.errs))
/-- MIGRATION_COMPLETE (R375). -/
def execMigrationComplete (stack : BitVec 3) (s : State) : Host.Outcome State Fault Refusal :=
  onCore s (onlyIf memoryOn (fun k => migrationComplete k stack.toNat))
/-- RETRAIN_START (R372). -/
def execRetrainStart (stack : BitVec 3) (channel : BitVec 4) (s : State) : Host.Outcome State Fault Refusal :=
  onCore s (onlyIf stacksRun (fun k => retrainRow k stack.toNat channel.toNat))
/-- RETRAIN_DONE (R372). -/
def execRetrainDone (stack : BitVec 3) (channel : BitVec 4) (ok : Bool) (s : State) : Host.Outcome State Fault Refusal :=
  onCore s (onlyIf memoryOn (fun k => retrainDone k stack.toNat channel.toNat ok))
/-- DRAM_SCRUB_FRAME (R522). -/
def execDramScrubFrame (stack : BitVec 3) (pc : BitVec 5) (err : ReadErrors) (s : State) : Host.Outcome State Fault Refusal :=
  onCore s (whenAlive (fun k => dramScrubFrame k stack.toNat pc.toNat err))

end Sys2Proof.Machine
end

