-- ==== Sys2Proof/Machine/ExecTile.lean ====
section
/-! DEFINITION. Meanings: instructions of tiles and the events of their units (R128 to R282). -/

namespace Sys2Proof.Machine

/-- DM_COPY (R152). -/
def execDmCopy (h : TileHdr) (a b c : W32) (x : W128) (s : State) : Host.Outcome State Fault Refusal :=
  onCore s (fun k => dmRow k h.tile.toNat (mkTIns h 5 0x81 a b c x))
/-- DM_STRIDE (R152). -/
def execDmStride (h : TileHdr) (a b c : W32) (x : W128) (s : State) : Host.Outcome State Fault Refusal :=
  onCore s (fun k => dmRow k h.tile.toNat (mkTIns h 5 0x82 a b c x))
/-- DM_TRANS (R154). -/
def execDmTrans (h : TileHdr) (a b c : W32) (x : W128) (s : State) : Host.Outcome State Fault Refusal :=
  onCore s (fun k => dmRow k h.tile.toNat (mkTIns h 5 0x83 a b c x))
/-- DM_FILL (R152). -/
def execDmFill (h : TileHdr) (a b c : W32) (x : W128) (s : State) : Host.Outcome State Fault Refusal :=
  onCore s (fun k => dmRow k h.tile.toNat (mkTIns h 5 0x84 a b c x))
/-- REMOTE_INCREMENT_ARRIVE (R138). -/
def execRemoteIncrementArrive (tile : BitVec 8) (ctr : BitVec 6) (amount : BitVec 16) (s : State) : Host.Outcome State Fault Refusal :=
  onCore s (fun k => remoteIncrementArrive k tile.toNat ctr.toNat amount.toNat)
/-- HX_END (R150). -/
def execHxEnd (h : TileHdr) (a b c : W32) (s : State) : Host.Outcome State Fault Refusal :=
  onCore s (fun k => hxEnd k h.tile.toNat (mkTIns h 0xA 0x01 a b c 0))
/-- HX_SET (R150). -/
def execHxSet (h : TileHdr) (a b c : W32) (s : State) : Host.Outcome State Fault Refusal :=
  onCore s (fun k => hxSet k h.tile.toNat (mkTIns h 0xA 0x02 a b c 0))
/-- HX_ADD (R150). -/
def execHxAdd (h : TileHdr) (a b c : W32) (s : State) : Host.Outcome State Fault Refusal :=
  onCore s (fun k => hxAdd k h.tile.toNat (mkTIns h 0xA 0x03 a b c 0))
/-- HX_BARRIER (R140). -/
def execHxBarrier (h : TileHdr) (a b c : W32) (s : State) : Host.Outcome State Fault Refusal :=
  onCore s (fun k => hxBarrier k h.tile.toNat (mkTIns h 0xA 0x04 a b c 0))
/-- HX_TSET (R150). -/
def execHxTset (h : TileHdr) (a b c : W32) (s : State) : Host.Outcome State Fault Refusal :=
  onCore s (fun k => tsetRow k h.tile.toNat (mkTIns h 0xA 0x10 a b c 0))
/-- HX_TADD (R150). -/
def execHxTadd (h : TileHdr) (a b c : W32) (s : State) : Host.Outcome State Fault Refusal :=
  onCore s (fun k => taddRow k h.tile.toNat (mkTIns h 0xA 0x11 a b c 0))
/-- HX_TLOAD (R142). -/
def execHxTload (h : TileHdr) (a b c : W32) (s : State) : Host.Outcome State Fault Refusal :=
  onCore s (fun k => tloadRow k h.tile.toNat (mkTIns h 0xA 0x12 a b c 0))
/-- HX_JUMP (R150). -/
def execHxJump (h : TileHdr) (a b c : W32) (s : State) : Host.Outcome State Fault Refusal :=
  onCore s (fun k => jumpRow k h.tile.toNat (mkTIns h 0xA 0x20 a b c 0))
/-- HX_BRANCH (R150). -/
def execHxBranch (h : TileHdr) (a b c : W32) (s : State) : Host.Outcome State Fault Refusal :=
  onCore s (fun k => branchRow k h.tile.toNat (mkTIns h 0xA 0x21 a b c 0))
/-- HX_LOOP (R150). -/
def execHxLoop (h : TileHdr) (a b c : W32) (s : State) : Host.Outcome State Fault Refusal :=
  onCore s (fun k => loopRow k h.tile.toNat (mkTIns h 0xA 0x22 a b c 0))
/-- PROGRAM_FETCH_RETURN (R129). -/
def execProgramFetchReturn (tile : BitVec 8) (s : State) : Host.Outcome State Fault Refusal := onCore s (fun k => programFetchReturn k tile.toNat)
/-- MX_LOADS (R174). -/
def execMxLoads (h : TileHdr) (a b c : W32) (s : State) : Host.Outcome State Fault Refusal :=
  onCore s (fun k => mxLoadsRow k h.tile.toNat (mkTIns h 6 0x01 a b c 0))
/-- MX_LOAD_ARMED (R164). -/
def execMxLoadArmed (tile : BitVec 8) (eng : BitVec 2) (s : State) : Host.Outcome State Fault Refusal :=
  onCore s (fun k => unitEvent k tile.toNat (fun k => mxLoadArmed k tile.toNat eng.toNat))
/-- MX_PASS (R175). -/
def execMxPass (h : TileHdr) (a b c : W32) (s : State) : Host.Outcome State Fault Refusal :=
  onCore s (fun k => mxPassRow k h.tile.toNat (mkTIns h 6 0x02 a b c 0))
/-- MX_WAVE_ISSUE (R177). -/
def execMxWaveIssue (tile : BitVec 8) (eng : BitVec 2) (s : State) : Host.Outcome State Fault Refusal :=
  onCore s (fun k => unitEvent k tile.toNat (fun k => mxWaveIssue k tile.toNat eng.toNat))
/-- OAB_ROW_WRITE (R168). -/
def execOabRowWrite (tile : BitVec 8) (eng : BitVec 2) (s : State) : Host.Outcome State Fault Refusal :=
  onCore s (fun k => unitEvent k tile.toNat (fun k => oabRowWrite k tile.toNat eng.toNat))
/-- MX_REGISTER_EMPTY (R164). -/
def execMxRegisterEmpty (tile : BitVec 8) (eng : BitVec 2) (s : State) : Host.Outcome State Fault Refusal :=
  onCore s (fun k => unitEvent k tile.toNat (fun k => mxRegisterEmpty k tile.toNat eng.toNat))
/-- MX_DRAIN (R169). -/
def execMxDrain (h : TileHdr) (a b c : W32) (x : W128) (s : State) : Host.Outcome State Fault Refusal :=
  onCore s (fun k => mxDrainRow k h.tile.toNat (mkTIns h 6 0x83 a b c x))
/-- DRAIN_ROW_WRITE (R170). -/
def execDrainRowWrite (tile : BitVec 8) (eng : BitVec 2) (s : State) : Host.Outcome State Fault Refusal :=
  onCore s (fun k => unitEvent k tile.toNat (fun k => drainRowWrite k tile.toNat eng.toNat))
/-- VX_ADD (R214). -/
def execVxAdd (h : TileHdr) (a b c : W32) (x : W128) (s : State) : Host.Outcome State Fault Refusal :=
  onCore s (fun k => vxMapRow k h.tile.toNat (mkTIns h 7 0x81 a b c x))
/-- VX_MUL (R214). -/
def execVxMul (h : TileHdr) (a b c : W32) (x : W128) (s : State) : Host.Outcome State Fault Refusal :=
  onCore s (fun k => vxMapRow k h.tile.toNat (mkTIns h 7 0x82 a b c x))
/-- VX_FMA (R214). -/
def execVxFma (h : TileHdr) (a b c : W32) (x : W128) (s : State) : Host.Outcome State Fault Refusal :=
  onCore s (fun k => vxMapRow k h.tile.toNat (mkTIns h 7 0x83 a b c x))
/-- VX_MAX (R214). -/
def execVxMax (h : TileHdr) (a b c : W32) (x : W128) (s : State) : Host.Outcome State Fault Refusal :=
  onCore s (fun k => vxMapRow k h.tile.toNat (mkTIns h 7 0x84 a b c x))
/-- VX_MIN (R214). -/
def execVxMin (h : TileHdr) (a b c : W32) (x : W128) (s : State) : Host.Outcome State Fault Refusal :=
  onCore s (fun k => vxMapRow k h.tile.toNat (mkTIns h 7 0x85 a b c x))
/-- VX_CVT (R200). -/
def execVxCvt (h : TileHdr) (a b c : W32) (x : W128) (s : State) : Host.Outcome State Fault Refusal :=
  onCore s (fun k => vxMapRow k h.tile.toNat (mkTIns h 7 0x86 a b c x))
/-- VX_FUNC (R215). -/
def execVxFunc (h : TileHdr) (a b c : W32) (x : W128) (s : State) : Host.Outcome State Fault Refusal :=
  onCore s (fun k => vxMapRow k h.tile.toNat (mkTIns h 7 0x87 a b c x))
/-- VX_REDUCE (R216). -/
def execVxReduce (h : TileHdr) (a b c : W32) (x : W128) (s : State) : Host.Outcome State Fault Refusal :=
  onCore s (fun k => vxReduceRow k h.tile.toNat (mkTIns h 7 0x88 a b c x))
/-- VX_MAXABS (R217). -/
def execVxMaxabs (h : TileHdr) (a b c : W32) (x : W128) (s : State) : Host.Outcome State Fault Refusal :=
  onCore s (fun k => vxMaxabsRow k h.tile.toNat (mkTIns h 7 0x89 a b c x))
/-- VX_NORM (R218). -/
def execVxNorm (h : TileHdr) (a b c : W32) (x : W128) (s : State) : Host.Outcome State Fault Refusal :=
  onCore s (fun k => vxRowsRow normRow k h.tile.toNat (mkTIns h 7 0x8A a b c x))
/-- VX_SOFTMAX (R219). -/
def execVxSoftmax (h : TileHdr) (a b c : W32) (x : W128) (s : State) : Host.Outcome State Fault Refusal :=
  onCore s (fun k => vxRowsRow softmaxRow k h.tile.toNat (mkTIns h 7 0x8B a b c x))
/-- VX_SAMPLE (R224). -/
def execVxSample (h : TileHdr) (a b c : W32) (x : W128) (s : State) : Host.Outcome State Fault Refusal :=
  onCore s (fun k => vxRowsRow sampleRow k h.tile.toNat (mkTIns h 7 0x8C a b c x))
/-- VX_WHISK (R220). -/
def execVxWhisk (h : TileHdr) (a b c : W32) (x : W128) (s : State) : Host.Outcome State Fault Refusal :=
  onCore s (fun k => vxRowsRow whiskRow k h.tile.toNat (mkTIns h 7 0x8D a b c x))
/-- VX_WINDOW (R235). -/
def execVxWindow (h : TileHdr) (a b c : W32) (x : W128) (s : State) : Host.Outcome State Fault Refusal :=
  onCore s (fun k => vxWindowRow k h.tile.toNat (mkTIns h 7 0x8E a b c x))
/-- CV_SETUP (R233). -/
def execCvSetup (h : TileHdr) (a b c : W32) (x : W128) (s : State) : Host.Outcome State Fault Refusal :=
  onCore s (fun k => cvSetupRow k h.tile.toNat (mkTIns h 9 0x81 a b c x))
/-- CV_FEED (R230). -/
def execCvFeed (h : TileHdr) (a b c : W32) (s : State) : Host.Outcome State Fault Refusal :=
  onCore s (fun k => cvFeedRow k h.tile.toNat (mkTIns h 9 0x02 a b c 0))
/-- AT_RUN (R256). -/
def execAtRun (h : TileHdr) (a b c : W32) (x : W128) (s : State) : Host.Outcome State Fault Refusal :=
  onCore s (fun k => atRunRow k h.tile.toNat (mkTIns h 8 0x81 a b c x))
/-- AT_KVPUT (R260). -/
def execAtKvput (h : TileHdr) (a b c : W32) (x : W128) (s : State) : Host.Outcome State Fault Refusal :=
  onCore s (fun k => atKvputRow k h.tile.toNat (mkTIns h 8 0x82 a b c x))
/-- AT_MERGE (R276). -/
def execAtMerge (h : TileHdr) (a b c : W32) (x : W128) (s : State) : Host.Outcome State Fault Refusal :=
  onCore s (fun k => atMergeRow k h.tile.toNat (mkTIns h 8 0x83 a b c x))

end Sys2Proof.Machine
end

