-- ==== Sys2Proof/Machine/Dispatch.lean ====
section
/-! DEFINITION. The dispatch: one arm per command, each a call of its meaning. -/

namespace Sys2Proof.Machine

/-- The effect of a command on everything but the queue. -/
def exec (i : Instr) (s : State) : Host.Outcome State Fault Refusal :=
  match i with
  | .vaonInRegulation straps => Sys2Proof.Machine.execVaonInRegulation straps s
  | .pwrgoodRise fuseShadowOk => Sys2Proof.Machine.execPwrgoodRise fuseShadowOk s
  | .rootPllLock => Sys2Proof.Machine.execRootPllLock s
  | .pllLockTimeout => Sys2Proof.Machine.execPllLockTimeout s
  | .pwrgoodFall => Sys2Proof.Machine.execPwrgoodFall s
  | .railTrip rail => Sys2Proof.Machine.execRailTrip rail s
  | .resetNLow aclk => Sys2Proof.Machine.execResetNLow aclk s
  | .perstNLow aclk => Sys2Proof.Machine.execPerstNLow aclk s
  | .pcieHotReset cause boot => Sys2Proof.Machine.execPcieHotReset cause boot s
  | .functionLevelReset boot => Sys2Proof.Machine.execFunctionLevelReset boot s
  | .resetRelease boot => Sys2Proof.Machine.execResetRelease boot s
  | .bootRomComplete sramWipeOk journalOk => Sys2Proof.Machine.execBootRomComplete sramWipeOk journalOk s
  | .hbmTrainingDone trained dramWipeOk => Sys2Proof.Machine.execHbmTrainingDone trained dramWipeOk s
  | .startupComplete => Sys2Proof.Machine.execStartupComplete s
  | .pcieLinkTrained lanes speed flit => Sys2Proof.Machine.execPcieLinkTrained lanes speed flit s
  | .pcieConfigRequest r => Sys2Proof.Machine.execPcieConfigRequest r s
  | .thermNAssert celsius => Sys2Proof.Machine.execThermNAssert celsius s
  | .thermNRelease celsius => Sys2Proof.Machine.execThermNRelease celsius s
  | .thermNDemandStart => Sys2Proof.Machine.execThermNDemandStart s
  | .thermNDemandEnd => Sys2Proof.Machine.execThermNDemandEnd s
  | .thermalShutdown celsius => Sys2Proof.Machine.execThermalShutdown celsius s
  | .wakeNAssert aclk => Sys2Proof.Machine.execWakeNAssert aclk s
  | .smbReadGrade pec => Sys2Proof.Machine.execSmbReadGrade pec s
  | .smbReadSetPoints pec => Sys2Proof.Machine.execSmbReadSetPoints pec s
  | .smbReadAonStatus pec => Sys2Proof.Machine.execSmbReadAonStatus pec s
  | .smbWriteAonStatus v pec => Sys2Proof.Machine.execSmbWriteAonStatus v pec s
  | .smbGrant body pec => Sys2Proof.Machine.execSmbGrant body pec s
  | .smbReport => Sys2Proof.Machine.execSmbReport s
  | .dbgTapReset tckHigh => Sys2Proof.Machine.execDbgTapReset tckHigh s
  | .dbgBypass => Sys2Proof.Machine.execDbgBypass s
  | .dbgIdcode => Sys2Proof.Machine.execDbgIdcode s
  | .dbgChallenge random => Sys2Proof.Machine.execDbgChallenge random s
  | .dbgUnlock level publicKey signature => Sys2Proof.Machine.execDbgUnlock level publicKey signature s
  | .dbgUnlockVerified => Sys2Proof.Machine.execDbgUnlockVerified s
  | .dbgLockoutEnd => Sys2Proof.Machine.execDbgLockoutEnd s
  | .dbgLock => Sys2Proof.Machine.execDbgLock s
  | .dbgRecover header image => Sys2Proof.Machine.execDbgRecover header image s
  | .dbgRead target => Sys2Proof.Machine.execDbgRead target s
  | .dbgTsHalt tile => Sys2Proof.Machine.execDbgTsHalt tile s
  | .dbgTsStep tile => Sys2Proof.Machine.execDbgTsStep tile s
  | .dbgFuseProgram f => Sys2Proof.Machine.execDbgFuseProgram f s
  | .bistEntry => Sys2Proof.Machine.execBistEntry s
  | .bar0BadAccess read offset len => Sys2Proof.Machine.execBar0BadAccess read offset len s
  | .bar2FeedWrite offset data => Sys2Proof.Machine.execBar2FeedWrite offset data s
  | .bar4Read offset len => Sys2Proof.Machine.execBar4Read offset len s
  | .bar4Write offset data attr => Sys2Proof.Machine.execBar4Write offset data attr s
  | .msixUnmask vector => Sys2Proof.Machine.execMsixUnmask vector s
  | .msixTimeTrigger ring => Sys2Proof.Machine.execMsixTimeTrigger ring s
  | .writebackCoalesceExpiry port => Sys2Proof.Machine.execWritebackCoalesceExpiry port s
  | .glbEnable => Sys2Proof.Machine.execGlbEnable s
  | .consistencyCheckDone incarnation => Sys2Proof.Machine.execConsistencyCheckDone incarnation s
  | .glbPartReset bits => Sys2Proof.Machine.execGlbPartReset bits s
  | .partitionResetDone p => Sys2Proof.Machine.execPartitionResetDone p s
  | .feedPortOpen port ctl => Sys2Proof.Machine.execFeedPortOpen port ctl s
  | .feedPortClose port => Sys2Proof.Machine.execFeedPortClose port s
  | .feedPortClosed port => Sys2Proof.Machine.execFeedPortClosed port s
  | .feedCqHeadWrite port head => Sys2Proof.Machine.execFeedCqHeadWrite port head s
  | .feedDrHeadWrite ring v => Sys2Proof.Machine.execFeedDrHeadWrite ring v s
  | .errRingEnable ringO => Sys2Proof.Machine.execErrRingEnable ringO s
  | .errRingDisable ringO => Sys2Proof.Machine.execErrRingDisable ringO s
  | .errRingHeadWrite ringO v => Sys2Proof.Machine.execErrRingHeadWrite ringO v s
  | .tileStallClr tile v => Sys2Proof.Machine.execTileStallClr tile v s
  | .tileMeClr tile v => Sys2Proof.Machine.execTileMeClr tile v s
  | .tileNumClr tile v => Sys2Proof.Machine.execTileNumClr tile v s
  | .tileVcClr tile v => Sys2Proof.Machine.execTileVcClr tile v s
  | .tileAtClr tile v => Sys2Proof.Machine.execTileAtClr tile v s
  | .pciStallClr v => Sys2Proof.Machine.execPciStallClr v s
  | .glbBrClr v => Sys2Proof.Machine.execGlbBrClr v s
  | .schdClr v => Sys2Proof.Machine.execSchdClr v s
  | .schdObjClr v => Sys2Proof.Machine.execSchdObjClr v s
  | .memClr stack v => Sys2Proof.Machine.execMemClr stack v s
  | .pxClr flash stack v => Sys2Proof.Machine.execPxClr flash stack v s
  | .flsClr stack v => Sys2Proof.Machine.execFlsClr stack v s
  | .fabClr v => Sys2Proof.Machine.execFabClr v s
  | .pwrClr v => Sys2Proof.Machine.execPwrClr v s
  | .secClr v => Sys2Proof.Machine.execSecClr v s
  | .errClr v => Sys2Proof.Machine.execErrClr v s
  | .registerWrite offset eight v => Sys2Proof.Machine.execRegisterWrite offset eight v s
  | .feedTake port => Sys2Proof.Machine.execFeedTake port s
  | .sysNop h a b c => Sys2Proof.Machine.execSysNop h a b c s
  | .sysQuery h a b c => Sys2Proof.Machine.execSysQuery h a b c s
  | .sysRingOpen h a b c x => Sys2Proof.Machine.execSysRingOpen h a b c x s
  | .sysRingClose h a b c => Sys2Proof.Machine.execSysRingClose h a b c s
  | .sysCtxOpen h a b c => Sys2Proof.Machine.execSysCtxOpen h a b c s
  | .sysCtxClose h a b c => Sys2Proof.Machine.execSysCtxClose h a b c s
  | .seqOpen h a b c x => Sys2Proof.Machine.execSeqOpen h a b c x s
  | .seqPrompt h a b c x => Sys2Proof.Machine.execSeqPrompt h a b c x s
  | .seqStart h a b c => Sys2Proof.Machine.execSeqStart h a b c s
  | .seqPause h a b c => Sys2Proof.Machine.execSeqPause h a b c s
  | .seqResume h a b c => Sys2Proof.Machine.execSeqResume h a b c s
  | .seqCancel h a b c => Sys2Proof.Machine.execSeqCancel h a b c s
  | .seqClose h a b c => Sys2Proof.Machine.execSeqClose h a b c s
  | .seqStop h a b c => Sys2Proof.Machine.execSeqStop h a b c s
  | .seqPrio h a b c => Sys2Proof.Machine.execSeqPrio h a b c s
  | .seqQuery h a b c => Sys2Proof.Machine.execSeqQuery h a b c s
  | .ptPoolOpen h a b c => Sys2Proof.Machine.execPtPoolOpen h a b c s
  | .ptPoolClose h a b c => Sys2Proof.Machine.execPtPoolClose h a b c s
  | .ptPoolStat h a b c => Sys2Proof.Machine.execPtPoolStat h a b c s
  | .ptBind h a b c => Sys2Proof.Machine.execPtBind h a b c s
  | .ptRead h a b c => Sys2Proof.Machine.execPtRead h a b c s
  | .ptEdit h a b c x => Sys2Proof.Machine.execPtEdit h a b c x s
  | .pageEditPrepared seq => Sys2Proof.Machine.execPageEditPrepared seq s
  | .acctOpen h a b c => Sys2Proof.Machine.execAcctOpen h a b c s
  | .acctSet h a b c => Sys2Proof.Machine.execAcctSet h a b c s
  | .acctGrant h a b c => Sys2Proof.Machine.execAcctGrant h a b c s
  | .acctClose h a b c => Sys2Proof.Machine.execAcctClose h a b c s
  | .acctStat h a b c => Sys2Proof.Machine.execAcctStat h a b c s
  | .msetLoad h a b c => Sys2Proof.Machine.execMsetLoad h a b c s
  | .msetSwap h a b c => Sys2Proof.Machine.execMsetSwap h a b c s
  | .msetDrain h a b c => Sys2Proof.Machine.execMsetDrain h a b c s
  | .msetQuery h a b c => Sys2Proof.Machine.execMsetQuery h a b c s
  | .objAlloc h a b c x => Sys2Proof.Machine.execObjAlloc h a b c x s
  | .dramZeroComplete handle => Sys2Proof.Machine.execDramZeroComplete handle s
  | .objPromote h a b c => Sys2Proof.Machine.execObjPromote h a b c s
  | .fetchComplete handle => Sys2Proof.Machine.execFetchComplete handle s
  | .objEvict h a b c => Sys2Proof.Machine.execObjEvict h a b c s
  | .evictionComplete handle => Sys2Proof.Machine.execEvictionComplete handle s
  | .objPin h a b c => Sys2Proof.Machine.execObjPin h a b c s
  | .objUnpin h a b c => Sys2Proof.Machine.execObjUnpin h a b c s
  | .objClean h a b c => Sys2Proof.Machine.execObjClean h a b c s
  | .objFree h a b c => Sys2Proof.Machine.execObjFree h a b c s
  | .objQuery h a b c => Sys2Proof.Machine.execObjQuery h a b c s
  | .objSched h a b c => Sys2Proof.Machine.execObjSched h a b c s
  | .objFlErase h a b c => Sys2Proof.Machine.execObjFlErase h a b c s
  | .objFlQuery h a b c => Sys2Proof.Machine.execObjFlQuery h a b c s
  | .objFlStore h a b c => Sys2Proof.Machine.execObjFlStore h a b c s
  | .flashEraseDone stack unit pulses marginFails => Sys2Proof.Machine.execFlashEraseDone stack unit pulses marginFails s
  | .flashPageProgrammed stack loops marginFails => Sys2Proof.Machine.execFlashPageProgrammed stack loops marginFails s
  | .flashRead stack unit page codeword bitErrors => Sys2Proof.Machine.execFlashRead stack unit page codeword bitErrors s
  | .flashReadRetry stack unit page codeword errors => Sys2Proof.Machine.execFlashReadRetry stack unit page codeword errors s
  | .flashOpResume stack => Sys2Proof.Machine.execFlashOpResume stack s
  | .codeRegionFetch address taken retries => Sys2Proof.Machine.execCodeRegionFetch address taken retries s
  | .dmCopy h a b c x => Sys2Proof.Machine.execDmCopy h a b c x s
  | .dmStride h a b c x => Sys2Proof.Machine.execDmStride h a b c x s
  | .dmTrans h a b c x => Sys2Proof.Machine.execDmTrans h a b c x s
  | .dmFill h a b c x => Sys2Proof.Machine.execDmFill h a b c x s
  | .remoteIncrementArrive tile ctr amount => Sys2Proof.Machine.execRemoteIncrementArrive tile ctr amount s
  | .hxEnd h a b c => Sys2Proof.Machine.execHxEnd h a b c s
  | .hxSet h a b c => Sys2Proof.Machine.execHxSet h a b c s
  | .hxAdd h a b c => Sys2Proof.Machine.execHxAdd h a b c s
  | .hxBarrier h a b c => Sys2Proof.Machine.execHxBarrier h a b c s
  | .hxTset h a b c => Sys2Proof.Machine.execHxTset h a b c s
  | .hxTadd h a b c => Sys2Proof.Machine.execHxTadd h a b c s
  | .hxTload h a b c => Sys2Proof.Machine.execHxTload h a b c s
  | .hxJump h a b c => Sys2Proof.Machine.execHxJump h a b c s
  | .hxBranch h a b c => Sys2Proof.Machine.execHxBranch h a b c s
  | .hxLoop h a b c => Sys2Proof.Machine.execHxLoop h a b c s
  | .programFetchReturn tile => Sys2Proof.Machine.execProgramFetchReturn tile s
  | .mxLoads h a b c => Sys2Proof.Machine.execMxLoads h a b c s
  | .mxLoadArmed tile eng => Sys2Proof.Machine.execMxLoadArmed tile eng s
  | .mxPass h a b c => Sys2Proof.Machine.execMxPass h a b c s
  | .mxWaveIssue tile eng => Sys2Proof.Machine.execMxWaveIssue tile eng s
  | .oabRowWrite tile eng => Sys2Proof.Machine.execOabRowWrite tile eng s
  | .mxRegisterEmpty tile eng => Sys2Proof.Machine.execMxRegisterEmpty tile eng s
  | .mxDrain h a b c x => Sys2Proof.Machine.execMxDrain h a b c x s
  | .drainRowWrite tile eng => Sys2Proof.Machine.execDrainRowWrite tile eng s
  | .vxAdd h a b c x => Sys2Proof.Machine.execVxAdd h a b c x s
  | .vxMul h a b c x => Sys2Proof.Machine.execVxMul h a b c x s
  | .vxFma h a b c x => Sys2Proof.Machine.execVxFma h a b c x s
  | .vxMax h a b c x => Sys2Proof.Machine.execVxMax h a b c x s
  | .vxMin h a b c x => Sys2Proof.Machine.execVxMin h a b c x s
  | .vxCvt h a b c x => Sys2Proof.Machine.execVxCvt h a b c x s
  | .vxFunc h a b c x => Sys2Proof.Machine.execVxFunc h a b c x s
  | .vxReduce h a b c x => Sys2Proof.Machine.execVxReduce h a b c x s
  | .vxMaxabs h a b c x => Sys2Proof.Machine.execVxMaxabs h a b c x s
  | .vxNorm h a b c x => Sys2Proof.Machine.execVxNorm h a b c x s
  | .vxSoftmax h a b c x => Sys2Proof.Machine.execVxSoftmax h a b c x s
  | .vxSample h a b c x => Sys2Proof.Machine.execVxSample h a b c x s
  | .vxWhisk h a b c x => Sys2Proof.Machine.execVxWhisk h a b c x s
  | .vxWindow h a b c x => Sys2Proof.Machine.execVxWindow h a b c x s
  | .cvSetup h a b c x => Sys2Proof.Machine.execCvSetup h a b c x s
  | .cvFeed h a b c => Sys2Proof.Machine.execCvFeed h a b c s
  | .atRun h a b c x => Sys2Proof.Machine.execAtRun h a b c x s
  | .atKvput h a b c x => Sys2Proof.Machine.execAtKvput h a b c x s
  | .atMerge h a b c x => Sys2Proof.Machine.execAtMerge h a b c x s
  | .stepBoundary dom => Sys2Proof.Machine.execStepBoundary dom s
  | .idleBoundaryTimer dom => Sys2Proof.Machine.execIdleBoundaryTimer dom s
  | .gateGroupRelease dom => Sys2Proof.Machine.execGateGroupRelease dom s
  | .softStartRise tile => Sys2Proof.Machine.execSoftStartRise tile s
  | .pageCopyDone seq => Sys2Proof.Machine.execPageCopyDone seq s
  | .waitingRecordWrite ring => Sys2Proof.Machine.execWaitingRecordWrite ring s
  | .stepRetire dom energy => Sys2Proof.Machine.execStepRetire dom energy s
  | .stepWatchdog dom => Sys2Proof.Machine.execStepWatchdog dom s
  | .dramRequest stack requests pc cycle => Sys2Proof.Machine.execDramRequest stack requests pc cycle s
  | .recoveryLineDone handle line data => Sys2Proof.Machine.execRecoveryLineDone handle line data s
  | .refreshDue stack pc => Sys2Proof.Machine.execRefreshDue stack pc s
  | .stackTempRead stack celsius => Sys2Proof.Machine.execStackTempRead stack celsius s
  | .migrationFrame frame => Sys2Proof.Machine.execMigrationFrame frame s
  | .migrationComplete stack => Sys2Proof.Machine.execMigrationComplete stack s
  | .retrainStart stack channel => Sys2Proof.Machine.execRetrainStart stack channel s
  | .retrainDone stack channel ok => Sys2Proof.Machine.execRetrainDone stack channel ok s
  | .dramScrubFrame stack pc err => Sys2Proof.Machine.execDramScrubFrame stack pc err s
  | .flashScrubPage stack retries => Sys2Proof.Machine.execFlashScrubPage stack retries s
  | .portTrainingDone port goodLanes peer => Sys2Proof.Machine.execPortTrainingDone port goodLanes peer s
  | .portRetryTimer port => Sys2Proof.Machine.execPortRetryTimer port s
  | .linkSilence port => Sys2Proof.Machine.execLinkSilence port s
  | .linkResend port => Sys2Proof.Machine.execLinkResend port s
  | .frameForward port f => Sys2Proof.Machine.execFrameForward port f s
  | .fabData port f => Sys2Proof.Machine.execFabData port f s
  | .fabAck port f => Sys2Proof.Machine.execFabAck port f s
  | .fabNack port f => Sys2Proof.Machine.execFabNack port f s
  | .fabCredit port f => Sys2Proof.Machine.execFabCredit port f s
  | .fabBcast port f => Sys2Proof.Machine.execFabBcast port f s
  | .bcastJoin port f => Sys2Proof.Machine.execBcastJoin port f s
  | .bcastEnd port f => Sys2Proof.Machine.execBcastEnd port f s
  | .bcastBitmap port f => Sys2Proof.Machine.execBcastBitmap port f s
  | .bcastDone port f => Sys2Proof.Machine.execBcastDone port f s
  | .bcastTimeout session => Sys2Proof.Machine.execBcastTimeout session s
  | .fabMirror port f => Sys2Proof.Machine.execFabMirror port f s
  | .fabMirrorAck port f => Sys2Proof.Machine.execFabMirrorAck port f s
  | .fabGrant port f => Sys2Proof.Machine.execFabGrant port f s
  | .fabPing port f => Sys2Proof.Machine.execFabPing port f s
  | .fabPong port f => Sys2Proof.Machine.execFabPong port f s
  | .fabDeviceDown port f => Sys2Proof.Machine.execFabDeviceDown port f s
  | .e2eTimeout node => Sys2Proof.Machine.execE2eTimeout node s
  | .fabRoute h a b c => Sys2Proof.Machine.execFabRoute h a b c s
  | .fabChanOpen h a b c x => Sys2Proof.Machine.execFabChanOpen h a b c x s
  | .fabChanClose h a b c => Sys2Proof.Machine.execFabChanClose h a b c s
  | .fabBcastSend h a b c => Sys2Proof.Machine.execFabBcastSend h a b c s
  | .fabBcastRecv h a b c => Sys2Proof.Machine.execFabBcastRecv h a b c s
  | .fabTwinJoin h a b c => Sys2Proof.Machine.execFabTwinJoin h a b c s
  | .fabTwinLeave h a b c => Sys2Proof.Machine.execFabTwinLeave h a b c s
  | .fabFailrec h a b c => Sys2Proof.Machine.execFabFailrec h a b c s
  | .fabNodeQuery h a b c => Sys2Proof.Machine.execFabNodeQuery h a b c s
  | .fastPeriod est => Sys2Proof.Machine.execFastPeriod est s
  | .slowPeriod => Sys2Proof.Machine.execSlowPeriod s
  | .dividerApply tile => Sys2Proof.Machine.execDividerApply tile s
  | .estimatorWindow estimate measured => Sys2Proof.Machine.execEstimatorWindow estimate measured s
  | .thermalLaw celsius => Sys2Proof.Machine.execThermalLaw celsius s
  | .complianceInterval milliwatts => Sys2Proof.Machine.execComplianceInterval milliwatts s
  | .leaseExpiry => Sys2Proof.Machine.execLeaseExpiry s
  | .reportPeriod milliwatts => Sys2Proof.Machine.execReportPeriod milliwatts s
  | .droopFire tile => Sys2Proof.Machine.execDroopFire tile s
  | .droopHoldEnd tile => Sys2Proof.Machine.execDroopHoldEnd tile s
  | .pwrStepTarget h a b c => Sys2Proof.Machine.execPwrStepTarget h a b c s
  | .pwrLimit h a b c => Sys2Proof.Machine.execPwrLimit h a b c s
  | .pwrQuery h a b c => Sys2Proof.Machine.execPwrQuery h a b c s
  | .pwrEnter h a b c => Sys2Proof.Machine.execPwrEnter h a b c s
  | .entryCommit cclk => Sys2Proof.Machine.execEntryCommit cclk s
  | .entryRefused stop => Sys2Proof.Machine.execEntryRefused stop s
  | .pwrWake h a b c => Sys2Proof.Machine.execPwrWake h a b c s
  | .powerWake source => Sys2Proof.Machine.execPowerWake source s
  | .powerExitComplete imageOk => Sys2Proof.Machine.execPowerExitComplete imageOk s
  | .grazeSample r => Sys2Proof.Machine.execGrazeSample r s
  | .secExtend h a b c => Sys2Proof.Machine.execSecExtend h a b c s
  | .secFwStage h a b c => Sys2Proof.Machine.execSecFwStage h a b c s
  | .secFwActivate h a b c => Sys2Proof.Machine.execSecFwActivate h a b c s
  | .secFwAbort h a b c => Sys2Proof.Machine.execSecFwAbort h a b c s
  | .secFwCommit h a b c => Sys2Proof.Machine.execSecFwCommit h a b c s
  | .secLcAdvance h a b c => Sys2Proof.Machine.execSecLcAdvance h a b c s
  | .secQuote h a b c x => Sys2Proof.Machine.execSecQuote h a b c x s
  | .quoteSigned h => Sys2Proof.Machine.execQuoteSigned h s
  | .secCtxKey h a b c x => Sys2Proof.Machine.execSecCtxKey h a b c x s
  | .ctxKeyReadDone h ok key => Sys2Proof.Machine.execCtxKeyReadDone h ok key s
  | .maintTest h a b c => Sys2Proof.Machine.execMaintTest h a b c s
  | .fieldTestVerified slot => Sys2Proof.Machine.execFieldTestVerified slot s
  | .fieldTestDone slot passed detail reinitOk => Sys2Proof.Machine.execFieldTestDone slot passed detail reinitOk s
  | .maintScrub h a b c => Sys2Proof.Machine.execMaintScrub h a b c s
  | .maintStop h a b c => Sys2Proof.Machine.execMaintStop h a b c s
  | .maintQuery h a b c => Sys2Proof.Machine.execMaintQuery h a b c s
  | .sysrefLoss => Sys2Proof.Machine.execSysrefLoss s
  | .sysrefReturn => Sys2Proof.Machine.execSysrefReturn s
  | .vaonOutOfRegulation => Sys2Proof.Machine.execVaonOutOfRegulation s
  | .smbusTimeout => Sys2Proof.Machine.execSmbusTimeout s
  | .hostReadCompletion tag status data => Sys2Proof.Machine.execHostReadCompletion tag status data s
  | .completionTimeout tag => Sys2Proof.Machine.execCompletionTimeout tag s
  | .objCleanComplete handle => Sys2Proof.Machine.execObjCleanComplete handle s

end Sys2Proof.Machine
end

