-- ==== Sys2Proof/WellFormed.lean ====
section
/-! DEFINITION. Well-formed commands: one check for each bound the spec sets on what a command's operands can be. A command that fails a
check cannot arise; exec still answers for it, as its meaning's own guards say. -/

namespace Sys2Proof

/-- A fabric frame carries at most 16 lines and a body of 28 bytes (R409). -/
def Frame.ok (f : Frame) : Bool := decide (f.lines.length ≤ 16) && decide (f.body.length ≤ 28)

/-- The frame a fabric command carries. -/
def Instr.frame : Instr → Option Frame
  | .frameForward _ f | .fabData _ f | .fabAck _ f | .fabNack _ f | .fabCredit _ f | .fabBcast _ f | .bcastJoin _ f | .bcastEnd _ f
  | .bcastBitmap _ f | .bcastDone _ f | .fabMirror _ f | .fabMirrorAck _ f | .fabGrant _ f | .fabPing _ f | .fabPong _ f
  | .fabDeviceDown _ f => some f
  | _ => none

/-- Check of a frame (R409). -/
def frameOk (i : Instr) : Bool := match i.frame with | some f => f.ok | none => true
/-- Check of a trained link: 16, 8 or 4 lanes at 2.5 to 64 GT/s, the last in Flit mode (R41, R87). -/
def linkOk : Instr → Bool
  | .pcieLinkTrained lanes speed flit =>
    (lanes == 16 || lanes == 8 || lanes == 4) && decide (1 ≤ speed.toNat ∧ speed.toNat ≤ 6) && (speed != 6 || flit)
  | _ => true
/-- Check of the temperatures at which a threshold is crossed (R37, R56). -/
def thresholdOk : Instr → Bool
  | .thermNAssert c => decide (100 ≤ c)
  | .thermNRelease c => decide (c ≤ 95)
  | .thermalShutdown c => decide (110 ≤ c)
  | _ => true
/-- Check of a pulse on a reset pin: 10 ACLK cycles or more (R34). -/
def pulseOk : Instr → Bool
  | .resetNLow n | .perstNLow n => decide (10 ≤ n)
  | _ => true
/-- Check of a flash codeword's place: 57,344 units of 2,048 pages of 8 codewords (R380). -/
def codewordOk : Instr → Bool
  | .flashRead _ u p c _ | .flashReadRetry _ u p c _ => decide (u.toNat < 57344) && decide (p < 2048) && decide (c < 8)
  | _ => true
/-- Check of a retry: the levels tried are at most three (R386). -/
def retryOk : Instr → Bool
  | .flashReadRetry _ _ _ _ errs => decide (errs.length ≤ 3)
  | _ => true
/-- Check of a unit's pulses and a page's loops: at most 8 and 24, one more meaning that it failed (R389). -/
def loopsOk : Instr → Bool
  | .flashEraseDone _ _ n _ => decide (n ≤ 9)
  | .flashPageProgrammed _ n _ => decide (n ≤ 25)
  | _ => true
/-- Check of a credential: an SLH-DSA-SHA2-192s public key of 48 bytes and a signature of 16,224 (R475). -/
def credentialOk : Instr → Bool
  | .dbgUnlock _ pk sig => decide (pk.length = 48) && decide (sig.length = 16224)
  | _ => true
/-- Check of the estimates of a fast period: one for each step domain (R439). -/
def estimatesOk : Instr → Bool
  | .fastPeriod e => decide (e.tilePower.length = 5) && decide (e.uncore.length = 5)
  | _ => true
/-- Check of a configuration write: the sizes and tag widths the host can set (R87, R90). -/
def cfgOk : Instr → Bool
  | .pcieConfigRequest (.maxPayload n) => [128, 256, 512].contains n
  | .pcieConfigRequest (.maxReadRequest n) => [128, 256, 512, 1024, 2048, 4096].contains n
  | .pcieConfigRequest (.tagBits n) => [8, 10, 14].contains n
  | _ => true

/-- Every check holds. -/
def wellFormed (i : Instr) : Bool :=
  frameOk i && linkOk i && thresholdOk i && pulseOk i && codewordOk i && retryOk i && loopsOk i && credentialOk i && estimatesOk i &&
  cfgOk i

end Sys2Proof
end

