-- ==== Sys2Proof/Safety.lean ====
section
/-! DEFINITION. The terms claims use: a safe step, what the fuses keep, and the canonical form of every memory. -/

namespace Sys2Proof.Machine

/-- The command's step has a next state. -/
def Safe (c : Instr) (s : State) : Prop := ∃ t, exec c s = .next t

/-- Every memory of the core is in canonical form: device memory, staging memory, flash and host memory in place. -/
def Core.memOk (k : Core) : Bool := k.dram.wf 0 && k.stg.wf 0 && k.flash.wf 0xFF && k.host.wf 0

/-- Every fuse blown in f is blown in g, and what the part was sold as is the same (R474). -/
def Fuses.le (f g : Fuses) : Prop :=
  f.lifeRows &&& g.lifeRows = f.lifeRows ∧ f.tveddaKeyHash &&& g.tveddaKeyHash = f.tveddaKeyHash ∧
  f.operatorKeyHash &&& g.operatorKeyHash = f.operatorKeyHash ∧ f.svnMin &&& g.svnMin = f.svnMin ∧ f.secret &&& g.secret = f.secret ∧
  f.grade = g.grade ∧ f.stepping = g.stepping ∧ f.engines = g.engines ∧ f.fcap = g.fcap ∧ f.vcore0 = g.vcore0 ∧ f.vcore1 = g.vcore1

/-- A control instruction passes its checks: its source can hand it over, the device serves it, no entry handshake holds back one of its
class, and none of the checks of R111 fails. -/
def Accepted (sp : CtlSpec) (h : CtlHdr) (a b c : W32) (x : W128) (k : Core) : Prop :=
  ctlServed k = true ∧ srcLive k h.src = true ∧ (sp.cls ∈ [0x4, 0xC, 0xD, 0xE] → k.pst.handshake ≠ 1) ∧
  ∀ e ∈ checks3 sp (mkCtl h sp.cls sp.op a b c x) false ++ sp.checks (mkCtl h sp.cls sp.op a b c x) k, e.bad = false

/-- The machine after an instruction that left the core t and retires with a payload and no error (R119). -/
def doneAt (s : State) (i : Ctl) (t : Core) (payload : List Byte) : Host.Outcome State Fault Refusal :=
  .next (s.finish (retire t i 0 0 payload))

/-- The machine after an instruction that left the core t and stays in flight (R120). -/
def flightAt (s : State) (t : Core) (f : Flt) : Host.Outcome State Fault Refusal :=
  .next (s.finish { t with flts := t.flts ++ [f] })

/-- The command takes the power away or is a reset of the whole device (R59, R62). -/
def resets : Instr → Bool
  | .pwrgoodRise _ | .pwrgoodFall | .railTrip _ | .resetNLow _ | .perstNLow _ | .pcieHotReset _ _ | .functionLevelReset _
  | .vaonOutOfRegulation => true
  | _ => false

/-- A control instruction as its row gives it: what the Conductor knows of it, and its operands (R107, R111). -/
structure CtlRow where
  spec : CtlSpec
  hdr : CtlHdr
  a : W32
  b : W32
  c : W32
  x : W128

/-- The control instruction a command is, where it is one. -/
def ctlOf : Instr → Option CtlRow
  | .sysNop h a b c => some ⟨sysNopSpec, h, a, b, c, 0⟩
  | .sysQuery h a b c => some ⟨sysQuerySpec, h, a, b, c, 0⟩
  | .sysRingOpen h a b c x => some ⟨sysRingOpenSpec, h, a, b, c, x⟩
  | .sysRingClose h a b c => some ⟨sysRingCloseSpec, h, a, b, c, 0⟩
  | .sysCtxOpen h a b c => some ⟨sysCtxOpenSpec, h, a, b, c, 0⟩
  | .sysCtxClose h a b c => some ⟨sysCtxCloseSpec, h, a, b, c, 0⟩
  | .seqOpen h a b c x => some ⟨seqOpenSpec, h, a, b, c, x⟩
  | .seqPrompt h a b c x => some ⟨seqPromptSpec, h, a, b, c, x⟩
  | .seqStart h a b c => some ⟨seqStartSpec, h, a, b, c, 0⟩
  | .seqPause h a b c => some ⟨seqPauseSpec, h, a, b, c, 0⟩
  | .seqResume h a b c => some ⟨seqResumeSpec, h, a, b, c, 0⟩
  | .seqCancel h a b c => some ⟨seqCancelSpec, h, a, b, c, 0⟩
  | .seqClose h a b c => some ⟨seqCloseSpec, h, a, b, c, 0⟩
  | .seqStop h a b c => some ⟨seqStopSpec, h, a, b, c, 0⟩
  | .seqPrio h a b c => some ⟨seqPrioSpec, h, a, b, c, 0⟩
  | .seqQuery h a b c => some ⟨seqQuerySpec, h, a, b, c, 0⟩
  | .ptPoolOpen h a b c => some ⟨ptPoolOpenSpec, h, a, b, c, 0⟩
  | .ptPoolClose h a b c => some ⟨ptPoolCloseSpec, h, a, b, c, 0⟩
  | .ptPoolStat h a b c => some ⟨ptPoolStatSpec, h, a, b, c, 0⟩
  | .ptBind h a b c => some ⟨ptBindSpec, h, a, b, c, 0⟩
  | .ptRead h a b c => some ⟨ptReadSpec, h, a, b, c, 0⟩
  | .ptEdit h a b c x => some ⟨ptEditSpec, h, a, b, c, x⟩
  | .acctOpen h a b c => some ⟨acctOpenSpec, h, a, b, c, 0⟩
  | .acctSet h a b c => some ⟨acctSetSpec, h, a, b, c, 0⟩
  | .acctGrant h a b c => some ⟨acctGrantSpec, h, a, b, c, 0⟩
  | .acctClose h a b c => some ⟨acctCloseSpec, h, a, b, c, 0⟩
  | .acctStat h a b c => some ⟨acctStatSpec, h, a, b, c, 0⟩
  | .msetLoad h a b c => some ⟨msetLoadSpec, h, a, b, c, 0⟩
  | .msetSwap h a b c => some ⟨msetSwapSpec, h, a, b, c, 0⟩
  | .msetDrain h a b c => some ⟨msetDrainSpec, h, a, b, c, 0⟩
  | .msetQuery h a b c => some ⟨msetQuerySpec, h, a, b, c, 0⟩
  | .objAlloc h a b c x => some ⟨objAllocSpec, h, a, b, c, x⟩
  | .objPromote h a b c => some ⟨objPromoteSpec, h, a, b, c, 0⟩
  | .objEvict h a b c => some ⟨objEvictSpec, h, a, b, c, 0⟩
  | .objPin h a b c => some ⟨objPinSpec, h, a, b, c, 0⟩
  | .objUnpin h a b c => some ⟨objUnpinSpec, h, a, b, c, 0⟩
  | .objClean h a b c => some ⟨objCleanSpec, h, a, b, c, 0⟩
  | .objFree h a b c => some ⟨objFreeSpec, h, a, b, c, 0⟩
  | .objQuery h a b c => some ⟨objQuerySpec, h, a, b, c, 0⟩
  | .objSched h a b c => some ⟨objSchedSpec, h, a, b, c, 0⟩
  | .objFlErase h a b c => some ⟨objFlEraseSpec, h, a, b, c, 0⟩
  | .objFlQuery h a b c => some ⟨objFlQuerySpec, h, a, b, c, 0⟩
  | .objFlStore h a b c => some ⟨objFlStoreSpec, h, a, b, c, 0⟩
  | .fabRoute h a b c => some ⟨fabRouteSpec, h, a, b, c, 0⟩
  | .fabChanOpen h a b c x => some ⟨fabChanOpenSpec, h, a, b, c, x⟩
  | .fabChanClose h a b c => some ⟨fabChanCloseSpec, h, a, b, c, 0⟩
  | .fabBcastSend h a b c => some ⟨fabBcastSendSpec, h, a, b, c, 0⟩
  | .fabBcastRecv h a b c => some ⟨fabBcastRecvSpec, h, a, b, c, 0⟩
  | .fabTwinJoin h a b c => some ⟨fabTwinJoinSpec, h, a, b, c, 0⟩
  | .fabTwinLeave h a b c => some ⟨fabTwinLeaveSpec, h, a, b, c, 0⟩
  | .fabFailrec h a b c => some ⟨fabFailrecSpec, h, a, b, c, 0⟩
  | .fabNodeQuery h a b c => some ⟨fabNodeQuerySpec, h, a, b, c, 0⟩
  | .pwrStepTarget h a b c => some ⟨pwrStepTargetSpec, h, a, b, c, 0⟩
  | .pwrLimit h a b c => some ⟨pwrLimitSpec, h, a, b, c, 0⟩
  | .pwrQuery h a b c => some ⟨pwrQuerySpec, h, a, b, c, 0⟩
  | .pwrEnter h a b c => some ⟨pwrEnterSpec, h, a, b, c, 0⟩
  | .pwrWake h a b c => some ⟨pwrWakeSpec, h, a, b, c, 0⟩
  | .secExtend h a b c => some ⟨secExtendSpec, h, a, b, c, 0⟩
  | .secFwStage h a b c => some ⟨secFwStageSpec, h, a, b, c, 0⟩
  | .secFwActivate h a b c => some ⟨secFwActivateSpec, h, a, b, c, 0⟩
  | .secFwAbort h a b c => some ⟨secFwAbortSpec, h, a, b, c, 0⟩
  | .secFwCommit h a b c => some ⟨secFwCommitSpec, h, a, b, c, 0⟩
  | .secLcAdvance h a b c => some ⟨secLcAdvanceSpec, h, a, b, c, 0⟩
  | .secQuote h a b c x => some ⟨secQuoteSpec, h, a, b, c, x⟩
  | .secCtxKey h a b c x => some ⟨secCtxKeySpec, h, a, b, c, x⟩
  | .maintTest h a b c => some ⟨maintTestSpec, h, a, b, c, 0⟩
  | .maintScrub h a b c => some ⟨maintScrubSpec, h, a, b, c, 0⟩
  | .maintStop h a b c => some ⟨maintStopSpec, h, a, b, c, 0⟩
  | .maintQuery h a b c => some ⟨maintQuerySpec, h, a, b, c, 0⟩
  | _ => none

/-- The instruction a row holds. -/
def CtlRow.ins (r : CtlRow) : Ctl := mkCtl r.hdr r.spec.cls r.spec.op r.a r.b r.c r.x
/-- Every check of R111 on it. -/
def CtlRow.checks (r : CtlRow) (k : Core) : List Chk := checks3 r.spec r.ins false ++ r.spec.checks r.ins k

end Sys2Proof.Machine
end

