-- ==== Sys2Proof/Certificates/Slice0/Obligations.lean ====
section
/-! DEFINITION. What is claimed of the machine: the obligations of the provers. -/

open Sys2Proof Sys2Proof.Machine

/-- R34, R60, R62, R63, R77: RESET_N or PERST_N held low for 10 ACLK cycles resets the device whatever its state. The kind goes to
GLB_RESET_CAUSE with whether the device was HALTED; the pins, the fuse shadow, the flash with its unit maps, what the root PLL has done and
what left the device stay; memories wait for their wipes; everything else is at its reset value. A shorter pulse does nothing. -/
def Obligations.ResetPinsReset : Prop :=
  (∀ (s : State) (n : Nat), powered s.core = true → s.core.pins.sysref = true → 10 ≤ n →
    let after (kind : Nat) (pins : Pins) : Core :=
      { pins := pins, shadow := s.core.shadow, burn := s.core.burn
        glb :=
          { st := .reset, causeKind := kind, wasHalted := s.core.glb.st == .halted
            startup := { pll := s.core.glb.startup.pll, pllTimedOut := s.core.glb.startup.pllTimedOut } }
        sec := { lc := s.core.sec.lc, lcNext := s.core.sec.lcNext, pend := s.core.sec.pend }
        dram := s.core.dram, stg := s.core.stg, tiles := mmap (fun _ (t : Tile) => ({ mem := t.mem } : Tile)) s.core.tiles
        flss := mmap (fun _ (f : Fls) => f.survives) s.core.flss
        flash := s.core.flash, slotA := s.core.slotA, slotB := s.core.slotB, lifeMarker := s.core.lifeMarker
        host := s.core.host, out := s.core.out, fresh := s.core.fresh }
    exec (.resetNLow n) s = .next { s with core := after 2 { s.core.pins with resetN := false } } ∧
    exec (.perstNLow n) s = .next { s with core := after 3 { s.core.pins with perstN := false } }) ∧
  (∀ (s : State) (n : Nat), n < 10 → exec (.resetNLow n) s = .next s ∧ exec (.perstNLow n) s = .next s)

/-- R62, R72, R74, R75, R77, R473: a hot reset and a function-level reset reset the device while its link is alive and start the boot ROM.
The stacks' training is kept; a function-level reset keeps the link's registers and a hot reset does not. A boot ROM whose SHA-256 self-test
fails stops start-up in RESET and awaits a recovery load, and so does one that cannot read the code region; in SCRAPPED it stops and awaits
nothing; where a slot passes verification, it is the one that starts, and where none does a recovery load is awaited. -/
def Obligations.LinkResetsReset : Prop :=
  (∀ (s : State) (cause : HotCause) (b : BootReads), linkAlive s.core = true →
    let after (kind : Nat) (pci : Pci) : Core :=
      { pins := s.core.pins, shadow := s.core.shadow, burn := s.core.burn
        glb :=
          { st := .reset, causeKind := kind, wasHalted := s.core.glb.st == .halted
            startup :=
              { pll := s.core.glb.startup.pll, pllTimedOut := s.core.glb.startup.pllTimedOut, hbmTrained := s.core.glb.startup.hbmTrained
                released := true, boot := b } }
        pci := pci
        sec := { lc := s.core.sec.lc, lcNext := s.core.sec.lcNext, pend := s.core.sec.pend }
        dram := s.core.dram, stg := s.core.stg, tiles := mmap (fun _ (t : Tile) => ({ mem := t.mem } : Tile)) s.core.tiles
        flss := mmap (fun _ (f : Fls) => f.survives) s.core.flss
        stks := mmap (fun _ (q : Stk) => ({ trainTemp := q.trainTemp } : Stk)) s.core.stks
        flash := s.core.flash, slotA := s.core.slotA, slotB := s.core.slotB, lifeMarker := s.core.lifeMarker
        host := s.core.host, out := s.core.out, fresh := s.core.fresh }
    let stopped (k : Core) (recovery : Bool) : Core :=
      { k with glb := { k.glb with recovery := recovery, startup := { k.glb.startup with stopped := true } } }
    let link : Pci :=
      { lanes := s.core.pci.lanes, speed := s.core.pci.speed, flit := s.core.pci.flit, downtrain := s.core.pci.downtrain }
    exec (.pcieHotReset cause b) s = .next { s with core := bootRom (after 4 {}) b } ∧
    exec (.functionLevelReset b) s = .next { s with core := bootRom (after 5 link) b } ∧
    (b.sha = false → bootRom (after 4 {}) b = stopped (after 4 {}) true ∧ bootRom (after 5 link) b = stopped (after 5 link) true) ∧
    (b.sha = true → s.core.sec.lc = 4 →
      bootRom (after 4 {}) b = stopped (after 4 {}) false ∧ bootRom (after 5 link) b = stopped (after 5 link) false) ∧
    (b.sha = true → s.core.sec.lc ≠ 4 → b.region = false →
      bootRom (after 4 {}) b = stopped (after 4 {}) true ∧ bootRom (after 5 link) b = stopped (after 5 link) true)) ∧
  (∀ (s : State) (cause : HotCause) (b : BootReads), linkAlive s.core = true → b.sha = true → b.region = true →
    s.core.sec.lc ≠ 4 → s.core.lifeMarker = s.core.sec.lc →
    let waits (k : Core) (kind : Nat) : Prop :=
      k.glb.st = .reset ∧ k.glb.causeKind = kind ∧ k.glb.startup.bootRunning = false ∧ k.glb.startup.stopped = true ∧ k.glb.recovery = true
    let starts (slot fb : Bool) (k : Core) (kind : Nat) : Prop :=
      k.glb.st = .reset ∧ k.glb.causeKind = kind ∧ k.glb.startup.bootRunning = true ∧ k.glb.startup.stopped = false ∧ k.glb.slotB = slot ∧
      k.glb.fallback = fb ∧ k.glb.recovery = false ∧ k.glb.svn = fld (fwSlot s.core slot).header 2 1 ∧
      k.glb.version = fld (fwSlot s.core slot).header 4 4 ∧ k.regs = [] ∧ k.objs = [] ∧ k.seqs = [] ∧ k.flash = s.core.flash ∧
      k.sec.devKey = padTo 48 (Config.slhPublic (devSeeds s.core (keyClass s.core.sec.lc))) ∧ k.pins = s.core.pins
    ∃ k l, exec (.pcieHotReset cause b) s = .next { s with core := k } ∧ k.pci = {} ∧
      exec (.functionLevelReset b) s = .next { s with core := l } ∧ l.pci.lanes = s.core.pci.lanes ∧
      (chooseSlot s.core = none → waits k 4 ∧ waits l 5) ∧
      (∀ slot fb, chooseSlot s.core = some (slot, fb) → starts slot fb k 4 ∧ starts slot fb l 5))

/-- R7, R35, R36, R40, R48, R51, R59: VAON in regulation samples the SMBus straps; a fall of PWRGOOD and a rail trip take the device to
RESET and lose every memory, a trip also setting RAIL_LOW; VAON lost after PWRGOOD is OFF, where FAULT_N is not driven; in RESET it is. -/
def Obligations.SupplyPinsMoveTheDevice : Prop :=
  (∀ (s : State) (straps : BitVec 2), s.core.pins.vaon = false →
    exec (.vaonInRegulation straps) s = .next { s with core := { s.core with
      pins := { vaon := true, sysref := s.core.pins.sysref, pwrgood := false, smbAddr := straps, pwrgoodSeen := false } } }) ∧
  (∀ (s : State), s.core.pins.pwrgood = true →
    ∃ k, exec .pwrgoodFall s = .next { s with core := k } ∧ k.pins = { s.core.pins with pwrgood := false } ∧ k.glb.st = .reset ∧
      k.glb.startup = {} ∧ k.dram = Mem.empty ∧ k.stg = Mem.empty ∧ k.tiles = [] ∧ k.regs = [] ∧ k.objs = [] ∧ k.seqs = [] ∧ k.ctxs = [] ∧
      k.flash = s.core.flash ∧ k.slotA = s.core.slotA ∧ k.slotB = s.core.slotB ∧ k.shadow = s.core.shadow ∧ k.host = s.core.host ∧
      (s.core.pins.vaon = true → faultNLow k = true)) ∧
  (∀ (s : State) (rail : Rail), s.core.pins.pwrgood = true →
    ∃ k, exec (.railTrip rail) s = .next { s with core := k } ∧
      k.pins = { s.core.pins with pwrgood := false, railLow := true, tripped := true } ∧ k.glb.st = .reset ∧
      k.glb.startup = {} ∧ k.dram = Mem.empty ∧ k.stg = Mem.empty ∧ k.tiles = [] ∧ k.regs = [] ∧ k.objs = [] ∧ k.seqs = [] ∧ k.ctxs = [] ∧
      k.flash = s.core.flash ∧ k.slotA = s.core.slotA ∧ k.slotB = s.core.slotB ∧ k.shadow = s.core.shadow ∧ k.host = s.core.host) ∧
  (∀ (s : State), s.core.pins.vaon = true → s.core.pins.pwrgood = false →
    ∃ k, exec .vaonOutOfRegulation s = .next { s with core := k } ∧ faultNLow k = false ∧
      k = { s.core with pins := { s.core.pins with vaon := false }, glb := { s.core.glb with st := .off } })

/-- R25, R50, R53, R72, R77: PWRGOOD rising after a power-on loads the fuse shadow in RESET with RESET_N and PERST_N low; the root PLL
locks, or its time-out stops it for good; the pins' release loads the shadow again and waits for the PLL; and SYSREF is followed. -/
def Obligations.PowerUpRuns : Prop :=
  (∀ (s : State), s.core.pins.vaon = true → s.core.pins.pwrgood = false → s.core.pins.tripped = false → s.fuse.lifeOk = true →
    ∃ k, exec (.pwrgoodRise true) s = .next { s with core := k } ∧
      k.pins = { s.core.pins with
        pwrgood := true, pwrgoodSeen := true, resetN := false, perstN := false, thermDrive := false, thermDemand := false } ∧
      k.glb = { st := .reset, causeKind := 1, wasHalted := false } ∧ k.shadow = s.fuse ∧ k.sec = { lc := s.fuse.life, lcNext := s.fuse.life } ∧ k.pci = {} ∧
      k.regs = [] ∧ k.ctr = [] ∧ k.ports = [] ∧ k.objs = [] ∧ k.seqs = [] ∧ k.pwr = {} ∧ k.pst = {} ∧ k.maint = {} ∧ k.err = {} ∧ k.flts = []) ∧
  (∀ (s : State), powered s.core = true → s.core.pins.sysref = true → s.core.glb.startup.pll = false →
    s.core.glb.startup.pllTimedOut = false → s.core.glb.startup.released = false →
    exec .rootPllLock s = .next { s with core := { s.core with glb := { s.core.glb with
      startup := { s.core.glb.startup with pll := true } } } }) ∧
  (∀ (s : State), powered s.core = true → s.core.pins.sysref = true → s.core.glb.startup.pll = false →
    ∃ k, exec .pllLockTimeout s = .next { s with core := k } ∧
      k = { s.core with glb := { s.core.glb with startup := { s.core.glb.startup with pllTimedOut := true } } } ∧
      exec .rootPllLock { s with core := k } = .next { s with core := k }) ∧
  (∀ (s : State) (b : BootReads), powered s.core = true → s.core.pins.sysref = true → s.core.glb.startup.released = false →
    s.core.pins.resetN = false → s.core.glb.st = .reset → s.core.glb.startup.pll = false → s.fuse.lifeOk = true →
    exec (.resetRelease b) s = .next { s with core := { s.core with
      pins := { s.core.pins with resetN := true, perstN := true }
      glb := { s.core.glb with startup := { s.core.glb.startup with released := true, boot := b } }
      shadow := s.fuse
      sec := { s.core.sec with lc := s.fuse.life, lcNext := s.fuse.life, pend := none } } }) ∧
  (∀ (s : State),
    exec .sysrefLoss s = .next { s with core := { s.core with pins := { s.core.pins with sysref := false } } } ∧
    exec .sysrefReturn s = .next { s with core := { s.core with pins := { s.core.pins with sysref := true } } })

/-- R64, R72, R76, R371, R507: the boot ROM's end finds tile memory and staging memory wiped; the stacks' training is followed by the wipe of
device memory; start-up's end is CONFIG, where FAULT_N is released, with a state-change record; and a failed wipe halts the device. -/
def Obligations.StartUpReachesConfig : Prop :=
  (∀ (s : State), s.core.glb.st = .reset → s.core.glb.startup.bootRunning = true →
    ∃ k, exec (.bootRomComplete true 15) s = .next { s with core := k } ∧
      k.glb = { s.core.glb with startup := { s.core.glb.startup with
        bootRunning := false, bootDone := true, sramWiped := true, journalDone := true, lifeWiping := false } } ∧
      k.lifeMarker = (if s.core.glb.startup.lifeWiping then s.core.sec.lc else s.core.lifeMarker) ∧
      k.tiles = [] ∧ k.stg = Mem.empty ∧ k.dram = s.core.dram ∧ k.regs = s.core.regs ∧ k.sec = s.core.sec ∧ k.pins = s.core.pins) ∧
  (∀ (s : State), s.core.glb.st = .reset → s.core.glb.startup.bootDone = true → s.core.glb.startup.dramWiped = false →
    exec (.hbmTrainingDone 0xFF true) s = .next { s with core := { s.core with
      dram := Mem.empty
      glb := { s.core.glb with startup := { s.core.glb.startup with hbmTrained := true, dramWiped := true } } } }) ∧
  (∀ (s : State), s.core.glb.st = .reset → s.core.glb.startup.bootDone = true → s.core.glb.startup.sramWiped = true →
    s.core.glb.startup.hbmTrained = true → s.core.glb.startup.dramWiped = true → s.core.glb.startup.journalDone = true →
    ∃ k, exec .startupComplete s = .next { s with core := k } ∧ k.glb = { s.core.glb with st := .config } ∧
      k.err.serial = s.core.err.serial + 1 ∧
      k.err.log = (s.core.err.serial, { reason := 0, cls := 0, detail := [1, 2] }) :: s.core.err.log ∧ faultNLow k = false ∧
      k = { s.core with glb := k.glb, err := k.err, ctr := k.ctr, host := k.host, held := k.held, out := k.out, pci := k.pci }) ∧
  (∀ (s : State) (j : BitVec 4), s.core.glb.st = .reset → s.core.glb.startup.bootRunning = true →
    ∃ k, exec (.bootRomComplete false j) s = .next { s with core := k } ∧ k.glb.st = .halted)

/-- R41, R50, R73, R85, R87, R88, R89: the link trains at full width and speed, 64 GT/s with Flit mode alone; a lower width or speed is a
downtrain, counted to 255 and recorded (assumption 70); a read of the configuration space returns its value;
configuration requests are answered with a retry status until start-up has reached CONFIG or has stopped, and are served afterwards. -/
def Obligations.LinkTrainsAndConfigures : Prop :=
  (∀ (s : State), linkAlive s.core = true → hostUp s.core = false → s.core.pci.busMaster = false →
    exec (.pcieLinkTrained 16 6 true) s = .next { s with core := { s.core with pci := { s.core.pci with
      lanes := 16, speed := 6, flit := true } } }) ∧
  (∀ (s : State) (n : Nat) (v : BitVec 3) (flit : Bool), linkAlive s.core = true → (n = 16 ∨ n = 8 ∨ n = 4) → 1 ≤ v.toNat → v.toNat ≤ 6 →
    (n < 16 ∨ v.toNat < 6) → (v.toNat = 6 → flit = true) →
    ∃ k, exec (.pcieLinkTrained n v flit) s = .next { s with core := k } ∧ k.pci.lanes = n ∧ k.pci.speed = v.toNat ∧ k.pci.flit = flit ∧
      k.pci.downtrain = min 255 (s.core.pci.downtrain + 1) ∧ k.err.serial = s.core.err.serial + 1 ∧
      k = { s.core with err := k.err, ctr := k.ctr, host := k.host, held := k.held, out := k.out, pci := k.pci, fresh := k.fresh }) ∧
  (∀ (s : State) (n : Nat), exec (.pcieLinkTrained n 6 false) s = .next s) ∧
  (∀ (s : State) (b : Nat), linkAlive s.core = true → s.core.pci.lanes ≠ 0 → cfgServes s.core = true → s.core.pci.busMaster = false →
    s.core.pci.msixPend = [] → (b = 128 ∨ b = 256 ∨ b = 512) →
    exec (.pcieConfigRequest (.maxPayload b)) s = .next { s with core := { s.core with
      pci := { s.core.pci with maxPayload := b }, out := .cfgServed :: s.core.out } }) ∧
  (∀ (s : State), linkAlive s.core = true → s.core.pci.lanes ≠ 0 → cfgServes s.core = true → s.core.pci.d3hot = false →
    ∃ k, exec (.pcieConfigRequest (.busMaster true)) s = .next { s with core := k } ∧ k.pci.busMaster = true ∧ k.held = [] ∧
      k = { s.core with host := k.host, held := k.held, out := k.out, pci := k.pci, ctr := k.ctr, fresh := k.fresh } ∧
      (s.core.pci.waiting = [] → k.ctr = s.core.ctr ∧ k.fresh = s.core.fresh)) ∧
  (∀ (s : State) (i : CfgItem), linkAlive s.core = true → s.core.pci.lanes ≠ 0 → cfgServes s.core = true → s.core.pci.busMaster = false →
    s.core.pci.msixPend = [] →
    exec (.pcieConfigRequest (.read i)) s = .next { s with core := { s.core with out := .cfgData (cfgValue s.core.pci i) :: s.core.out } }) ∧
  (∀ (s : State) (r : CfgReq), linkAlive s.core = true → s.core.pci.lanes ≠ 0 → s.core.glb.st = .reset →
    s.core.glb.startup.stopped = false →
    exec (.pcieConfigRequest r) s = .next { s with core := { s.core with out := .cfgRetry :: s.core.out } })

/-- R37, R38, R56, R85, R435: THERM_N is driven from 100 °C up and released from 95 °C down; a demand from the board limits the power to 300 W
while it lasts and cannot be seen while Chomor drives the pin; 110 °C halts the device, sets THERM_SHUT and drives FAULT_N. -/
def Obligations.HeatDrivesThermN : Prop :=
  (∀ (s : State) (c : Nat), powered s.core = true → 100 ≤ c →
    exec (.thermNAssert c) s = .next { s with core := { s.core with pins := { s.core.pins with thermDrive := true } } }) ∧
  (∀ (s : State) (c : Nat), powered s.core = true → c ≤ 95 →
    exec (.thermNRelease c) s = .next { s with core := { s.core with pins := { s.core.pins with thermDrive := false } } }) ∧
  (∀ (s : State), powered s.core = true → s.core.pins.sysref = true → s.core.pins.thermDrive = false →
    ∃ k, exec .thermNDemandStart s = .next { s with core := k } ∧ k.pins = { s.core.pins with thermDemand := true } ∧
      powerInForce k ≤ 300000 ∧
      k = { s.core with pins := k.pins, pwr := k.pwr, fab := k.fab, ctr := k.ctr, out := k.out, fresh := k.fresh }) ∧
  (∀ (s : State), powered s.core = true → s.core.pins.sysref = true → s.core.pins.thermDrive = false →
    ∃ k, exec .thermNDemandEnd s = .next { s with core := k } ∧ k.pins = { s.core.pins with thermDemand := false } ∧
      k = { s.core with pins := k.pins, pwr := k.pwr, fab := k.fab, ctr := k.ctr, out := k.out, fresh := k.fresh }) ∧
  (∀ (s : State), s.core.pins.thermDrive = true → exec .thermNDemandStart s = .next s ∧ exec .thermNDemandEnd s = .next s) ∧
  (∀ (s : State) (c : Nat), powered s.core = true → s.core.glb.st = .enabled → 110 ≤ c →
    ∃ k, exec (.thermalShutdown c) s = .next { s with core := k } ∧ k.glb.st = .halted ∧ k.pins = { s.core.pins with thermShut := true } ∧
      faultNLow k = true)

/-- R40, R42, R44: the always-on commands answer whenever the ACLK domain runs, in every device state, and change nothing else; a write of
the always-on status clears THERM_SHUT and RAIL_LOW where its bits are 1; a wrong Packet Error Code is not acknowledged; a time-out frees the
bus and nothing more. -/
def Obligations.SmbusAnswersInEveryState : Prop :=
  (∀ (s : State), aclkOn s.core = true →
    exec (.smbReadGrade false) s = .next { s with core := { s.core with out := .smb [BitVec.ofNat 8 s.fuse.grade] :: s.core.out } } ∧
    exec (.smbReadSetPoints false) s = .next { s with core := { s.core with
      out := .smb [2, BitVec.ofNat 8 s.fuse.vcore0, BitVec.ofNat 8 s.fuse.vcore1] :: s.core.out } } ∧
    exec (.smbReadAonStatus false) s = .next { s with core := { s.core with
      out := .smb [BitVec.ofNat 8 (b2n s.core.pins.sysref + 2 * b2n s.core.pins.thermShut + 4 * b2n s.core.pins.railLow +
        8 * b2n s.core.pins.pwrgoodSeen)] :: s.core.out } }) ∧
  (∀ (s : State) (v : Byte) (pec : Pec), aclkOn s.core = true → pec ≠ .bad →
    exec (.smbWriteAonStatus v pec) s = .next { s with core := { s.core with pins := { s.core.pins with
      thermShut := s.core.pins.thermShut && !v.getLsbD 1, railLow := s.core.pins.railLow && !v.getLsbD 2 } } }) ∧
  (∀ (s : State) (v : Byte), aclkOn s.core = true →
    exec (.smbWriteAonStatus v .bad) s = .next { s with core := { s.core with out := .smbNack :: s.core.out } }) ∧
  (∀ (s : State), exec .smbusTimeout s = .next s)

/-- R436, R437: a grant that is well formed, newer than the last and comes by an allowed path is accepted: its number is kept and the lease
is not lapsed; a lower power, or any power without a ramp, is in force at once, and with a ramp a higher one waits for it. A malformed body
only counts in PWR_GRANT_IGNORED. A lease's end puts PWR_GRANT_DEFAULT in force. -/
def Obligations.GrantsAreTaken : Prop :=
  (∀ (s : State) (b : List Byte), smbManages s.core = true → grantOk b = true → pathOk s.core none = true →
    newer s.core.pwr (grantOf b).seq = true →
    ∃ k, exec (.smbGrant b .good) s = .next { s with core := k } ∧ k.pwr.grant = some (grantOf b) ∧ k.pwr.fabSrc = none ∧
      k.pwr.lastSeq = some (grantOf b).seq ∧ k.pwr.lapsed = false ∧
      k.pwr.force = (if (grantOf b).mw < s.core.pwr.force ∨ (grantOf b).ramp = 0 then (grantOf b).mw else s.core.pwr.force) ∧
      k.pwr.therm = s.core.pwr.therm ∧ k.pwr.limit = s.core.pwr.limit ∧
      k = { s.core with pwr := k.pwr, fab := k.fab, ctr := k.ctr, out := k.out, fresh := k.fresh }) ∧
  (∀ (s : State) (b : List Byte), smbManages s.core = true → grantOk b = false →
    exec (.smbGrant b .good) s = .next { s with core := bump s.core oGrantIgnored 1 }) ∧
  (∀ (s : State) (g : Grant), started s.core = true → s.core.pwr.grant = some g → g.lease ≠ 0 →
    (s.core.glb.st = .graze → s.core.pins.sysref = true) →
    ∃ k, exec .leaseExpiry s = .next { s with core := k } ∧ k.pwr.grant = none ∧ k.pwr.fabSrc = none ∧ k.pwr.lapsed = true ∧
      k.pwr.force = 1000 * rfld s.core oGrantDefault 10 0 ∧ k.pwr.lastSeq = s.core.pwr.lastSeq ∧
      k = { s.core with pwr := k.pwr, fab := k.fab, ctr := k.ctr, out := k.out, fresh := k.fresh })

/-- R437, R438: a report read over SMBus is 28 bytes behind their count and before their Packet Error Code, the power in force at its bytes 4
to 7; what MEASURED gives outside GRAZE is a free value. A periodic report goes to the source of the fabric grant in force. -/
def Obligations.ReportsAnswer : Prop :=
  (∀ (s : State), smbManages s.core = true → s.core.glb.st ≠ .graze →
    ∃ (n : Nat) (l : List Byte), exec .smbReport s = .next { s with core := { s.core with fresh := n, out := .smb l :: s.core.out } } ∧
      l.length = 30 ∧ l.head? = some 28 ∧ (l.drop 5).take 4 = leBytes 4 (powerInForce s.core)) ∧
  (∀ (s : State) (g : Grant) (n mw : Nat), memoryOn s.core = true → s.core.pwr.grant = some g → g.report ≠ 0 → s.core.pwr.fabSrc = some n →
    exec (.reportPeriod mw) s = .next { s with core := routeFrame s.core (mkFrame s.core n tReport 0 0 0 0 (reportBody s.core mw) []) })

/-- R39, R462 to R467: WAKE_N low for at least 4 ACLK cycles is seen in HOLD and GRAZE; an active wake source begins the exit once and names
itself; the exit from HOLD returns the device to ENABLED with its incarnation; a GRAZE sample keeps its readings and counts. -/
def Obligations.WakesBringTheDeviceBack : Prop :=
  (∀ (s : State) (n : Nat), aclkOn s.core = true → pstateOf s.core ≠ 0 → 4 ≤ n →
    ∃ f, exec (.wakeNAssert n) s = .next { s with core := { s.core with fresh := f, pst := { s.core.pst with wakeSeen := true } } }) ∧
  (∀ (s : State) (src : BitVec 8), pstateOf s.core ≠ 0 → s.core.pst.waking = false →
    sourceActive s.core (pstateOf s.core) src.toNat = true →
    exec (.powerWake src) s = .next { s with core := { s.core with pst := { s.core.pst with
      waking := true, lastWake := src.toNat, fromGraze := s.core.glb.st == .graze } } }) ∧
  (∀ (s : State), s.core.glb.st = .hold → s.core.pst.waking = true → s.core.pst.fromGraze = false → s.core.pst.heldBar4 = [] →
    s.core.fab.held = [] → s.core.pwr.heldGrant = none →
    ∃ k, exec (.powerExitComplete true) s = .next (s.finish k) ∧ k.glb = { s.core.glb with st := .enabled } ∧
      k.pst = { s.core.pst with handshake := 0, waking := false, wakeSeen := false, asked := false, runs := [] } ∧
      k.seqs = s.core.seqs ∧ k.objs = s.core.objs ∧ k.dram = s.core.dram ∧ k.regs = s.core.regs ∧ k.ctxs = s.core.ctxs) ∧
  (∀ (s : State) (r : GrazeReadings), s.core.glb.st = .graze → aclkOn s.core = true → s.core.pst.waking = false →
    ∃ k, exec (.grazeSample r) s = .next { s with core := k } ∧ k.pst.last.toNat % 256 = r.temp.toNat ∧
      bits k.pst.last.toNat 17 8 = r.core0.toNat ∧ bits k.pst.last.toNat 27 18 = r.core1.toNat ∧
      bits k.pst.last.toNat 35 28 = r.hbm.toNat ∧ bits k.pst.last.toNat 46 36 = r.power.toNat ∧
      k.pst.handshake = s.core.pst.handshake ∧ k.pst.heldBar4 = s.core.pst.heldBar4 ∧
      k = { s.core with pst := k.pst, ctr := k.ctr, fresh := k.fresh })

/-- R460 to R462: a PWR.ENTER in flight commits once every block agrees and no wake source is active, and its record carries the new state
and the time the handshake took; a block that refuses, one that delays too long, or a source that is active ends it with POWER_REFUSED,
whose ARG names the block with its cause, the block that delayed, or the source. -/
def Obligations.EntryHandshakeEnds : Prop :=
  (∀ (s : State) (f : Flt) (t : W32), s.core.glb.st = .enabled → enterFlt s.core = some f → mayCommit s.core = true →
    ∃ k, exec (.entryCommit t) s = .next { s with core := k } ∧
      k.glb = { s.core.glb with st := if s.core.pst.target = 2 then .graze else .hold } ∧ k.flts = s.core.flts.erase f ∧
      k.pst = { s.core.pst with handshake := 2, runs := [], wakeSeen := false, asked := false, waking := false } ∧
      k.err.serial = s.core.err.serial + 1 ∧
      k = { s.core with
        glb := k.glb, pst := k.pst, stks := k.stks, flts := k.flts, err := k.err, ctr := k.ctr, ports := k.ports
        pci := k.pci, host := k.host, held := k.held, out := k.out }) ∧
  (∀ (s : State) (f : Flt), s.core.glb.st = .enabled → enterFlt s.core = some f →
    let ended (arg : Nat) : Core :=
      retireFlt (bump { s.core with pst := { s.core.pst with handshake := 0, wakeSeen := false } } oEntryRefused 1) f rPowerRefused arg []
    (∀ (b : BitVec 8) (c : Nat), blockAnswer s.core b.toNat = .refuses c →
      exec (.entryRefused (.refused b)) s = .next (s.finish (ended (b.toNat + 256 * c)))) ∧
    (∀ (b : BitVec 8), blockAnswer s.core b.toNat = .delays →
      exec (.entryRefused (.delayLimit b)) s = .next (s.finish (ended (b.toNat + 65536)))) ∧
    (∀ (n : BitVec 8), sourceActive s.core s.core.pst.target n.toNat = true →
      exec (.entryRefused (.woken n)) s = .next (s.finish (ended (128 + n.toNat)))))

/-- R26, R436, R442 to R448: a fast period forms each domain's ceiling anew and ramps the grant; a slow period starts its two conditions
again; a tile takes its divider in its turn and never below its fused cap; a droop clamps the tile's rein to PWR_DROOP until its hold ends;
and a soft start rises by one to 16. -/
def Obligations.PowerLawsActOnTiles : Prop :=
  (∀ (s : State) (i : FastIn), alive s.core = true →
    ∃ k, exec (.fastPeriod i) s = .next { s with core := k } ∧ k.pwr.fastNo = s.core.pwr.fastNo + 1 ∧
      k.pwr.periods = s.core.pwr.periods + 1 ∧ k.pwr.tmax = i.tmax.toNat ∧ k.pwr.force = rampTo s.core.pwr (s.core.pwr.periods + 1) ∧
      (∀ d, d < 5 → domInUse s.core d = false → dom k d = dom s.core d) ∧ k.objs = s.core.objs ∧ k.seqs = s.core.seqs ∧
      k.regs = s.core.regs ∧ k.glb = s.core.glb ∧ k.err = s.core.err) ∧
  (∀ (s : State), alive s.core = true →
    ∃ k, exec .slowPeriod s = .next { s with core := k } ∧ (∀ d, d < 5 → (dom k d).allLow = true ∧ (dom k d).allFull = true) ∧
      k = { s.core with doms := k.doms, tiles := k.tiles }) ∧
  (∀ (s : State) (t : BitVec 8), alive s.core = true → (dom s.core (domOfTile s.core t.toNat)).divTurns.head? = some t.toNat →
    ∃ k, exec (.dividerApply t) s = .next { s with core := k } ∧
      tile k t.toNat = { tile s.core t.toNat with div := max (tile s.core t.toNat).reqDiv (fcapOf s.core t.toNat) } ∧
      (dom k (domOfTile s.core t.toNat)).divTurns = (dom s.core (domOfTile s.core t.toNat)).divTurns.drop 1 ∧
      k = { s.core with doms := k.doms, tiles := k.tiles, ctr := k.ctr, fresh := k.fresh }) ∧
  (∀ (s : State) (t : BitVec 8), alive s.core = true →
    ∃ k, exec (.droopFire t) s = .next { s with core := k } ∧
      tile k t.toNat = { tile s.core t.toNat with droop := max 1 (min 16 (rfld s.core oDroop 4 0)), clamped := true } ∧
      k = { s.core with tiles := k.tiles, ctr := k.ctr }) ∧
  (∀ (s : State) (t : BitVec 8), alive s.core = true →
    exec (.droopHoldEnd t) s = .next { s with core := modTile s.core t.toNat (fun q => { q with clamped := false }) }) ∧
  (∀ (s : State) (t : BitVec 8), alive s.core = true →
    ∃ k, exec (.softStartRise t) s = .next { s with core := k } ∧ (tile k t.toNat).soft = min 16 ((tile s.core t.toNat).soft + 1) ∧
      (tile k t.toNat).droop = (if (tile s.core t.toNat).clamped then (tile s.core t.toNat).droop else min 16 ((tile s.core t.toNat).droop + 1)) ∧
      k = { s.core with tiles := k.tiles, ctr := k.ctr, fresh := k.fresh })

/-- R441, R449, R450: an estimator window keeps its measurement, adds its energy and forms K in 128 to 512; the thermal law moves the heat
limit down by 4 W for each degree above its target, not below 300 W, and up by 1 W from more than 2 degrees below it; a compliance interval
within the power in force ends a shortfall. -/
def Obligations.MeasurementsMoveLimits : Prop :=
  (∀ (s : State) (e m : Nat), memoryOn s.core = true → e ≠ 0 →
    ∃ k, exec (.estimatorWindow e m) s = .next { s with core := k } ∧ k.pwr.measured = m ∧
      k.pwr.energy = s.core.pwr.energy + 4096 * m ∧ k.pwr.ratio = max 128 (min 512 (256 * m / e)) ∧ k.pwr.force = s.core.pwr.force ∧
      k.glb = s.core.glb ∧ k.regs = s.core.regs ∧ k.seqs = s.core.seqs ∧ k.objs = s.core.objs) ∧
  (∀ (s : State) (c : Nat), memoryOn s.core = true →
    let target := max 60 (min 98 (rfld s.core oTherm 7 0))
    ∃ k, exec (.thermalLaw c) s = .next { s with core := k } ∧ k.pwr.tmax = c ∧
      (target < c → k.pwr.therm = max 300 (s.core.pwr.therm - 4 * (c - target))) ∧
      (c + 2 < target → k.pwr.therm = min 1800 (s.core.pwr.therm + 1)) ∧
      (c ≤ target → target ≤ c + 2 → k.pwr.therm = s.core.pwr.therm) ∧
      k = { s.core with pwr := k.pwr, fab := k.fab, ctr := k.ctr, out := k.out, fresh := k.fresh }) ∧
  (∀ (s : State) (mw : Nat), alive s.core = true → mw ≤ powerInForce s.core →
    ∃ k, exec (.complianceInterval mw) s = .next { s with core := k } ∧ k.pwr.shortfall = false ∧ k.pwr.steady = true ∧
      k = { s.core with pwr := k.pwr, fab := k.fab, ctr := k.ctr, out := k.out, fresh := k.fresh })

/-- R43, R494: with PWRGOOD high the debug port takes its test commands in every device state: DBG_TMS high for 5 clocks selects IDCODE, a
challenge replaces the one before, LOCK gives up the level, and the lockout's end forgets the failures. None of them touches anything else.
An UNLOCK uses up its challenge and is verified; without a challenge, or during the lockout, it is refused. A credential that holds gives its
level and clears the failures; one that does not counts as a failure, and the 8th in a row starts the lockout. -/
def Obligations.DebugPortCommands : Prop :=
  (∀ (s : State) (n : Nat), debugOn s.core = true → 5 ≤ n →
    exec (.dbgTapReset n) s = .next { s with core := { s.core with pins := { s.core.pins with tapIns := 0 } } }) ∧
  (∀ (s : State) (n : Nat), n < 5 → exec (.dbgTapReset n) s = .next s) ∧
  (∀ (s : State), debugOn s.core = true →
    exec .dbgBypass s = .next { s with core := { s.core with pins := { s.core.pins with tapIns := 1 } } } ∧
    exec .dbgIdcode s = .next { s with core := { s.core with
      pins := { s.core.pins with tapIns := 0 }, out := .tdo (leBytes 4 Config.idcode.toNat) :: s.core.out } } ∧
    exec .dbgLock s = .next { s with core := { s.core with
      pins := { s.core.pins with tapIns := 2 }, sec := { s.core.sec with level := 0 } } }) ∧
  (∀ (s : State) (r : BitVec 256), debugOn s.core = true →
    exec (.dbgChallenge r) s = .next { s with core := { s.core with
      pins := { s.core.pins with tapIns := 2 }, sec := { s.core.sec with challenge := some r }
      out := .tdo (leBytes 32 r.toNat) :: s.core.out } }) ∧
  (∀ (s : State), s.core.sec.lockout = true →
    exec .dbgLockoutEnd s = .next { s with core := { s.core with sec := { s.core.sec with lockout := false, fails := 0 } } }) ∧
  (∀ (s : State) (l : BitVec 2) (pk sig : List Byte) (c : BitVec 256), debugOn s.core = true → s.core.sec.challenge = some c →
    s.core.sec.lockout = false →
    exec (.dbgUnlock l pk sig) s = .next { s with core := { s.core with
      pins := { s.core.pins with tapIns := 2 }
      sec := { s.core.sec with challenge := none, unlock := some { level := l.toNat, pk := pk, sig := sig, challenge := c } } } }) ∧
  (∀ (s : State) (l : BitVec 2) (pk sig : List Byte), debugOn s.core = true → s.core.sec.challenge = none ∨ s.core.sec.lockout = true →
    exec (.dbgUnlock l pk sig) s = .next { s with core := { s.core with pins := { s.core.pins with tapIns := 2 } } }) ∧
  (∀ (s : State) (u : Unlock), s.core.sec.unlock = some u →
    ∃ k, exec .dbgUnlockVerified s = .next { s with core := k } ∧
      k.sec = { s.core.sec with
        unlock := none
        level := if unlockOk s.core u then u.level else s.core.sec.level
        fails := if unlockOk s.core u then 0 else min 8 (s.core.sec.fails + 1)
        lockout := if unlockOk s.core u then s.core.sec.lockout else decide (8 ≤ s.core.sec.fails + 1) } ∧
      k = { s.core with sec := k.sec, ctr := k.ctr })

/-- R64, R478, R493, R494, R495, R514: a debug read at the level it needs gives the data of its target: a register as the host reads it, the
bytes of tile memory, staging memory and device memory at level 2, and zero for a tile or a staging line that a confidential step owns; below
that level, and where a wipe is still to come, it gives nothing (assumption 72). A halted tile sequencer stays halted. A recovery image that
passes is written into slot A with count 1 and start-up goes on from step 3; one that does not leaves both slots. At level 3 a fuse is
programmed, and entry to a test session is a fatal fault. -/
def Obligations.DebugLevelsOpenTheDevice : Prop :=
  (∀ (s : State) (x : DbgTarget), debugOn s.core = true → dbgNeeds x ≤ debugLevel s.core → dbgUnwiped s.core x = false →
    ∃ n, exec (.dbgRead x) s = .next { s with core := { s.core with
        pins := { s.core.pins with tapIns := 2 }, fresh := n, out := .tdo (dbgData s.core x) :: s.core.out } } ∧
      ((∀ st f, x ≠ .systemFrame st f) → n = s.core.fresh) ∧
      (∀ off, x = .register off → dbgData s.core x = leBytes 8 (readReg s.core (off.toNat / 8 * 8)).toNat) ∧
      (∀ t l, x = .tileLine t l → dbgData s.core x =
        if tileConf s.core t.toNat then List.replicate 64 0 else leBytes 64 (tmLine s.core t.toNat l).toNat) ∧
      (∀ d l, x = .stagingLine d l → dbgData s.core x =
        if stgConf s.core (b2n d) l then List.replicate 64 0 else leBytes 64 (s.core.stg.line 0 (stgLine (b2n d) l)).toNat) ∧
      (∀ l, x = .dramLine l → dbgData s.core x = leBytes 64 (s.core.dram.line 0 l).toNat) ∧
      (∀ h : BitVec 24, x = .object h → dbgData s.core x = objEntryBytes s.core false h.toNat ++ objQueryPayload (obj s.core h.toNat))) ∧
  (∀ (s : State) (x : DbgTarget), debugOn s.core = true → (debugLevel s.core < dbgNeeds x ∨ dbgUnwiped s.core x = true) →
    exec (.dbgRead x) s = .next { s with core := { s.core with pins := { s.core.pins with tapIns := 2 } } }) ∧
  (∀ (s : State) (t : BitVec 8), debugOn s.core = true → 2 ≤ debugLevel s.core →
    ∃ k, exec (.dbgTsHalt t) s = .next { s with core := k } ∧ k.pins = { s.core.pins with tapIns := 2 } ∧
      tile k t.toNat = { tile s.core t.toNat with dbgHalt := true } ∧ (∀ u, u ≠ t.toNat → tile k u = tile s.core u) ∧
      k = { s.core with pins := k.pins, tiles := k.tiles }) ∧
  (∀ (s : State) (h img : List Byte), debugOn s.core = true → s.core.glb.recovery = true →
    let slot : FwSlot := { header := padTo 16352 h, image := img, count := 1 }
    let pins : Pins := { s.core.pins with tapIns := 2 }
    (slotOk s.core slot = true → (fls s.core 0).worn = false →
      ∃ k, exec (.dbgRecover h img) s = .next { s with core := k } ∧ k.slotA = slot ∧ k.slotB = s.core.slotB ∧ k.shadow = s.core.shadow ∧
        k.pins = pins ∧
        k = bootRom { s.core with pins := pins, slotA := slot, sec := { s.core.sec with recovered := true } } ⟨true, true⟩) ∧
    ((slotOk s.core slot && !(fls s.core 0).worn) = false →
      exec (.dbgRecover h img) s = .next { s with core := { s.core with pins := pins } })) ∧
  (∀ (s : State) (f : FuseWrite), debugOn s.core = true → debugLevel s.core = 3 →
    let blown : Core := { s.core with
      pins := { s.core.pins with tapIns := 2 }, burn := s.core.burn ++ [f]
      sec := { s.core.sec with lcNext := nextLife s.core.sec.lcNext f } }
    exec (.dbgFuseProgram f) s = .next (s.finish blown) ∧
    (s.core.glb.st = .reset → s.core.burn = [] → s.core.pst.heldBar4 = [] →
      s.finish blown = { s with fuse := s.fuse.program f, core := { blown with burn := [] } })) ∧
  (∀ (s : State), debugOn s.core = true → debugLevel s.core = 3 → s.core.glb.st ≠ .reset → s.core.glb.st ≠ .halted →
    ∃ k, exec .bistEntry s = .next { s with core := k } ∧ k.glb.st = .halted ∧ k.sec.bist = true ∧
      k.err.last = some (s.core.err.last.getD (fatalRec rControlFault 0x0A 0 0x0A)))
/-- R87, R528: a BAR0 access that is not 4 or 8 bytes long and aligned to its length is answered with Unsupported Request where it reads and
only reported where it writes, the first such header being kept; nothing else changes. -/
def Obligations.BadRegisterAccessesChangeNothing : Prop :=
  ∀ (s : State) (off : BitVec 22) (n : Nat), powered s.core = true → (n = 4 ∨ n = 8 → off.toNat % n ≠ 0) →
    exec (.bar0BadAccess true off n) s = .next { s with core := { s.core with out := .unsupported :: s.core.out } } ∧
    exec (.bar0BadAccess false off n) s = .next { s with core := { s.core with
      pci := { s.core.pci with aerHdr := some (s.core.pci.aerHdr.getD ⟨false, 0, off.toNat, n⟩) }, out := .aer :: s.core.out } }

/-- R9, R81, R82: a write changes the bits the register map gives access type RW, in CONFIG, ENABLED and HOLD; RWL bits take a write only in
CONFIG outside the consistency check, and during the check a write of them only sets LATE_WRITE. -/
def Obligations.RegistersKeepTheirAccessTypes : Prop :=
  (∀ (s : State) (v : W64), bar0Served s.core = true →
    exec (.registerWrite 0x10008 true v) s =
      .next (s.finish (wreg s.core oAperture ((rreg s.core oAperture &&& ~~~0xFF#64) ||| (v &&& 0xFF#64))))) ∧
  (∀ (s : State) (v : W64), s.core.glb.st = .config → s.core.glb.checking = false →
    exec (.registerWrite 0x38 true v) s =
      .next (s.finish (wreg s.core oPartMode ((rreg s.core oPartMode &&& ~~~0xF#64) ||| (v &&& 0xF#64))))) ∧
  (∀ (s : State) (v : W64), s.core.glb.st = .config → s.core.glb.checking = true →
    ∃ k, exec (.registerWrite 0x38 true v) s = .next (s.finish k) ∧ (∀ o, rreg k o = rreg s.core o) ∧
      k = { s.core with glb := { s.core.glb with lateWrite := true }, regs := k.regs }) ∧
  (∀ (s : State) (v : W64), s.core.glb.st = .enabled ∨ s.core.glb.st = .hold →
    ∃ k, exec (.registerWrite 0x38 true v) s = .next (s.finish k) ∧ (∀ o, rreg k o = rreg s.core o) ∧
      k = { s.core with regs := k.regs }) ∧
  (∀ (s : State) (off : BitVec 22) (eight : Bool) (v : W64), bar0Served s.core = false → off.toNat % 8 = 0 →
    exec (.registerWrite off eight v) s = .next (s.finish s.core))

/-- R19, R531: a write that sets a block's CLR bit zeroes that block's counters and no others, and stores the register's other bits; the
windows of a stack and of an expander also lose the address or the sample they keep. -/
def Obligations.ClrZeroesItsCounters : Prop :=
  ∀ (s : State) (v : W64), bar0Served s.core = true →
    let stored (off : Nat) (mask : W64) : Core := wreg s.core off ((rreg s.core off &&& ~~~mask) ||| (v &&& mask))
    let cleared (off : Nat) (mask : W64) (lo hi : Nat) : Core := clrCtrs (stored off mask) lo hi
    (∀ t : BitVec 8,
      exec (.tileStallClr t v) s =
        .next { s with core := cleared (oTile t.toNat + 0x100) 2 (oTile t.toNat + 0x200) (oTile t.toNat + 0x400) } ∧
      exec (.tileMeClr t v) s =
        .next { s with core := cleared (oTile t.toNat + 0x500) 2 (oTile t.toNat + 0x400) (oTile t.toNat + 0x500) } ∧
      exec (.tileNumClr t v) s =
        .next { s with core := cleared (oTile t.toNat + 0x600) 2 (oTile t.toNat + 0x608) (oTile t.toNat + 0x700) } ∧
      exec (.tileVcClr t v) s =
        .next { s with core := cleared (oTile t.toNat + 0x718) 2 (oTile t.toNat + 0x708) (oTile t.toNat + 0x718) } ∧
      exec (.tileAtClr t v) s =
        .next { s with core := cleared (oTile t.toNat + 0x830) 2 (oTile t.toNat + 0x808) (oTile t.toNat + 0x830) }) ∧
    exec (.pciStallClr v) s = .next { s with core := cleared oPciCtl 1 0x10018 0x10020 } ∧
    (s.core.glb.st ≠ .config ∨ v.getLsbD 0 = false → exec (.glbBrClr v) s = .next { s with core := cleared oGlbCtrl 4 0x60 0x70 }) ∧
    exec (.schdClr v) s = .next { s with core := cleared oSchdCtl 2 0x40100 0x40400 } ∧
    exec (.schdObjClr v) s = .next { s with core := cleared oObjCtl 0x2FFFF 0x40500 0x40800 } ∧
    (∀ t : BitVec 3,
      let mem := cleared (oMemCtl t.toNat) 2 (oMemCtl t.toNat) (oMem t.toNat + 0xF000)
      let px := cleared (oMem t.toNat + 0xF000) 2 (oMem t.toNat + 0xF000) (oMem t.toNat + 0x10000)
      exec (.memClr t v) s = .next { s with core := modStk mem t.toNat (fun q => { q with errAddr := 0 }) } ∧
      exec (.pxClr false t v) s = .next { s with core := modStk px t.toNat (fun q => { q with pxLast := 0 }) }) ∧
    (∀ t : BitVec 2,
      let px := cleared (oFls t.toNat + 0xF000) 2 (oFls t.toNat + 0xF000) (oFls t.toNat + 0x10000)
      exec (.flsClr t v) s = .next { s with core := cleared (oFlsCtl t.toNat) 2 (oFlsCtl t.toNat) (oFls t.toNat + 0xF000) } ∧
      exec (.pxClr true (t.zeroExtend 3) v) s = .next { s with core := modFls px t.toNat (fun q => { q with pxLast := 0 }) }) ∧
    exec (.fabClr v) s = .next { s with core := cleared oFabCtl 2 0x140000 0x180000 } ∧
    (s.core.glb.st ≠ .config → exec (.pwrClr v) s = .next { s with core := cleared oPwrCtl 2 0x180000 0x1C0000 }) ∧
    (s.core.glb.st = .config → s.core.glb.checking = false →
      exec (.pwrClr v) s = .next { s with core := cleared oPwrCtl 6 0x180000 0x1C0000 }) ∧
    exec (.secClr v) s = .next { s with core := cleared oSecCtl 2 0x1C0000 0x1E0000 } ∧
    exec (.errClr v) s = .next { s with core := cleared oErrCtl 0x207FF07FF 0x1E0000 0x200000 }

/-- R19, R531: a counter that is neither frozen nor cleared counts every event and stops at its largest value; a frozen one stands still; a
CLR zeroes the counters of its range and keeps every other. -/
def Obligations.CountersSaturateAndFreeze : Prop :=
  ∀ (k : Core) (off n : Nat), 0 < n →
    (frozen k off = false → mget 0 (bump k off n).ctr off = min 0xFFFFFFFFFFFF (mget 0 k.ctr off + n)) ∧
    (frozen k off = true → bump k off n = k) ∧
    (∀ o, o ≠ off → mget 0 (bump k off n).ctr o = mget 0 k.ctr o) ∧
    (∀ lo hi o, (lo ≤ o ∧ o < hi → mget 0 (clrCtrs k lo hi).ctr o = 0) ∧
      (o < lo ∨ hi ≤ o → mget 0 (clrCtrs k lo hi).ctr o = mget 0 k.ctr o))

/-- R60, R61, R81, R83, R84: ENABLE in CONFIG starts the consistency check and clears the reason kept; the first check of R83's table that
fails is named by its code and ARG and the device stays in CONFIG; with none, the device is ENABLED with the incarnation drawn, its counts of
steps, partition resets and activities zero, and the power in force the lower of the last grant and PWR_GRANT_DEFAULT. -/
def Obligations.EnableChecksTheConfiguration : Prop :=
  (∀ (s : State), s.core.glb.st = .config → s.core.glb.checking = false →
    exec .glbEnable s = .next { s with core := { s.core with glb := { s.core.glb with checking := true, reason := 0, reasonArg := 0 } } }) ∧
  (∀ (s : State), s.core.glb.st ≠ .config ∨ s.core.glb.checking = true → exec .glbEnable s = .next s) ∧
  (∀ (s : State) (inc : W32) (code arg : Nat), s.core.glb.st = .config → s.core.glb.checking = true → cfgFault s.core = some (code, arg) →
    exec (.consistencyCheckDone inc) s = .next { s with core := { s.core with glb := { s.core.glb with
      checking := false, reason := code, reasonArg := arg } } }) ∧
  (∀ (s : State) (inc : W32), s.core.glb.st = .config → s.core.glb.checking = true → cfgFault s.core = none →
    ∃ k, exec (.consistencyCheckDone inc) s = .next { s with core := k } ∧
      k.glb = { s.core.glb with st := .enabled, checking := false, incarnation := inc, stepsRetired := 0 } ∧
      k.sec.partResets = 0 ∧ k.maint.count = 0 ∧ k.err.maintSeq = 0 ∧ k.regs = s.core.regs ∧
      k.pwr.force = (match s.core.pwr.grant with
        | some g => min g.mw (1000 * rfld s.core oGrantDefault 10 0) | none => 1000 * rfld s.core oGrantDefault 10 0) ∧
      (∀ t, t < 256 → (tile k t).soft = softStart s.core) ∧ k.dram = s.core.dram ∧ k.flash = s.core.flash)

/-- R93, R95, R97: a word written whole into an empty slot of an open port fills that slot and no other; a write to a port that is not open,
or outside ENABLED, HOLD and GRAZE, is discarded and sets EARLY_FEED. -/
def Obligations.FeedWordsFillSlots : Prop :=
  (∀ (s : State) (off : BitVec 22) (data : List Byte), powered s.core = true → ctlServed s.core = true → data.length = 16 →
    off.toNat % 16 = 0 → (port s.core (off.toNat / 65536)).st = .opened →
    slotFull (port s.core (off.toNat / 65536)) (off.toNat / 16 % 4096) = false →
    ∃ k, exec (.bar2FeedWrite off data) s = .next { s with core := k } ∧
      (∀ i, i < 16 → mget? (port k (off.toNat / 65536)).slots (off.toNat / 16 % 4096 * 16 + i) = data[i]?) ∧
      (∀ a, a / 16 ≠ off.toNat / 16 % 4096 →
        mget? (port k (off.toNat / 65536)).slots a = mget? (port s.core (off.toNat / 65536)).slots a) ∧
      port k (off.toNat / 65536) =
        { port s.core (off.toNat / 65536) with
          slots := (port k (off.toNat / 65536)).slots, stamps := (port k (off.toNat / 65536)).stamps } ∧
      (∀ n, n ≠ off.toNat / 65536 → port k n = port s.core n) ∧
      k = { s.core with ports := k.ports }) ∧
  (∀ (s : State) (off : BitVec 22) (data : List Byte), powered s.core = true → ctlServed s.core = true → data.length = 16 →
    off.toNat % 16 = 0 → (port s.core (off.toNat / 65536)).st ≠ .opened →
    exec (.bar2FeedWrite off data) s = .next { s with core := { s.core with glb := { s.core.glb with earlyFeed := true } } }) ∧
  (∀ (s : State) (off : BitVec 22) (data : List Byte), powered s.core = true → ctlServed s.core = false →
    s.core.glb.st ≠ .graze →
    exec (.bar2FeedWrite off data) s = .next { s with core := { s.core with glb := { s.core.glb with earlyFeed := true } } })

/-- R96 to R99: a closed port whose rings hold opens empty, with ordinal and counts zero; a port closed with an instruction outstanding is
closing and keeps nothing written; the last retirement closes it; taking a word that does not end its bundle counts it, gives its ordinal
and appends it to the bundle; a due write-back goes out when its interval ends. -/
def Obligations.FeedPortsTakeAndClose : Prop :=
  (∀ (s : State) (n : BitVec 6) (ctl : W64), s.core.glb.st = .config ∨ s.core.glb.st = .enabled → (port s.core n.toNat).st = .closed →
    portRule s.core n.toNat = true →
    ∃ k, exec (.feedPortOpen n ctl) s = .next { s with core := k } ∧
      port k n.toNat = { st := .opened, overflow := (port s.core n.toNat).overflow, badHead := (port s.core n.toNat).badHead,
                         openErr := (port s.core n.toNat).openErr } ∧
      (∀ m, m ≠ n.toNat → port k m = port s.core m) ∧
      k.regs = (wreg s.core (oPortCtl n.toNat) ((rreg s.core (oPortCtl n.toNat) &&& ~~~0x00FFFFFF07FF000E#64) |||
        (ctl &&& 0x00FFFFFF07FF000E#64))).regs ∧
      k = { s.core with ports := k.ports, regs := k.regs }) ∧
  (∀ (s : State) (n : BitVec 6), bar0Served s.core = true → (port s.core n.toNat).st = .opened → (port s.core n.toNat).bundle = [] →
    portIdle s.core n.toNat = false →
    ∃ k, exec (.feedPortClose n) s = .next { s with core := k } ∧
      port k n.toNat = { port s.core n.toNat with st := .closing, slots := [], stamps := [], abortTail := none } ∧
      (∀ m, m ≠ n.toNat → port k m = port s.core m) ∧ k = { s.core with ports := k.ports }) ∧
  (∀ (s : State) (n : BitVec 6), (port s.core n.toNat).st = .closing → portIdle s.core n.toNat = true → (port s.core n.toNat).bundle = [] →
    ∃ k, exec (.feedPortClosed n) s = .next { s with core := k } ∧ (port k n.toNat).st = .closed ∧
      (port k n.toNat).shown = (port s.core n.toNat).consumed ∧
      k = { s.core with ports := k.ports, pci := k.pci, host := k.host, held := k.held, out := k.out }) ∧
  (∀ (s : State) (n : BitVec 6), ctlServed s.core = true → portWait s.core n.toNat = 0 → behindBar4 s.core n.toNat = false →
    let p := port s.core n.toNat
    let i := insAt p n.toNat p.consumed p.ordinal
    p.abortTail = none → i.isLast = false → p.bundle.length < 15 →
    ∃ k, exec (.feedTake n) s = .next (s.finish k) ∧ (port k n.toNat).bundle = p.bundle ++ [i] ∧ (port k n.toNat).ordinal = p.ordinal + 1 ∧
      (port k n.toNat).consumed = p.consumed + wordsAt p p.consumed ∧
      (port k n.toNat).fenced = (p.fenced || (p.bundle.isEmpty && i.fence)) ∧ i.ord = p.ordinal ∧
      k = { s.core with ports := k.ports, pci := k.pci, host := k.host, held := k.held, out := k.out }) ∧
  (∀ (s : State) (n : BitVec 6), (port s.core n.toNat).wbPaced = true → (port s.core n.toNat).wbDue = true →
    exec (.writebackCoalesceExpiry n) s = .next { s with core := writeLine s.core n.toNat }) ∧
  (∀ (s : State) (n : BitVec 6), (port s.core n.toNat).wbPaced = true → (port s.core n.toNat).wbDue = false →
    ∃ k, exec (.writebackCoalesceExpiry n) s = .next { s with core := k } ∧
      port k n.toNat = { port s.core n.toNat with wbPaced := false } ∧ k = { s.core with ports := k.ports })

/-- R99, R100, R508, R534: a head that does not pass the records written frees them, and one that does sets BAD_HEAD; an error ring whose
settings hold is enabled empty, else OPEN_ERR; a disabled one stops. -/
def Obligations.HeadsFreeRecords : Prop :=
  (∀ (s : State) (n : BitVec 6) (v : W32), bar0Served s.core = true →
    ∃ k, exec (.feedCqHeadWrite n v) s = .next { s with core := k } ∧
      port k n.toNat = (if headOk (port s.core n.toNat).produced (port s.core n.toNat).head v then { port s.core n.toNat with head := v }
        else { port s.core n.toNat with badHead := true }) ∧ k = { s.core with ports := k.ports }) ∧
  (∀ (s : State) (r : BitVec 8) (v : W32), bar0Served s.core = true →
    ∃ k, exec (.feedDrHeadWrite r (v.zeroExtend 64)) s = .next { s with core := k } ∧
      dring k r.toNat = (if headOk (dring s.core r.toNat).produced (dring s.core r.toNat).head v then { dring s.core r.toNat with head := v }
        else { dring s.core r.toNat with badHead := true }) ∧ k = { s.core with rings := k.rings }) ∧
  (∀ (s : State) (o : Bool) (v : W32), bar0Served s.core = true →
    ∃ k, exec (.errRingHeadWrite o (v.zeroExtend 64)) s = .next { s with core := k } ∧
      ering k (b2n o) = (if headOk (ering s.core (b2n o)).produced (ering s.core (b2n o)).head v then { ering s.core (b2n o) with head := v }
        else { ering s.core (b2n o) with badHead := true }) ∧ ering k (1 - b2n o) = ering s.core (1 - b2n o) ∧
      k = { s.core with err := k.err }) ∧
  (∀ (s : State) (o : Bool), bar0Served s.core = true → (ering s.core (b2n o)).en = false →
    ∃ k, exec (.errRingEnable o) s = .next { s with core := k } ∧
      ering k (b2n o) =
        (if ringRule (rreg s.core (oErrWb (b2n o))).toNat (rreg s.core (oErrBase (b2n o))).toNat (rfld s.core (oErrSize (b2n o)) 16 0)
          then { ering s.core (b2n o) with en := true, produced := 0, head := 0 } else { ering s.core (b2n o) with openErr := true }) ∧
      ering k (1 - b2n o) = ering s.core (1 - b2n o) ∧ k = { s.core with err := k.err }) ∧
  (∀ (s : State) (o : Bool), bar0Served s.core = true →
    ∃ k, exec (.errRingDisable o) s = .next { s with core := k } ∧ ering k (b2n o) = { ering s.core (b2n o) with en := false } ∧
      ering k (1 - b2n o) = ering s.core (1 - b2n o) ∧ k = { s.core with err := k.err })

/-- R103: a pending vector goes out when it is unmasked; a ring's time trigger sends its vector once for the records it covers, and a time of
zero disables it. -/
def Obligations.VectorsGoOut : Prop :=
  (∀ (s : State) (v : BitVec 11), bar0Served s.core = true → s.core.pci.msixOn = true → s.core.pci.msixMaskAll = false →
    s.core.pci.msixPend = [v.toNat] → hostUp s.core = true → s.core.held = [] →
    ∃ k, exec (.msixUnmask v) s = .next { s with core := k } ∧ msixMasked k v.toNat = false ∧ k.pci.msixPend = [] ∧
      k.out = .msix v.toNat :: s.core.out ∧ k = { s.core with pci := k.pci, out := k.out }) ∧
  (∀ (s : State) (n : BitVec 6), rfld s.core (oPortCtl n.toNat) 55 40 ≠ 0 → (port s.core n.toNat).covered ≠ 0 →
    let signalled := modPort s.core n.toNat (fun q => { q with unsignalled := q.unsignalled - q.covered, covered := 0 })
    exec (.msixTimeTrigger (.completion n)) s = .next { s with core := msix signalled (rfld s.core (oPortCtl n.toNat) 26 16) }) ∧
  (∀ (s : State) (r : BitVec 8), (dring s.core r.toNat).time ≠ 0 → (dring s.core r.toNat).unsignalled ≠ 0 →
    let signalled := modRing s.core r.toNat (fun q => { q with unsignalled := 0 })
    exec (.msixTimeTrigger (.delivery r)) s = .next { s with core := msix signalled (dring s.core r.toNat).vec }) ∧
  (∀ (s : State) (n : BitVec 6), rfld s.core (oPortCtl n.toNat) 55 40 = 0 → exec (.msixTimeTrigger (.completion n)) s = .next s)

/-- R85, R92, R322: the aperture returns zero in CONFIG; a read of a resident copy returns its bytes and whether a line is poisoned; a write
into a line of a resident copy that is not a FLASH object's stores its bytes and marks the granule of a HOST object dirty; a write that
meets no copy is discarded and sets AP_DROP; a read that passes the aperture's end is refused. -/
def Obligations.ApertureServesCopies : Prop :=
  (∀ (s : State) (x n : Nat), powered s.core = true → s.core.glb.st = .reset ∨ s.core.glb.st = .config →
    exec (.bar4Read x n) s = .next { s with core := { s.core with out := .data (List.replicate n 0) false :: s.core.out } }) ∧
  (∀ (s : State) (x n : Nat), powered s.core = true → alive s.core = true →
    apWaits s.core { off := x, data := none, len := n, poisoned := false } = false → apOutside s.core x n = false →
    apConf s.core x n = false → (apLines (apAddr s.core x) n).any (fun l => (stk s.core (lineStack s.core l)).frozen) = false →
    exec (.bar4Read x n) s = .next { s with core := { s.core with
      out := .data ((upFrom (apAddr s.core x) n).map (apByte s.core)) ((apLines (apAddr s.core x) n).any (apBad s.core)) :: s.core.out } }) ∧
  (∀ (s : State) (x n : Nat), powered s.core = true → alive s.core = true →
    apWaits s.core { off := x, data := none, len := n, poisoned := false } = false → apOutside s.core x n = true →
    exec (.bar4Read x n) s = .next { s with core := { s.core with out := .unsupported :: s.core.out } }) ∧
  (∀ (s : State) (x : Nat) (b : List Byte) (w : WriteAttr) (l h i : Nat), powered s.core = true → alive s.core = true →
    apWaits s.core { off := x, data := some b, len := b.length, poisoned := w.poisoned, relaxed := w.relaxed } = false → apOutside s.core x b.length = false →
    apConf s.core x b.length = false → apLines (apAddr s.core x) b.length = [l] → lineObj s.core l = some (h, i) →
    (obj s.core h).home ≠ 1 → (obj s.core h).st = .complete →
    ∃ k, exec (.bar4Write x b w) s = .next (s.finish k) ∧
      k.dram = apPoison (s.core.dram.putBytes 0 (apAddr s.core x) b) (apAddr s.core x) b.length w.poisoned ∧
      ((obj s.core h).home = 2 → (obj k h).dirty = sput (obj s.core h).dirty (i / 1024)) ∧
      k = { s.core with dram := k.dram, objs := k.objs }) ∧
  (∀ (s : State) (x : Nat) (b : List Byte) (w : WriteAttr) (l : Nat), powered s.core = true → alive s.core = true →
    apWaits s.core { off := x, data := some b, len := b.length, poisoned := w.poisoned, relaxed := w.relaxed } = false → apOutside s.core x b.length = false →
    apConf s.core x b.length = false → apLines (apAddr s.core x) b.length = [l] → lineObj s.core l = none →
    exec (.bar4Write x b w) s = .next (s.finish { s.core with sched := { s.core.sched with apDrop := true } })) ∧
  (∀ (s : State) (x : Nat) (b : List Byte) (w : WriteAttr), powered s.core = true → alive s.core = true →
    apWaits s.core { off := x, data := some b, len := b.length, poisoned := w.poisoned, relaxed := w.relaxed } = false →
    apOutside s.core x b.length = true →
    exec (.bar4Write x b w) s = .next (s.finish { s.core with
      pci := { s.core.pci with aerHdr := some (s.core.pci.aerHdr.getD ⟨false, 4, x, b.length⟩) }, out := .aer :: s.core.out }))


/-- R102, R146 to R149: the SYS instructions. NOP answers B and C, QUERY answers the state or the counts of open items; RING_OPEN opens the
ring with its registers empty and writes a produced count of 0, RING_CLOSE frees it, its head and BAD_HEAD staying, and answers how many records it
was given; CTX_OPEN opens a
context in its partition, CTX_CLOSE closes it. What each leaves alone is what the state named does not change. -/
def Obligations.SysInstructionsComplete : Prop :=
  ∀ (h : CtlHdr) (a b c : W32) (x : W128) (s : State),
    let k := s.core
    let r := bits a.toNat 7 0
    let n := bits a.toNat 11 0
    (Accepted sysNopSpec h a b c 0 k →
      exec (.sysNop h a b c) s = doneAt s (mkCtl h 0 1 a b c 0) k (leBytes 4 b.toNat ++ leBytes 4 c.toNat)) ∧
    (Accepted sysQuerySpec h a b c 0 k → r = 0 →
      exec (.sysQuery h a b c) s = doneAt s (mkCtl h 0 2 a b c 0) k
        (leBytes 1 k.glb.st.code ++ leBytes 1 k.shadow.grade ++ leBytes 1 (quarters k) ++
          leBytes 1 (((upFrom 0 4).map (fun p => b2n (isResetting k p) * 2 ^ p)).sum) ++ leBytes 2 (engineCount k) ++ leBytes 2 0 ++
          leBytes 8 k.glb.stepsRetired)) ∧
    (Accepted sysQuerySpec h a b c 0 k → r = 1 → srcPart k h.src = none →
      exec (.sysQuery h a b c) s = doneAt s (mkCtl h 0 2 a b c 0) k
        (leBytes 4 (countOf k.ctxs (·.isOpen)) ++ leBytes 4 (countOf k.rings (·.isOpen)) ++ leBytes 4 (liveSeqs k).length ++
          leBytes 4 (handles k).length)) ∧
    (Accepted sysRingOpenSpec h a b c x k →
      exec (.sysRingOpen h a b c x) s = doneAt s (mkCtl h 0 0x84 a b c x)
        (hostWrite { k with rings := mput k.rings r
                              { isOpen := true, badHead := (dring k r).badHead, vec := bits a.toNat 18 8, size := b.toNat,
                                count := bits c.toNat 7 0, time := bits c.toNat 23 8, base := bits x.toNat 63 0, wb := bits x.toNat 127 64, part := srcPart k h.src } }
          (bits x.toNat 127 64) [0, 0, 0, 0]) []) ∧
    (Accepted sysRingCloseSpec h a b c 0 k →
      exec (.sysRingClose h a b c) s =
        doneAt s (mkCtl h 0 5 a b c 0) { k with rings := mput k.rings r { dring k r with isOpen := false, part := none } }
          (leBytes 4 (dring k r).produced.toNat)) ∧
    (Accepted sysCtxOpenSpec h a b c 0 k →
      exec (.sysCtxOpen h a b c) s = doneAt s (mkCtl h 0 6 a b c 0)
        { k with ctxs := mput k.ctxs n
                           { isOpen := true, conf := bits b.toNat 0 0 == 1,
                             part := if bits b.toNat 1 1 = 1 then some (bits b.toNat 3 2) else none } } []) ∧
    (Accepted sysCtxCloseSpec h a b c 0 k →
      ∃ t, exec (.sysCtxClose h a b c) s = doneAt s (mkCtl h 0 7 a b c 0) t [] ∧ (ctx t n).isOpen = false ∧ (∀ m, m ≠ n → ctx t m = ctx k m) ∧
        (∀ d, (dom t d).lastCtx = if (dom k d).lastCtx = some n then some 4096 else (dom k d).lastCtx) ∧
        t = { k with ctxs := t.ctxs, doms := t.doms })

/-- R264, R286, R300, R308, R310: the SEQ instructions that succeed at once. OPEN binds account, model set and ring and sets the sampling state
while the page list stays; PROMPT pins the prompt; START, RESUME and PAUSE move the state as the state diagram does; a PAUSE of a running
sequence, a STOP and a PRIO stay in flight; a CANCEL of an
ended sequence completes with 0x0B02 and the state's code, and of a FREE one is refused with 0x0201 and 0; QUERY changes nothing. -/
def Obligations.SequenceInstructionsComplete : Prop :=
  ∀ (h : CtlHdr) (a b c : W32) (x : W128) (s : State),
    let k := s.core
    let n := bits a.toNat 21 0
    let q := seq k n
    let put (v : Seq) : Core := { k with seqs := mput k.seqs n v }
    (Accepted seqOpenSpec h a b c x k →
      exec (.seqOpen h a b c x) s = doneAt s (mkCtl h 1 0x81 a b c x)
        (put { st := .opened, pages := q.pages, idx := q.idx, segs := q.segs, copying := q.copying, copied := q.copied, acct := bits b.toNat 15 0, ring := bits b.toNat 23 16,
               mset := bits b.toNat 29 24, prio := bits a.toNat 25 22, follow := decide (bits a.toNat 26 26 = 1),
               maxnew := bits c.toNat 19 0, topk := bits c.toNat 26 20, invt := BitVec.ofNat 32 (bits x.toNat 31 0),
               topp := BitVec.ofNat 32 (bits x.toNat 63 32), seed := BitVec.ofNat 64 (bits x.toNat 127 64) }) []) ∧
    (Accepted seqPromptSpec h a b c x k →
      let o := obj k (bits b.toNat 23 0)
      exec (.seqPrompt h a b c x) s = doneAt s (mkCtl h 1 0x82 a b c x)
        { k with objs := mput k.objs (bits b.toNat 23 0)
                   (if o.st = .fetching then { o with laterPins := o.laterPins + 1 } else { o with otherPins := o.otherPins + 1 }),
                 seqs := mput k.seqs n { q with pHandle := bits b.toNat 23 0, pOff := bits x.toNat 31 0, pLeft := bits c.toNat 20 0,
                                                pPinned := true } } []) ∧
    (Accepted seqStartSpec h a b c 0 k →
      exec (.seqStart h a b c) s = doneAt s (mkCtl h 1 1 a b c 0) (put { q with st := .queued, generated := 0, delivered := 0 }) []) ∧
    (Accepted seqPauseSpec h a b c 0 k → q.st = .queued →
      exec (.seqPause h a b c) s = doneAt s (mkCtl h 1 2 a b c 0) (put { q with st := .paused }) []) ∧
    (Accepted seqPauseSpec h a b c 0 k → q.st = .running →
      exec (.seqPause h a b c) s =
        flightAt s (put { q with pausePending := true }) { ins := mkCtl h 1 2 a b c 0, key := n }) ∧
    (Accepted seqResumeSpec h a b c 0 k →
      exec (.seqResume h a b c) s = doneAt s (mkCtl h 1 3 a b c 0) (put { q with st := .queued }) []) ∧
    (Accepted seqCancelSpec h a b c 0 k → q.live = false →
      exec (.seqCancel h a b c) s = .next (s.finish (retire k (mkCtl h 1 4 a b c 0) 0x0B02 q.st.code []))) ∧
    (ctlServed k = true → srcLive k h.src = true → q.st = .free →
      (∀ e ∈ checks3 seqCancelSpec (mkCtl h 1 4 a b c 0) false ++ seqCancelSpec.checks (mkCtl h 1 4 a b c 0) k,
        e.ord < 11 → e.bad = false) →
      exec (.seqCancel h a b c) s = .next (s.finish (retire k (mkCtl h 1 4 a b c 0) 0x0201 0 []))) ∧
    (Accepted seqStopSpec h a b c 0 k →
      exec (.seqStop h a b c) s = flightAt s k { ins := mkCtl h 1 6 a b c 0, key := n }) ∧
    (Accepted seqPrioSpec h a b c 0 k →
      exec (.seqPrio h a b c) s = flightAt s k { ins := mkCtl h 1 7 a b c 0, key := n }) ∧
    (Accepted seqQuerySpec h a b c 0 k →
      let urgent := rfld k oUrgentWait 15 0 ≠ 0 ∧ rfld k oUrgentWait 15 0 ≤ q.wait
      exec (.seqQuery h a b c) s = doneAt s (mkCtl h 1 8 a b c 0) k
        (if q.st = .free then List.replicate 16 0 else
          leBytes 1 q.st.code ++
          leBytes 1 (b2n q.follow + 2 * b2n q.pausePending + 4 * b2n (decide urgent) + 8 * b2n (decide (q.pLeft ≠ 0)) +
            16 * b2n (!q.waiting.isEmpty)) ++
          leBytes 1 q.mset ++ leBytes 1 q.ring ++ leBytes 4 q.next ++ leBytes 4 q.delivered ++ leBytes 2 q.wait ++ leBytes 1 q.prio ++
          leBytes 1 q.edef))

/-- R269, R286, R307, R310: SEQ.CANCEL ends a live sequence CANCELLED and takes away the records that wait; SEQ.CLOSE frees an ended sequence
and stages the return of all its pages. Neither touches another sequence or any page. -/
def Obligations.SequencesEndAndClose : Prop :=
  ∀ (h : CtlHdr) (a b c : W32) (s : State),
    let k := s.core
    let n := bits a.toNat 21 0
    (Accepted seqCancelSpec h a b c 0 k → (seq k n).live = true →
      ∃ t, exec (.seqCancel h a b c) s = .next (s.finish t) ∧ (seq t n).st = .cancelled ∧ (∀ m, m ≠ n → seq t m = seq k m) ∧
        (∀ d ∈ (seq t n).waiting, d.kind = .cancelled) ∧ t.pools = k.pools ∧ t.sched = k.sched ∧ (∀ m, acct t m = acct k m) ∧
        (∀ m, dom t m = dom k m)) ∧
    (Accepted seqCloseSpec h a b c 0 k →
      ∃ t, exec (.seqClose h a b c) s = doneAt s (mkCtl h 1 5 a b c 0) t [] ∧ (seq t n).st = .free ∧
        (∀ m, m ≠ n → seq t m = seq k m) ∧ t.pools = k.pools ∧ (seq t n).pages = (seq k n).pages ∧
        (match (seq k n).pool with
         | none => t.sched.edits = k.sched.edits
         | some p => ∃ d, t.sched.edits = k.sched.edits ++ [d] ∧ d.seq = n ∧ d.pool = p ∧ d.share = false ∧ d.prepared = true ∧
             d.b0 = 0 ∧ (1 ≤ (pool k p).nl → ∀ e, e < 4194304 → e < d.nblk * (pool k p).nl)))

/-- R245, R246, R277 to R280: the PT instructions. POOL_OPEN pins the object and answers how many pages fit and their length; POOL_CLOSE frees
the pool and its pin; STAT answers its counts; BIND binds the sequence; READ answers the published entry, its page's references, the state of
the shadow's entry and the staged edits. -/
def Obligations.PoolInstructionsComplete : Prop :=
  ∀ (h : CtlHdr) (a b c : W32) (s : State),
    let k := s.core
    let n := bits a.toNat 11 0
    let q := pool k n
    let o := obj k (bits b.toNat 23 0)
    let lines := 128 * bits c.toNat 14 8 * (64 * 2 ^ bits c.toNat 17 16 * (if bits c.toNat 20 18 = 0 then 16 else 8) / 512)
    (Accepted ptPoolOpenSpec h a b c 0 k →
      exec (.ptPoolOpen h a b c) s = doneAt s (mkCtl h 1 0x41 a b c 0)
        { k with objs := mput k.objs (bits b.toNat 23 0) { o with otherPins := o.otherPins + 1 },
                 pools := mput k.pools n
                   { isOpen := true, ctx := bits a.toNat 23 12, obj := bits b.toNat 23 0, nl := bits c.toNat 7 0 + 1,
                     hkv := bits c.toNat 14 8, dhc := bits c.toNat 17 16, kvfmt := bits c.toNat 20 18,
                     pages := min 268435456 (o.len / lines), pl := lines } }
        (leBytes 4 (min 268435456 (o.len / lines)) ++ leBytes 4 lines)) ∧
    (Accepted ptPoolCloseSpec h a b c 0 k →
      exec (.ptPoolClose h a b c) s = doneAt s (mkCtl h 1 0x42 a b c 0)
        { k with objs := mput k.objs q.obj
                   (if (obj k q.obj).laterPins ≠ 0 then { obj k q.obj with laterPins := (obj k q.obj).laterPins - 1 }
                    else { obj k q.obj with otherPins := (obj k q.obj).otherPins - 1 }),
                 pools := mput k.pools n {} } []) ∧
    (Accepted ptPoolStatSpec h a b c 0 k →
      exec (.ptPoolStat h a b c) s = doneAt s (mkCtl h 1 0x43 a b c 0) k
        (leBytes 4 q.free ++ leBytes 4 (q.hdrs.filter (fun e => e.2.deferred.isSome)).length ++
          leBytes 4 (q.hdrs.filter (fun e => decide (1 < e.2.refs))).length ++ leBytes 4 q.short)) ∧
    (Accepted ptBindSpec h a b c 0 k →
      exec (.ptBind h a b c) s = doneAt s (mkCtl h 1 0x44 a b c 0)
        { k with seqs := mput k.seqs (bits a.toNat 21 0) { seq k (bits a.toNat 21 0) with pool := some (bits b.toNat 11 0) } } []) ∧
    (∀ p, Accepted ptReadSpec h a b c 0 k → (seq k (bits a.toNat 21 0)).pool = some p →
      let e := bits b.toNat 13 0 * (pool k p).nl + bits c.toNat 7 0
      let v := pubEntry (seq k (bits a.toNat 21 0)) e
      let staged := (k.sched.edits.filter (fun d => d.seq == bits a.toNat 21 0)).length
      exec (.ptRead h a b c) s = doneAt s (mkCtl h 1 0x46 a b c 0) k
        (leBytes 8 v.toNat ++ leBytes 2 (if v.getLsbD 36 then (mget {} (pool k p).hdrs (bits v.toNat 27 0)).refs else 0) ++
          leBytes 1 (entryCode k (some p) (shadowEntry k (bits a.toNat 21 0) e)) ++ leBytes 1 (min 255 staged)))

/-- R264, R265, R269, R280: an accepted PT.EDIT changes only the shadow. A SHARE stages the source's entries, layer for layer, and takes a
reference for each page at once; an UNMAP stages the entries it takes away and keeps every reference. No published page list changes, and the
instruction stays in flight. PAGE_EDIT_PREPARED marks the sequence's staged edits prepared and changes nothing else. -/
def Obligations.EditsChangeOnlyTheShadow : Prop :=
  (∀ (h : CtlHdr) (a b c : W32) (x : W128) (s : State),
    let k := s.core
    let n := bits a.toNat 21 0
    let src := bits x.toNat 21 0
    let nl := seqNl k n
    let i := mkCtl h 1 0xC5 a b c x
    Accepted ptEditSpec h a b c x k →
      ∃ t d, exec (.ptEdit h a b c x) s = flightAt s t { ins := i, key := n } ∧
        t.seqs = k.seqs ∧ t.sched.edits = k.sched.edits ++ [d] ∧ d.seq = n ∧ d.ins = some i ∧ d.prepared = false ∧
        d.b0 = bits b.toNat 13 0 ∧ d.nblk = bits c.toNat 14 0 ∧ (d.share = true ↔ bits a.toNat 23 22 = 0) ∧
        (d.share = true → d.set = (upFrom 0 (d.nblk * nl)).map (fun j => (d.b0 * nl + j, shadowEntry k src (bits x.toNat 45 32 * nl + j)))) ∧
        (d.share = true → ∀ g, (pageHdr t d.pool g).refs =
          (pageHdr k d.pool g).refs + (d.set.filter (fun e => decide (bits e.2.toNat 27 0 = g))).length) ∧
        (d.share = false → t.pools = k.pools) ∧
        t = { k with pools := t.pools, sched := t.sched }) ∧
  (∀ (n : BitVec 22) (s : State), alive s.core = true →
    ∃ t, exec (.pageEditPrepared n) s = .next (s.finish t) ∧
      t = { s.core with sched := { s.core.sched with edits := t.sched.edits } } ∧
      t.sched.edits.length = s.core.sched.edits.length ∧
      (∀ (j : Nat) (d : Edit), s.core.sched.edits[j]? = some d →
        t.sched.edits[j]? = some (if d.seq = n.toNat then { d with prepared := true } else d)))

/-- R288, R311: the ACCT instructions. OPEN fills the account from its operands with an empty balance and a full bucket; GRANT adds to the
balance, or sets it, up to 2^48 − 2, and answers it; STAT answers it; CLOSE makes the account as it was at reset; SET stays in flight for the
boundary and changes nothing yet. -/
def Obligations.AccountInstructionsComplete : Prop :=
  ∀ (h : CtlHdr) (a b c : W32) (s : State),
    let k := s.core
    let n := bits a.toNat 15 0
    let v := acct k n
    let put (t : Acct) : Core := { k with accts := mput k.accts n t }
    let amount := b.toNat + bits c.toNat 15 0 * 2 ^ 32
    let balance := if bits a.toNat 16 16 = 1 then amount else min (2 ^ 48 - 2) (v.balance + amount)
    (Accepted acctOpenSpec h a b c 0 k →
      exec (.acctOpen h a b c) s = doneAt s (mkCtl h 2 1 a b c 0)
        (put { isOpen := true, ctx := bits a.toNat 27 16, rate := bits b.toNat 23 0, burst := bits c.toNat 23 0, pw := bits c.toNat 28 24,
               hard := decide (bits c.toNat 29 29 = 1), unlim := decide (bits c.toNat 30 30 = 1), bucket := bits c.toNat 23 0, balance := 0,
               energy := 0, leftNow := 0, leftLast := 0 }) []) ∧
    (Accepted acctSetSpec h a b c 0 k →
      exec (.acctSet h a b c) s = flightAt s k { ins := mkCtl h 2 2 a b c 0, key := n }) ∧
    (Accepted acctGrantSpec h a b c 0 k →
      exec (.acctGrant h a b c) s = doneAt s (mkCtl h 2 3 a b c 0) (put { v with balance := balance }) (leBytes 6 balance)) ∧
    (Accepted acctCloseSpec h a b c 0 k → exec (.acctClose h a b c) s = doneAt s (mkCtl h 2 4 a b c 0) (put {}) []) ∧
    (Accepted acctStatSpec h a b c 0 k →
      exec (.acctStat h a b c) s = doneAt s (mkCtl h 2 5 a b c 0) k
        (leBytes 6 v.balance ++ leBytes 2 0 ++ leBytes 4 v.bucket ++ leBytes 4 v.leftLast))

/-- R292 to R295, R312, R327, R482: the MSET instructions. LOAD of a manifest with a line that is being recovered leaves the set LOADING until
the line is there; LOAD of a sound manifest fills the set and takes a reference to each weight object; while lines of the program wait, whatever
tier they come from, the set is LOADING and the instruction stays in flight; a program whose lines are read, clean and well formed, with every
weight object fetchable, makes the set READY and the instruction retires, at once where the program's copy is complete. SWAP and DRAIN wait for a
boundary; QUERY only answers. -/
def Obligations.ModelSetInstructionsComplete : Prop :=
  ∀ (h : CtlHdr) (a b c : W32) (s : State),
    let k := s.core
    let m := bits a.toNat 5 0
    let g := bits b.toNat 23 0
    let man := (knownBytes k g 0 4096).1
    let pw := ofLE ((man.drop 4).take 4)
    let prog := ofLE ((man.drop 8).take 4)
    let ws := (upFrom 0 (ofLE ((man.drop 44).take 4))).map (fun i => ofLE ((man.drop (64 + 4 * i)).take 4))
    let line := ofLE ((man.drop 12).take 4)
    let lines := upFrom line (16 + cdiv pw 4)
    let who := if bits a.toNat 28 28 = 1 then none else some (bits a.toNat 27 16)
    let d := if who = none then domOfSrc k h.src else domOfCtx k (bits a.toNat 27 16)
    let i := mkCtl h 3 1 a b c 0
    let new : MSet := { st := .loading, ctx := who, dom := d, lastReason := (mset' k m).lastReason, lastBit := (mset' k m).lastBit,
                        lastArg := (mset' k m).lastArg }
    let k1 := { k with objs := (ws.foldl addRef k).objs, msets := mput k.msets m (new.fromManifest man) }
    let me : Reader := { ctl := some (h.src, h.ord) }
    let readProgram := readObj { k1 with flts := k.flts ++ [{ ins := i, key := m }] } me d prog line (16 + cdiv pw 4)
    let sound := recovering k g 0 4096 = false ∧ firstBadLine k g 0 4096 = none ∧ manifestFault k who man = none ∧ loadFlt k m = none
    let wellFormed (p : List Byte) := programFault k.shadow.grade (wordsOf (p.drop 1024) pw) = none ∧ tableFault k d pw (tableOf p 256) = none
    (Accepted msetLoadSpec h a b c 0 k → recovering k g 0 4096 = true →
      exec (.msetLoad h a b c) s = flightAt s { k with msets := mput k.msets m { new with man := some g } } { ins := i, key := m }) ∧
    (∀ t, Accepted msetLoadSpec h a b c 0 k → sound → readProgram = .wait t → exec (.msetLoad h a b c) s = .next (s.finish t)) ∧
    (Accepted msetLoadSpec h a b c 0 k → sound → (obj k prog).st = .fetching → (obj k prog).home ≠ 1 → (obj k prog).lost = false →
      linesHeld k prog lines = false → (∃ l ∈ lines, lineFetched k prog l = false) →
      ∃ t, exec (.msetLoad h a b c) s = flightAt s t { ins := i, key := m } ∧
        (mset' t m).st = .loading ∧ (mset' t m).ctx = who ∧ (mset' t m).objs = ws ∧ (mset' t m).pwords = pw ∧ (mset' t m).prog = prog ∧
        (mset' t m).words = [] ∧ (∀ o, (obj t o).refs = (obj k o).refs + ws.count o) ∧ (∀ n, n ≠ m → mset' t n = mset' k n) ∧
        t = { k with msets := t.msets, objs := t.objs }) ∧
    (∀ t ls, Accepted msetLoadSpec h a b c 0 k → sound → readProgram = .lines t ls → (∀ l ∈ ls, l.2 = false) → 1024 + 16 * pw ≤ sysFree t →
      let p := (ls.flatMap (fun l => leBytes 64 l.1.toNat)).take (1024 + 16 * pw)
      wellFormed p → (∀ o ∈ ws, fetchable t o = true ∧ (obj t o).alloc = true) →
      ∃ u, exec (.msetLoad h a b c) s = .next (s.finish (retireFlt u { ins := i, key := m } 0 0 (leBytes 4 pw))) ∧
        (mset' u m).st = .ready ∧ (mset' u m).words = wordsOf (p.drop 1024) pw ∧ (mset' u m).table = tableOf p 256 ∧
        (∀ n, n ≠ m → mset' u n = mset' t n) ∧ u.sched.sysUsed = t.sched.sysUsed + (1024 + 16 * pw) ∧
        u = { t with msets := u.msets, sched := u.sched, sec := u.sec, pci := u.pci }) ∧
    (Accepted msetLoadSpec h a b c 0 k → sound → (obj k prog).st = .complete → (obj k prog).lost = false →
      recovering k prog (64 * line) (1024 + 16 * pw) = false → linesHeld k prog lines = false → heldRead k prog lines = false →
      1024 + 16 * pw ≤ sysFree k → firstBadLine k prog (64 * line) (1024 + 16 * pw) = none →
      let p := (knownBytes k1 prog (64 * line) (1024 + 16 * pw)).1
      wellFormed p → (∀ o ∈ ws, fetchable k o = true) →
      ∃ t, exec (.msetLoad h a b c) s = doneAt s i t (leBytes 4 pw) ∧
        (mset' t m).st = .ready ∧ (mset' t m).words = wordsOf (p.drop 1024) pw ∧ (mset' t m).table = tableOf p 256 ∧
        (mset' t m).objs = ws ∧ (∀ o, (obj t o).refs = (obj k o).refs + ws.count o) ∧ (∀ n, n ≠ m → mset' t n = mset' k n) ∧
        t.sched.sysUsed = k.sched.sysUsed + (1024 + 16 * pw) ∧
        t = { k with msets := t.msets, objs := t.objs, sched := t.sched, sec := t.sec, fresh := k.fresh + 1,
                     pci := { k.pci with got := t.pci.got } }) ∧
    (Accepted msetSwapSpec h a b c 0 k →
      exec (.msetSwap h a b c) s = flightAt s k { ins := mkCtl h 3 2 a b c 0, key := m, aux := bits b.toNat 5 0 }) ∧
    (Accepted msetDrainSpec h a b c 0 k →
      exec (.msetDrain h a b c) s = flightAt s k { ins := mkCtl h 3 3 a b c 0, key := m, aux := m }) ∧
    (Accepted msetQuerySpec h a b c 0 k →
      let q := mset' k m
      exec (.msetQuery h a b c) s = doneAt s (mkCtl h 3 4 a b c 0) k
        (leBytes 1 q.st.code ++ leBytes 1 q.dom ++ leBytes 2 0 ++ leBytes 4 (bindings k m) ++ leBytes 2 q.lastReason ++ leBytes 1 q.lastBit ++
          leBytes 1 0 ++ leBytes 4 q.lastArg))

/-- R315, R333: OBJ.ALLOC of an object with a HOST or FLASH home enters it ABSENT with what its operands say; one with a DRAM home takes a range
of its domain, reads as zeros there, and stays in flight until DRAM_ZERO_COMPLETE; a delta pack takes a reference to its base. -/
def Obligations.ObjectsAreAllocated : Prop :=
  ∀ (h : CtlHdr) (a b c : W32) (x : W128) (s : State),
    let k := s.core
    let n := bits a.toNat 23 0
    let i := mkCtl h 4 0x81 a b c x
    let shared := bits b.toNat 17 17 == 1
    let o : Obj :=
      { alloc := true, ctx := if shared then none else some (bits b.toNat 11 0), home := bits b.toNat 13 12, pack := bits b.toNat 15 14,
        dom := if shared then domOfSrc k h.src else domOfCtx k (bits b.toNat 11 0), direct := bits b.toNat 16 16 == 1, len := c.toNat,
        haddr := bits x.toNat 63 0, base := bits x.toNat 87 64 }
    let k1 := if o.pack = 2 then addRef k o.base else k
    (Accepted objAllocSpec h a b c x k → o.home ≠ 0 →
      exec (.objAlloc h a b c x) s = doneAt s i { k1 with objs := mput k1.objs n o } []) ∧
    (∀ r k2, Accepted objAllocSpec h a b c x k → o.home = 0 → takeRange k1 o.dom o.units = some (r, k2) →
      ∃ t, exec (.objAlloc h a b c x) s = flightAt s t { ins := i, key := n } ∧
        obj t n = { o with st := .complete, copy := r, zeroing := true } ∧ (∀ m, m ≠ n → obj t m = obj k2 m) ∧
        (objConf t n = false → ∀ l, r * 1024 ≤ l → l < (r + o.units) * 1024 → t.dram.line 0 l = 0 ∧ t.dram.lineBad l = false) ∧
        (∀ l, l < r * 1024 ∨ (r + o.units) * 1024 ≤ l →
          t.dram.line 0 l = k2.dram.line 0 l ∧ t.dram.lineBad l = k2.dram.lineBad l) ∧
        t = { k2 with objs := t.objs, dram := t.dram })

/-- R318, R323 to R325, R334: PROMOTE answers at once for a complete copy, joins a fetch under way, begins one where a range is free (reading
a HOST home over the link), marks victims and waits where none is, and stops an eviction, its copy staying. EVICT, which waits for an OBJ.CLEAN
under way, PIN, UNPIN, CLEAN and FREE change the copy,
the pins and the entry as their rules say; QUERY changes nothing. -/
def Obligations.ObjectInstructionsComplete : Prop :=
  ∀ (h : CtlHdr) (a b c : W32) (s : State),
    let k := s.core
    let n := bits a.toNat 23 0
    let o := obj k n
    let put (v : Obj) : Core := { k with objs := mput k.objs n v }
    let pin := bits a.toNat 24 24
    (Accepted objPromoteSpec h a b c 0 k → o.st = .complete →
      exec (.objPromote h a b c) s =
        doneAt s (mkCtl h 4 1 a b c 0) (if pin = 1 then put { o with hostPins := o.hostPins + 1 } else k) (leBytes 8 (o.copy * 65536))) ∧
    (Accepted objPromoteSpec h a b c 0 k → o.st = .fetching →
      exec (.objPromote h a b c) s = flightAt s k { ins := mkCtl h 4 1 a b c 0, key := n }) ∧
    (∀ r, Accepted objPromoteSpec h a b c 0 k → o.st = .absent → firstFit k o.dom o.units = some r →
      ∃ t, exec (.objPromote h a b c) s = flightAt s t { ins := mkCtl h 4 1 a b c 0, key := n } ∧
        t.objs = mput k.objs n { o with st := .fetching, copy := r, wants := false, wantDrop := none, dirty := [], recov := [], from_ := [],
                                        fetched := 0 } ∧
        (o.home ≠ 2 → t = { k with objs := t.objs }) ∧
        (o.home = 2 → t = hostRead { k with objs := t.objs } { obj := some n, addr := o.haddr, len := o.stored, line := 0 })) ∧
    (Accepted objPromoteSpec h a b c 0 k → o.st = .absent → firstFit k o.dom o.units = none →
      ∃ t, exec (.objPromote h a b c) s = flightAt s t { ins := mkCtl h 4 1 a b c 0, key := n } ∧
        (obj t n).wants = true ∧ (∀ m, m ≠ n → obj t m = obj k m ∨ obj t m = { obj k m with st := .evicting }) ∧
        t = { k with objs := t.objs }) ∧
    (Accepted objPromoteSpec h a b c 0 k → o.st = .evicting →
      ∃ t, exec (.objPromote h a b c) s = doneAt s (mkCtl h 4 1 a b c 0) t (leBytes 8 (o.copy * 65536)) ∧ (obj t n).st = .complete ∧
        (obj t n).hostPins = o.hostPins + pin ∧ (obj t n).otherPins = o.otherPins ∧ (obj t n).copy = o.copy ∧
        ((∀ m, (obj k m).wants = false) → ∀ m, m ≠ n → obj t m = obj k m)) ∧
    (∀ f, Accepted objEvictSpec h a b c 0 k → objFlt k 0x05 n = some f →
      exec (.objEvict h a b c) s = flightAt s k { ins := mkCtl h 4 2 a b c 0, key := n }) ∧
    (Accepted objEvictSpec h a b c 0 k → objFlt k 0x05 n = none →
      exec (.objEvict h a b c) s = flightAt s (put { o with st := .evicting }) { ins := mkCtl h 4 2 a b c 0, key := n }) ∧
    (Accepted objPinSpec h a b c 0 k → o.st = .complete →
      exec (.objPin h a b c) s =
        doneAt s (mkCtl h 4 3 a b c 0) (put { o with hostPins := o.hostPins + 1 }) (leBytes 2 (min 0xFFFF (o.hostPins + 1 + o.otherPins)))) ∧
    (Accepted objPinSpec h a b c 0 k → o.st = .evicting →
      ∃ t, exec (.objPin h a b c) s = doneAt s (mkCtl h 4 3 a b c 0) t (leBytes 2 (min 0xFFFF (o.hostPins + 1 + o.otherPins))) ∧
        (obj t n).st = .complete ∧ (obj t n).hostPins = o.hostPins + 1 ∧ (obj t n).copy = o.copy ∧
        ((∀ m, (obj k m).wants = false) → ∀ m, m ≠ n → obj t m = obj k m)) ∧
    (Accepted objUnpinSpec h a b c 0 k →
      exec (.objUnpin h a b c) s =
        doneAt s (mkCtl h 4 4 a b c 0) (retryWants (put { o with hostPins := o.hostPins - 1 }))
          (leBytes 2 (min 0xFFFF (o.hostPins - 1 + o.otherPins)))) ∧
    (Accepted objCleanSpec h a b c 0 k → objFlt k 0x05 n = none →
      exec (.objClean h a b c) s =
        flightAt s (put { o with cleaning := o.dirty, redirty := [] }) { ins := mkCtl h 4 5 a b c 0, key := n }) ∧
    (∀ f, Accepted objCleanSpec h a b c 0 k → objFlt k 0x05 n = some f →
      exec (.objClean h a b c) s = flightAt s k { ins := mkCtl h 4 5 a b c 0, key := n }) ∧
    (Accepted objFreeSpec h a b c 0 k →
      let k1 := if o.pack = 2 then dropRef k o.base else k
      exec (.objFree h a b c) s = doneAt s (mkCtl h 4 6 a b c 0) (retryWants { orphanReads k1 n with objs := mdel k1.objs n }) []) ∧
    (Accepted objQuerySpec h a b c 0 k →
      exec (.objQuery h a b c) s = doneAt s (mkCtl h 4 7 a b c 0) k
        (leBytes 1 o.code ++
          leBytes 1 (b2n o.direct + 2 * b2n (o.alloc && o.ctx.isNone) + 4 * b2n o.lost + 8 * b2n (!o.recov.isEmpty) +
            16 * b2n (!o.dirty.isEmpty) + 32 * b2n (decide (o.refs ≠ 0))) ++
          leBytes 1 (o.home + 4 * o.pack) ++ leBytes 1 0 ++ leBytes 2 (min 0xFFFF (o.hostPins + o.otherPins)) ++ leBytes 2 o.hot ++
          leBytes 8 (if o.st = .absent then 2 ^ 64 - 1 else o.copy * 65536)))

/-- R329, R334, R400, R401, R403, R404: OBJ.SCHED sets or clears the schedule the next boundary attaches, one reference for each object it names;
FL_ERASE announces and begins an erase, or leaves its units waiting where the stack may not be written or two erases are under way; FL_QUERY
answers the unit's state; FL_STORE takes its references and pins, registers its write and asks for its first lines. -/
def Obligations.ScheduleAndFlashInstructionsComplete : Prop :=
  ∀ (h : CtlHdr) (a b c : W32) (s : State),
    let k := s.core
    (Accepted objSchedSpec h a b c 0 k →
      let m := bits a.toNat 5 0
      let new := if bits a.toNat 8 8 = 1 then none else some (schedLead k (bits b.toNat 23 0), schedList k (bits b.toNat 23 0))
      ∃ t, exec (.objSched h a b c) s = doneAt s (mkCtl h 4 8 a b c 0) t [] ∧ mset' t m = { mset' k m with schedNext := some new } ∧
        (∀ o, (obj t o).refs = (obj k o).refs - (match (mset' k m).schedNext with | some (some (_, l)) => (schedRefs l).count o | _ => 0) +
          (match new with | some (_, l) => (schedRefs l).count o | none => 0)) ∧
        t = { k with msets := t.msets, objs := t.objs }) ∧
    (Accepted objFlEraseSpec h a b c 0 k →
      let st := bits a.toNat 17 16
      let l := bits a.toNat 15 0
      let n := bits b.toNat 15 0
      let i := mkCtl h 4 0x10 a b c 0
      let f := fls k st
      let k1 := hwBegin { k with flts := k.flts ++ [{ ins := i }],
                                 flOps := k.flOps ++ [{ ins := i, erase := true, stack := st, units := upFrom l n }] } 6 st
      (hwMay k1 6 st = false ∨ 2 ≤ f.erasing.length →
        exec (.objFlErase h a b c) s =
          .next (s.finish { k1 with flss := mput k.flss st { f with toErase := f.toErase ++ upFrom l n } })) ∧
      (hwMay k1 6 st = true → f.erasing = [] → f.toErase = [] → n = 1 → (f.punit (f.phys l)).pend = false → f.used < 4095 →
        (∀ v, f.bestSpare = some v → (f.punit (f.phys l)).ecount < (f.punit v).ecount + 64) →
        let f1 := { f with erasing := [{ lunit := l, punit := f.phys l }], jseq := f.jseq + 1, used := f.used + 1,
                           journal := f.journal ++ [{ typ := 1, seq := f.jseq, lunit := l, punit := f.phys l }] }
        exec (.objFlErase h a b c) s = .next (s.finish { k1 with flss := mput k.flss st f1 }))) ∧
    (Accepted objFlQuerySpec h a b c 0 k →
      let st := bits a.toNat 17 16
      let l := bits a.toNat 15 0
      let f := fls k st
      let u := f.punit (f.phys l)
      exec (.objFlQuery h a b c) s = doneAt s (mkCtl h 4 0x11 a b c 0) k
        (leBytes 1 (unitCode k st l) ++ leBytes 1 (b2n u.pend + 2 * b2n (f.lun l).again + 4 * b2n f.worn) ++
          leBytes 2 (f.lun l).frontier ++ leBytes 2 (f.phys l) ++ leBytes 2 (min 0xFFFF (touching k st l)) ++ leBytes 4 u.ecount ++
          leBytes 1 u.loops)) ∧
    (Accepted objFlStoreSpec h a b c 0 k →
      let d := bits a.toNat 23 0
      let g := bits b.toNat 23 0
      let raw := bits a.toNat 24 24 == 1
      let i := mkCtl h 4 0x12 a b c 0
      let base := if raw = false ∧ (obj k d).pack = 2 then some (obj k d).base else none
      let ps := storePages k (obj k d)
      let o : FlOp := { ins := i, erase := false, dest := d, src := g, off := c.toNat, raw := raw, pages := ps, base := base }
      let k1 := pinObj (addRef { k with flts := k.flts ++ [{ ins := i }], flOps := k.flOps ++ [o] } d) g
      let k2 := match base with | some e => pinObj k1 e | none => k1
      let sts := (ps.map (·.stack)).dedup
      exec (.objFlStore h a b c) s = .next (s.finish (sts.foldl kickStore (sts.foldl (fun k st => hwBegin k 6 st) k2))))

/-- R439, R446, R450, R460, R464: the PWR instructions. STEP_TARGET and ENTER stay in flight; LIMIT sets the limit and what follows from it;
QUERY and WAKE answer, and a WAKE in HOLD asks for the exit. -/
def Obligations.PowerInstructionsComplete : Prop :=
  ∀ (h : CtlHdr) (a b c : W32) (s : State),
    let k := s.core
    let p := k.pwr
    (Accepted pwrStepTargetSpec h a b c 0 k →
      exec (.pwrStepTarget h a b c) s = flightAt s k { ins := mkCtl h 0xB 1 a b c 0, key := bits a.toNat 2 0 }) ∧
    (Accepted pwrLimitSpec h a b c 0 k →
      exec (.pwrLimit h a b c) s =
        doneAt s (mkCtl h 0xB 2 a b c 0) (powerChange k (fun k => { k with pwr := { k.pwr with limit := bits a.toNat 10 0 } })) []) ∧
    (Accepted pwrQuerySpec h a b c 0 k → bits a.toNat 7 0 = 0 →
      exec (.pwrQuery h a b c) s = doneAt s (mkCtl h 0xB 3 a b c 0) k
        (leBytes 4 (powerInForce k) ++ leBytes 4 p.measured ++ leBytes 1 p.cause ++ leBytes 1 p.tmax ++ leBytes 2 0 ++ leBytes 4 p.therm)) ∧
    (Accepted pwrQuerySpec h a b c 0 k → bits a.toNat 7 0 = 1 →
      let d := bits b.toNat 2 0
      let divs := (domTiles k d).map (fun t => (tile k t).div)
      exec (.pwrQuery h a b c) s = doneAt s (mkCtl h 0xB 3 a b c 0) k
        (leBytes 4 (domPower k d) ++ leBytes 4 (dom k d).budget ++ leBytes 1 (dom k d).ceil ++ leBytes 1 (divs.foldl max 0) ++
          leBytes 1 (divs.foldl min 15) ++ leBytes 1 0 ++ leBytes 4 (dom k d).target)) ∧
    (Accepted pwrQuerySpec h a b c 0 k → bits a.toNat 7 0 = 2 →
      exec (.pwrQuery h a b c) s = doneAt s (mkCtl h 0xB 3 a b c 0) k (leBytes 6 (acct k (bits b.toNat 15 0)).energy)) ∧
    (Accepted pwrQuerySpec h a b c 0 k → bits a.toNat 7 0 = 3 →
      exec (.pwrQuery h a b c) s = doneAt s (mkCtl h 0xB 3 a b c 0) k (leBytes 2 (mset' k (bits b.toNat 5 0)).factor)) ∧
    (Accepted pwrEnterSpec h a b c 0 k →
      exec (.pwrEnter h a b c) s = flightAt s
        { k with pst := { k.pst with handshake := 1, target := bits a.toNat 1 0, wakeSeen := false, asked := false } }
        { ins := mkCtl h 0xB 4 a b c 0 }) ∧
    (Accepted pwrWakeSpec h a b c 0 k →
      exec (.pwrWake h a b c) s = doneAt s (mkCtl h 0xB 5 a b c 0)
        (if k.glb.st = .hold then { k with pst := { k.pst with asked := true } } else k) (leBytes 4 k.glb.st.code))

/-- R472 to R475, R479 to R487, R491, R498, R499: the SEC instructions. EXTEND extends the scope's own register with the digest of the lines
and answers it, waiting while they are read from the host or recovered, or their stack is under test; FW_STAGE, which waits for its lines so too, QUOTE and CTX_KEY stay in flight, the quote with its body fixed now, the key with its host read issued; FW_ACTIVATE
and FW_ABORT move the staged image and measure it; FW_COMMIT burns the minimum version; LC_ADVANCE burns the row and waits for a reset.
QUOTE_SIGNED writes body and signature into its object; CTX_KEY_READ_DONE installs the key it read, unless the read failed. -/
def Obligations.SecurityInstructionsComplete : Prop :=
  ∀ (h : CtlHdr) (a b c : W32) (x : W128) (s : State),
    let k := s.core
    let withSec (v : Sec) : Core := { k with sec := v }
    let o := bits a.toNat 23 0
    let extent (t : Core) := readBytes t { ctl := some (h.src, h.ord) } o (64 * b.toNat) (64 * c.toNat)
    let held := linesHeld k o (upFrom b.toNat c.toNat)
    (∀ t e, Accepted secExtendSpec h a b c 0 k → extent k = .ok t e →
      let m := bits a.toNat 27 24
      let v := sha256 (mget (List.replicate 32 0) t.sec.mregs m ++ sha256 e)
      exec (.secExtend h a b c) s =
        doneAt s (mkCtl h 0xC 1 a b c 0) { t with sec := { t.sec with mregs := mput t.sec.mregs m v } } (v.take 16)) ∧
    (∀ t, Accepted secExtendSpec h a b c 0 k → extent k = .wait t →
      exec (.secExtend h a b c) s = flightAt s t { ins := mkCtl h 0xC 1 a b c 0 }) ∧
    (∀ t e, Accepted secFwStageSpec h a b c 0 k → extent (withSec { k.sec with fw := 1 }) = .ok t e →
      exec (.secFwStage h a b c) s =
        flightAt s (hwBegin (extendMreg t 5 (sha256 (e.take 16352))) 6 0) { ins := mkCtl h 0xC 2 a b c 0 }) ∧
    (∀ t, Accepted secFwStageSpec h a b c 0 k → extent (withSec { k.sec with fw := 1 }) = .wait t →
      exec (.secFwStage h a b c) s = flightAt s (hwBegin t 6 0) { ins := mkCtl h 0xC 2 a b c 0, aux := 1 }) ∧
    (∀ v : Sec, (obj k o).lost = false → ((obj k o).st ≠ .absent ∨ (obj k o).home ≠ 2) →
      recovering k o (64 * b.toNat) (64 * c.toNat) = false → held = false →
      extent (withSec v) = .ok (withSec v) (knownBytes k o (64 * b.toNat) (64 * c.toNat)).1) ∧
    (∀ v : Sec, (obj k o).lost = false → ((obj k o).st ≠ .absent ∨ (obj k o).home ≠ 2) →
      recovering k o (64 * b.toNat) (64 * c.toNat) = true ∨ held = true → extent (withSec v) = .wait (withSec v)) ∧
    (Accepted secFwActivateSpec h a b c 0 k →
      let n := (fwSlot k k.glb.slotB).count + 1
      let t := extendMreg (withSec { k.sec with fw := 3 }) 5 (sha256 (leBytes 4 n))
      exec (.secFwActivate h a b c) s = doneAt s (mkCtl h 0xC 3 a b c 0)
        (if k.glb.slotB then { t with slotA := { k.slotA with count := n } } else { t with slotB := { k.slotB with count := n } })
        (leBytes 1 (b2n (!k.glb.slotB)) ++ leBytes 3 0 ++ leBytes 4 n)) ∧
    (Accepted secFwAbortSpec h a b c 0 k →
      exec (.secFwAbort h a b c) s =
        doneAt s (mkCtl h 0xC 4 a b c 0) (extendMreg (withSec { k.sec with fw := 0 }) 5 (sha256 [0])) []) ∧
    (Accepted secFwCommitSpec h a b c 0 k →
      let w : FuseWrite := .minSvn (BitVec.ofNat 7 k.glb.svn)
      exec (.secFwCommit h a b c) s =
        doneAt s (mkCtl h 0xC 5 a b c 0) { k with shadow := k.shadow.program w, burn := k.burn ++ [w] } (leBytes 1 k.glb.svn)) ∧
    (Accepted secLcAdvanceSpec h a b c 0 k →
      let t := bits a.toNat 2 0
      let key : List FuseWrite :=
        if k.sec.lc = 1 ∧ t = 2 then [.operatorKeyHash (hashFuse (knownBytes k (bits b.toNat 23 0) 0 48).1)] else []
      exec (.secLcAdvance h a b c) s = doneAt s (mkCtl h 0xC 6 a b c 0)
        { k with burn := k.burn ++ .lifeCycle (BitVec.ofNat 3 t) :: key,
                 sec := { k.sec with pend := some t, level := 0, lcNext := max k.sec.lcNext (min t 4) } }
        (leBytes 1 t)) ∧
    (Accepted secQuoteSpec h a b c x k →
      let i := mkCtl h 0xC 0x81 a b c x
      let regs := (upFrom 0 16).filter (fun r => b.getLsbD r)
      exec (.secQuote h a b c x) s = flightAt s k { ins := i, data := quoteOf k i } ∧
        (quoteOf k i).drop 144 = regs.flatMap (fun r => mget (List.replicate 32 0) k.sec.mregs r) ∧
        (quoteOf k i).drop 64 = leBytes 16 x.toNat ++ leBytes 16 0 ++ (quoteOf k i).drop 96) ∧
    (Accepted secCtxKeySpec h a b c x k →
      exec (.secCtxKey h a b c x) s = flightAt s (hostRead k { ctl := some (h.src, h.ord), addr := bits x.toNat 63 0, len := 64 })
        { ins := mkCtl h 0xC 0x82 a b c x, key := bits a.toNat 11 0 }) ∧
    (∀ f, alive k = true → namedFlt k 0xC 0x81 h = some f →
      let q := padTo (cdiv f.data.length 64 * 64) f.data ++
        padTo 35664 (Config.slhSign (devSeeds k (keyClass k.sec.lc)) f.data (Config.freeNat k.fresh))
      let k1 := { k with fresh := k.fresh + 1 }
      let k2 := if (obj k f.ins.handle).complete then writeBytes k1 f.ins.handle q else k1
      exec (.quoteSigned h) s = .next (s.finish (retireFlt (bump k2 oQuotes 1) f 0 0 (leBytes 4 q.length)))) ∧
    (∀ f key, portsServe k = true → namedFlt k 0xC 0x82 h = some f → key.toNat / 2 ^ 256 ≠ key.toNat % 2 ^ 256 → (ctx k f.key).isOpen = true →
      ∃ t, exec (.ctxKeyReadDone h true key) s = .next (s.finish (retireFlt t f 0 0 [])) ∧ (ctx t f.key).key = some key ∧
        (∀ n, n ≠ f.key → ctx t n = ctx k n) ∧ t = { dropKeyRead k f.ins with ctxs := t.ctxs }) ∧
    (∀ f key, portsServe k = true → namedFlt k 0xC 0x82 h = some f → key.toNat / 2 ^ 256 ≠ key.toNat % 2 ^ 256 → (ctx k f.key).isOpen = false →
      exec (.ctxKeyReadDone h true key) s = .next (s.finish (retireFlt (dropKeyRead k f.ins) f rWrongState 0 []))) ∧
    (∀ f key, portsServe k = true → namedFlt k 0xC 0x82 h = some f →
      (exec (.ctxKeyReadDone h false key) s = .next (s.finish (retireFlt (dropKeyRead k f.ins) f rUncorrectable 0 []))) ∧
      (key.toNat / 2 ^ 256 = key.toNat % 2 ^ 256 →
        exec (.ctxKeyReadDone h true key) s = .next (s.finish (retireFlt (dropKeyRead k f.ins) f rOverrun 128 []))))

/-- R518 to R525: the MAINT instructions. TEST and SCRUB take the lowest free slot and the next ID, the test verifying and the scrub running
from its first frame or page; STOP frees a scrub's slot and answers what it counted; QUERY only answers. A test whose authorisation verifies
isolates its block, one whose does not ends with 0x0503; a finished test frees its slot and retires with its result; a stack that re-initialises
has trained its channels, and a port trains again. -/
def Obligations.MaintenanceInstructionsComplete : Prop :=
  ∀ (h : CtlHdr) (a b c : W32) (s : State),
    let k := s.core
    let n := k.maint.count + 1
    let ident (kind inst : Nat) : Nat := kind + inst * 256 + n % 65536 * 65536
    (∀ m, Accepted maintTestSpec h a b c 0 k → freeSlotFrom k 0 = some m →
      let i := mkCtl h 0xD 1 a b c 0
      let act : Act := { id := ident 1 (bits a.toNat 7 0 * 16 + bits a.toNat 15 8), st := 1, order := n, ins := some i }
      exec (.maintTest h a b c) s =
        flightAt s { k with maint := { slots := mput k.maint.slots m act, count := n } } { ins := i, key := m }) ∧
    (∀ m, Accepted maintScrubSpec h a b c 0 k → freeSlotFrom k 0 = some m →
      let flash := bits a.toNat 0 0 == 1
      let st := bits a.toNat 10 8
      let kind := if flash then 3 else 2
      let k1 :=
        if flash then { k with flss := mput k.flss st { fls k st with scrubUnit := 0, scrubPage := 0 } }
        else { k with stks := mput k.stks st { stk k st with scrubbed := [] } }
      let act : Act := { id := ident kind st, st := 2, order := n, period := bits b.toNat 15 0, passes := bits c.toNat 15 0 }
      exec (.maintScrub h a b c) s =
        doneAt s (mkCtl h 0xD 2 a b c 0) { k1 with maint := { slots := mput k.maint.slots m act, count := n } } (leBytes 4 (ident kind st))) ∧
    (∀ m act, Accepted maintStopSpec h a b c 0 k → slotOfAct k (bits a.toNat 7 0) (bits a.toNat 15 8) = some (m, act) →
      exec (.maintStop h a b c) s =
        doneAt s (mkCtl h 0xD 3 a b c 0) (settle { k with maint := { k.maint with slots := mdel k.maint.slots m } })
          (leBytes 8 act.done ++ leBytes 4 act.good ++ leBytes 4 act.bad)) ∧
    (Accepted maintQuerySpec h a b c 0 k →
      exec (.maintQuery h a b c) s = doneAt s (mkCtl h 0xD 4 a b c 0) k
        (match mget? k.maint.slots (bits a.toNat 4 0) with
         | none => []
         | some act => leBytes 4 act.id ++ leBytes 1 act.st ++ leBytes 3 0 ++
             leBytes 8 (if act.id % 256 = 2 ∨ act.id % 256 = 3 then act.done else 0))) ∧
    (∀ (m : BitVec 5) act f, alive k = true → mget? k.maint.slots m.toNat = some act → testFlt k m.toNat = some f → act.id % 256 = 1 →
      act.st = 1 →
      let bl := bits f.ins.a.toNat 7 0
      let un := bits f.ins.a.toNat 15 8
      exec (.fieldTestVerified m) s = .next (s.finish
        (if authOk k (bits f.ins.b.toNat 23 0) (partyHash k k.sec.lc) (testMsg k bl un) then
          let k1 := { k with maint := { k.maint with slots := mput k.maint.slots m.toNat { act with st := 2 } },
                             err := { k.err with maintSeq := k.err.maintSeq + 1 } }
          if bl = 4 ∨ bl = 5 then portDown k1 un else k1
        else endTest k m.toNat rSignature 1 []))) ∧
    (∀ (m : BitVec 5) act f (detail : W32), alive k = true → mget? k.maint.slots m.toNat = some act → testFlt k m.toNat = some f →
      act.id % 256 = 1 → act.st = 2 → ∀ re passed : Bool,
      let bl := bits f.ins.a.toNat 7 0
      let un := bits f.ins.a.toNat 15 8
      let k1 := if passed then k else errRecord k { reason := rTestFailed, cls := 3, source := 0x0A, opOnly := true, arg := act.id,
                                                    detail := leBytes 1 bl ++ leBytes 1 un ++ leBytes 2 0 ++ leBytes 4 detail.toNat }
      let temps := (upFrom 0 16).foldl (fun m c => mput m c (stk k1 un).temp) (stk k1 un).trainTemp
      let k2 := if bl = 2 ∧ re = true then { k1 with stks := mput k1.stks un { stk k1 un with trainTemp := temps } } else k1
      let k3 := endTest k2 m.toNat 0 0
        (leBytes 1 (b2n !passed) ++ leBytes 1 bl ++ leBytes 1 un ++ leBytes 1 0 ++ leBytes 4 act.id ++ leBytes 4 detail.toNat)
      exec (.fieldTestDone m passed detail re) s =
        .next (s.finish (if (bl = 4 ∨ bl = 5) ∧ re = true then portRetryTimer k3 un else k3)))

/-- R412 to R414, R420 to R430: the FAB instructions. ROUTE sets the masks of a run of nodes and of no other; CHAN_OPEN fills the channel and
pins an inbound window, CHAN_CLOSE frees it and answers its transactions; BCAST_SEND and BCAST_RECV open their session, the receiver asking to
join; TWIN_JOIN begins synchronisation, TWIN_LEAVE ends the pairing; FAILREC names the pool's object; NODE_QUERY only answers. -/
def Obligations.FabricInstructionsComplete : Prop :=
  ∀ (h : CtlHdr) (a b c : W32) (x : W128) (s : State),
    let k := s.core
    let n := bits a.toNat 11 0
    let withFab (k : Core) (f : Fab) : Core := { k with fab := f }
    (Accepted fabRouteSpec h a b c 0 k →
      ∃ t, exec (.fabRoute h a b c) s = doneAt s (mkCtl h 0xE 1 a b c 0) t [] ∧
        (∀ m, node t m = if n ≤ m ∧ m < n + bits b.toNat 11 0 then { node k m with mask := bits c.toNat 15 0 } else node k m) ∧
        t = withFab k { k.fab with nodes := t.fab.nodes }) ∧
    (Accepted fabChanOpenSpec h a b c x k →
      let inb := bits a.toNat 12 12 == 1
      let stg := bits a.toNat 13 13 == 1
      let k1 := if inb && !stg then takePin k (bits c.toNat 23 0) else k
      let ch : Chan :=
        { st := if inb then 2 else 1, inbound := inb, stg := stg, ctx := bits a.toNat 27 16, peer := bits b.toNat 11 0,
          peerChan := bits b.toNat 27 16, target := if stg then bits c.toNat 0 0 else bits c.toNat 23 0, base := bits x.toNat 31 0,
          lines := bits x.toNat 63 32, slots := bits x.toNat 71 64, reads := bits x.toNat 79 72, arrTile := bits x.toNat 87 80,
          arrSpan := bits x.toNat 94 88, arrCtr := bits x.toNat 101 96, credits := if stg && !inb then bits x.toNat 71 64 else 0 }
      exec (.fabChanOpen h a b c x) s =
        doneAt s (mkCtl h 0xE 0x81 a b c x) (withFab k1 { k.fab with chans := mput k.fab.chans n ch }) []) ∧
    (Accepted fabChanCloseSpec h a b c 0 k →
      let ch := chan k n
      let k1 := if ch.st = 2 ∧ ch.stg = false then dropPin k ch.target else k
      exec (.fabChanClose h a b c) s =
        doneAt s (mkCtl h 0xE 2 a b c 0) (retryWants (withFab k1 { k.fab with chans := mdel k.fab.chans n })) (leBytes 4 ch.trans)) ∧
    (Accepted fabBcastSendSpec h a b c 0 k →
      let i := mkCtl h 0xE 3 a b c 0
      let v : Session := { reader := true, mask := bits c.toNat 15 0, count := bits a.toNat 19 8, ins := i,
                           shards := shardsOf k (bits b.toNat 23 0), handles := [] }
      exec (.fabBcastSend h a b c) s =
        flightAt s (withFab k { k.fab with sessions := mput k.fab.sessions (bits a.toNat 7 0) v }) { ins := i, key := bits a.toNat 7 0 }) ∧
    (Accepted fabBcastRecvSpec h a b c 0 k →
      let i := mkCtl h 0xE 4 a b c 0
      let ss := shardsOf k (bits b.toNat 23 0)
      let v : Session := { reader := false, peer := bits a.toNat 19 8, mask := bits c.toNat 15 0, ins := i, shards := ss,
                           handles := (ss.map (·.handle)).dedup }
      let k1 := withFab k { k.fab with sessions := mput k.fab.sessions (bits a.toNat 7 0) v }
      exec (.fabBcastRecv h a b c) s =
        flightAt s (sendCtl k1 (bits a.toNat 19 8) (bits a.toNat 7 0) bJoin 0 []) { ins := i, key := bits a.toNat 7 0 }) ∧
    (Accepted fabTwinJoinSpec h a b c 0 k →
      let i := mkCtl h 0xE 6 a b c 0
      let w : Twin := { k.fab.twin with st := 1, msn := 1, unacked := [], applied := 0, records := [], syncEnd := none, syncDue := true,
                                        join := some i }
      exec (.fabTwinJoin h a b c) s = flightAt s (withFab k { k.fab with twin := w }) { ins := i }) ∧
    (Accepted fabTwinLeaveSpec h a b c 0 k →
      ∃ t, exec (.fabTwinLeave h a b c) s = doneAt s (mkCtl h 0xE 7 a b c 0) t [] ∧
        (k.fab.twin.st ≠ 1 → k.fab.twin.st ≠ 2 → t = k) ∧
        (k.fab.twin.st = 1 ∨ k.fab.twin.st = 2 →
          t.fab.twin.st = 3 ∧ t.fab.twin.unacked = [] ∧ t.fab.twin.records = [] ∧ t.fab.twin.join = none ∧ t.fab.chans = k.fab.chans ∧
          t.fab.nodes = k.fab.nodes ∧ t.objs = k.objs ∧ t.msets = k.msets ∧ t.dram = k.dram)) ∧
    (Accepted fabFailrecSpec h a b c 0 k →
      exec (.fabFailrec h a b c) s =
        doneAt s (mkCtl h 0xE 8 a b c 0) (withFab k { k.fab with failrec := some (bits b.toNat 23 0) }) []) ∧
    (Accepted fabNodeQuerySpec h a b c 0 k →
      exec (.fabNodeQuery h a b c) s = doneAt s (mkCtl h 0xE 9 a b c 0) k
        (leBytes 1 (if (node k n).lost then 2 else if reachable k n then 0 else 1) ++ leBytes 2 (node k n).mask ++ leBytes 1 0 ++
          leBytes 4 (node k n).inc.toNat))

/-- R68 to R71, R335, R482: a set bit of GLB_PART_RESET makes its ACTIVE partition RESETTING: its step is abandoned, its live sequences end
CANCELLED, its copies are ABSENT but for those with a DRAM home, and the count of resets rises. When its records are written and no field test
holds its blocks, the reset ends: tile memory, staging banks and object space of the partition read zero, its contexts have no key, its
measurement registers are zero and it is ACTIVE again. GLB_PART_RESET shows it from its start to its end; a write of 1 to the bit of any other
partition, or outside ENABLED, is ignored. -/
def Obligations.PartitionsReset : Prop :=
  (∀ (s : State) (v : BitVec 4) (p : Nat), s.core.glb.st = .enabled → p < 4 → v = BitVec.ofNat 4 (2 ^ p) → partCode s.core p = 1 →
    ∃ t, exec (.glbPartReset v) s = .next (s.finish t) ∧ isResetting t p = true ∧ t.sec.partResets = s.core.sec.partResets + 1 ∧
      (dom t p).running = none ∧ (∀ n, (seq s.core n).live = true → seqDom s.core n = p → (seq t n).st = .cancelled) ∧
      (∀ h, objPart s.core h = some p → (obj t h).st = if (obj s.core h).home = 0 then .complete else .absent) ∧
      (∀ c, ctx t c = ctx s.core c)) ∧
  (∀ (s : State) (v : BitVec 4) (p : Nat), s.core.glb.st = .enabled → p < 4 → v.getLsbD p = true → partCode s.core p = 1 →
    ∃ t, exec (.glbPartReset v) s = .next (s.finish t) ∧ isResetting t p = true) ∧
  (∀ (s : State) (v : BitVec 4), (∀ p, p < 4 → v.getLsbD p = true → s.core.glb.st ≠ .enabled ∨ partCode s.core p ≠ 1) →
    exec (.glbPartReset v) s = .next (s.finish s.core)) ∧
  (∀ (k : Core) (p : Nat), p < 4 → bits (readField k oPartReset) p p = b2n (isResetting k p)) ∧
  (∀ (s : State) (q : BitVec 2), isResetting s.core q.toNat = true → partTested s.core q.toNat = false → partRecorded s.core q.toNat = true →
    let p := q.toNat
    let u := 1024 * stackUnits s.core
    ∃ t, exec (.partitionResetDone q) s = .next (s.finish t) ∧ isResetting t p = false ∧
      (∀ n ∈ domTiles s.core p, (tile t n).mem = Mem.empty ∧ (tile t n).ctrs = [] ∧ (tile t n).regs = [] ∧ (tile t n).phase = 0) ∧
      (∀ l, 2 * p * u ≤ l → l < (2 * p + 2) * u → t.dram.line 0 l = 0 ∧ t.dram.lineBad l = false) ∧
      (∀ l, l < 262144 → t.stg.line 0 (stgLine (p / 2) (262144 * (p % 2)) + l) = 0) ∧
      mreg t (8 + p) = List.replicate 32 0 ∧ mreg t (12 + p) = List.replicate 32 0 ∧
      (∀ c, (ctx s.core c).isOpen = true → (ctx s.core c).part = some p → (ctx t c).key = none)) ∧
  (∀ (s : State) (q : BitVec 2), isResetting s.core q.toNat = false ∨ partTested s.core q.toNat = true ∨
      partRecorded s.core q.toNat = false → exec (.partitionResetDone q) s = .next (s.finish s.core))

/-- R90, R105, R350: data that fill a read of the host end it: they lie in the copy being fetched, are the line being recovered, or are kept for
the reader in place; what a reader that gave its read up would have had is checked and dropped. Data of another length and an unknown tag change
nothing. A read that fails, by its status or by the timeout, writes a record of source 5; one in place names its object, which is then fetched
from its next source; the copy of a fetch that fails, with no other source, is given up and its object is LOST. Each end lets the reads that wait
for a tag be requested. -/
def Obligations.HostReadsEnd : Prop :=
  ∀ (s : State) (tag : Nat) (data : List Byte), portsServe s.core = true →
    let k := s.core
    let ended : Core := { k with pci := { k.pci with reads := mdel k.pci.reads tag } }
    let ends (t : Core) : Host.Outcome State Fault Refusal := .next (s.finish (hostIssue t))
    let kept (r : HostRd) : Core := { ended with pci := { ended.pci with got := k.pci.got ++ [⟨r, some data⟩] } }
    (mget? k.pci.reads tag = none → ∀ st,
      exec (.hostReadCompletion tag st data) s = .next (s.finish k) ∧ exec (.completionTimeout tag) s = .next (s.finish k)) ∧
    (∀ r, mget? k.pci.reads tag = some r →
      (data.length ≠ r.len → exec (.hostReadCompletion tag .ok data) s = .next (s.finish k)) ∧
      (∀ h, data.length = r.len → r.obj = some h → (obj k h).st = .fetching → ¬ (mget? (obj k h).recov r.line = some 1 ∧ r.len ≤ 64) →
        ∃ t, exec (.hostReadCompletion tag .ok data) s = ends t ∧ t = { ended with dram := t.dram } ∧
          t.dram.bytes 0 ((obj k h).copy * 65536 + 64 * r.line) r.len = data ∧
          ∀ a, a < (obj k h).copy * 65536 + 64 * r.line ∨ (obj k h).copy * 65536 + 64 * r.line + r.len ≤ a →
            t.dram.byte 0 a = k.dram.byte 0 a) ∧
      (∀ h, data.length = r.len → r.obj = some h → mget? (obj k h).recov r.line = some 1 → r.len ≤ 64 →
        exec (.hostReadCompletion tag .ok data) s = ends (lineSupplied ended h r.line 1 (BitVec.ofNat 512 (ofLE data)))) ∧
      (data.length = r.len → r.obj = none → r.handle = none → r.ctl.isSome = true →
        exec (.hostReadCompletion tag .ok data) s = ends (kept r)) ∧
      (∀ h, data.length = r.len → r.obj = none → r.handle = some h →
        exec (.hostReadCompletion tag .ok data) s = ends (checkOrphans (kept r) h) ∧
        (((kept r).pci.got.all (fun g => !readsFor {} h g.rd)) = true → checkOrphans (kept r) h = kept r)) ∧
      (∀ st, st ≠ .ok → exec (.hostReadCompletion tag st data) s = exec (.completionTimeout tag) s) ∧
      (r.obj = none → r.handle = none → r.ctl.isSome = true →
        exec (.completionTimeout tag) s = ends (errRecord ended { reason := 0x0701, cls := 2, source := 5 })) ∧
      (∀ h, r.obj = none → r.handle = some h →
        let o := obj k h
        let conf := objConf k h
        let told := errRecord ended { reason := 0x0701, cls := 2, source := 5, dom := o.dom, ctx := o.ctx, obj := some h, conf := conf,
                                      addr := if conf then 0 else (r.addr - o.haddr) / 64 }
        let read := readInPlace k h = true ∧ (r.tile.isSome = true ∨ r.ctl.isSome = true ∨ r.seq.isSome = true)
        (¬ read → exec (.completionTimeout tag) s = ends (checkOrphans told h)) ∧
        (read → (sources k o).any (fun x => decide (1 < x)) = true →
          exec (.completionTimeout tag) s = ends (promote (checkOrphans told h) h)) ∧
        (read → (sources k o).any (fun x => decide (1 < x)) = false →
          exec (.completionTimeout tag) s = ends (markLost (checkOrphans told h) h) ∧ (obj (markLost (checkOrphans told h) h) h).lost = true)) ∧
      (∀ h, r.obj = some h → (obj k h).alloc = true → (obj k h).st = .fetching → (obj k h).home = 2 → (obj k h).lost = false →
        (obj k h).bcast = none → k.fab.twin.st ≠ 2 → (∀ e ∈ k.msets, e.2.st ≠ .loading ∧ h ∉ e.2.objs) → (∀ e ∈ k.objs, e.2.wants = false) →
        ∃ t, exec (.completionTimeout tag) s = ends t ∧ (obj t h).lost = true ∧ (obj t h).st = .absent ∧
          (∀ m, m ≠ h → obj t m = obj k m) ∧ t.msets = k.msets ∧ t.err.serial = k.err.serial + 2))

/-- R283, R298, R300, R303, R319, R459, R460: STEP_BOUNDARY where no boundary is due changes nothing. One that is due delivers the step that
ended, then publishes, then lets every waiting change of its domain take effect and retires it, unless these events are behind it (a boundary that
stayed open); in HOLD, and while an entry handshake runs, no step is built; in ENABLED a build that takes sequences begins the next step, or keeps
the boundary open while lines of a prompt it takes from are to come (log entry 24), and one that takes none leaves the domain idle. The shared
domain's boundary then sends the copy a new pair asked for. -/
def Obligations.BoundariesHaveTheirEvents : Prop :=
  ∀ (s : State) (d : Fin 5), alive s.core = true →
    let k := s.core
    let begun : Core := { k with doms := mput k.doms d.val { dom k d.val with timerDue := false } }
    let again := (dom k d.val).opened
    let k3 := if again then { k with doms := mput k.doms d.val { dom k d.val with opened := false } }
      else event3 (event2 (event1 begun d.val) d.val) d.val
    let synced (t : Core) : Core := if d.val = 4 then syncAtBoundary t else t
    (boundaryDue k d.val = false → exec (.stepBoundary d) s = .next (s.finish k)) ∧
    (boundaryDue k d.val = true →
      (k.glb.st = .hold ∨ k.pst.handshake ≠ 0 →
        ∃ t, exec (.stepBoundary d) s = .next (s.finish (synced t)) ∧ (dom t d.val).phase = 0 ∧ (dom t d.val).stepNo = (dom k d.val).stepNo ∧
          (∀ e, e ≠ d.val → (dom t e).running = (dom k e).running) ∧
          (again = false → (dom t d.val).running = none ∧ ∀ f ∈ t.flts, fltDom k f ≠ some d.val)) ∧
      (k.glb.st = .enabled → k.pst.handshake = 0 → retireAwaited k3 d.val = true → again = false →
        exec (.stepBoundary d) s =
          .next (s.finish (synced { k3 with doms := mput k3.doms d.val { dom k3 d.val with opened := true, phase := 1 } }))) ∧
      (k.glb.st = .enabled → k.pst.handshake = 0 → retireAwaited k3 d.val = false ∨ again = true →
        let joule := domPower k3 d.val * (dom k3 d.val).target / 1000
        let built := buildStep k3 d.val joule
        let counted := countBuild built.k d.val joule built
        let asked := openPrompts k3 d.val built.plan
        let idle : Dom := { dom counted d.val with lastBuilt := false, phase := 0 }
        (built.plan = [] → exec (.stepBoundary d) s = .next (s.finish (synced { counted with doms := mput counted.doms d.val idle }))) ∧
        (built.plan ≠ [] → asked.2 = true →
          exec (.stepBoundary d) s = .next (s.finish (synced
            { asked.1 with doms := mput asked.1.doms d.val { dom asked.1 d.val with opened := true, phase := 1 } }))) ∧
        (∀ p r, built.plan = p :: r → asked.2 = false →
          let left := countLeft counted built.accts
          let k4 : Core := { left with doms := mput left.doms d.val { dom left d.val with lastBuilt := true } }
          exec (.stepBoundary d) s = .next (s.finish (synced (startStep k4 d.val (seq k4 p.seq).mset joule built)))))) ∧
    exec (.idleBoundaryTimer d) s =
      .next (s.finish { k with doms := mput k.doms d.val { dom k d.val with timerDue := true } })

/-- R101, R266, R268, R286, R301, R310, R330, R445, R452, R453, R513: what else serving does of itself. STEP_RETIRE retires the domain's oldest
delivered step, which the twin must have acknowledged in paired mode: the set's factor moves, its running members are QUEUED again or PAUSED,
the total counts it. Page copies are written beside their sources; records that wait are written while their ring has space; the gate
releases one group; a watchdog in phase 2 halts the device, unless a request of the domain waits on
a block under test. -/
def Obligations.ServingEventsComplete : Prop :=
  ∀ (s : State) (d : Fin 5), alive s.core = true →
    let k := s.core
    ((dom k d.val).retiring = [] → ∀ e, exec (.stepRetire d e) s = .next (s.finish k)) ∧
    (∀ u r e, (dom k d.val).retiring = u :: r → stepMirrored k d.val u = false → exec (.stepRetire d e) s = .next (s.finish k)) ∧
    (∀ u r e, (dom k d.val).retiring = u :: r → stepMirrored k d.val u = true →
      let others := mput k.doms d.val { dom k d.val with retiring := r }
      ∃ t, exec (.stepRetire d e) s = .next (s.finish t) ∧ (dom t d.val).retiring = r ∧ t.glb.stepsRetired = k.glb.stepsRetired + 1 ∧
        (∀ m, (mset' t m).factor =
          if m = u.mset ∧ (mset' k m).st ≠ .none then nextFactor (mset' k m).factor e u.est else (mset' k m).factor) ∧
        (∀ p ∈ u.plan, (seq k p.seq).st = .running →
          others.all (fun o => (o.2.running.toList ++ o.2.retiring).all (fun v => v.plan.all (fun x => x.seq != p.seq))) = true →
          (seq t p.seq).st = if (seq k p.seq).pausePending then .paused else .queued) ∧
        (∀ n, (∀ p ∈ u.plan, p.seq ≠ n) → (seq t n).st = (seq k n).st)) ∧
    ((dom k d.val).gates = [] → exec (.gateGroupRelease d) s = .next (s.finish k)) ∧
    (∀ g gs, (dom k d.val).gates = g :: gs →
      ∃ n group, 1 ≤ n ∧ n ≤ max 1 (min 256 (rfld k oGateRamp 8 0)) ∧ group = (g :: gs).take n ∧ (∀ x ∈ group, x.2 = g.2) ∧
        let slewed := bump { k with fresh := k.fresh + 1 } oSlewHold (Config.freeNat k.fresh)
        let k1 : Core := { slewed with doms := mput k.doms d.val { dom k d.val with gates := (g :: gs).drop n } }
        exec (.gateGroupRelease d) s = .next (s.finish (group.foldl releaseTile k1))) ∧
    (∀ n : BitVec 22, (seq k n.toNat).pool = none → exec (.pageCopyDone n) s = .next (s.finish k)) ∧
    (∀ (n : BitVec 22) (p : Nat), (seq k n.toNat).pool = some p →
      ∃ t, exec (.pageCopyDone n) s = .next (s.finish t) ∧ t = { k with seqs := t.seqs, objs := t.objs, dram := t.dram } ∧
        (∀ m, seq t m = if m = n.toNat then { seq k m with copied := (seq k m).copied ++ (seq k m).copying, copying := [] } else seq k m) ∧
        (∀ v l, (seq k n.toNat).copying = [v] → objConf k (pool k p).obj = false → (obj k (pool k p).obj).stale = false →
          entryPage v.old ≠ v.page → l < (pool k p).pl →
          copyLine t (pool k p).obj (v.page * (pool k p).pl + l) = copyLine k (pool k p).obj (entryPage v.old * (pool k p).pl + l))) ∧
    (∀ r : BitVec 8, ringFull k r.toNat = true → exec (.waitingRecordWrite r) s = .next (s.finish k)) ∧
    (∀ (r : BitVec 8) (n : Nat) (v : Deliv), ringFull k r.toNat = false → liveSeqs k = [n] → (seq k n).ring = r.toNat →
      (seq k n).waiting = [v] → recordReady k v = true →
      exec (.waitingRecordWrite r) s =
        .next (s.finish (commit { k with seqs := mput k.seqs n { seq k n with waiting := [] } } n v))) ∧
    let tested := fieldTests k && (domTiles k d.val).any (testWait k)
    ((domPhase k d.val ≠ 2 ∨ (dom k d.val).running = none ∨ tested = true) → exec (.stepWatchdog d) s = .next (s.finish k)) ∧
    (domPhase k d.val = 2 → (dom k d.val).running.isSome = true → tested = false →
      ∃ t, exec (.stepWatchdog d) s = .next (s.finish t) ∧ t.glb.st = .halted ∧ t.glb.resetting = [] ∧ t.flts = [] ∧
        (∀ e, e < 5 → (dom t e).running = none) ∧
        t.err.last = some (k.err.last.getD { reason := 0x0C01, cls := 4, source := 8, inst := 0, arg := d.val, dom := d.val }))

/-- R318, R323, R324, R327, R328, R333, R334: what ends work on an object. The last line of a fetch makes the copy complete and retires the
promotions that wait, with their pins; a FLASH home's lines lie in it. A write-back that is visible ends an eviction ABSENT and a clean with only
the granules dirtied since; a recovered line, the flash's own where the home supplies it, is written over the damaged one; a source that fails
gives way to the next, and where no source is left the object is LOST. A host home supplies its lines by the completions of reads alone. -/
def Obligations.ObjectWorkEnds : Prop :=
  ∀ (s : State) (n : BitVec 24), alive s.core = true →
    let k := s.core
    let h := n.toNat
    let o := obj k h
    let put (k : Core) (v : Obj) : Core := { k with objs := mput k.objs h v }
    (o.zeroing = false → exec (.dramZeroComplete n) s = .next (s.finish k)) ∧
    (o.zeroing = true → exec (.dramZeroComplete n) s = .next (s.finish (endObj (put k { o with zeroing := false }) 0x81 h 0 0))) ∧
    let asked := readPending k (fun r => r.obj == some h)
    let copied : Core := if o.home = 1 then put (copyFlash k h).1 { o with fetched := cdiv o.stored 64 } else k
    (o.alloc = false ∨ o.st ≠ .fetching ∨ o.recov ≠ [] ∨ o.home ≠ 1 ∧ asked = true →
      exec (.fetchComplete n) s = .next (s.finish k)) ∧
    (o.alloc = true → o.st = .fetching → o.recov = [] → (o.pack = 0 ∨ badBlocks copied h = []) → (∀ e ∈ k.msets, e.2.st ≠ .loading) →
      (o.home ≠ 1 ∧ asked = false ∨
        o.home = 1 ∧ ∀ l, l < cdiv o.stored 64 → k.flash.lineBad (flsLineOf k o.dom (o.haddr + l)) = false) →
      ∃ t, exec (.fetchComplete n) s = .next (s.finish t) ∧ (obj t h).st = .complete ∧ (obj t h).copy = o.copy ∧
        (∀ m, m ≠ h → obj t m = obj k m) ∧ (∀ f ∈ t.flts, ¬ (f.ins.cls = 4 ∧ f.ins.op = 0x01 ∧ f.key = h)) ∧
        (o.home ≠ 1 → t.dram = k.dram) ∧
        (o.home = 1 → ∀ l, l < cdiv o.stored 64 → t.dram.line 0 (o.copy * 1024 + l) = k.flash.line 0xFF (flsLineOf k o.dom (o.haddr + l)))) ∧
    (o.alloc = false ∨ o.st ≠ .evicting ∨ writesLand k o.dirty = false → exec (.evictionComplete n) s = .next (s.finish k)) ∧
    (o.alloc = true → o.st = .evicting → writesLand k o.dirty = true →
      let k1 := writeGranules k h o.dirty
      exec (.evictionComplete n) s = .next (s.finish
        (retryWants (endObj (put k1 { o with st := .absent, dirty := [], cleaning := [], redirty := [] }) 0x02 h 0 0)))) ∧
    (objFlt k 0x05 h = none ∨ writesLand k o.cleaning = false → exec (.objCleanComplete n) s = .next (s.finish k)) ∧
    (∀ f, objFlt k 0x05 h = some f → writesLand k o.cleaning = true →
      let k1 := writeGranules k h o.cleaning
      let left := o.dirty.filter (fun g => !o.cleaning.contains g || o.redirty.contains g)
      let t := retireFlt (put k1 { o with dirty := left, cleaning := [], redirty := [] }) f 0 0 (leBytes 4 o.cleaning.length)
      let more := objFlt { k with flts := k.flts.erase f } 0x05 h
      exec (.objCleanComplete n) s = .next (s.finish (if more.isSome then startClean t h else evictsAfter t h))) ∧
    (∀ l data, (mget? o.recov l = none ∨ mget? o.recov l = some 1 ∧ o.home = 2) → exec (.recoveryLineDone n l data) s = .next (s.finish k)) ∧
    let held (l : Nat) := flsLineOf k o.dom (o.haddr + l)
    (∀ l src v, mget? o.recov l = some src → (src = 1 → o.home ≠ 2 ∧ k.flash.lineBad (held l) = false) →
      (mdel o.recov l ≠ [] ∨ o.st = .complete ∧ (∀ e ∈ k.msets, e.2.st ≠ .loading) ∧ (∀ e ∈ k.objs, e.2.wants = false)) → o.wants = false →
      ∃ t, exec (.recoveryLineDone n l (some v)) s = .next (s.finish t) ∧ t = { k with objs := t.objs, dram := t.dram } ∧
        obj t h = { o with recov := mdel o.recov l, from_ := mset 1 o.from_ l src } ∧ (∀ m, m ≠ h → obj t m = obj k m) ∧
        t.dram.line 0 (o.copy * 1024 + l) = (if src = 1 then k.flash.line 0xFF (held l) else v) ∧ t.dram.lineBad (o.copy * 1024 + l) = false) ∧
    (∀ l src nxt, mget? o.recov l = some src → ¬ (src = 1 ∧ o.home = 2) → o.lost = false →
      (sources k o).find? (fun x => decide (src < x)) = some nxt →
      let next := s.finish (put k { o with recov := mput o.recov l nxt })
      exec (.recoveryLineDone n l none) s = .next next ∧
        (src = 1 → k.flash.lineBad (held l) = true → ∀ v, exec (.recoveryLineDone n l (some v)) s = .next next)) ∧
    (∀ l src, mget? o.recov l = some src → ¬ (src = 1 ∧ o.home = 2) → (sources k o).find? (fun x => decide (src < x)) = none → o.alloc = true → o.lost = false →
      (∀ e ∈ k.msets, e.2.st ≠ .loading ∧ h ∉ e.2.objs) → (∀ e ∈ k.objs, e.2.wants = false) →
      ∃ t, exec (.recoveryLineDone n l none) s = .next (s.finish t) ∧ (obj t h).lost = true ∧ (obj t h).recov = [] ∧
        t.err.serial = k.err.serial + 1 ∧ ∀ m, m ≠ h → obj t m = obj k m)

/-- R380, R385 to R391, R394, R398, R399, R401, R404, R523: the flash. An erase that passes leaves its unit BLANK with one more erase
counted, and one that fails without a spare wears the stack out; a page program puts the page's bytes there and moves the frontier past it; a
codeword that decodes, at once or by a retry, or whose page is not programmed, is readable, and one that fails every retry is poisoned with a
record. The scrub counts its page; a fetch of the Conductor that misses fills its buffer, at once or by a counted retry, or halts the device where
it cannot be read, and the target of a taken branch is kept. -/
def Obligations.FlashEventsComplete : Prop :=
  ∀ (s : State) (st : BitVec 2),
    let k := s.core
    let f := fls k st.toNat
    let withFls (k : Core) (v : Fls) : Core := { k with flss := mput k.flss st.toNat v }
    (∀ (u : BitVec 16) pulses mfail, alive k = true → f.erasing.find? (fun e => e.punit == u.toNat) = none ∨ u.toNat ∈ f.suspended →
      exec (.flashEraseDone st u pulses mfail) s = .next (s.finish k)) ∧
    (∀ (u : BitVec 16) pulses mfail e, alive k = true → f.erasing.find? (fun e => e.punit == u.toNat) = some e →
      u.toNat ∉ f.suspended → f.phys e.lunit = u.toNat → f.toErase = [] →
      (pulses ≤ 8 → ∃ t, exec (.flashEraseDone st u pulses mfail) s = .next (s.finish t) ∧
        ((fls t st.toNat).punit u.toNat).ecount = (f.punit u.toNat).ecount + 1 ∧ ((fls t st.toNat).punit u.toNat).pend = false ∧
        ((fls t st.toNat).lun e.lunit).frontier = 0 ∧ (fls t st.toNat).erasing = f.erasing.erase e ∧
        (∀ l, l < 524288 → t.flash.line 0xFF (flsLine st.toNat e.lunit 0 l) = BitVec.allOnes 512)) ∧
      (8 < pulses → Fls.bestSpare { f with erasing := f.erasing.erase e } = none →
        ∃ t, exec (.flashEraseDone st u pulses mfail) s = .next (s.finish t) ∧ (fls t st.toNat).worn = true ∧
          (∀ o ∈ t.flOps, st.toNat ∉ o.stacks) ∧ t.flash = k.flash)) ∧
    (∀ loops mfail, alive k = true → currentPage k st.toNat = none ∨ hwMay k 6 st.toNat = false ∨ 65536 ∈ f.suspended →
      exec (.flashPageProgrammed st loops mfail) s = .next (s.finish k)) ∧
    (∀ loops mfail o p k1 b, alive k = true → currentPage k st.toNat = some (o, p) → hwMay k 6 st.toNat = true → 65536 ∉ f.suspended →
      pageBytes k o p = .ok k1 b → (obj k o.dest).len ≠ 0 → loops ≤ 24 →
      ∃ t, exec (.flashPageProgrammed st loops mfail) s = .next (s.finish t) ∧ b.length = 16384 ∧
        t.flash.bytes 0xFF (64 * flsLine st.toNat p.unit p.page 0) 16384 = b ∧ ((fls t st.toNat).lun p.unit).frontier = p.page + 1) ∧
    (∀ u page cw errs, stackServes true st.toNat k = true →
      ∃ t, exec (.flashRead st u page cw errs) s = .next (s.finish t) ∧ t = { k with flash := t.flash, flss := t.flss, ctr := t.ctr, fresh := t.fresh } ∧
        t.flash = if userCw u.toNat page cw = true ∧ (errs ≤ 120 ∨ f.programmed u.toNat page = false) then k.flash.setBads false (8 * flsLine st.toNat u.toNat page (32 * cw)) 256
          else k.flash) ∧
    (∀ u page cw errs, stackServes true st.toNat k = true → userCw u.toNat page cw = false ∨ f.programmed u.toNat page = false ∨ errs = [] →
      exec (.flashReadRetry st u page cw errs) s = .next (s.finish k)) ∧
    (∀ u page cw errs n, stackServes true st.toNat k = true → userCw u.toNat page cw = true → f.programmed u.toNat page = true →
      (errs.take 3).findIdx? (fun e => decide (e ≤ 120)) = some n →
      exec (.flashReadRetry st u page cw errs) s = .next (s.finish
        { bump (flsFetch k st.toNat (n + 1)) (oFls st.toNat + 0x20 + 8 * n) 1 with
          flash := k.flash.setBads false (8 * flsLine st.toNat u.toNat page (32 * cw)) 256 })) ∧
    (∀ u page cw errs, stackServes true st.toNat k = true → userCw u.toNat page cw = true → f.programmed u.toNat page = true →
      (∀ e ∈ errs, 120 < e) → 3 ≤ errs.length →
      homesAt k st.toNat (cwLine k st.toNat u.toNat page cw) = [] →
      let marked : Core := { flsFetch k st.toNat 3 with flash := k.flash.setBads true (8 * flsLine st.toNat u.toNat page (32 * cw)) 256 }
      exec (.flashReadRetry st u page cw errs) s = .next (s.finish (errRecord (bump marked (oFls st.toNat + 0x38) 1)
        { reason := 0x0701, cls := 2, source := 3, inst := st.toNat, addr := cwLine k st.toNat u.toNat page cw }))) ∧
    (memoryOn k = true → exec (.flashOpResume st) s = .next (s.finish (withFls k { f with suspended := f.suspended.drop 1 }))) ∧
    (alive k = true → slotOfAct k 3 st.toNat = none → ∀ rs, exec (.flashScrubPage st rs) s = .next (s.finish k)) ∧
    (∀ n act l p l' p' rs, alive k = true → slotOfAct k 3 st.toNat = some (n, act) → act.st = 2 →
      nextScrub f f.scrubUnit f.scrubPage = some (l, p) → nextScrub f l (p + 1) = some (l', p') → (∀ r ∈ rs, r = 0) →
      let k1 := flsFetch k st.toNat 0
      exec (.flashScrubPage st rs) s = .next (s.finish
        (withFls (modAct k1 n (fun a => { a with done := a.done + 1 })) { fls k1 st.toNat with scrubUnit := l', scrubPage := p' }))) ∧
    (∀ a, k.glb.startup.bootDone = true → k.glb.st ≠ .off → a < 2 ^ 30 →
      let hit := k.code.buffer.any (fun e => e.1 == a / 512)
      let line : Nat × List Byte := (a, codeBytes k a 64)
      let filled (t : Core) : Core :=
        { t with code := { k.code with buffer := (upFrom (a / 512) 8).map (fun n => (n, codeBytes k (512 * n) 512)) } }
      (hit = true → ∀ n, exec (.codeRegionFetch a false n) s = .next (s.finish k) ∧
        (k.code.targets.any (fun e => e.1 == a) = true → exec (.codeRegionFetch a true n) s = .next (s.finish k)) ∧
        (k.code.targets.any (fun e => e.1 == a) = false → k.code.targets.length < 64 →
          exec (.codeRegionFetch a true n) s = .next (s.finish { k with code := { k.code with targets := k.code.targets ++ [line] } }))) ∧
      (hit = false →
        exec (.codeRegionFetch a false 0) s = .next (s.finish (filled (flsFetch k 0 0))) ∧
        (∀ n, 1 ≤ n → n ≤ 3 → exec (.codeRegionFetch a false n) s = .next (s.finish (filled (bump (flsFetch k 0 n) (oFls 0 + 0x18 + 8 * n) 1)))) ∧
        (k.glb.st ≠ .halted → ∀ n taken, 3 < n → ∃ t, exec (.codeRegionFetch a taken n) s = .next (s.finish t) ∧ t.glb.st = .halted ∧
          t.err.last = some (k.err.last.getD { reason := 0x0701, cls := 4, source := 3, inst := 0, arg := 32768 + a / 16384 }))))

/-- R129, R132, R141, R142, R150, R493: the instructions the Tile Sequencer executes, where it stands at one and neither a FENCE nor the debug
port holds it. TSET, TADD and TLOAD write one TS register, JUMP, BRANCH and LOOP set the pc, LOOP counts its register down, END ends the tile's
part; each changes only its tile, whose sequencer goes on. A program line that returns enters the buffer of 32 lines, which gives up the
line it has held longest (the model's choice, log entry 61); DBG_TS_STEP executes one bundle of a halted sequencer. -/
def Obligations.SequencerInstructionsComplete : Prop :=
  ∀ (h : TileHdr) (a b c : W32) (s : State),
    let k := s.core
    let t := h.tile.toNat
    let q := tile k t
    let w := h.widx.toNat
    let i (op : Nat) := mkTIns h 0xA op a b c 0
    let d := bits a.toNat 3 0
    let x := mget 0 q.regs d
    let put (v : Tile) : Core := { k with tiles := mput k.tiles t v }
    let now (op : Nat) : Prop := tsReady k t (i op) = true ∧ q.dbgHalt = false
    let goes (o : Host.Outcome State Fault Refusal) (v : Tile) : Prop := o = .next (s.finish (tsRun (put v) t))
    let y := if bits a.toNat 8 8 = 1 then mget 0 q.regs (bits a.toNat 7 4) else b
    let z := if bits a.toNat 12 12 = 1 then mget 0 q.regs (bits a.toNat 7 4) else b
    let taken := match bits a.toNat 11 8 with | 0 => x = z | 1 => x ≠ z | 2 => x.toNat < z.toNat | _ => z.toNat ≤ x.toNat
    (now 0x10 → goes (exec (.hxTset h a b c) s) { q with regs := mset 0 q.regs d b, pc := w + 1 }) ∧
    (now 0x11 → goes (exec (.hxTadd h a b c) s) { q with regs := mset 0 q.regs d (x + y), pc := w + 1 }) ∧
    (now 0x12 → goes (exec (.hxTload h a b c) s)
      { q with regs := mset 0 q.regs d (BitVec.ofNat 32 (tmElem k t (bits b.toNat 14 0) 32 (bits c.toNat 3 0))), pc := w + 1 }) ∧
    (now 0x20 → goes (exec (.hxJump h a b c) s) { q with pc := c.toNat }) ∧
    (now 0x21 → taken → goes (exec (.hxBranch h a b c) s) { q with pc := c.toNat }) ∧
    (now 0x21 → ¬ taken → goes (exec (.hxBranch h a b c) s) { q with pc := w + 1 }) ∧
    (now 0x22 → x = 0 → goes (exec (.hxLoop h a b c) s) { q with pc := w + 1 }) ∧
    (now 0x22 → x ≠ 0 → goes (exec (.hxLoop h a b c) s)
      { q with regs := mset 0 q.regs d (x - 1), pc := if x = 1 then w + 1 else c.toNat }) ∧
    (now 0x01 → tileIdle k t = true →
      ∃ m, exec (.hxEnd h a b c) s = .next (s.finish (tsRun m t)) ∧ tile m t = { q with phase := 3, pc := w + 1, fenced := false } ∧
        (∀ u, u ≠ t → tile m u = tile k u) ∧ (∀ e, e ≠ domOfTile k t → dom m e = dom k e) ∧
        ((dom m (domOfTile k t)).running.map (·.num) = (dom k (domOfTile k t)).running.map (·.num)) ∧
        (stepEnded m (domOfTile k t) = true → ∀ u, (dom m (domOfTile k t)).running = some u → u.ended = true) ∧
        m = { k with tiles := m.tiles, doms := m.doms }) ∧
    (q.phase = 2 →
      let n := if (tsWord k t q.pc).isSome ∨ q.buffer.contains (q.pc / 64) = true then q.pc / 64 + 1 else q.pc / 64
      let lines := if q.buffer.contains n then q.buffer else q.buffer ++ [n]
      goes (exec (.programFetchReturn h.tile) s) { q with buffer := lines.drop (lines.length - 32) }) ∧
    (debugOn k = true → 2 ≤ debugLevel k → q.dbgHalt = true → tsReady k t (i 0x10) = true →
      ∃ m, exec (.dbgTsStep h.tile) s = .next (s.finish m) ∧
        tile m t = { q with fenced := false, regs := mset 0 q.regs d b, pc := w + 1 } ∧ (∀ u, u ≠ t → tile m u = tile k u))

/-- R22, R134 to R140, R150: an HX instruction of the DM queue that nothing holds takes 1 from the counter it waits on. SET writes a counter, ADD
increments one: at once in its own tile, through the mesh in another tile of its partition, and never in another partition. An increment
that arrives, the first its sender sent to the tile, is added and lets its HX.ADD retire. A BARRIER before the last arrival waits; the last clears the counter and releases all. -/
def Obligations.HitchInstructionsComplete : Prop :=
  (∀ (h : TileHdr) (a b c : W32) (s : State),
    let k := s.core
    let t := h.tile.toNat
    let i (op : Nat) := mkTIns h 0xA op a b c 0
    let ctr := bits a.toNat 5 0
    let n := bits b.toNat 15 0
    let u := physTile k (bits a.toNat 15 8)
    let g := bits a.toNat 9 0
    let now (op : Nat) : Prop := canTake k t uDm (i op) = true ∧ hitchOk k t uDm (i op) = true ∧ (tile k t).dm = none
    let k1 (op : Nat) := takeIns k t uDm (i op)
    let held (m : Core) (v : DmWait) : Core := { m with tiles := mput m.tiles t { tile m t with dm := some v } }
    (now 2 → exec (.hxSet h a b c) s = .next (s.finish (tsRun (retireIns (hitchSet (k1 2) t ctr n) t (i 2)) t))) ∧
    (now 3 → u = t → exec (.hxAdd h a b c) s = .next (s.finish (tsRun (retireIns (hitchAdd (k1 3) t ctr n (t, h.widx.toNat)) t (i 3)) t))) ∧
    (now 3 → u ≠ t → domOfTile k u = domOfTile k t →
      let sent : Core := { k1 3 with incs := k.incs ++ [{ tile := u, ctr := ctr, amount := n, src := t, widx := h.widx.toNat, sender := some t }] }
      exec (.hxAdd h a b c) s =
        .next (s.finish (tsRun (held (if dieOfTile u = dieOfTile t then sent else bridgeStall sent (dieOfTile t)) (.add (i 3))) t))) ∧
    (now 3 → domOfTile k u ≠ domOfTile k t →
      exec (.hxAdd h a b c) s = .next (s.finish (tsRun (tileFail (k1 3) t h.widx.toNat rDeniedPart (domOfTile k u)) t))) ∧
    (now 4 → ghcDom k g = domOfTile k t → (mget {} k.ghcs g).n = 0 ∨ (mget {} k.ghcs g).n = n → (mget {} k.ghcs g).count + 1 < n →
      exec (.hxBarrier h a b c) s = .next (s.finish { held (k1 4) (.barrier (i 4) g (bits a.toNat 21 16)) with
        ghcs := mput k.ghcs g ⟨(mget {} k.ghcs g).count + 1, n, (sput ((mget {} k.ghcs g).arrived.map Prod.fst) t).map (fun u => (u, 0))⟩ })) ∧
    (now 4 → ghcDom k g = domOfTile k t → (mget {} k.ghcs g).n = 0 ∨ (mget {} k.ghcs g).n = n → n ≤ (mget {} k.ghcs g).count + 1 →
      exec (.hxBarrier h a b c) s = .next (s.finish (addGates { held (k1 4) (.barrier (i 4) g (bits a.toNat 21 16)) with
        ghcs := mput k.ghcs g ⟨0, n, []⟩ } (domOfTile k t) ((sput ((mget {} k.ghcs g).arrived.map Prod.fst) t).map (fun u => (u, true))))))) ∧
  (∀ (tl : BitVec 8) (ctr : BitVec 6) (n : BitVec 16) (s : State),
    let k := s.core
    let t := tl.toNat
    let k0 (x : Inc) : Core := { k with incs := k.incs.erase x }
    let next := k.incs.find? (fun x => x.tile == t && x.ctr == ctr.toNat && x.amount == n.toNat && inTurn k.incs x)
    let soon := mset 0 (tile k t).early ctr.toNat (mget 0 (tile k t).early ctr.toNat + n.toNat)
    (∀ x, next = some x → (tile k t).phase = 1 → x.sender = none →
      exec (.remoteIncrementArrive tl ctr n) s = .next (s.finish { k0 x with tiles := mput k.tiles t { tile k t with early := soon } })) ∧
    (∀ x, next = some x → (tile k t).phase ≠ 1 →
      hitch k t ctr.toNat + n.toNat ≤ 0xFFFF → x.sender = none →
      exec (.remoteIncrementArrive tl ctr n) s = .next (s.finish (hitchSet (k0 x) t ctr.toNat (hitch k t ctr.toNat + n.toNat)))) ∧
    (∀ x u i, next = some x → (tile k t).phase ≠ 1 →
      hitch k t ctr.toNat + n.toNat ≤ 0xFFFF → x.sender = some u → u ≠ t → (tile k u).dm = some (.add i) →
      exec (.remoteIncrementArrive tl ctr n) s =
        let k1 := hitchSet (k0 x) t ctr.toNat (hitch k t ctr.toNat + n.toNat)
        .next (s.finish (tsRun (retireIns { k1 with tiles := mput k1.tiles u { tile k u with dm := none } } u i) u))) ∧
    (next = none → exec (.remoteIncrementArrive tl ctr n) s = .next (s.finish k)))

/-- R133, R151 to R154: a DM instruction whose checks pass, between places in tile and staging memory: every line of the destination, with its
poison, is the source's line (DM.COPY, DM.STRIDE), DM.TRANS stores element j of source row r as element r of destination row j, DM.FILL stores
its 16 bytes four times in each line. Lines outside the destination rows and all other memory are as before. It then retires. One that
reads or writes an object, or sends to a peer, runs once both its places are open, and waits in its slot or fails as they say; one that waits
goes on where it stands. -/
def Obligations.MovesComplete : Prop :=
  ∀ (h : TileHdr) (a b c : W32) (x : W128) (s : State),
    let k := s.core
    let t := h.tile.toNat
    let i (op : Nat) := mkTIns h 5 op a b c x
    let j (op : Nat) := heldIns k t uDm (i op)
    let src := a.toNat
    let dst := bits x.toNat 31 0
    let now (op : Nat) : Prop := canTake k t uDm (i op) = true ∧ hitchOk k t uDm (i op) = true ∧ (tile k t).dm = none ∧ k.pst.handshake ≠ 1 ∧
      ∀ e ∈ dmRunChks k t (j op), e.bad = false
    let near (p : Nat) : Prop := plSpace p = 1 ∨ plSpace p = 2
    let num (m : Core) (p n l : Nat) := rowNumber ((upFrom n l).map (placeLine m p))
    let kept (op p : Nat) (e : Ext) (m : Core) : Prop :=
      (∀ l, (∀ r, r < e.rows → l < e.start + r * e.pitch ∨ e.start + r * e.pitch + e.len ≤ l) → placeLine m p l = placeLine k p l) ∧
      (∀ u, plSpace p = 2 ∨ u ≠ physTile k (plIndex p % 256) → (tile m u).mem = (tile k u).mem) ∧
      (∀ u, tile m u = { tile (takeIns k t uDm (i op)) u with mem := (tile m u).mem }) ∧ (plSpace p = 1 → m.stg = k.stg) ∧
      (plSpace src = 1 ∨ op = 0x84 → m.fab = k.fab ∧ m.out = k.out) ∧
      m = { k with tiles := m.tiles, stg := m.stg, pci := { k.pci with got := m.pci.got }, fab := m.fab, out := m.out, ctr := m.ctr,
                   fresh := m.fresh }
    let moves (o : Host.Outcome State Fault Refusal) (op : Nat) : Prop :=
      ∃ m, o = .next (s.finish (tsRun (dmRetire m t (j op)) t)) ∧ kept op dst (j op).dstExt m ∧
        ∀ r l, r < (j op).dstExt.rows → l < (j op).dstExt.len →
          placeLine m dst ((j op).dstExt.start + r * (j op).dstExt.pitch + l) =
            placeLine k src ((j op).srcExt.start + r * (j op).srcExt.pitch + l)
    (now 0x81 → near src → near dst → moves (exec (.dmCopy h a b c x) s) 0x81) ∧
    (now 0x82 → near src → near dst → moves (exec (.dmStride h a b c x) s) 0x82) ∧
    (now 0x83 → near src → near dst →
      let e := (j 0x83).srcExt
      let d := (j 0x83).dstExt
      let w := esize (bits x.toNat 87 86)
      ∃ m, exec (.dmTrans h a b c x) s = .next (s.finish (tsRun (dmRetire m t (j 0x83)) t)) ∧ kept 0x83 dst d m ∧
        ∀ r n, r < e.rows → n < d.rows →
          elemAt (num m dst (d.start + n * d.pitch) d.len) w r = elemAt (num k src (e.start + r * e.pitch) e.len) w n) ∧
    (now 0x84 → near src →
      ∃ m, exec (.dmFill h a b c x) s = .next (s.finish (tsRun (dmRetire m t (j 0x84)) t)) ∧ kept 0x84 src (j 0x84).dstExt m ∧
        ∀ l, l < c.toNat → ∀ n, n < 4 → (placeLine m src (b.toNat + l)).1.extractLsb' (128 * n) 128 = x ∧
          (placeLine m src (b.toNat + l)).2 = false) ∧
    let row (op : Nat) : Instr :=
      if op = 0x81 then .dmCopy h a b c x else if op = 0x82 then .dmStride h a b c x else if op = 0x83 then .dmTrans h a b c x else .dmFill h a b c x
    let w : Reader := { tile := some t }
    let k0 (op : Nat) := takeIns k t uDm (i op)
    let ends (op : Nat) (m : Core) : Prop := exec (row op) s = .next (s.finish (tsRun m t))
    (∀ op k1 k2, op = 0x81 ∨ op = 0x82 ∨ op = 0x83 → now op → dmOpenSrc (k0 op) w t (j op) = .go k1 →
      dmOpenDest k1 w t (j op) = .go k2 →
      let r := dmRead k2 w (j op)
      let k4 := dmWaits (dmFree (dropGot r.1 w) t) t (j op)
      ends op (if plSpace dst = 4 then dmSend k4 t (j op) (dmRows (j op) r.2)
        else dmRetire (putRows k4 dst (j op).dstExt (dmRows (j op) r.2)) t (j op))) ∧
    (∀ op k1, op = 0x81 ∨ op = 0x82 ∨ op = 0x83 → now op → dmOpenSrc (k0 op) w t (j op) = .wait k1 → ends op (dmHold k1 t (j op))) ∧
    (∀ op g, op = 0x81 ∨ op = 0x82 ∨ op = 0x83 → now op → dmOpenSrc (k0 op) w t (j op) = .lost g →
      ends op (tileFail (dmFree (k0 op) t) t h.widx.toNat rWeightUnavail g)) ∧
    (∀ op k1 k2, op = 0x81 ∨ op = 0x82 ∨ op = 0x83 ∨ op = 0x84 → now op → dmOpenSrc (k0 op) w t (j op) = .go k1 →
      dmOpenDest k1 w t (j op) = .wait k2 → ends op (dmHold k2 t (j op))) ∧
    (∀ op k1 g, op = 0x81 ∨ op = 0x82 ∨ op = 0x83 ∨ op = 0x84 → now op → dmOpenSrc (k0 op) w t (j op) = .go k1 →
      dmOpenDest k1 w t (j op) = .lost g → ends op (tileFail (dmFree k1 t) t h.widx.toNat rWeightUnavail g)) ∧
    (∀ k2, now 0x84 → dmOpenDest (k0 0x84) w t (j 0x84) = .go k2 →
      let v := x.toNat * (1 + 2 ^ 128 + 2 ^ 256 + 2 ^ 384)
      ends 0x84 (dmRetire (putRows (dmWaits (dmFree k2 t) t (j 0x84)) src (j 0x84).dstExt
        [List.replicate c.toNat (BitVec.ofNat 512 v, false)]) t (j 0x84))) ∧
    (∀ op v, op = 0x81 ∨ op = 0x82 ∨ op = 0x83 ∨ op = 0x84 → (tile k t).dm = some (.move v) → runsIns k t (i op) = true → v.plain = i op →
      k.pst.handshake ≠ 1 → ends op (dmMove k t v))

/-- R164 to R170, R173 to R177: the matrix engine. LOADS fills an EMPTY register from tile memory and arms it when its last row is in place;
PASS takes the register armed first, or uses the CURRENT one, of a format that pairs; a wave goes out when the rein lets it and carries the
column sums of its row; its row is written or accumulated; DRAIN reads rows and writes their elements; a TRAILING register empties. -/
def Obligations.MatrixInstructionsComplete : Prop :=
  (∀ (h : TileHdr) (a b c : W32) (x : W128) (s : State) (e : Nat),
    let k := s.core
    let t := h.tile.toNat
    let g := eng k t e
    let f := bits a.toNat 14 12
    let load := mkTIns h 6 0x01 a b c 0
    let pass := mkTIns h 6 0x02 a b c 0
    let drain := mkTIns h 6 0x83 a b c x
    let put (i : TIns) (v : Engine) : Core := modEng (takeIns k t e i) t e (fun _ => v)
    let now (i : TIns) : Prop := engOf k t i = some e ∧ canTake k t e i = true ∧ hitchOk k t e i = true
    (now load → g.s0.st = 0 ∨ g.s1.st = 0 → g.run.all (fun r => r.ins.op != 0x01 || r.done) = true →
      let tag := decide (g.s0.st ≠ 0)
      let n := bits a.toNat 22 16 * actLines f
      let r : SReg :=
        { st := 1, fmt := f, bad := tmAnyBad k t (bits b.toNat 14 0) n,
          lines := (upFrom (bits b.toNat 14 0) n).map (tmLine k t) ++ List.replicate (64 * actLines f - n) 0 }
      exec (.mxLoads h a b c) s = .next (s.finish (tsRun (put load { g.modReg tag (fun _ => r) with run := g.run ++ [{ ins := load, reg := tag }] }) t))) ∧
    (now load → g.s0.st ≠ 0 → g.s1.st ≠ 0 → g.s0.st ≠ 4 → g.s1.st ≠ 4 → g.run.all (fun r => r.ins.op != 0x01 || r.done) = true →
      exec (.mxLoads h a b c) s =
        .next (s.finish (tsRun (tileFail (takeIns k t e load) t h.widx.toNat rWrongState (g.s0.st + 16 * g.s1.st)) t))) ∧
    (now pass → bits a.toNat 11 11 = 0 → g.run.any feeding = false → ∀ tag, currentReg g = .use tag → fmtPairs f (g.sreg tag).fmt = true →
      exec (.mxPass h a b c) s = .next (s.finish (tsRun (put pass { g with run := g.run ++ [{ ins := pass, reg := tag }] }) t))) ∧
    (now pass → bits a.toNat 11 11 = 1 → g.run.any feeding = false → ∀ tag, takeReg g = .use tag → fmtPairs f (g.sreg tag).fmt = true →
      ∃ v : Engine, exec (.mxPass h a b c) s = .next (s.finish (tsRun (put pass v) t)) ∧ (v.sreg tag) = { g.sreg tag with st := 3 } ∧
        v.sreg (!tag) = (if (g.sreg (!tag)).st = 3 then (if g.inGrid (!tag) then { g.sreg (!tag) with st := 4 } else {}) else g.sreg (!tag)) ∧
        v = { g with s0 := v.s0, s1 := v.s1, run := g.run ++ [{ ins := pass, reg := tag }] }) ∧
    (now drain → g.run.any draining = false →
      exec (.mxDrain h a b c x) s = .next (s.finish (tsRun (put drain { g with run := g.run ++ [{ ins := drain }] }) t)))) ∧
  (∀ (tl : BitVec 8) (en : BitVec 2) (s : State),
    let k := s.core
    let t := tl.toNat
    let e := en.toNat
    let g := eng k t e
    let put (v : Engine) : Core := modEng k t e (fun _ => v)
    let only (n : Nat) (m : Core) : Prop := (∀ u, u ≠ t → tile m u = tile k u) ∧ (∀ o, o ≠ e → eng m t o = eng k t o) ∧
      tile m t = { tile k t with engines := (tile m t).engines, mem := (tile m t).mem } ∧ 
      m = { k with tiles := m.tiles, ctr := m.ctr, fresh := k.fresh + n }
    (∀ r, g.run.find? (fun r => r.ins.op == 0x01 && !r.done) = some r →
      exec (.mxLoadArmed tl en) s = .next (s.finish (tsRun (retireMx (put
        { g.modReg r.reg (fun q => { q with st := 2, order := g.armed + 1 }) with
          armed := g.armed + 1, run := updFirst r (fun x => { x with done := true }) g.run })
        t e (updFirst r (fun x => { x with done := true }) g.run).length) t))) ∧
    (∀ r, (tile k t).phase = 2 → g.run.find? feeding = some r → r.emptyDue = false → bits r.ins.a.toNat 16 16 = 0 →
      drainOwes g.run r (r.ins.ostart + r.next) = false → 16 ≤ g.acc + rein k t →
      let l := actLines (bits r.ins.a.toNat 14 12)
      let n := bits r.ins.b.toNat 14 0 + r.next * l
      ∃ m, exec (.mxWaveIssue tl en) s = .next (s.finish (tsRun m t)) ∧ (eng m t e).acc = min (g.acc + rein k t) 16 - 16 ∧
        (∃ w : Wave, (eng m t e).waves = g.waves ++ [w] ∧ w.row = r.ins.ostart + r.next ∧ w.tag = r.reg ∧
          w.bad = (tmAnyBad k t n l || (g.sreg r.reg).bad) ∧
          w.sums = (waveSums (bits r.ins.a.toNat 14 12) (g.sreg r.reg) (joinLines ((upFrom n l).map (tmLine k t))) {}).1) ∧
        (tile m t).mem = (tile k t).mem ∧ only 0 m) ∧
    (∀ r, (tile k t).phase = 2 → g.run.find? feeding = some r → r.emptyDue = false → bits r.ins.a.toNat 16 16 = 0 →
      drainOwes g.run r (r.ins.ostart + r.next) = false → g.acc + rein k t < 16 →
      exec (.mxWaveIssue tl en) s = .next (s.finish (tsRun (tbump (put { g with acc := g.acc + rein k t }) t (oTileStall t (16 + e)) 1) t))) ∧
    (∀ w rest r, g.waves = w :: rest → g.run.find? (fun r => r.ins.op == 0x02 && decide (r.wrote < r.ins.mxRows)) = some r →
      let old := mget { vals := List.replicate 64 0 } g.oab w.row
      let row : OabRow := if w.acc then ⟨w.bad || old.bad, (oabAdd old.vals w.sums {}).1⟩ else ⟨w.bad, w.sums⟩
      ∃ m, exec (.oabRowWrite tl en) s = .next (s.finish (tsRun (retireMx m t e g.run.length) t)) ∧
        eng m t e = { g with waves := rest, oab := mput g.oab w.row row,
                             run := updFirst r (fun x => { x with wrote := x.wrote + 1, done := decide (x.ins.mxRows ≤ x.wrote + 1) }) g.run } ∧
        (tile m t).mem = (tile k t).mem ∧ only 0 m) ∧
    (∀ r, g.run.find? draining = some r → passOwes g.run r (r.ins.ostart + r.next) = false →
      let f := bits r.ins.a.toNat 14 12
      let o := r.ins.ostart + r.next
      let row := mget { vals := List.replicate 64 0 } g.oab o
      let n := bits r.ins.b.toNat 14 0 + r.next * bits r.ins.x.toNat 63 48
      ∃ m, exec (.drainRowWrite tl en) s = .next (s.finish (tsRun (retireMx m t e g.run.length) t)) ∧
        (∀ y, y < 64 → y < row.vals.length →
          tmElem m t n (fmtBits f) y = (drainElem k t r.ins r.next y (row.vals.getD y 0) {}).1 % 2 ^ fmtBits f) ∧
        (∀ l, l < n ∨ n + outLines f ≤ l → tmLine m t l = tmLine k t l ∧ tmBad m t l = tmBad k t l) ∧
        eng m t e = { g with oab := if bits r.ins.a.toNat 11 11 = 1 then mdel g.oab o else g.oab,
                             run := updFirst r (fun x => { x with next := x.next + 1, done := decide (x.ins.mxRows ≤ x.next + 1) }) g.run } ∧
        only 1 m) ∧
    (g.s0.st = 4 →
      exec (.mxRegisterEmpty tl en) s =
        .next (s.finish (tsRun (put { g with s0 := {}, waves := g.waves.map (fun w => if w.tag == false then { w with left := true } else w) }) t))) ∧
    (g.s0.st ≠ 4 → g.s1.st ≠ 4 → exec (.mxRegisterEmpty tl en) s = .next (s.finish (tsRun k t))))

/-- R198, R200, R207 to R225, R240: the vector engine. Each VX instruction runs over its rows, stores into its destination rows and nowhere
else, and retires. Of one row: ADD, MUL, FMA, MAX and MIN combine the elements of A, B and D in the lane format, CVT scales and converts, FUNC
applies its function to A × B; REDUCE stores one FP32 value; MAXABS the largest magnitudes; SOFTMAX zeros past VALID; SAMPLE 8 bytes or a
candidate block; NORM and WHISK a row. A VX.WINDOW starts where the map's chunk and format are its own and its weight rows lie in tile memory
clear of its destination, and fails where one of these does not hold (R211, R213, R235). -/
def Obligations.VectorInstructionsComplete : Prop :=
  ∀ (h : TileHdr) (a b c : W32) (x : W128) (s : State),
    let k := s.core
    let t := h.tile.toNat
    let i (op : Nat) := mkTIns h 7 op a b c x
    let now (op : Nat) : Prop := canTake k t uVe (i op) = true ∧ hitchOk k t uVe (i op) = true ∧ (tile k t).win = none
    let stores (op : Nat) (y : Nat) : Prop := ∃ r, r < (vxD (i op)).rows ∧
      64 * dRow (i op) r ≤ y ∧ y < 64 * (dRow (i op) r + (vxD (i op)).len)
    let runs (o : Host.Outcome State Fault Refusal) (op : Nat) (p : Core → Prop) : Prop :=
      now op → ∃ m, o = .next (s.finish (tsRun (retireIns m t (i op)) t)) ∧ p m ∧
        (∀ y, ¬ stores op y → (tile m t).mem.byte 0 y = (tile k t).mem.byte 0 y) ∧
        (∀ u, u ≠ t → tile m u = tile k u) ∧ tile m t = { tile (takeIns k t uVe (i op)) t with mem := (tile m t).mem } ∧
        m = { k with tiles := m.tiles, ctr := m.ctr }
    let av (op n : Nat) : Machine.Num := (((aRow k t (i op) 0).map Prod.fst).getD n .zero)
    let bv (op n : Nat) : Machine.Num := (((bRow k t (i op) 0).map Prod.fst).getD n .zero)
    let dv (n : Nat) : Machine.Num := (rowVals k t (i 0x83).vDf (dRow (i 0x83) 0) (i 0x83).vLen).getD n .zero
    let cell (m : Core) (op n : Nat) := tmElem m t (dRow (i op) 0) (fmtBits (i op).vDf) n
    let each (op : Nat) (f : Nat → Nat) (m : Core) : Prop :=
      (i op).vRows = 1 → ∀ n, n < (i op).vLen → cell m op n = f n % 2 ^ fmtBits (i op).vDf
    let lane (op : Nat) := laneFmt (i op)
    let into (op : Nat) (v : Machine.Num) : Nat := (toD (i op).vDf v {}).1
    let xs (op : Nat) := (aRow k t (i op) 0).map Prod.fst
    runs (exec (.vxAdd h a b c x) s) 0x81 (each 0x81 (fun n => into 0x81 (addR (lane 0x81) (av 0x81 n) (bv 0x81 n) {}).1)) ∧
    runs (exec (.vxMul h a b c x) s) 0x82 (each 0x82 (fun n => into 0x82 (mulR (lane 0x82) (av 0x82 n) (bv 0x82 n) {}).1)) ∧
    runs (exec (.vxFma h a b c x) s) 0x83 (each 0x83 (fun n => into 0x83 (fmaR (lane 0x83) (av 0x83 n) (bv 0x83 n) (dv n) {}).1)) ∧
    runs (exec (.vxMax h a b c x) s) 0x84 (each 0x84 (fun n => into 0x84 (maxN (av 0x84 n) (bv 0x84 n)))) ∧
    runs (exec (.vxMin h a b c x) s) 0x85 (each 0x85 (fun n => into 0x85 (minN (av 0x85 n) (bv 0x85 n)))) ∧
    runs (exec (.vxCvt h a b c x) s) 0x86 (each 0x86 (fun n =>
      (Fmt.ofCode (i 0x86).vDf).encode (convert (Fmt.ofCode (i 0x86).vDf) (mulExact (av 0x86 n) (bv 0x86 n) {}).1 {}).1)) ∧
    runs (exec (.vxFunc h a b c x) s) 0x87 (each 0x87 (fun n =>
      into 0x87 (vxFuncN ((i 0x87).vPar 3 0) (mulR .fp32 (av 0x87 n) (bv 0x87 n) {}).1 {}).1)) ∧
    runs (exec (.vxReduce h a b c x) s) 0x88 (fun m => (i 0x88).vRows = 1 →
      let v := tmElem m t (bits b.toNat 30 16) 32 0
      ((i 0x88).vPar 1 0 = 0 → v = (w32 (rowSum (xs 0x88) {}).1).toNat) ∧
      ((i 0x88).vPar 1 0 = 1 → v = (w32 ((xs 0x88).tail.foldl maxN ((xs 0x88).headD .zero))).toNat) ∧
      ((i 0x88).vPar 1 0 = 2 → v = (w32 ((xs 0x88).tail.foldl minN ((xs 0x88).headD .zero))).toNat) ∧
      ((i 0x88).vPar 1 0 = 3 → v = (w32 (rowSum ((xs 0x88).map (fun y => (mulR .fp32 y y {}).1)) {}).1).toNat)) ∧
    runs (exec (.vxMaxabs h a b c x) s) 0x89 (fun m => (i 0x89).vRows = 1 → (i 0x89).vPar 0 0 = 0 → ∀ n, n < (i 0x89).vLen →
      tmElem m t (bits b.toNat 30 16) 32 n = (w32 (maxN .zero (av 0x89 n).abs)).toNat) ∧
    runs (exec (.vxNorm h a b c x) s) 0x8A (fun _ => True) ∧
    runs (exec (.vxSoftmax h a b c x) s) 0x8B (fun m => (i 0x8B).vRows = 1 → (i 0x8B).vPar 19 0 ≠ 0 →
      ((xs 0x8B).take ((i 0x8B).vPar 19 0)).all (fun y => (mulR .fp32 y (i 0x8B).imm {}).1.isFin) = true →
      ∀ n, (i 0x8B).vPar 19 0 ≤ n → n < (i 0x8B).vLen → cell m 0x8B n = 0) ∧
    runs (exec (.vxSample h a b c x) s) 0x8C (fun _ => True) ∧
    runs (exec (.vxWhisk h a b c x) s) 0x8D (fun _ => True) ∧
    (now 0x8E → ∀ q, (tile k t).cf = some q →
      let k1 := takeIns k t uVe (i 0x8E)
      let wt := windowWeights (i 0x8E) q
      let past : Prop := (i 0x8E).vPar 1 0 = 2 ∧ tmLines < wt.stop
      let fails (arg : Nat) : Prop :=
        exec (.vxWindow h a b c x) s = .next (s.finish (tsRun (tileFail k1 t h.widx.toNat rOverrun arg) t))
      ((i 0x8E).vLen = chunkK q.cvFmt → ¬ past → wt.meets (vxD (i 0x8E)) = false → (i 0x8E).vAf = q.cvFmt →
        exec (.vxWindow h a b c x) s = .next (s.finish (tsRun (veRun
          { k1 with tiles := mput k1.tiles t { tile k1 t with win := some { ins := i 0x8E } } } t) t))) ∧
      ((i 0x8E).vLen ≠ chunkK q.cvFmt → fails 12) ∧ ((i 0x8E).vLen = chunkK q.cvFmt → past → fails 32) ∧
      ((i 0x8E).vLen = chunkK q.cvFmt → ¬ past → wt.meets (vxD (i 0x8E)) = true → fails 48) ∧
      ((i 0x8E).vLen = chunkK q.cvFmt → ¬ past → wt.meets (vxD (i 0x8E)) = false → (i 0x8E).vAf ≠ q.cvFmt → fails 79))

/-- R230, R233, R234: CV.SETUP replaces the window register and retires; CV.FEED, where its checks against the map hold, starts and places the
windows its streams have room for; without a map it fails with 0x0B02. R250 to R262, R276: AT.RUN and AT.KVPUT whose entries all pass work
through them, count what they met and the cycles they waited and retire. AT.RUN stores nothing outside tile memory and changes no key or value;
AT.KVPUT stores nothing in tile or staging memory. One that meets an entry it may not run fails as the entry says; one that meets a line under
recovery or under test waits, and goes on when its row comes again (R327). AT.MERGE writes one row for each row of its sets, and the maximum of a state row is the largest of theirs. -/
def Obligations.ConvolutionAndAttentionComplete : Prop :=
  (∀ (h : TileHdr) (a b c : W32) (x : W128) (s : State),
    let k := s.core
    let t := h.tile.toNat
    let setup := mkTIns h 9 0x81 a b c x
    let feed := mkTIns h 9 0x02 a b c 0
    let now (i : TIns) : Prop := canTake k t uCf i = true ∧ hitchOk k t uCf i = true ∧ (tile k t).feed = none
    let k1 (i : TIns) := takeIns k t uCf i
    let put (i : TIns) (v : Tile) : Core := { k1 i with tiles := mput (k1 i).tiles t v }
    (now setup → exec (.cvSetup h a b c x) s =
      .next (s.finish (tsRun (retireIns (put setup { tile (k1 setup) t with cf := some setup }) t setup) t))) ∧
    (now feed → ∀ q, (tile k t).cf = some q → feedFault k t q feed = none →
      exec (.cvFeed h a b c) s = .next (s.finish (tsRun (veRun (put feed { tile (k1 feed) t with feed := some { ins := feed } }) t) t))) ∧
    (now feed → ∀ q e, (tile k t).cf = some q → feedFault k t q feed = some e →
      exec (.cvFeed h a b c) s = .next (s.finish (tsRun (tileFail (k1 feed) t h.widx.toNat rOverrun e) t))) ∧
    (now feed → (tile k t).cf = none →
      exec (.cvFeed h a b c) s = .next (s.finish (tsRun (tileFail (k1 feed) t h.widx.toNat rWrongState 0) t)))) ∧
  (∀ (h : TileHdr) (a b c : W32) (x : W128) (s : State),
    let k := s.core
    let t := h.tile.toNat
    let run := mkTIns h 8 0x81 a b c x
    let put := mkTIns h 8 0x82 a b c x
    let merge := mkTIns h 8 0x83 a b c x
    let now (i : TIns) : Prop := canTake k t uAp i = true ∧ hitchOk k t uAp i = true ∧ (tile k t).ap = none
    let table : Prop :=
      ∀ e ∈ placeChks k t 128 160 (bits x.toNat 31 0) ⟨bits x.toNat 63 32, 0, 1, cdiv (bits c.toNat 13 0) 2⟩, e.bad = false
    let k1 (i : TIns) := takeIns k t uAp i
    let j (i : TIns) := heldIns k t uAp i
    let rows (i : TIns) : Core → Nat → Exc → Nat → AtRes := if i.op = 0x81 then runEntry t (j i) else putEntryRows t (j i)
    let row (i : TIns) : Instr := if i.op = 0x81 then .atRun h a b c x else .atKvput h a b c x
    let works (i : TIns) : AtRes := atEntries (rows i) (k1 i) 0 {} 0 (bits c.toNat 13 0)
    let ends (i : TIns) (m : Core) : Prop := exec (row i) s = .next (s.finish (tsRun m t))
    (∀ i k2 r g, i = run ∨ i = put → now i → table → works i = .fail k2 r g → ends i (tileFail (atWaits k2 t) t h.widx.toNat r g)) ∧
    (∀ i, i = run ∨ i = put → now i → table → works i = .wait → ends i (atHold (k1 i) t (j i))) ∧
    (∀ i v, i = run ∨ i = put → (tile k t).ap = some v → runsIns k t i = true → v.ins.plain = i →
      ends i (atGo k t v.ins (fun y => if i.op = 0x81 then runEntry t y else putEntryRows t y))) ∧
    (now run → table → ∀ k2 n e, works run = .go k2 n e →
      ends run (retireIns (countExc (atWaits k2 t) t e) t run) ∧
      k2.dram = k.dram ∧ k2.stg = k.stg ∧ k2.objs = k.objs ∧ k2.pools = k.pools ∧ (∀ u, u ≠ t → (tile k2 u).mem = (tile k u).mem) ∧
      (∀ q, (seq k2 q).pages = (seq k q).pages)) ∧
    (now put → table → ∀ k2 n e, works put = .go k2 n e →
      ends put (retireIns (countExc (atWaits k2 t) t e) t put) ∧
      k2.stg = k.stg ∧ (∀ u, (tile k2 u).mem = (tile k u).mem) ∧ (∀ q, (seq k2 q).pages = (seq k q).pages)) ∧
    (now merge →
      let dh := 64 * 2 ^ bits a.toNat 23 22
      let at0 := bits b.toNat 14 0
      let ss := (upFrom 0 (bits c.toNat 22 16)).map (fun j => readState k t (bits a.toNat 14 0 + j * bits x.toNat 15 0) dh)
      ∃ m, exec (.atMerge h a b c x) s = .next (s.finish (tsRun (retireIns m t merge) t)) ∧
        (∀ l, l < at0 ∨ at0 + bits c.toNat 11 0 * atPitch merge dh ≤ l → tmLine m t l = tmLine k t l ∧ tmBad m t l = tmBad k t l) ∧
        (bits c.toNat 11 0 = 1 → bits a.toNat 21 21 = 0 →
          tmElem m t (at0 + dh / 16) 32 0 = (w32 (ss.foldl (fun v q => maxN v q.m) (.inf true))).toNat) ∧
        (∀ u, u ≠ t → tile m u = tile k u) ∧ m = { k with tiles := m.tiles, ctr := m.ctr }))

/-- R355 to R379, R503, R522: the Stack Controllers. A refresh that falls due is owed, and paid first when nothing presses; a request that starts
opens its rows and its line is read and delivered with its codewords: with no bit in error nothing else changes, with one or two the slice counts
a corrected line, with three a tenant line is poisoned and an error recorded, a system line halts the device; a write of both lines of a check
burst reads nothing. A request for a channel that trains waits in its slot, and the wait counts. Migration, retraining and the scrub go on frame
by frame. -/
def Obligations.StacksServe : Prop :=
  ∀ (s : State) (st : BitVec 3) (pc : BitVec 5),
    let k := s.core
    let n := st.toNat
    let q := stk k n
    let c := pc.toNat
    let p := q.pc c
    let put (v : Stk) : Core := { k with stks := mput k.stks n v }
    let idle : Prop := stackServes false n k = true ∧ q.slots = [] ∧ q.input = []
    let alone (r : DramReq) (y : DramCycle) : Prop := idle ∧ q.training.contains (c / 2) = false ∧ q.frozen = false ∧
      p.burst = false ∧ p.owed = 0 ∧ p.nbr = [] ∧ (placeOf k n (64 * r.line)).pc = c ∧ (placeOf k n (64 * r.line)).bankNo ∉ y.busy
    let inside (r : DramReq) (y : DramCycle) : Prop := alone r y ∧ 64 * r.line < 14436 * 2 ^ 21 ∧ y.err.parity = false
    let reads (r : DramReq) : Prop := r.write = false ∨ r.both = false
    let ad (r : DramReq) := if r.write then (if r.line % 2 = 0 then 64 * r.line + 64 else 64 * r.line - 64) else 64 * r.line
    let line (r : DramReq) := objSpaceAddr k n (ad r) / 64
    let others (t : Core) : Prop := ∀ m, m ≠ n → stk t m = stk k m
    let answers (r : DramReq) (y : DramCycle) (f : Core → Prop) : Prop := ∃ t, exec (.dramRequest st [r] pc y) s = .next (s.finish t) ∧ f t
    (stacksRun k = true → exec (.refreshDue st pc) s =
      .next { s with core := put { q with pcs := mput q.pcs c { p with owed := p.owed + 1 } } }) ∧
    (idle → q.training.contains (c / 2) = false → p.burst = false → 0 < p.owed → p.owed ≤ min 8 (rfld k (oRefPostpone n) 3 0) → ∀ y,
      exec (.dramRequest st [] pc y) s = .next (s.finish (put { q with pcs := mput q.pcs c { p with owed := p.owed - 1 } }))) ∧
    (∀ r y, inside r y → y.err.bits = 0 ∨ (r.write = true ∧ r.both = true) →
      answers r y (fun t => (stk t n).ce = q.ce ∧ (stk t n).spares = q.spares ∧ (stk t n).slots = [] ∧
        (∃ x, ((stk t n).pc c).last = some x ∧ x.req = r ∧ (r.write = false → systemLine k (64 * r.line) = false →
          x.out = lineCode (k.dram.line 0 (line r)) (k.dram.lineBad (line r)))) ∧
        others t ∧ t = { k with stks := t.stks, fresh := t.fresh })) ∧
    (∀ r y, inside r y → reads r → y.err.bits = 1 ∨ y.err.bits = 2 →
      let sl := sliceOf k (ad r)
      answers r y (fun t => mget 0 (stk t n).ce sl = mget 0 q.ce sl + 1 ∧ (∀ d, d ≠ sl → mget 0 (stk t n).ce d = mget 0 q.ce d) ∧
        t.dram = k.dram ∧ t.objs = k.objs ∧ t.glb = k.glb ∧ others t)) ∧
    (∀ r y, inside r y → reads r → y.err.bits = 3 → systemLine k (ad r) = false →
      answers r y (fun t => t.dram.lineBad (line r) = true ∧ (∀ l, l ≠ line r → t.dram.lineBad l = k.dram.lineBad l) ∧
        (∀ a, t.dram.byte 0 a = k.dram.byte 0 a) ∧ k.err.serial < t.err.serial ∧ (stk t n).errAddr = ad r + 2 ^ 36)) ∧
    (∀ r y, inside r y → reads r → y.err.bits = 3 → systemLine k (ad r) = true → k.glb.st ≠ .halted →
      answers r y (fun t => t.glb.st = .halted ∧ (stk t n).frozen = true)) ∧
    (∀ r y, alone r y → 14436 * 2 ^ 21 ≤ 64 * r.line → 64 * r.line < 2 ^ 35 →
      answers r y (fun t => (stk t n).badAddr = true ∧ t.dram = k.dram ∧ ∃ x v, ((stk t n).pc c).last = some x ∧
        x.out = if r.write then [] else lineCode v true)) ∧
    (∀ r y, idle → q.training.contains (c / 2) = true → (placeOf k n (64 * r.line)).pc = c →
      ∃ m, m = { k with stks := m.stks } ∧ stk m n = { q with slots := [r] } ∧ others m ∧
        exec (.dramRequest st [r] pc y) s = .next (s.finish (bump m (oMem n + 0x120) y.dclks))) ∧
    (memoryOn k = true → k.pst.handshake ≠ 1 → ∀ v : BitVec 8,
      ∃ t, exec (.stackTempRead st v) s = .next { s with core := t } ∧ (stk t n).temp = v.toNat ∧ others t ∧
        t = { k with stks := t.stks, maint := t.maint } ∧
        (stacksRun k = true → ∀ d u, d < 16 → mget? q.trainTemp d = some u → rfld k (oRetrain n) 39 32 ≠ 0 →
          u + rfld k (oRetrain n) 39 32 ≤ v.toNat ∨ v.toNat + rfld k (oRetrain n) 39 32 ≤ u →
          d ∈ (stk t n).training ∨ d ∈ (stk t n).trainWait)) ∧
    (∀ (fr : FrameRead) f, fr.stack = st → memoryOn k = true → q.migrating = some f → hwMay k 4 n = true → q.frozen = false →
      let a := frameAddr k (f % 32) (f / 32 * sliceFrames + q.moved)
      (q.moved < sliceFrames → (∀ x ∈ fr.errs.take 4, x ≤ 2) →
        ∃ t, exec (.migrationFrame fr) s = .next (s.finish t) ∧ (stk t n).moved = q.moved + 1 ∧ (stk t n).migrating = some f ∧
          t.dram = k.dram ∧ t.objs = k.objs ∧ others t) ∧
      (q.moved < sliceFrames → fr.errs = [3] → systemLine k a = false →
        ∃ t, exec (.migrationFrame fr) s = .next (s.finish t) ∧ (stk t n).moved = q.moved + 1 ∧
          t.dram.lineBad (objSpaceAddr k n a / 64) = true) ∧
      (sliceFrames ≤ q.moved → exec (.migrationFrame fr) s = .next (s.finish k))) ∧
    (memoryOn k = true → ∀ f, q.migrating = some f → hwMay k 4 n = true → q.moved = sliceFrames →
      q.waiting = [] → q.trainWait = [] → q.training = [] →
      exec (.migrationComplete st) s = .next (s.finish (hwEnd (hwEnd (put { q with migrating := none, moved := 0 }) 4 n) 5 n))) ∧
    (memoryOn k = true → ∀ f v r, q.migrating = some f → hwMay k 4 n = true → q.moved = sliceFrames → q.waiting = v :: r →
      exec (.migrationComplete st) s = .next (s.finish (startMigration
        (modStk (hwEnd (put { q with migrating := none, moved := 0 }) 4 n) n (fun q => { q with waiting := r })) n v))) ∧
    (memoryOn k = true → q.moved < sliceFrames → exec (.migrationComplete st) s = .next (s.finish k)) ∧
    (∀ d : BitVec 4, stacksRun k = true → k.pst.handshake ≠ 1 → rfld k (oRetrain n) 31 0 ≠ 0 ∨ tempMoved k n d.toNat = true →
      (d.toNat ∉ q.training → d.toNat ∉ q.trainWait → q.training ≠ [] →
        exec (.retrainStart st d) s = .next (s.finish (put { q with trainWait := q.trainWait ++ [d.toNat] }))) ∧
      (q.training = [] → q.trainWait = [] → q.migrating = none → k.maint.slots = [] →
        ∃ t, exec (.retrainStart st d) s = .next (s.finish t) ∧ (stk t n).training = [d.toNat] ∧ (stk t n).trainWait = [] ∧
          actRuns t 5 n = true)) ∧
    (memoryOn k = true → ∀ d : BitVec 4, q.training = [d.toNat] → q.trainWait = [] →
      let t := put { q with training := [], trainTemp := mput q.trainTemp d.toNat q.temp }
      exec (.retrainDone st d true) s = .next (s.finish (hwEnd t 5 n)) ∧
      exec (.retrainDone st d false) s = .next (s.finish (hwEnd
        (errRecord t { reason := rRetrainFailed, cls := 1, source := 2, inst := n, opOnly := true, arg := n + d.toNat * 256 }) 5 n))) ∧
    (alive k = true → ∀ m a, slotOfAct k 2 n = some (m, a) → mget? k.maint.slots m = some a → a.st = 2 → q.frozen = false →
      mget 0 q.scrubbed c + 1 < pcFrames → ∀ e : ReadErrors, e.parity = false → e.bits ≤ 2 →
      ∃ t b, exec (.dramScrubFrame st pc e) s = .next (s.finish t) ∧ mget 0 (stk t n).scrubbed c = mget 0 q.scrubbed c + 1 ∧
        (∀ d, d ≠ c → mget 0 (stk t n).scrubbed d = mget 0 q.scrubbed d) ∧ others t ∧ t.dram = k.dram ∧
        mget? t.maint.slots m = some b ∧ b.done = a.done + 1 ∧ b.bad = a.bad ∧ b.good = a.good + (if e.bits = 0 then 0 else 1) ∧
        (e.bits = 0 → t = { k with stks := t.stks, maint := { k.maint with slots := mput k.maint.slots m b }, fresh := t.fresh } ∧
          b = { a with done := a.done + 1 }))

/-- R407, R408, R412, R426, R430, R437: ports and other devices. A port trains to the width of its good lanes, tries again while it is enabled,
and goes down in silence; frames the far end has not taken are sent again. A frame for another node goes on with one hop less, or is dropped
and counted. PING is answered, PONG confirms its node, a DEVICE_DOWN loses its node once; a node that stays silent is asked, then lost. -/
def Obligations.PortsAndNodes : Prop :=
  ∀ (s : State) (pt : BitVec 4),
    let k := s.core
    let p := pt.toNat
    let q := fport k p
    let setPort (v : FPort) : Core := { k with fab := { k.fab with ports := mput k.fab.ports p v } }
    let setNode (k : Core) (n : Nat) (v : Node) : Core := { k with fab := { k.fab with nodes := mput k.fab.nodes n v } }
    let takes (f : Frame) : Prop := portLive k p = true ∧ f.lines.length ≤ 16 ∧ f.body.length ≤ 28 ∧ k.glb.st ≠ .graze
    let mine (f : Frame) : Prop := takes f ∧ f.dest ≠ 0xFFF ∧ f.dest.toNat = ownNode k
    (∀ g peer, portsServe k = true → q.link = 1 → laneCount g = 8 → exec (.portTrainingDone pt g peer) s =
      .next { s with core := setPort { q with link := 2, width := 8, good := g.toNat, peer := peer.toNat } }) ∧
    (∀ g peer, portsServe k = true → q.link = 1 → 2 ≤ laneCount g → laneCount g < 8 →
      let w := if 4 ≤ laneCount g then 4 else 2
      exec (.portTrainingDone pt g peer) s =
        .next { s with core := errRecord (setPort { q with link := 2, width := w, good := g.toNat, peer := peer.toNat })
                                 { reason := rLinkDegraded, cls := 3, source := 4, inst := p, arg := p + w * 256 } }) ∧
    (∀ g peer, portsServe k = true → q.link = 1 → laneCount g < 2 → exec (.portTrainingDone pt g peer) s =
      .next { s with core := setPort { q with link := 0, width := 0, good := g.toNat, peer := 0 } }) ∧
    (portsServe k = true → q.link = 0 → rfld k (oFabPortCtl p) 0 0 = 1 → portTested k p = false →
      exec (.portRetryTimer pt) s = .next { s with core := setPort { q with link := 1 } }) ∧
    (portsServe k = true → q.link = 2 → q.sent = [] → isTwinPort k p = false →
      (∀ e ∈ k.fab.nodes, ((node k e.1).mask.testBit p = false ∨ (node k e.1).lost = true)) →
      exec (.linkSilence pt) s = .next (s.finish (setPort { q with link := 0, width := 0, sent := [], resends := 0 }))) ∧
    (∀ f, portsServe k = true → q.link = 2 → q.sent = [f] → q.resends < 15 → f.type.toNat ≠ tMirror →
      exec (.linkResend pt) s = .next (s.finish (emit (bump { setPort { q with resends := q.resends + 1 } with fresh := k.fresh + 1 }
        (oFabLinkRetry p) 1) (.frame p f)))) ∧
    (∀ f, takes f → knownType f.type.toNat = true → f.dest ≠ 0xFFF → f.dest.toNat ≠ ownNode k → f.hops ≠ 0 →
      exec (.frameForward pt f) s = .next (s.finish (routeFrame k { f with hops := f.hops - 1 }))) ∧
    (∀ f, takes f → (f.dest ≠ 0xFFF ∧ f.dest.toNat ≠ ownNode k ∧ f.hops = 0) ∨ knownType f.type.toNat = false →
      exec (.frameForward pt f) s = .next (s.finish (bump k oFabDrop 1))) ∧
    (∀ f, mine f → f.type.toNat = tPing → exec (.fabPing pt f) s =
      let n := f.src.toNat
      let inc : W32 := BitVec.ofNat 32 (ofLE ((f.body.drop 4).take 4))
      let k1 := setNode k n { node k n with lost := (node k n).lost && (node k n).inc == inc, inc := inc }
      .next (s.finish (routeFrame k1 (mkFrame k1 n tPong 0 f.tag 0 0 (leBytes 4 0 ++ leBytes 4 k.glb.incarnation.toNat) [])))) ∧
    (∀ f, mine f → f.type.toNat = tPong → exec (.fabPong pt f) s =
      let n := f.src.toNat
      let inc : W32 := BitVec.ofNat 32 (ofLE ((f.body.drop 4).take 4))
      .next (s.finish (setNode k n { node k n with lost := (node k n).lost && (node k n).inc == inc, inc := inc, pinged := false }))) ∧
    (∀ f, mine f → f.type.toNat = tDown →
      let n := ofLE (f.body.take 2) % 4096
      let inc : W32 := BitVec.ofNat 32 (ofLE ((f.body.drop 4).take 4))
      (n = ownNode k ∨ inc ∈ (node k n).downs → exec (.fabDeviceDown pt f) s = .next (s.finish k)) ∧
      (n ≠ ownNode k → inc ∉ (node k n).downs → (node k n).lost = true → f.hops = 0 →
        exec (.fabDeviceDown pt f) s =
          .next (s.finish (bump (setNode k n { node k n with downs := inc :: (node k n).downs, inc := inc }) oFabDrop 1))) ∧
      (n ≠ ownNode k → inc ∉ (node k n).downs → f.hops = 0 → twinEn k = false → k.fab.sessions = [] → (∀ e ∈ k.tiles, e.2.dm = none) →
        ∃ t, exec (.fabDeviceDown pt f) s = .next (s.finish t) ∧ (node t n).lost = true ∧ (∀ m, m ≠ n → node t m = node k m) ∧
          (∀ c, (chan t c).st = if (chan k c).st = 1 ∧ (chan k c).peer = n ∧ (node k n).lost = false then 3 else (chan k c).st))) ∧
    (∀ f, mine f → f.type.toNat = tGrant →
      exec (.fabGrant pt f) s = .next (s.finish (takeGrant k (f.body.take 24) (some f.src.toNat)))) ∧
    (∀ f, mine f → f.type.toNat = tGrant → grantOk (f.body.take 24) = true → pathOk k (some f.src.toNat) = true →
      newer k.pwr (grantOf (f.body.take 24)).seq = true →
      (takeGrant k (f.body.take 24) (some f.src.toNat)).pwr.grant = some (grantOf (f.body.take 24)) ∧
      (takeGrant k (f.body.take 24) (some f.src.toNat)).pwr.fabSrc = some f.src.toNat) ∧
    (∀ n : BitVec 12, portsServe k = true → (node k n.toNat).lost = false → (node k n.toNat).pinged = false → awaits k n.toNat = true →
      exec (.e2eTimeout n) s =
        let k1 := setNode k n.toNat { node k n.toNat with pinged := true }
        .next (s.finish (routeFrame k1 (mkFrame k1 n.toNat tPing 0 0 0 0 (leBytes 4 0 ++ leBytes 4 k.glb.incarnation.toNat) [])))) ∧
    (∀ n : BitVec 12, portsServe k = true → (node k n.toNat).lost = false → (node k n.toNat).pinged = true → twinEn k = false →
      k.fab.sessions = [] → (∀ e ∈ k.tiles, e.2.dm = none) →
      ∃ t, exec (.e2eTimeout n) s = .next (s.finish t) ∧ (node t n.toNat).lost = true ∧ k.err.serial < t.err.serial)

/-- R414 to R423, R425, R429: channels, sessions and mirroring. A DATA frame outside its window is refused with a NACK; one for a staging slot
fills its lines with their poison, and the END frame answers ACK on a port of the channel's partition; ACK retires the instruction that sent, NACK fails it, CREDIT returns a slot. A shard frame is
written into the copy; JOIN, END, BITMAP, DONE and the timeout move the session on. A MIRROR frame is kept until its turn, then applied and
acknowledged; a MIRROR_ACK releases what it covers. -/
def Obligations.ChannelsSessionsAndMirroring : Prop :=
  ∀ (s : State) (pt : BitVec 4) (f : Frame),
    let k := s.core
    let p := pt.toNat
    let c := f.chan.toNat
    let src := f.src.toNat
    let ch := chan k c
    let sub := bits f.flags.toNat 15 8
    let here (ty : Nat) : Prop := portLive k p = true ∧ f.lines.length ≤ 16 ∧ f.body.length ≤ 28 ∧ k.glb.st ≠ .graze ∧ f.dest ≠ 0xFFF ∧
      f.dest.toNat = ownNode k ∧ f.type.toNat = ty ∧ strayFrame k p f = false
    let setChan (k : Core) (c : Nat) (v : Chan) : Core := { k with fab := { k.fab with chans := mput k.fab.chans c v } }
    let twin (w : Twin) : Core := { k with fab := { k.fab with twin := w } }
    let w := k.fab.twin
    let answer (k : Core) (ty : Nat) (b : List Byte) : Core := routeChan k c (mkFrame k src ty c f.tag 0 0 b [])
    (here tData → chanTakes ch f = false →
      exec (.fabData pt f) s = .next (s.finish (answer k tNack (leBytes 2 rOverrun)))) ∧
    (here tData → chanTakes ch f = true → ch.stg = true → f.flags.getLsbD 0 = false →
      let at0 := stgLine ch.target (ch.base + ch.slot * ch.lines + f.offset.toNat)
      ∃ t, exec (.fabData pt f) s = .next (s.finish t) ∧ chan t c = { ch with part := ch.part + f.lines.length } ∧
        (∀ n, n < f.lines.length → t.stg.line 0 (at0 + n) = f.lines.getD n 0 ∧ t.stg.lineBad (at0 + n) = frameBad f n) ∧
        (∀ l, l < at0 ∨ at0 + f.lines.length ≤ l → t.stg.line 0 l = k.stg.line 0 l) ∧ (∀ m, m ≠ c → chan t m = chan k m) ∧
        t = { k with stg := t.stg, fab := t.fab }) ∧
    (here tData → chanTakes ch f = true → f.flags.getLsbD 0 = true →
      let part := ch.part + f.lines.length
      let k2 := setChan (putData k ch f) c { chan (putData k ch f) c with
        part := 0, trans := ch.trans + 1, slot := if ch.stg then (ch.slot + 1) % max 1 ch.slots else ch.slot,
        filled := if ch.stg then mput ch.filled ch.slot (part, 0) else ch.filled }
      exec (.fabData pt f) s = .next (s.finish (answer (signalArrival k2 ch) tAck []))) ∧
    (∀ o t i, here tAck → outChan k src c = some o → peerWaiter k o f.tag.toNat = some (t, i) →
      exec (.fabAck pt f) s =
        .next (s.finish (tsRun (dmRetire { k with tiles := mput k.tiles t { tile k t with dm := none } } t i) t))) ∧
    (∀ o t i, here tNack → ofLE (f.body.take 2) ≠ rShardDigest → outChan k src c = some o → peerWaiter k o f.tag.toNat = some (t, i) →
      exec (.fabNack pt f) s =
        .next (s.finish (tileFail { k with tiles := mput k.tiles t { tile k t with dm := none } } t i.widx rOverrun 32))) ∧
    (∀ v, here tNack → ofLE (f.body.take 2) = rShardDigest → session k c = some v → v.reader = true →
      exec (.fabNack pt f) s = .next (s.finish (askAgain k c v src [f.tag.toNat]))) ∧
    (∀ o, here tCredit → outChan k src c = some o →
      exec (.fabCredit pt f) s = .next (s.finish (setChan k o { chan k o with
        credits := if (chan k o).stg then min (chan k o).slots ((chan k o).credits + 1) else (chan k o).credits }))) ∧
    (∀ v h, here tBcast → session k c = some v → v.reader = false → v.peer = src → f.tag.toNat ∉ v.verified →
      v.shards[f.tag.toNat]? = some h → f.offset.toNat + f.lines.length ≤ h.lines → f.flags.getLsbD 0 = false →
      exec (.fabBcast pt f) s = .next (s.finish (putShard k h f))) ∧
    (∀ v h, here tBcast → session k c = some v → v.reader = false → v.peer = src → f.tag.toNat ∉ v.verified →
      v.shards[f.tag.toNat]? = some h → f.offset.toNat + f.lines.length ≤ h.lines → f.flags.getLsbD 0 = true →
      shardDigest (putShard k h f) h = h.digest → ∀ m, m < v.shards.length → m ≠ f.tag.toNat → m ∉ v.verified →
      exec (.fabBcast pt f) s = .next (s.finish (putSession (putShard k h f) c
        { v with resent := v.resent + 1, verified := sput v.verified f.tag.toNat }))) ∧
    (portLive k p = true → f.lines.length ≤ 16 → f.body.length ≤ 28 → k.glb.st ≠ .graze → f.dest = 0xFFF → f.type.toNat = tBcast →
      exec (.fabBcast pt f) s = .next (s.finish (takeShard (forwardBcast k p f) f false))) ∧
    (∀ v, here tCtl → sub = bJoin → session k c = some v → v.reader = true → v.started = false →
      let x : Session := { v with joined := mput v.joined src {} }
      exec (.bcastJoin pt f) s = .next (s.finish (if v.count ≤ x.joined.length then bcastStart k c x else putSession k c x))) ∧
    (∀ v, here tCtl → sub = bEnd → session k c = some v → v.reader = false → v.peer = src → v.missing ≠ [] →
      exec (.bcastEnd pt f) s = .next (s.finish (sendBitmap k c { v with gotEnd := true }))) ∧
    (∀ v r, here tCtl → sub = bBitmap → session k c = some v → v.reader = true → mget? v.joined src = some r → r.done = false →
      r.failed = false → (∀ i ∈ bitmapShards f, i < v.shards.length ∧ mget 0 r.resends i < 4) →
      let is := bitmapShards f
      let r1 : Recv := { r with resends := is.foldl (fun m i => mput m i (mget 0 m i + 1)) r.resends }
      let x : Session := { v with joined := mput v.joined src r1, resent := v.resent + is.length,
                                  todo := v.todo ++ is.map (fun i => (src, i)) }
      exec (.bcastBitmap pt f) s = .next (s.finish (readerCheck (bcastGo (putSession k c x) c (x.todo.length + 1)) c))) ∧
    (∀ v r, here tCtl → sub = bDone → session k c = some v → v.reader = true → mget? v.joined src = some r →
      exec (.bcastDone pt f) s =
        .next (s.finish (readerCheck (putSession k c { v with joined := mput v.joined src { r with done := !r.failed } }) c))) ∧
    (∀ (n : BitVec 8) v, alive k = true → session k n.toNat = some v →
      (v.reader = true → v.started = false → exec (.bcastTimeout n) s = .next (s.finish (bcastStart k n.toNat v))) ∧
      (v.reader = false → v.gotEnd = true → v.missing ≠ [] → exec (.bcastTimeout n) s = .next (s.finish (sendBitmap k n.toNat v)))) ∧
    (here tMirror → twinEn k = true → src = twinNode k → w.st = 0 ∨ w.st = 3 → w.applied < f.tag.toNat → (∀ g ∈ w.early, g.tag ≠ f.tag) →
      exec (.fabMirror pt f) s = .next (s.finish (twin { w with early := w.early ++ [f] }))) ∧
    (here tMirror → twinEn k = true → src = twinNode k → w.st = 1 ∨ w.st = 2 → f.tag.toNat = w.applied + 1 → w.early = [] → sub = mStepEnd →
      let k2 := twin { w with applied := w.applied + 1 }
      exec (.fabMirror pt f) s =
        .next (s.finish (sendOn k2 p (mkFrame k2 (twinNode k) tMirrorAck 0 (BitVec.ofNat 64 (w.applied + 1)) 0 0 [] [])))) ∧
    (here tMirrorAck → twinEn k = true → src = twinNode k → w.syncEnd = none → (∀ n, (seq k n).waiting = []) →
      exec (.fabMirrorAck pt f) s =
        .next (s.finish (twin { w with unacked := w.unacked.filter (fun g => decide (f.tag.toNat < g.tag.toNat)) })))

/-- R111, R112, R119, R60, R85: a control instruction that a serving device takes and that fails a check retires with the reason and the ARG of
the earliest failing check, the leftmost field of it, and has no other effect. One whose source is closed, or that meets a device that does
not serve, has no effect; and outside ENABLED and HOLD nothing follows a command of itself. -/
def Obligations.RefusalsChangeNothing : Prop :=
  (∀ (i : Instr) (s : State) (r : CtlRow) (e : Chk), ctlOf i = some r → ctlServed s.core = true → srcLive s.core r.hdr.src = true →
    e ∈ r.checks s.core → e.bad = true → (∀ d ∈ r.checks s.core, d.bad = true → d = e ∨ e.before d = true) →
    exec i s = .next (s.finish (retire (noteRefusal s.core r.ins e.reason) r.ins e.reason e.arg []))) ∧
  (∀ (i : Instr) (s : State) (r : CtlRow), ctlOf i = some r → ctlServed s.core = false ∨ srcLive s.core r.hdr.src = false →
    exec i s = .next (s.finish s.core)) ∧
  (∀ (s : State) (k : Core), ctlServed k = false → k.pst.heldBar4 = [] → k.burn = [] → s.finish k = { s with core := k })

/-- The block's step: the command at the front of the queue runs on the state with the queue's rest. With none waiting the device idles, which
is the model's choice (assumption 23). -/
def Obligations.StepRunsTheFrontCommand : Prop :=
  (∀ (c : Instr) (s : State) (rest : List Instr), step { s with pending := c :: rest } = exec c { s with pending := rest }) ∧
  (∀ s : State, s.pending = [] → step s = .next s)

/-- R59, R532: after power-on reset the device is in RESET, no register differs from its reset value, every counter reads zero,
nothing is open, allocated or in flight, every memory is in canonical form and lists nothing, and no command waits. The fuse map and the
life cycle of State.reset are the model's choice (assumption 2); the invariants of the fuses and of HALTED hold there. -/
def Obligations.ResetState : Prop :=
  State.reset.core.glb.st = .reset ∧ State.reset.pending = [] ∧ (∀ off, rreg State.reset.core off = regReset off) ∧
  (∀ off, mget 0 State.reset.core.ctr off = 0) ∧ (∀ n, ctx State.reset.core n = {} ∧ seq State.reset.core n = {} ∧ obj State.reset.core n = {}) ∧
  (∀ n, (port State.reset.core n).st = .closed) ∧ State.reset.core.flts = [] ∧ State.reset.core.memOk = true ∧
  State.reset.core.dram = Mem.empty ∧ State.reset.core.stg = Mem.empty ∧ Fuses.le State.reset.fuse State.reset.fuse ∧
  (State.reset.core.glb.st = .halted → State.reset.core.pst.waking = false)

/-- R471, R473: a fuse once blown is never unblown, which the spec implies and does not state. Every step of every state answers a next state in which each fuse that was blown is blown and
what the part was sold as is unchanged, and the queue has lost its front command and nothing else. -/
def Obligations.FusesOnlyGain : Prop :=
  ∀ (s : State) (f : Fuses), Fuses.le f s.fuse → ∃ t, step s = .next t ∧ Fuses.le f t.fuse ∧ t.pending = s.pending.tail

/-- R60: HALTED is left only by a reset that is not a partition reset. From every state in HALTED with no exit under way, every step whose
command is neither a reset of the device nor a change of its power answers a state in HALTED with no exit under way. -/
def Obligations.HaltedIsLeftOnlyByReset : Prop :=
  ∀ s t : State, s.core.glb.st = .halted → s.core.pst.waking = false → (∀ c ∈ s.pending.head?, resets c = false) → step s = .next t →
    t.core.glb.st = .halted ∧ t.core.pst.waking = false
end

