-- ==== Sys2Proof/Laws/Map.lean ====
section
/-! SUPPORT. Tables and byte memories: a read after a write, and that every operation keeps the canonical form. -/

namespace Sys2Proof.Laws
open Sys2Proof.Machine

variable {α : Type}

@[simp] theorem mget_mput_same (d v : α) (m : SMap α) (n : Nat) : mget d (mput m n v) n = v := by
  induction m with
  | nil => simp [mput, mget]
  | cons e r ih =>
    obtain ⟨k, w⟩ := e
    simp only [mput]
    split
    · next h => simp [mget, h]
    · split
      · simp [mget]
      · next h _ => simp [mget, h, ih]

theorem mget_mput_ne (d v : α) (m : SMap α) {n j : Nat} (h : j ≠ n) : mget d (mput m n v) j = mget d m j := by
  induction m with
  | nil => simp [mput, mget, h]
  | cons e r ih =>
    obtain ⟨k, w⟩ := e
    simp only [mput]
    split
    · next e => subst e; simp [mget, h]
    · split
      · simp [mget, h]
      · simp [mget, ih]

theorem mget?_mput_same (v : α) (m : SMap α) (n : Nat) : mget? (mput m n v) n = some v := by
  induction m with
  | nil => simp [mput, mget?]
  | cons e r ih =>
    obtain ⟨k, w⟩ := e
    simp only [mput]
    split
    · next h => simp [mget?, h]
    · split
      · simp [mget?]
      · next h _ => simp [mget?, h, ih]

theorem mget?_mput_ne (v : α) (m : SMap α) {n j : Nat} (h : j ≠ n) : mget? (mput m n v) j = mget? m j := by
  induction m with
  | nil => simp [mput, mget?, h]
  | cons e r ih =>
    obtain ⟨k, w⟩ := e
    simp only [mput]
    split
    · next e => subst e; simp [mget?, h]
    · split
      · simp [mget?, h]
      · simp [mget?, ih]

@[simp] theorem mget?_mdel_same (m : SMap α) (n : Nat) : mget? (mdel m n) n = none := by
  induction m with
  | nil => rfl
  | cons e r ih =>
    obtain ⟨k, w⟩ := e
    simp only [mdel]
    split
    · exact ih
    · next e => simp [mget?, e, ih]

theorem mget?_mdel_ne (m : SMap α) {n j : Nat} (h : j ≠ n) : mget? (mdel m n) j = mget? m j := by
  induction m with
  | nil => rfl
  | cons e r ih =>
    obtain ⟨k, w⟩ := e
    simp only [mdel]
    split
    · next e => subst e; simp [mget?, h, ih]
    · simp [mget?, ih]

theorem risingFrom_mono {m : SMap α} {a b : Nat} (h : a ≤ b) (hr : risingFrom b m = true) : risingFrom a m = true := by
  cases m with
  | nil => rfl
  | cons e r =>
    obtain ⟨k, w⟩ := e
    simp only [risingFrom, Bool.and_eq_true, decide_eq_true_eq] at hr ⊢
    exact ⟨by omega, hr.2⟩

theorem rising_of_risingFrom {m : SMap α} {a : Nat} (h : risingFrom a m = true) : rising m = true := by
  cases m with
  | nil => rfl
  | cons e r =>
    obtain ⟨k, w⟩ := e
    simp only [risingFrom, Bool.and_eq_true] at h
    exact h.2

/-- Below the first key nothing is listed. -/
theorem mget_of_risingFrom (d : α) {m : SMap α} {a n : Nat} (h : risingFrom a m = true) (hn : n ≤ a) : mget d m n = d := by
  induction m generalizing a with
  | nil => rfl
  | cons e r ih =>
    obtain ⟨k, w⟩ := e
    simp only [risingFrom, Bool.and_eq_true, decide_eq_true_eq] at h
    have : n ≠ k := by omega
    simp [mget, this, ih h.2 (by omega)]

theorem risingFrom_mput {m : SMap α} {a n : Nat} (v : α) (h : risingFrom a m = true) (hn : a < n) : risingFrom a (mput m n v) = true := by
  induction m generalizing a with
  | nil => simp [mput, risingFrom, hn]
  | cons e r ih =>
    obtain ⟨k, w⟩ := e
    simp only [risingFrom, Bool.and_eq_true, decide_eq_true_eq] at h
    simp only [mput]
    split
    · simp [risingFrom, h]
    · split
      · next h2 => simp [risingFrom, hn, h2, h.2]
      · next h1 h2 => simp [risingFrom, h.1, ih h.2 (by omega)]

theorem rising_mput {m : SMap α} (n : Nat) (v : α) (h : rising m = true) : rising (mput m n v) = true := by
  cases m with
  | nil => simp [mput, rising, risingFrom]
  | cons e r =>
    obtain ⟨k, w⟩ := e
    simp only [mput]
    split
    · simpa [rising] using h
    · split
      · next h2 => simpa [rising, risingFrom, h2] using h
      · next h1 h2 => exact risingFrom_mput v h (by omega)

theorem risingFrom_mdel {m : SMap α} {a : Nat} (n : Nat) (h : risingFrom a m = true) : risingFrom a (mdel m n) = true := by
  induction m generalizing a with
  | nil => rfl
  | cons e r ih =>
    obtain ⟨k, w⟩ := e
    simp only [risingFrom, Bool.and_eq_true, decide_eq_true_eq] at h
    simp only [mdel]
    split
    · exact risingFrom_mono (by omega) (ih h.2)
    · simp [risingFrom, h.1, ih h.2]

theorem rising_mdel {m : SMap α} (n : Nat) (h : rising m = true) : rising (mdel m n) = true := by
  cases m with
  | nil => rfl
  | cons e r =>
    obtain ⟨k, w⟩ := e
    simp only [mdel]
    split
    · exact rising_of_risingFrom (risingFrom_mdel n h)
    · exact risingFrom_mdel n h

theorem risingFrom_mfilter (p : Nat → α → Bool) {m : SMap α} {a : Nat} (h : risingFrom a m = true) : risingFrom a (mfilter p m) = true := by
  induction m generalizing a with
  | nil => rfl
  | cons e r ih =>
    obtain ⟨k, w⟩ := e
    simp only [risingFrom, Bool.and_eq_true, decide_eq_true_eq] at h
    simp only [mfilter]
    split
    · simp [risingFrom, h.1, ih h.2]
    · exact risingFrom_mono (by omega) (ih h.2)

theorem rising_mfilter (p : Nat → α → Bool) {m : SMap α} (h : rising m = true) : rising (mfilter p m) = true := by
  cases m with
  | nil => rfl
  | cons e r =>
    obtain ⟨k, w⟩ := e
    simp only [mfilter]
    split
    · exact risingFrom_mfilter p h
    · exact rising_of_risingFrom (risingFrom_mfilter p h)

theorem mget_mdel_ne (d : α) (m : SMap α) {n j : Nat} (h : j ≠ n) : mget d (mdel m n) j = mget d m j := by
  induction m with
  | nil => rfl
  | cons e r ih =>
    obtain ⟨k, w⟩ := e
    simp only [mdel]
    split
    · next e => subst e; simp [mget, h, ih]
    · simp [mget, ih]

@[simp] theorem mget_mdel_same (d : α) (m : SMap α) (n : Nat) : mget d (mdel m n) n = d := by
  induction m with
  | nil => rfl
  | cons e r ih =>
    obtain ⟨k, w⟩ := e
    simp only [mdel]
    split
    · exact ih
    · next e => simp [mget, e, ih]

variable [DecidableEq α]

theorem noDefault_mput {d v : α} {m : SMap α} (n : Nat) (hv : v ≠ d) (h : noDefault d m = true) : noDefault d (mput m n v) = true := by
  induction m with
  | nil => simp [mput, noDefault, hv]
  | cons e r ih =>
    obtain ⟨k, w⟩ := e
    simp only [noDefault, Bool.and_eq_true, decide_eq_true_eq] at h
    simp only [mput]
    split
    · simp [noDefault, hv, h.2]
    · split
      · simp [noDefault, hv, h]
      · simp [noDefault, h.1, ih h.2]

theorem noDefault_mdel {d : α} {m : SMap α} (n : Nat) (h : noDefault d m = true) : noDefault d (mdel m n) = true := by
  induction m with
  | nil => rfl
  | cons e r ih =>
    obtain ⟨k, w⟩ := e
    simp only [noDefault, Bool.and_eq_true, decide_eq_true_eq] at h
    simp only [mdel]
    split
    · exact ih h.2
    · simp [noDefault, h.1, ih h.2]

theorem noDefault_mfilter {d : α} (p : Nat → α → Bool) {m : SMap α} (h : noDefault d m = true) : noDefault d (mfilter p m) = true := by
  induction m with
  | nil => rfl
  | cons e r ih =>
    obtain ⟨k, w⟩ := e
    simp only [noDefault, Bool.and_eq_true, decide_eq_true_eq] at h
    simp only [mfilter]
    split
    · simp [noDefault, h.1, ih h.2]
    · exact ih h.2

theorem mwf_mset {d : α} {m : SMap α} (n : Nat) (v : α) (h : mwf d m = true) : mwf d (mset d m n v) = true := by
  simp only [mwf, Bool.and_eq_true] at h ⊢
  simp only [mset]
  split
  · exact ⟨rising_mdel n h.1, noDefault_mdel n h.2⟩
  · next hv => exact ⟨rising_mput n v h.1, noDefault_mput n hv h.2⟩

theorem mwf_mfilter {d : α} (p : Nat → α → Bool) {m : SMap α} (h : mwf d m = true) : mwf d (mfilter p m) = true := by
  simp only [mwf, Bool.and_eq_true] at h ⊢
  exact ⟨rising_mfilter p h.1, noDefault_mfilter p h.2⟩

/-! ## Sets of numbers -/

theorem srisingFrom_mono {l : List Nat} {a b : Nat} (h : a ≤ b) (hr : srisingFrom b l = true) : srisingFrom a l = true := by
  cases l with
  | nil => rfl
  | cons k r =>
    simp only [srisingFrom, Bool.and_eq_true, decide_eq_true_eq] at hr ⊢
    exact ⟨by omega, hr.2⟩

theorem srising_of_from {l : List Nat} {a : Nat} (h : srisingFrom a l = true) : srising l = true := by
  cases l with
  | nil => rfl
  | cons k r => simp only [srisingFrom, Bool.and_eq_true] at h; exact h.2

theorem srisingFrom_sput {l : List Nat} {a n : Nat} (h : srisingFrom a l = true) (hn : a < n) : srisingFrom a (sput l n) = true := by
  induction l generalizing a with
  | nil => simp [sput, srisingFrom, hn]
  | cons k r ih =>
    simp only [srisingFrom, Bool.and_eq_true, decide_eq_true_eq] at h
    simp only [sput]
    split
    · simp [srisingFrom, h]
    · split
      · next h2 => simp [srisingFrom, hn, h2, h.2]
      · next h1 h2 => simp [srisingFrom, h.1, ih h.2 (by omega)]

theorem srising_sput {l : List Nat} (n : Nat) (h : srising l = true) : srising (sput l n) = true := by
  cases l with
  | nil => simp [sput, srising, srisingFrom]
  | cons k r =>
    simp only [sput]
    split
    · exact h
    · split
      · next h2 => simpa [srising, srisingFrom, h2] using h
      · exact srisingFrom_sput h (by omega)

theorem srisingFrom_sdel {l : List Nat} {a : Nat} (n : Nat) (h : srisingFrom a l = true) : srisingFrom a (sdel l n) = true := by
  induction l generalizing a with
  | nil => rfl
  | cons k r ih =>
    simp only [srisingFrom, Bool.and_eq_true, decide_eq_true_eq] at h
    simp only [sdel]
    split
    · exact srisingFrom_mono (by omega) (ih h.2)
    · simp [srisingFrom, h.1, ih h.2]

theorem srising_sdel {l : List Nat} (n : Nat) (h : srising l = true) : srising (sdel l n) = true := by
  cases l with
  | nil => rfl
  | cons k r =>
    simp only [sdel]
    split
    · exact srising_of_from (srisingFrom_sdel n h)
    · exact srisingFrom_sdel n h

theorem srisingFrom_filter (p : Nat → Bool) {l : List Nat} {a : Nat} (h : srisingFrom a l = true) : srisingFrom a (l.filter p) = true := by
  induction l generalizing a with
  | nil => rfl
  | cons k r ih =>
    simp only [srisingFrom, Bool.and_eq_true, decide_eq_true_eq] at h
    simp only [List.filter_cons]
    split
    · simp [srisingFrom, h.1, ih h.2]
    · exact srisingFrom_mono (by omega) (ih h.2)

theorem srising_filter (p : Nat → Bool) {l : List Nat} (h : srising l = true) : srising (l.filter p) = true := by
  cases l with
  | nil => rfl
  | cons k r =>
    simp only [List.filter_cons]
    split
    · exact srisingFrom_filter p h
    · exact srising_of_from (srisingFrom_filter p h)

/-! ## Byte memories -/

/-- A byte reads as it was last written. -/
theorem byte_putByte_same (d b : Byte) (m : Mem) (a : Nat) : (m.putByte d a b).byte d a = b := by
  simp only [Mem.byte, Mem.putByte, mset]
  split
  · next e => simp [e]
  · simp

/-- A byte written leaves every other byte alone. -/
theorem byte_putByte_ne (d b : Byte) (m : Mem) {a j : Nat} (h : j ≠ a) : (m.putByte d a b).byte d j = m.byte d j := by
  simp only [Mem.byte, Mem.putByte, mset]
  split
  · exact mget_mdel_ne d m.cells h
  · exact mget_mput_ne d b m.cells h

/-- A list of bytes written leaves every byte outside its range alone. -/
theorem byte_putBytes_ne (d : Byte) (l : List Byte) (m : Mem) {a j : Nat} (h : j < a ∨ a + l.length ≤ j) :
    (m.putBytes d a l).byte d j = m.byte d j := by
  induction l generalizing m a with
  | nil => rfl
  | cons b r ih =>
    simp only [List.length_cons] at h
    simp only [Mem.putBytes]
    rw [ih _ (by omega), byte_putByte_ne d b m (by omega)]

theorem wf_empty (d : Byte) : Mem.empty.wf d = true := rfl
theorem wf_putByte {d : Byte} {m : Mem} (a : Nat) (b : Byte) (h : m.wf d = true) : (m.putByte d a b).wf d = true := by
  simp only [Mem.wf, Bool.and_eq_true] at h ⊢
  exact ⟨mwf_mset a b h.1, h.2⟩
theorem wf_putBytes {d : Byte} (l : List Byte) {m : Mem} (a : Nat) (h : m.wf d = true) : (m.putBytes d a l).wf d = true := by
  induction l generalizing m a with
  | nil => exact h
  | cons b r ih => exact ih (a + 1) (wf_putByte a b h)
theorem wf_setBad {d : Byte} {m : Mem} (w : Nat) (p : Bool) (h : m.wf d = true) : (m.setBad w p).wf d = true := by
  simp only [Mem.wf, Bool.and_eq_true] at h ⊢
  refine ⟨h.1, ?_⟩
  simp only [Mem.setBad]
  split
  · exact srising_sput w h.2
  · exact srising_sdel w h.2
theorem wf_setBads {d : Byte} (p : Bool) (n : Nat) {m : Mem} (w : Nat) (h : m.wf d = true) : (m.setBads p w n).wf d = true := by
  induction n generalizing m w with
  | zero => exact h
  | succ n ih => exact ih (w + 1) (wf_setBad w p h)
theorem wf_putLine {d : Byte} {m : Mem} (n : Nat) (v : Line) (p : Bool) (h : m.wf d = true) : (m.putLine d n v p).wf d = true :=
  wf_setBads p 8 (8 * n) (wf_putBytes _ (64 * n) h)
theorem wf_wipe {d : Byte} {m : Mem} (lo hi : Nat) (h : m.wf d = true) : (m.wipe lo hi).wf d = true := by
  simp only [Mem.wf, Bool.and_eq_true] at h ⊢
  exact ⟨mwf_mfilter _ h.1, srising_filter _ h.2⟩

/-! ## Runs of numbers -/

/-- What a run of numbers holds. -/
@[simp] theorem mem_upFrom {lo n x : Nat} : x ∈ upFrom lo n ↔ lo ≤ x ∧ x < lo + n := by
  induction n generalizing lo with
  | zero => simp [upFrom]
  | succ n ih => simp only [upFrom, List.mem_cons, ih]; omega

end Sys2Proof.Laws
end

