-- ==== Sys2Proof/Laws/State.lean ====
section
/-! SUPPORT. One lemma for each update of the core: every field but its own is as before, and its own is what the update says. -/

namespace Sys2Proof.Laws
open Sys2Proof.Machine

@[simp] theorem emit_fields (k : Core) (e : Emit) :
    (emit k e).pins = k.pins ∧ (emit k e).shadow = k.shadow ∧ (emit k e).burn = k.burn ∧ (emit k e).glb = k.glb ∧
    (emit k e).regs = k.regs ∧ (emit k e).ctr = k.ctr ∧ (emit k e).pci = k.pci ∧ (emit k e).ports = k.ports ∧ (emit k e).rings = k.rings ∧
    (emit k e).ctxs = k.ctxs ∧ (emit k e).accts = k.accts ∧ (emit k e).seqs = k.seqs ∧ (emit k e).pools = k.pools ∧
    (emit k e).msets = k.msets ∧ (emit k e).objs = k.objs ∧ (emit k e).doms = k.doms ∧ (emit k e).sched = k.sched ∧
    (emit k e).dram = k.dram ∧ (emit k e).stg = k.stg ∧ (emit k e).tiles = k.tiles ∧ (emit k e).ghcs = k.ghcs ∧ (emit k e).incs = k.incs ∧
    (emit k e).fab = k.fab ∧ (emit k e).stks = k.stks ∧ (emit k e).flss = k.flss ∧ (emit k e).flOps = k.flOps ∧
    (emit k e).flash = k.flash ∧ (emit k e).slotA = k.slotA ∧ (emit k e).slotB = k.slotB ∧ (emit k e).lifeMarker = k.lifeMarker ∧
    (emit k e).code = k.code ∧ (emit k e).pwr = k.pwr ∧ (emit k e).pst = k.pst ∧ (emit k e).sec = k.sec ∧ (emit k e).maint = k.maint ∧
    (emit k e).err = k.err ∧ (emit k e).flts = k.flts ∧ (emit k e).host = k.host ∧ (emit k e).held = k.held ∧ (emit k e).fresh = k.fresh ∧
    (emit k e).out = e :: k.out :=
  ⟨rfl, rfl, rfl, rfl, rfl, rfl, rfl, rfl, rfl, rfl, rfl, rfl, rfl, rfl, rfl, rfl, rfl, rfl, rfl, rfl, rfl, rfl, rfl, rfl, rfl, rfl, rfl, rfl, rfl, rfl, rfl, rfl, rfl, rfl, rfl, rfl, rfl, rfl, rfl, rfl, rfl⟩

@[simp] theorem wreg_fields (k : Core) (off : Nat) (v : W64) :
    (wreg k off v).pins = k.pins ∧ (wreg k off v).shadow = k.shadow ∧ (wreg k off v).burn = k.burn ∧ (wreg k off v).glb = k.glb ∧
    (wreg k off v).ctr = k.ctr ∧ (wreg k off v).pci = k.pci ∧ (wreg k off v).ports = k.ports ∧ (wreg k off v).rings = k.rings ∧
    (wreg k off v).ctxs = k.ctxs ∧ (wreg k off v).accts = k.accts ∧ (wreg k off v).seqs = k.seqs ∧ (wreg k off v).pools = k.pools ∧
    (wreg k off v).msets = k.msets ∧ (wreg k off v).objs = k.objs ∧ (wreg k off v).doms = k.doms ∧ (wreg k off v).sched = k.sched ∧
    (wreg k off v).dram = k.dram ∧ (wreg k off v).stg = k.stg ∧ (wreg k off v).tiles = k.tiles ∧ (wreg k off v).ghcs = k.ghcs ∧
    (wreg k off v).incs = k.incs ∧ (wreg k off v).fab = k.fab ∧ (wreg k off v).stks = k.stks ∧ (wreg k off v).flss = k.flss ∧
    (wreg k off v).flOps = k.flOps ∧ (wreg k off v).flash = k.flash ∧ (wreg k off v).slotA = k.slotA ∧ (wreg k off v).slotB = k.slotB ∧
    (wreg k off v).lifeMarker = k.lifeMarker ∧ (wreg k off v).code = k.code ∧ (wreg k off v).pwr = k.pwr ∧ (wreg k off v).pst = k.pst ∧
    (wreg k off v).sec = k.sec ∧ (wreg k off v).maint = k.maint ∧ (wreg k off v).err = k.err ∧ (wreg k off v).flts = k.flts ∧
    (wreg k off v).host = k.host ∧ (wreg k off v).held = k.held ∧ (wreg k off v).out = k.out ∧ (wreg k off v).fresh = k.fresh :=
  ⟨rfl, rfl, rfl, rfl, rfl, rfl, rfl, rfl, rfl, rfl, rfl, rfl, rfl, rfl, rfl, rfl, rfl, rfl, rfl, rfl, rfl, rfl, rfl, rfl, rfl, rfl, rfl, rfl, rfl, rfl, rfl, rfl, rfl, rfl, rfl, rfl, rfl, rfl, rfl, rfl⟩

@[simp] theorem clrCtrs_fields (k : Core) (lo hi : Nat) :
    (clrCtrs k lo hi).pins = k.pins ∧ (clrCtrs k lo hi).shadow = k.shadow ∧ (clrCtrs k lo hi).burn = k.burn ∧
    (clrCtrs k lo hi).glb = k.glb ∧ (clrCtrs k lo hi).regs = k.regs ∧ (clrCtrs k lo hi).pci = k.pci ∧ (clrCtrs k lo hi).ports = k.ports ∧
    (clrCtrs k lo hi).rings = k.rings ∧ (clrCtrs k lo hi).ctxs = k.ctxs ∧ (clrCtrs k lo hi).accts = k.accts ∧
    (clrCtrs k lo hi).seqs = k.seqs ∧ (clrCtrs k lo hi).pools = k.pools ∧ (clrCtrs k lo hi).msets = k.msets ∧
    (clrCtrs k lo hi).objs = k.objs ∧ (clrCtrs k lo hi).doms = k.doms ∧ (clrCtrs k lo hi).sched = k.sched ∧
    (clrCtrs k lo hi).dram = k.dram ∧ (clrCtrs k lo hi).stg = k.stg ∧ (clrCtrs k lo hi).tiles = k.tiles ∧
    (clrCtrs k lo hi).ghcs = k.ghcs ∧ (clrCtrs k lo hi).incs = k.incs ∧ (clrCtrs k lo hi).fab = k.fab ∧ (clrCtrs k lo hi).stks = k.stks ∧
    (clrCtrs k lo hi).flss = k.flss ∧ (clrCtrs k lo hi).flOps = k.flOps ∧ (clrCtrs k lo hi).flash = k.flash ∧
    (clrCtrs k lo hi).slotA = k.slotA ∧ (clrCtrs k lo hi).slotB = k.slotB ∧ (clrCtrs k lo hi).lifeMarker = k.lifeMarker ∧
    (clrCtrs k lo hi).code = k.code ∧ (clrCtrs k lo hi).pwr = k.pwr ∧ (clrCtrs k lo hi).pst = k.pst ∧ (clrCtrs k lo hi).sec = k.sec ∧
    (clrCtrs k lo hi).maint = k.maint ∧ (clrCtrs k lo hi).err = k.err ∧ (clrCtrs k lo hi).flts = k.flts ∧
    (clrCtrs k lo hi).host = k.host ∧ (clrCtrs k lo hi).held = k.held ∧ (clrCtrs k lo hi).out = k.out ∧
    (clrCtrs k lo hi).fresh = k.fresh :=
  ⟨rfl, rfl, rfl, rfl, rfl, rfl, rfl, rfl, rfl, rfl, rfl, rfl, rfl, rfl, rfl, rfl, rfl, rfl, rfl, rfl, rfl, rfl, rfl, rfl, rfl, rfl, rfl, rfl, rfl, rfl, rfl, rfl, rfl, rfl, rfl, rfl, rfl, rfl, rfl, rfl⟩

@[simp] theorem modPort_fields (k : Core) (n : Nat) (f : Port → Port) :
    (modPort k n f).pins = k.pins ∧ (modPort k n f).shadow = k.shadow ∧ (modPort k n f).burn = k.burn ∧ (modPort k n f).glb = k.glb ∧
    (modPort k n f).regs = k.regs ∧ (modPort k n f).ctr = k.ctr ∧ (modPort k n f).pci = k.pci ∧ (modPort k n f).rings = k.rings ∧
    (modPort k n f).ctxs = k.ctxs ∧ (modPort k n f).accts = k.accts ∧ (modPort k n f).seqs = k.seqs ∧ (modPort k n f).pools = k.pools ∧
    (modPort k n f).msets = k.msets ∧ (modPort k n f).objs = k.objs ∧ (modPort k n f).doms = k.doms ∧ (modPort k n f).sched = k.sched ∧
    (modPort k n f).dram = k.dram ∧ (modPort k n f).stg = k.stg ∧ (modPort k n f).tiles = k.tiles ∧ (modPort k n f).ghcs = k.ghcs ∧
    (modPort k n f).incs = k.incs ∧ (modPort k n f).fab = k.fab ∧ (modPort k n f).stks = k.stks ∧ (modPort k n f).flss = k.flss ∧
    (modPort k n f).flOps = k.flOps ∧ (modPort k n f).flash = k.flash ∧ (modPort k n f).slotA = k.slotA ∧
    (modPort k n f).slotB = k.slotB ∧ (modPort k n f).lifeMarker = k.lifeMarker ∧ (modPort k n f).code = k.code ∧
    (modPort k n f).pwr = k.pwr ∧ (modPort k n f).pst = k.pst ∧ (modPort k n f).sec = k.sec ∧ (modPort k n f).maint = k.maint ∧
    (modPort k n f).err = k.err ∧ (modPort k n f).flts = k.flts ∧ (modPort k n f).host = k.host ∧ (modPort k n f).held = k.held ∧
    (modPort k n f).out = k.out ∧ (modPort k n f).fresh = k.fresh ∧ (modPort k n f).ports = mmod {} k.ports n f :=
  ⟨rfl, rfl, rfl, rfl, rfl, rfl, rfl, rfl, rfl, rfl, rfl, rfl, rfl, rfl, rfl, rfl, rfl, rfl, rfl, rfl, rfl, rfl, rfl, rfl, rfl, rfl, rfl, rfl, rfl, rfl, rfl, rfl, rfl, rfl, rfl, rfl, rfl, rfl, rfl, rfl, rfl⟩

@[simp] theorem modRing_fields (k : Core) (n : Nat) (f : DRing → DRing) :
    (modRing k n f).pins = k.pins ∧ (modRing k n f).shadow = k.shadow ∧ (modRing k n f).burn = k.burn ∧ (modRing k n f).glb = k.glb ∧
    (modRing k n f).regs = k.regs ∧ (modRing k n f).ctr = k.ctr ∧ (modRing k n f).pci = k.pci ∧ (modRing k n f).ports = k.ports ∧
    (modRing k n f).ctxs = k.ctxs ∧ (modRing k n f).accts = k.accts ∧ (modRing k n f).seqs = k.seqs ∧ (modRing k n f).pools = k.pools ∧
    (modRing k n f).msets = k.msets ∧ (modRing k n f).objs = k.objs ∧ (modRing k n f).doms = k.doms ∧ (modRing k n f).sched = k.sched ∧
    (modRing k n f).dram = k.dram ∧ (modRing k n f).stg = k.stg ∧ (modRing k n f).tiles = k.tiles ∧ (modRing k n f).ghcs = k.ghcs ∧
    (modRing k n f).incs = k.incs ∧ (modRing k n f).fab = k.fab ∧ (modRing k n f).stks = k.stks ∧ (modRing k n f).flss = k.flss ∧
    (modRing k n f).flOps = k.flOps ∧ (modRing k n f).flash = k.flash ∧ (modRing k n f).slotA = k.slotA ∧
    (modRing k n f).slotB = k.slotB ∧ (modRing k n f).lifeMarker = k.lifeMarker ∧ (modRing k n f).code = k.code ∧
    (modRing k n f).pwr = k.pwr ∧ (modRing k n f).pst = k.pst ∧ (modRing k n f).sec = k.sec ∧ (modRing k n f).maint = k.maint ∧
    (modRing k n f).err = k.err ∧ (modRing k n f).flts = k.flts ∧ (modRing k n f).host = k.host ∧ (modRing k n f).held = k.held ∧
    (modRing k n f).out = k.out ∧ (modRing k n f).fresh = k.fresh ∧ (modRing k n f).rings = mmod {} k.rings n f :=
  ⟨rfl, rfl, rfl, rfl, rfl, rfl, rfl, rfl, rfl, rfl, rfl, rfl, rfl, rfl, rfl, rfl, rfl, rfl, rfl, rfl, rfl, rfl, rfl, rfl, rfl, rfl, rfl, rfl, rfl, rfl, rfl, rfl, rfl, rfl, rfl, rfl, rfl, rfl, rfl, rfl, rfl⟩

@[simp] theorem modCtx_fields (k : Core) (n : Nat) (f : Ctx → Ctx) :
    (modCtx k n f).pins = k.pins ∧ (modCtx k n f).shadow = k.shadow ∧ (modCtx k n f).burn = k.burn ∧ (modCtx k n f).glb = k.glb ∧
    (modCtx k n f).regs = k.regs ∧ (modCtx k n f).ctr = k.ctr ∧ (modCtx k n f).pci = k.pci ∧ (modCtx k n f).ports = k.ports ∧
    (modCtx k n f).rings = k.rings ∧ (modCtx k n f).accts = k.accts ∧ (modCtx k n f).seqs = k.seqs ∧ (modCtx k n f).pools = k.pools ∧
    (modCtx k n f).msets = k.msets ∧ (modCtx k n f).objs = k.objs ∧ (modCtx k n f).doms = k.doms ∧ (modCtx k n f).sched = k.sched ∧
    (modCtx k n f).dram = k.dram ∧ (modCtx k n f).stg = k.stg ∧ (modCtx k n f).tiles = k.tiles ∧ (modCtx k n f).ghcs = k.ghcs ∧
    (modCtx k n f).incs = k.incs ∧ (modCtx k n f).fab = k.fab ∧ (modCtx k n f).stks = k.stks ∧ (modCtx k n f).flss = k.flss ∧
    (modCtx k n f).flOps = k.flOps ∧ (modCtx k n f).flash = k.flash ∧ (modCtx k n f).slotA = k.slotA ∧ (modCtx k n f).slotB = k.slotB ∧
    (modCtx k n f).lifeMarker = k.lifeMarker ∧ (modCtx k n f).code = k.code ∧ (modCtx k n f).pwr = k.pwr ∧ (modCtx k n f).pst = k.pst ∧
    (modCtx k n f).sec = k.sec ∧ (modCtx k n f).maint = k.maint ∧ (modCtx k n f).err = k.err ∧ (modCtx k n f).flts = k.flts ∧
    (modCtx k n f).host = k.host ∧ (modCtx k n f).held = k.held ∧ (modCtx k n f).out = k.out ∧ (modCtx k n f).fresh = k.fresh ∧
    (modCtx k n f).ctxs = mmod {} k.ctxs n f :=
  ⟨rfl, rfl, rfl, rfl, rfl, rfl, rfl, rfl, rfl, rfl, rfl, rfl, rfl, rfl, rfl, rfl, rfl, rfl, rfl, rfl, rfl, rfl, rfl, rfl, rfl, rfl, rfl, rfl, rfl, rfl, rfl, rfl, rfl, rfl, rfl, rfl, rfl, rfl, rfl, rfl, rfl⟩

@[simp] theorem modAcct_fields (k : Core) (n : Nat) (f : Acct → Acct) :
    (modAcct k n f).pins = k.pins ∧ (modAcct k n f).shadow = k.shadow ∧ (modAcct k n f).burn = k.burn ∧ (modAcct k n f).glb = k.glb ∧
    (modAcct k n f).regs = k.regs ∧ (modAcct k n f).ctr = k.ctr ∧ (modAcct k n f).pci = k.pci ∧ (modAcct k n f).ports = k.ports ∧
    (modAcct k n f).rings = k.rings ∧ (modAcct k n f).ctxs = k.ctxs ∧ (modAcct k n f).seqs = k.seqs ∧ (modAcct k n f).pools = k.pools ∧
    (modAcct k n f).msets = k.msets ∧ (modAcct k n f).objs = k.objs ∧ (modAcct k n f).doms = k.doms ∧ (modAcct k n f).sched = k.sched ∧
    (modAcct k n f).dram = k.dram ∧ (modAcct k n f).stg = k.stg ∧ (modAcct k n f).tiles = k.tiles ∧ (modAcct k n f).ghcs = k.ghcs ∧
    (modAcct k n f).incs = k.incs ∧ (modAcct k n f).fab = k.fab ∧ (modAcct k n f).stks = k.stks ∧ (modAcct k n f).flss = k.flss ∧
    (modAcct k n f).flOps = k.flOps ∧ (modAcct k n f).flash = k.flash ∧ (modAcct k n f).slotA = k.slotA ∧
    (modAcct k n f).slotB = k.slotB ∧ (modAcct k n f).lifeMarker = k.lifeMarker ∧ (modAcct k n f).code = k.code ∧
    (modAcct k n f).pwr = k.pwr ∧ (modAcct k n f).pst = k.pst ∧ (modAcct k n f).sec = k.sec ∧ (modAcct k n f).maint = k.maint ∧
    (modAcct k n f).err = k.err ∧ (modAcct k n f).flts = k.flts ∧ (modAcct k n f).host = k.host ∧ (modAcct k n f).held = k.held ∧
    (modAcct k n f).out = k.out ∧ (modAcct k n f).fresh = k.fresh ∧ (modAcct k n f).accts = mmod {} k.accts n f :=
  ⟨rfl, rfl, rfl, rfl, rfl, rfl, rfl, rfl, rfl, rfl, rfl, rfl, rfl, rfl, rfl, rfl, rfl, rfl, rfl, rfl, rfl, rfl, rfl, rfl, rfl, rfl, rfl, rfl, rfl, rfl, rfl, rfl, rfl, rfl, rfl, rfl, rfl, rfl, rfl, rfl, rfl⟩

@[simp] theorem modSeq_fields (k : Core) (n : Nat) (f : Seq → Seq) :
    (modSeq k n f).pins = k.pins ∧ (modSeq k n f).shadow = k.shadow ∧ (modSeq k n f).burn = k.burn ∧ (modSeq k n f).glb = k.glb ∧
    (modSeq k n f).regs = k.regs ∧ (modSeq k n f).ctr = k.ctr ∧ (modSeq k n f).pci = k.pci ∧ (modSeq k n f).ports = k.ports ∧
    (modSeq k n f).rings = k.rings ∧ (modSeq k n f).ctxs = k.ctxs ∧ (modSeq k n f).accts = k.accts ∧ (modSeq k n f).pools = k.pools ∧
    (modSeq k n f).msets = k.msets ∧ (modSeq k n f).objs = k.objs ∧ (modSeq k n f).doms = k.doms ∧ (modSeq k n f).sched = k.sched ∧
    (modSeq k n f).dram = k.dram ∧ (modSeq k n f).stg = k.stg ∧ (modSeq k n f).tiles = k.tiles ∧ (modSeq k n f).ghcs = k.ghcs ∧
    (modSeq k n f).incs = k.incs ∧ (modSeq k n f).fab = k.fab ∧ (modSeq k n f).stks = k.stks ∧ (modSeq k n f).flss = k.flss ∧
    (modSeq k n f).flOps = k.flOps ∧ (modSeq k n f).flash = k.flash ∧ (modSeq k n f).slotA = k.slotA ∧ (modSeq k n f).slotB = k.slotB ∧
    (modSeq k n f).lifeMarker = k.lifeMarker ∧ (modSeq k n f).code = k.code ∧ (modSeq k n f).pwr = k.pwr ∧ (modSeq k n f).pst = k.pst ∧
    (modSeq k n f).sec = k.sec ∧ (modSeq k n f).maint = k.maint ∧ (modSeq k n f).err = k.err ∧ (modSeq k n f).flts = k.flts ∧
    (modSeq k n f).host = k.host ∧ (modSeq k n f).held = k.held ∧ (modSeq k n f).out = k.out ∧ (modSeq k n f).fresh = k.fresh ∧
    (modSeq k n f).seqs = mmod {} k.seqs n f :=
  ⟨rfl, rfl, rfl, rfl, rfl, rfl, rfl, rfl, rfl, rfl, rfl, rfl, rfl, rfl, rfl, rfl, rfl, rfl, rfl, rfl, rfl, rfl, rfl, rfl, rfl, rfl, rfl, rfl, rfl, rfl, rfl, rfl, rfl, rfl, rfl, rfl, rfl, rfl, rfl, rfl, rfl⟩

@[simp] theorem modPool_fields (k : Core) (n : Nat) (f : Pool → Pool) :
    (modPool k n f).pins = k.pins ∧ (modPool k n f).shadow = k.shadow ∧ (modPool k n f).burn = k.burn ∧ (modPool k n f).glb = k.glb ∧
    (modPool k n f).regs = k.regs ∧ (modPool k n f).ctr = k.ctr ∧ (modPool k n f).pci = k.pci ∧ (modPool k n f).ports = k.ports ∧
    (modPool k n f).rings = k.rings ∧ (modPool k n f).ctxs = k.ctxs ∧ (modPool k n f).accts = k.accts ∧ (modPool k n f).seqs = k.seqs ∧
    (modPool k n f).msets = k.msets ∧ (modPool k n f).objs = k.objs ∧ (modPool k n f).doms = k.doms ∧ (modPool k n f).sched = k.sched ∧
    (modPool k n f).dram = k.dram ∧ (modPool k n f).stg = k.stg ∧ (modPool k n f).tiles = k.tiles ∧ (modPool k n f).ghcs = k.ghcs ∧
    (modPool k n f).incs = k.incs ∧ (modPool k n f).fab = k.fab ∧ (modPool k n f).stks = k.stks ∧ (modPool k n f).flss = k.flss ∧
    (modPool k n f).flOps = k.flOps ∧ (modPool k n f).flash = k.flash ∧ (modPool k n f).slotA = k.slotA ∧
    (modPool k n f).slotB = k.slotB ∧ (modPool k n f).lifeMarker = k.lifeMarker ∧ (modPool k n f).code = k.code ∧
    (modPool k n f).pwr = k.pwr ∧ (modPool k n f).pst = k.pst ∧ (modPool k n f).sec = k.sec ∧ (modPool k n f).maint = k.maint ∧
    (modPool k n f).err = k.err ∧ (modPool k n f).flts = k.flts ∧ (modPool k n f).host = k.host ∧ (modPool k n f).held = k.held ∧
    (modPool k n f).out = k.out ∧ (modPool k n f).fresh = k.fresh ∧ (modPool k n f).pools = mmod {} k.pools n f :=
  ⟨rfl, rfl, rfl, rfl, rfl, rfl, rfl, rfl, rfl, rfl, rfl, rfl, rfl, rfl, rfl, rfl, rfl, rfl, rfl, rfl, rfl, rfl, rfl, rfl, rfl, rfl, rfl, rfl, rfl, rfl, rfl, rfl, rfl, rfl, rfl, rfl, rfl, rfl, rfl, rfl, rfl⟩

@[simp] theorem modMset_fields (k : Core) (n : Nat) (f : MSet → MSet) :
    (modMset k n f).pins = k.pins ∧ (modMset k n f).shadow = k.shadow ∧ (modMset k n f).burn = k.burn ∧ (modMset k n f).glb = k.glb ∧
    (modMset k n f).regs = k.regs ∧ (modMset k n f).ctr = k.ctr ∧ (modMset k n f).pci = k.pci ∧ (modMset k n f).ports = k.ports ∧
    (modMset k n f).rings = k.rings ∧ (modMset k n f).ctxs = k.ctxs ∧ (modMset k n f).accts = k.accts ∧ (modMset k n f).seqs = k.seqs ∧
    (modMset k n f).pools = k.pools ∧ (modMset k n f).objs = k.objs ∧ (modMset k n f).doms = k.doms ∧ (modMset k n f).sched = k.sched ∧
    (modMset k n f).dram = k.dram ∧ (modMset k n f).stg = k.stg ∧ (modMset k n f).tiles = k.tiles ∧ (modMset k n f).ghcs = k.ghcs ∧
    (modMset k n f).incs = k.incs ∧ (modMset k n f).fab = k.fab ∧ (modMset k n f).stks = k.stks ∧ (modMset k n f).flss = k.flss ∧
    (modMset k n f).flOps = k.flOps ∧ (modMset k n f).flash = k.flash ∧ (modMset k n f).slotA = k.slotA ∧
    (modMset k n f).slotB = k.slotB ∧ (modMset k n f).lifeMarker = k.lifeMarker ∧ (modMset k n f).code = k.code ∧
    (modMset k n f).pwr = k.pwr ∧ (modMset k n f).pst = k.pst ∧ (modMset k n f).sec = k.sec ∧ (modMset k n f).maint = k.maint ∧
    (modMset k n f).err = k.err ∧ (modMset k n f).flts = k.flts ∧ (modMset k n f).host = k.host ∧ (modMset k n f).held = k.held ∧
    (modMset k n f).out = k.out ∧ (modMset k n f).fresh = k.fresh ∧ (modMset k n f).msets = mmod {} k.msets n f :=
  ⟨rfl, rfl, rfl, rfl, rfl, rfl, rfl, rfl, rfl, rfl, rfl, rfl, rfl, rfl, rfl, rfl, rfl, rfl, rfl, rfl, rfl, rfl, rfl, rfl, rfl, rfl, rfl, rfl, rfl, rfl, rfl, rfl, rfl, rfl, rfl, rfl, rfl, rfl, rfl, rfl, rfl⟩

@[simp] theorem modObj_fields (k : Core) (n : Nat) (f : Obj → Obj) :
    (modObj k n f).pins = k.pins ∧ (modObj k n f).shadow = k.shadow ∧ (modObj k n f).burn = k.burn ∧ (modObj k n f).glb = k.glb ∧
    (modObj k n f).regs = k.regs ∧ (modObj k n f).ctr = k.ctr ∧ (modObj k n f).pci = k.pci ∧ (modObj k n f).ports = k.ports ∧
    (modObj k n f).rings = k.rings ∧ (modObj k n f).ctxs = k.ctxs ∧ (modObj k n f).accts = k.accts ∧ (modObj k n f).seqs = k.seqs ∧
    (modObj k n f).pools = k.pools ∧ (modObj k n f).msets = k.msets ∧ (modObj k n f).doms = k.doms ∧ (modObj k n f).sched = k.sched ∧
    (modObj k n f).dram = k.dram ∧ (modObj k n f).stg = k.stg ∧ (modObj k n f).tiles = k.tiles ∧ (modObj k n f).ghcs = k.ghcs ∧
    (modObj k n f).incs = k.incs ∧ (modObj k n f).fab = k.fab ∧ (modObj k n f).stks = k.stks ∧ (modObj k n f).flss = k.flss ∧
    (modObj k n f).flOps = k.flOps ∧ (modObj k n f).flash = k.flash ∧ (modObj k n f).slotA = k.slotA ∧ (modObj k n f).slotB = k.slotB ∧
    (modObj k n f).lifeMarker = k.lifeMarker ∧ (modObj k n f).code = k.code ∧ (modObj k n f).pwr = k.pwr ∧ (modObj k n f).pst = k.pst ∧
    (modObj k n f).sec = k.sec ∧ (modObj k n f).maint = k.maint ∧ (modObj k n f).err = k.err ∧ (modObj k n f).flts = k.flts ∧
    (modObj k n f).host = k.host ∧ (modObj k n f).held = k.held ∧ (modObj k n f).out = k.out ∧ (modObj k n f).fresh = k.fresh ∧
    (modObj k n f).objs = mmod {} k.objs n f :=
  ⟨rfl, rfl, rfl, rfl, rfl, rfl, rfl, rfl, rfl, rfl, rfl, rfl, rfl, rfl, rfl, rfl, rfl, rfl, rfl, rfl, rfl, rfl, rfl, rfl, rfl, rfl, rfl, rfl, rfl, rfl, rfl, rfl, rfl, rfl, rfl, rfl, rfl, rfl, rfl, rfl, rfl⟩

@[simp] theorem modDom_fields (k : Core) (n : Nat) (f : Dom → Dom) :
    (modDom k n f).pins = k.pins ∧ (modDom k n f).shadow = k.shadow ∧ (modDom k n f).burn = k.burn ∧ (modDom k n f).glb = k.glb ∧
    (modDom k n f).regs = k.regs ∧ (modDom k n f).ctr = k.ctr ∧ (modDom k n f).pci = k.pci ∧ (modDom k n f).ports = k.ports ∧
    (modDom k n f).rings = k.rings ∧ (modDom k n f).ctxs = k.ctxs ∧ (modDom k n f).accts = k.accts ∧ (modDom k n f).seqs = k.seqs ∧
    (modDom k n f).pools = k.pools ∧ (modDom k n f).msets = k.msets ∧ (modDom k n f).objs = k.objs ∧ (modDom k n f).sched = k.sched ∧
    (modDom k n f).dram = k.dram ∧ (modDom k n f).stg = k.stg ∧ (modDom k n f).tiles = k.tiles ∧ (modDom k n f).ghcs = k.ghcs ∧
    (modDom k n f).incs = k.incs ∧ (modDom k n f).fab = k.fab ∧ (modDom k n f).stks = k.stks ∧ (modDom k n f).flss = k.flss ∧
    (modDom k n f).flOps = k.flOps ∧ (modDom k n f).flash = k.flash ∧ (modDom k n f).slotA = k.slotA ∧ (modDom k n f).slotB = k.slotB ∧
    (modDom k n f).lifeMarker = k.lifeMarker ∧ (modDom k n f).code = k.code ∧ (modDom k n f).pwr = k.pwr ∧ (modDom k n f).pst = k.pst ∧
    (modDom k n f).sec = k.sec ∧ (modDom k n f).maint = k.maint ∧ (modDom k n f).err = k.err ∧ (modDom k n f).flts = k.flts ∧
    (modDom k n f).host = k.host ∧ (modDom k n f).held = k.held ∧ (modDom k n f).out = k.out ∧ (modDom k n f).fresh = k.fresh ∧
    (modDom k n f).doms = mmod {} k.doms n f :=
  ⟨rfl, rfl, rfl, rfl, rfl, rfl, rfl, rfl, rfl, rfl, rfl, rfl, rfl, rfl, rfl, rfl, rfl, rfl, rfl, rfl, rfl, rfl, rfl, rfl, rfl, rfl, rfl, rfl, rfl, rfl, rfl, rfl, rfl, rfl, rfl, rfl, rfl, rfl, rfl, rfl, rfl⟩

@[simp] theorem modTile_fields (k : Core) (n : Nat) (f : Tile → Tile) :
    (modTile k n f).pins = k.pins ∧ (modTile k n f).shadow = k.shadow ∧ (modTile k n f).burn = k.burn ∧ (modTile k n f).glb = k.glb ∧
    (modTile k n f).regs = k.regs ∧ (modTile k n f).ctr = k.ctr ∧ (modTile k n f).pci = k.pci ∧ (modTile k n f).ports = k.ports ∧
    (modTile k n f).rings = k.rings ∧ (modTile k n f).ctxs = k.ctxs ∧ (modTile k n f).accts = k.accts ∧ (modTile k n f).seqs = k.seqs ∧
    (modTile k n f).pools = k.pools ∧ (modTile k n f).msets = k.msets ∧ (modTile k n f).objs = k.objs ∧ (modTile k n f).doms = k.doms ∧
    (modTile k n f).sched = k.sched ∧ (modTile k n f).dram = k.dram ∧ (modTile k n f).stg = k.stg ∧ (modTile k n f).ghcs = k.ghcs ∧
    (modTile k n f).incs = k.incs ∧ (modTile k n f).fab = k.fab ∧ (modTile k n f).stks = k.stks ∧ (modTile k n f).flss = k.flss ∧
    (modTile k n f).flOps = k.flOps ∧ (modTile k n f).flash = k.flash ∧ (modTile k n f).slotA = k.slotA ∧
    (modTile k n f).slotB = k.slotB ∧ (modTile k n f).lifeMarker = k.lifeMarker ∧ (modTile k n f).code = k.code ∧
    (modTile k n f).pwr = k.pwr ∧ (modTile k n f).pst = k.pst ∧ (modTile k n f).sec = k.sec ∧ (modTile k n f).maint = k.maint ∧
    (modTile k n f).err = k.err ∧ (modTile k n f).flts = k.flts ∧ (modTile k n f).host = k.host ∧ (modTile k n f).held = k.held ∧
    (modTile k n f).out = k.out ∧ (modTile k n f).fresh = k.fresh ∧ (modTile k n f).tiles = mmod {} k.tiles n f :=
  ⟨rfl, rfl, rfl, rfl, rfl, rfl, rfl, rfl, rfl, rfl, rfl, rfl, rfl, rfl, rfl, rfl, rfl, rfl, rfl, rfl, rfl, rfl, rfl, rfl, rfl, rfl, rfl, rfl, rfl, rfl, rfl, rfl, rfl, rfl, rfl, rfl, rfl, rfl, rfl, rfl, rfl⟩

@[simp] theorem modStk_fields (k : Core) (n : Nat) (f : Stk → Stk) :
    (modStk k n f).pins = k.pins ∧ (modStk k n f).shadow = k.shadow ∧ (modStk k n f).burn = k.burn ∧ (modStk k n f).glb = k.glb ∧
    (modStk k n f).regs = k.regs ∧ (modStk k n f).ctr = k.ctr ∧ (modStk k n f).pci = k.pci ∧ (modStk k n f).ports = k.ports ∧
    (modStk k n f).rings = k.rings ∧ (modStk k n f).ctxs = k.ctxs ∧ (modStk k n f).accts = k.accts ∧ (modStk k n f).seqs = k.seqs ∧
    (modStk k n f).pools = k.pools ∧ (modStk k n f).msets = k.msets ∧ (modStk k n f).objs = k.objs ∧ (modStk k n f).doms = k.doms ∧
    (modStk k n f).sched = k.sched ∧ (modStk k n f).dram = k.dram ∧ (modStk k n f).stg = k.stg ∧ (modStk k n f).tiles = k.tiles ∧
    (modStk k n f).ghcs = k.ghcs ∧ (modStk k n f).incs = k.incs ∧ (modStk k n f).fab = k.fab ∧ (modStk k n f).flss = k.flss ∧
    (modStk k n f).flOps = k.flOps ∧ (modStk k n f).flash = k.flash ∧ (modStk k n f).slotA = k.slotA ∧ (modStk k n f).slotB = k.slotB ∧
    (modStk k n f).lifeMarker = k.lifeMarker ∧ (modStk k n f).code = k.code ∧ (modStk k n f).pwr = k.pwr ∧ (modStk k n f).pst = k.pst ∧
    (modStk k n f).sec = k.sec ∧ (modStk k n f).maint = k.maint ∧ (modStk k n f).err = k.err ∧ (modStk k n f).flts = k.flts ∧
    (modStk k n f).host = k.host ∧ (modStk k n f).held = k.held ∧ (modStk k n f).out = k.out ∧ (modStk k n f).fresh = k.fresh ∧
    (modStk k n f).stks = mmod {} k.stks n f :=
  ⟨rfl, rfl, rfl, rfl, rfl, rfl, rfl, rfl, rfl, rfl, rfl, rfl, rfl, rfl, rfl, rfl, rfl, rfl, rfl, rfl, rfl, rfl, rfl, rfl, rfl, rfl, rfl, rfl, rfl, rfl, rfl, rfl, rfl, rfl, rfl, rfl, rfl, rfl, rfl, rfl, rfl⟩

@[simp] theorem modFls_fields (k : Core) (n : Nat) (f : Fls → Fls) :
    (modFls k n f).pins = k.pins ∧ (modFls k n f).shadow = k.shadow ∧ (modFls k n f).burn = k.burn ∧ (modFls k n f).glb = k.glb ∧
    (modFls k n f).regs = k.regs ∧ (modFls k n f).ctr = k.ctr ∧ (modFls k n f).pci = k.pci ∧ (modFls k n f).ports = k.ports ∧
    (modFls k n f).rings = k.rings ∧ (modFls k n f).ctxs = k.ctxs ∧ (modFls k n f).accts = k.accts ∧ (modFls k n f).seqs = k.seqs ∧
    (modFls k n f).pools = k.pools ∧ (modFls k n f).msets = k.msets ∧ (modFls k n f).objs = k.objs ∧ (modFls k n f).doms = k.doms ∧
    (modFls k n f).sched = k.sched ∧ (modFls k n f).dram = k.dram ∧ (modFls k n f).stg = k.stg ∧ (modFls k n f).tiles = k.tiles ∧
    (modFls k n f).ghcs = k.ghcs ∧ (modFls k n f).incs = k.incs ∧ (modFls k n f).fab = k.fab ∧ (modFls k n f).stks = k.stks ∧
    (modFls k n f).flOps = k.flOps ∧ (modFls k n f).flash = k.flash ∧ (modFls k n f).slotA = k.slotA ∧ (modFls k n f).slotB = k.slotB ∧
    (modFls k n f).lifeMarker = k.lifeMarker ∧ (modFls k n f).code = k.code ∧ (modFls k n f).pwr = k.pwr ∧ (modFls k n f).pst = k.pst ∧
    (modFls k n f).sec = k.sec ∧ (modFls k n f).maint = k.maint ∧ (modFls k n f).err = k.err ∧ (modFls k n f).flts = k.flts ∧
    (modFls k n f).host = k.host ∧ (modFls k n f).held = k.held ∧ (modFls k n f).out = k.out ∧ (modFls k n f).fresh = k.fresh ∧
    (modFls k n f).flss = mmod {} k.flss n f :=
  ⟨rfl, rfl, rfl, rfl, rfl, rfl, rfl, rfl, rfl, rfl, rfl, rfl, rfl, rfl, rfl, rfl, rfl, rfl, rfl, rfl, rfl, rfl, rfl, rfl, rfl, rfl, rfl, rfl, rfl, rfl, rfl, rfl, rfl, rfl, rfl, rfl, rfl, rfl, rfl, rfl, rfl⟩

@[simp] theorem modFport_fields (k : Core) (n : Nat) (f : FPort → FPort) :
    (modFport k n f).pins = k.pins ∧ (modFport k n f).shadow = k.shadow ∧ (modFport k n f).burn = k.burn ∧ (modFport k n f).glb = k.glb ∧
    (modFport k n f).regs = k.regs ∧ (modFport k n f).ctr = k.ctr ∧ (modFport k n f).pci = k.pci ∧ (modFport k n f).ports = k.ports ∧
    (modFport k n f).rings = k.rings ∧ (modFport k n f).ctxs = k.ctxs ∧ (modFport k n f).accts = k.accts ∧
    (modFport k n f).seqs = k.seqs ∧ (modFport k n f).pools = k.pools ∧ (modFport k n f).msets = k.msets ∧
    (modFport k n f).objs = k.objs ∧ (modFport k n f).doms = k.doms ∧ (modFport k n f).sched = k.sched ∧ (modFport k n f).dram = k.dram ∧
    (modFport k n f).stg = k.stg ∧ (modFport k n f).tiles = k.tiles ∧ (modFport k n f).ghcs = k.ghcs ∧ (modFport k n f).incs = k.incs ∧
    (modFport k n f).stks = k.stks ∧ (modFport k n f).flss = k.flss ∧ (modFport k n f).flOps = k.flOps ∧
    (modFport k n f).flash = k.flash ∧ (modFport k n f).slotA = k.slotA ∧ (modFport k n f).slotB = k.slotB ∧
    (modFport k n f).lifeMarker = k.lifeMarker ∧ (modFport k n f).code = k.code ∧ (modFport k n f).pwr = k.pwr ∧
    (modFport k n f).pst = k.pst ∧ (modFport k n f).sec = k.sec ∧ (modFport k n f).maint = k.maint ∧ (modFport k n f).err = k.err ∧
    (modFport k n f).flts = k.flts ∧ (modFport k n f).host = k.host ∧ (modFport k n f).held = k.held ∧ (modFport k n f).out = k.out ∧
    (modFport k n f).fresh = k.fresh ∧ (modFport k n f).fab = { k.fab with ports := mmod {} k.fab.ports n f } :=
  ⟨rfl, rfl, rfl, rfl, rfl, rfl, rfl, rfl, rfl, rfl, rfl, rfl, rfl, rfl, rfl, rfl, rfl, rfl, rfl, rfl, rfl, rfl, rfl, rfl, rfl, rfl, rfl, rfl, rfl, rfl, rfl, rfl, rfl, rfl, rfl, rfl, rfl, rfl, rfl, rfl, rfl⟩

@[simp] theorem modChan_fields (k : Core) (n : Nat) (f : Chan → Chan) :
    (modChan k n f).pins = k.pins ∧ (modChan k n f).shadow = k.shadow ∧ (modChan k n f).burn = k.burn ∧ (modChan k n f).glb = k.glb ∧
    (modChan k n f).regs = k.regs ∧ (modChan k n f).ctr = k.ctr ∧ (modChan k n f).pci = k.pci ∧ (modChan k n f).ports = k.ports ∧
    (modChan k n f).rings = k.rings ∧ (modChan k n f).ctxs = k.ctxs ∧ (modChan k n f).accts = k.accts ∧ (modChan k n f).seqs = k.seqs ∧
    (modChan k n f).pools = k.pools ∧ (modChan k n f).msets = k.msets ∧ (modChan k n f).objs = k.objs ∧ (modChan k n f).doms = k.doms ∧
    (modChan k n f).sched = k.sched ∧ (modChan k n f).dram = k.dram ∧ (modChan k n f).stg = k.stg ∧ (modChan k n f).tiles = k.tiles ∧
    (modChan k n f).ghcs = k.ghcs ∧ (modChan k n f).incs = k.incs ∧ (modChan k n f).stks = k.stks ∧ (modChan k n f).flss = k.flss ∧
    (modChan k n f).flOps = k.flOps ∧ (modChan k n f).flash = k.flash ∧ (modChan k n f).slotA = k.slotA ∧
    (modChan k n f).slotB = k.slotB ∧ (modChan k n f).lifeMarker = k.lifeMarker ∧ (modChan k n f).code = k.code ∧
    (modChan k n f).pwr = k.pwr ∧ (modChan k n f).pst = k.pst ∧ (modChan k n f).sec = k.sec ∧ (modChan k n f).maint = k.maint ∧
    (modChan k n f).err = k.err ∧ (modChan k n f).flts = k.flts ∧ (modChan k n f).host = k.host ∧ (modChan k n f).held = k.held ∧
    (modChan k n f).out = k.out ∧ (modChan k n f).fresh = k.fresh ∧
    (modChan k n f).fab = { k.fab with chans := mmod {} k.fab.chans n f } :=
  ⟨rfl, rfl, rfl, rfl, rfl, rfl, rfl, rfl, rfl, rfl, rfl, rfl, rfl, rfl, rfl, rfl, rfl, rfl, rfl, rfl, rfl, rfl, rfl, rfl, rfl, rfl, rfl, rfl, rfl, rfl, rfl, rfl, rfl, rfl, rfl, rfl, rfl, rfl, rfl, rfl, rfl⟩

@[simp] theorem modNode_fields (k : Core) (n : Nat) (f : Node → Node) :
    (modNode k n f).pins = k.pins ∧ (modNode k n f).shadow = k.shadow ∧ (modNode k n f).burn = k.burn ∧ (modNode k n f).glb = k.glb ∧
    (modNode k n f).regs = k.regs ∧ (modNode k n f).ctr = k.ctr ∧ (modNode k n f).pci = k.pci ∧ (modNode k n f).ports = k.ports ∧
    (modNode k n f).rings = k.rings ∧ (modNode k n f).ctxs = k.ctxs ∧ (modNode k n f).accts = k.accts ∧ (modNode k n f).seqs = k.seqs ∧
    (modNode k n f).pools = k.pools ∧ (modNode k n f).msets = k.msets ∧ (modNode k n f).objs = k.objs ∧ (modNode k n f).doms = k.doms ∧
    (modNode k n f).sched = k.sched ∧ (modNode k n f).dram = k.dram ∧ (modNode k n f).stg = k.stg ∧ (modNode k n f).tiles = k.tiles ∧
    (modNode k n f).ghcs = k.ghcs ∧ (modNode k n f).incs = k.incs ∧ (modNode k n f).stks = k.stks ∧ (modNode k n f).flss = k.flss ∧
    (modNode k n f).flOps = k.flOps ∧ (modNode k n f).flash = k.flash ∧ (modNode k n f).slotA = k.slotA ∧
    (modNode k n f).slotB = k.slotB ∧ (modNode k n f).lifeMarker = k.lifeMarker ∧ (modNode k n f).code = k.code ∧
    (modNode k n f).pwr = k.pwr ∧ (modNode k n f).pst = k.pst ∧ (modNode k n f).sec = k.sec ∧ (modNode k n f).maint = k.maint ∧
    (modNode k n f).err = k.err ∧ (modNode k n f).flts = k.flts ∧ (modNode k n f).host = k.host ∧ (modNode k n f).held = k.held ∧
    (modNode k n f).out = k.out ∧ (modNode k n f).fresh = k.fresh ∧
    (modNode k n f).fab = { k.fab with nodes := mmod {} k.fab.nodes n f } :=
  ⟨rfl, rfl, rfl, rfl, rfl, rfl, rfl, rfl, rfl, rfl, rfl, rfl, rfl, rfl, rfl, rfl, rfl, rfl, rfl, rfl, rfl, rfl, rfl, rfl, rfl, rfl, rfl, rfl, rfl, rfl, rfl, rfl, rfl, rfl, rfl, rfl, rfl, rfl, rfl, rfl, rfl⟩

@[simp] theorem putSession_fields (k : Core) (n : Nat) (v : Session) :
    (putSession k n v).pins = k.pins ∧ (putSession k n v).shadow = k.shadow ∧ (putSession k n v).burn = k.burn ∧
    (putSession k n v).glb = k.glb ∧ (putSession k n v).regs = k.regs ∧ (putSession k n v).ctr = k.ctr ∧ (putSession k n v).pci = k.pci ∧
    (putSession k n v).ports = k.ports ∧ (putSession k n v).rings = k.rings ∧ (putSession k n v).ctxs = k.ctxs ∧
    (putSession k n v).accts = k.accts ∧ (putSession k n v).seqs = k.seqs ∧ (putSession k n v).pools = k.pools ∧
    (putSession k n v).msets = k.msets ∧ (putSession k n v).objs = k.objs ∧ (putSession k n v).doms = k.doms ∧
    (putSession k n v).sched = k.sched ∧ (putSession k n v).dram = k.dram ∧ (putSession k n v).stg = k.stg ∧
    (putSession k n v).tiles = k.tiles ∧ (putSession k n v).ghcs = k.ghcs ∧ (putSession k n v).incs = k.incs ∧
    (putSession k n v).stks = k.stks ∧ (putSession k n v).flss = k.flss ∧ (putSession k n v).flOps = k.flOps ∧
    (putSession k n v).flash = k.flash ∧ (putSession k n v).slotA = k.slotA ∧ (putSession k n v).slotB = k.slotB ∧
    (putSession k n v).lifeMarker = k.lifeMarker ∧ (putSession k n v).code = k.code ∧ (putSession k n v).pwr = k.pwr ∧
    (putSession k n v).pst = k.pst ∧ (putSession k n v).sec = k.sec ∧ (putSession k n v).maint = k.maint ∧
    (putSession k n v).err = k.err ∧ (putSession k n v).flts = k.flts ∧ (putSession k n v).host = k.host ∧
    (putSession k n v).held = k.held ∧ (putSession k n v).out = k.out ∧ (putSession k n v).fresh = k.fresh ∧
    (putSession k n v).fab = { k.fab with sessions := mput k.fab.sessions n v } :=
  ⟨rfl, rfl, rfl, rfl, rfl, rfl, rfl, rfl, rfl, rfl, rfl, rfl, rfl, rfl, rfl, rfl, rfl, rfl, rfl, rfl, rfl, rfl, rfl, rfl, rfl, rfl, rfl, rfl, rfl, rfl, rfl, rfl, rfl, rfl, rfl, rfl, rfl, rfl, rfl, rfl, rfl⟩

@[simp] theorem modTwin_fields (k : Core) (f : Twin → Twin) :
    (modTwin k f).pins = k.pins ∧ (modTwin k f).shadow = k.shadow ∧ (modTwin k f).burn = k.burn ∧ (modTwin k f).glb = k.glb ∧
    (modTwin k f).regs = k.regs ∧ (modTwin k f).ctr = k.ctr ∧ (modTwin k f).pci = k.pci ∧ (modTwin k f).ports = k.ports ∧
    (modTwin k f).rings = k.rings ∧ (modTwin k f).ctxs = k.ctxs ∧ (modTwin k f).accts = k.accts ∧ (modTwin k f).seqs = k.seqs ∧
    (modTwin k f).pools = k.pools ∧ (modTwin k f).msets = k.msets ∧ (modTwin k f).objs = k.objs ∧ (modTwin k f).doms = k.doms ∧
    (modTwin k f).sched = k.sched ∧ (modTwin k f).dram = k.dram ∧ (modTwin k f).stg = k.stg ∧ (modTwin k f).tiles = k.tiles ∧
    (modTwin k f).ghcs = k.ghcs ∧ (modTwin k f).incs = k.incs ∧ (modTwin k f).stks = k.stks ∧ (modTwin k f).flss = k.flss ∧
    (modTwin k f).flOps = k.flOps ∧ (modTwin k f).flash = k.flash ∧ (modTwin k f).slotA = k.slotA ∧ (modTwin k f).slotB = k.slotB ∧
    (modTwin k f).lifeMarker = k.lifeMarker ∧ (modTwin k f).code = k.code ∧ (modTwin k f).pwr = k.pwr ∧ (modTwin k f).pst = k.pst ∧
    (modTwin k f).sec = k.sec ∧ (modTwin k f).maint = k.maint ∧ (modTwin k f).err = k.err ∧ (modTwin k f).flts = k.flts ∧
    (modTwin k f).host = k.host ∧ (modTwin k f).held = k.held ∧ (modTwin k f).out = k.out ∧ (modTwin k f).fresh = k.fresh ∧
    (modTwin k f).fab = { k.fab with twin := f k.fab.twin } :=
  ⟨rfl, rfl, rfl, rfl, rfl, rfl, rfl, rfl, rfl, rfl, rfl, rfl, rfl, rfl, rfl, rfl, rfl, rfl, rfl, rfl, rfl, rfl, rfl, rfl, rfl, rfl, rfl, rfl, rfl, rfl, rfl, rfl, rfl, rfl, rfl, rfl, rfl, rfl, rfl, rfl, rfl⟩

@[simp] theorem modPwr_fields (k : Core) (f : Pwr → Pwr) :
    (modPwr k f).pins = k.pins ∧ (modPwr k f).shadow = k.shadow ∧ (modPwr k f).burn = k.burn ∧ (modPwr k f).glb = k.glb ∧
    (modPwr k f).regs = k.regs ∧ (modPwr k f).ctr = k.ctr ∧ (modPwr k f).pci = k.pci ∧ (modPwr k f).ports = k.ports ∧
    (modPwr k f).rings = k.rings ∧ (modPwr k f).ctxs = k.ctxs ∧ (modPwr k f).accts = k.accts ∧ (modPwr k f).seqs = k.seqs ∧
    (modPwr k f).pools = k.pools ∧ (modPwr k f).msets = k.msets ∧ (modPwr k f).objs = k.objs ∧ (modPwr k f).doms = k.doms ∧
    (modPwr k f).sched = k.sched ∧ (modPwr k f).dram = k.dram ∧ (modPwr k f).stg = k.stg ∧ (modPwr k f).tiles = k.tiles ∧
    (modPwr k f).ghcs = k.ghcs ∧ (modPwr k f).incs = k.incs ∧ (modPwr k f).fab = k.fab ∧ (modPwr k f).stks = k.stks ∧
    (modPwr k f).flss = k.flss ∧ (modPwr k f).flOps = k.flOps ∧ (modPwr k f).flash = k.flash ∧ (modPwr k f).slotA = k.slotA ∧
    (modPwr k f).slotB = k.slotB ∧ (modPwr k f).lifeMarker = k.lifeMarker ∧ (modPwr k f).code = k.code ∧ (modPwr k f).pst = k.pst ∧
    (modPwr k f).sec = k.sec ∧ (modPwr k f).maint = k.maint ∧ (modPwr k f).err = k.err ∧ (modPwr k f).flts = k.flts ∧
    (modPwr k f).host = k.host ∧ (modPwr k f).held = k.held ∧ (modPwr k f).out = k.out ∧ (modPwr k f).fresh = k.fresh ∧
    (modPwr k f).pwr = f k.pwr :=
  ⟨rfl, rfl, rfl, rfl, rfl, rfl, rfl, rfl, rfl, rfl, rfl, rfl, rfl, rfl, rfl, rfl, rfl, rfl, rfl, rfl, rfl, rfl, rfl, rfl, rfl, rfl, rfl, rfl, rfl, rfl, rfl, rfl, rfl, rfl, rfl, rfl, rfl, rfl, rfl, rfl, rfl⟩

@[simp] theorem modPst_fields (k : Core) (f : Pst → Pst) :
    (modPst k f).pins = k.pins ∧ (modPst k f).shadow = k.shadow ∧ (modPst k f).burn = k.burn ∧ (modPst k f).glb = k.glb ∧
    (modPst k f).regs = k.regs ∧ (modPst k f).ctr = k.ctr ∧ (modPst k f).pci = k.pci ∧ (modPst k f).ports = k.ports ∧
    (modPst k f).rings = k.rings ∧ (modPst k f).ctxs = k.ctxs ∧ (modPst k f).accts = k.accts ∧ (modPst k f).seqs = k.seqs ∧
    (modPst k f).pools = k.pools ∧ (modPst k f).msets = k.msets ∧ (modPst k f).objs = k.objs ∧ (modPst k f).doms = k.doms ∧
    (modPst k f).sched = k.sched ∧ (modPst k f).dram = k.dram ∧ (modPst k f).stg = k.stg ∧ (modPst k f).tiles = k.tiles ∧
    (modPst k f).ghcs = k.ghcs ∧ (modPst k f).incs = k.incs ∧ (modPst k f).fab = k.fab ∧ (modPst k f).stks = k.stks ∧
    (modPst k f).flss = k.flss ∧ (modPst k f).flOps = k.flOps ∧ (modPst k f).flash = k.flash ∧ (modPst k f).slotA = k.slotA ∧
    (modPst k f).slotB = k.slotB ∧ (modPst k f).lifeMarker = k.lifeMarker ∧ (modPst k f).code = k.code ∧ (modPst k f).pwr = k.pwr ∧
    (modPst k f).sec = k.sec ∧ (modPst k f).maint = k.maint ∧ (modPst k f).err = k.err ∧ (modPst k f).flts = k.flts ∧
    (modPst k f).host = k.host ∧ (modPst k f).held = k.held ∧ (modPst k f).out = k.out ∧ (modPst k f).fresh = k.fresh ∧
    (modPst k f).pst = f k.pst :=
  ⟨rfl, rfl, rfl, rfl, rfl, rfl, rfl, rfl, rfl, rfl, rfl, rfl, rfl, rfl, rfl, rfl, rfl, rfl, rfl, rfl, rfl, rfl, rfl, rfl, rfl, rfl, rfl, rfl, rfl, rfl, rfl, rfl, rfl, rfl, rfl, rfl, rfl, rfl, rfl, rfl, rfl⟩

@[simp] theorem modSec_fields (k : Core) (f : Sec → Sec) :
    (modSec k f).pins = k.pins ∧ (modSec k f).shadow = k.shadow ∧ (modSec k f).burn = k.burn ∧ (modSec k f).glb = k.glb ∧
    (modSec k f).regs = k.regs ∧ (modSec k f).ctr = k.ctr ∧ (modSec k f).pci = k.pci ∧ (modSec k f).ports = k.ports ∧
    (modSec k f).rings = k.rings ∧ (modSec k f).ctxs = k.ctxs ∧ (modSec k f).accts = k.accts ∧ (modSec k f).seqs = k.seqs ∧
    (modSec k f).pools = k.pools ∧ (modSec k f).msets = k.msets ∧ (modSec k f).objs = k.objs ∧ (modSec k f).doms = k.doms ∧
    (modSec k f).sched = k.sched ∧ (modSec k f).dram = k.dram ∧ (modSec k f).stg = k.stg ∧ (modSec k f).tiles = k.tiles ∧
    (modSec k f).ghcs = k.ghcs ∧ (modSec k f).incs = k.incs ∧ (modSec k f).fab = k.fab ∧ (modSec k f).stks = k.stks ∧
    (modSec k f).flss = k.flss ∧ (modSec k f).flOps = k.flOps ∧ (modSec k f).flash = k.flash ∧ (modSec k f).slotA = k.slotA ∧
    (modSec k f).slotB = k.slotB ∧ (modSec k f).lifeMarker = k.lifeMarker ∧ (modSec k f).code = k.code ∧ (modSec k f).pwr = k.pwr ∧
    (modSec k f).pst = k.pst ∧ (modSec k f).maint = k.maint ∧ (modSec k f).err = k.err ∧ (modSec k f).flts = k.flts ∧
    (modSec k f).host = k.host ∧ (modSec k f).held = k.held ∧ (modSec k f).out = k.out ∧ (modSec k f).fresh = k.fresh ∧
    (modSec k f).sec = f k.sec :=
  ⟨rfl, rfl, rfl, rfl, rfl, rfl, rfl, rfl, rfl, rfl, rfl, rfl, rfl, rfl, rfl, rfl, rfl, rfl, rfl, rfl, rfl, rfl, rfl, rfl, rfl, rfl, rfl, rfl, rfl, rfl, rfl, rfl, rfl, rfl, rfl, rfl, rfl, rfl, rfl, rfl, rfl⟩

@[simp] theorem modMaint_fields (k : Core) (f : Maint → Maint) :
    (modMaint k f).pins = k.pins ∧ (modMaint k f).shadow = k.shadow ∧ (modMaint k f).burn = k.burn ∧ (modMaint k f).glb = k.glb ∧
    (modMaint k f).regs = k.regs ∧ (modMaint k f).ctr = k.ctr ∧ (modMaint k f).pci = k.pci ∧ (modMaint k f).ports = k.ports ∧
    (modMaint k f).rings = k.rings ∧ (modMaint k f).ctxs = k.ctxs ∧ (modMaint k f).accts = k.accts ∧ (modMaint k f).seqs = k.seqs ∧
    (modMaint k f).pools = k.pools ∧ (modMaint k f).msets = k.msets ∧ (modMaint k f).objs = k.objs ∧ (modMaint k f).doms = k.doms ∧
    (modMaint k f).sched = k.sched ∧ (modMaint k f).dram = k.dram ∧ (modMaint k f).stg = k.stg ∧ (modMaint k f).tiles = k.tiles ∧
    (modMaint k f).ghcs = k.ghcs ∧ (modMaint k f).incs = k.incs ∧ (modMaint k f).fab = k.fab ∧ (modMaint k f).stks = k.stks ∧
    (modMaint k f).flss = k.flss ∧ (modMaint k f).flOps = k.flOps ∧ (modMaint k f).flash = k.flash ∧ (modMaint k f).slotA = k.slotA ∧
    (modMaint k f).slotB = k.slotB ∧ (modMaint k f).lifeMarker = k.lifeMarker ∧ (modMaint k f).code = k.code ∧
    (modMaint k f).pwr = k.pwr ∧ (modMaint k f).pst = k.pst ∧ (modMaint k f).sec = k.sec ∧ (modMaint k f).err = k.err ∧
    (modMaint k f).flts = k.flts ∧ (modMaint k f).host = k.host ∧ (modMaint k f).held = k.held ∧ (modMaint k f).out = k.out ∧
    (modMaint k f).fresh = k.fresh ∧ (modMaint k f).maint = f k.maint :=
  ⟨rfl, rfl, rfl, rfl, rfl, rfl, rfl, rfl, rfl, rfl, rfl, rfl, rfl, rfl, rfl, rfl, rfl, rfl, rfl, rfl, rfl, rfl, rfl, rfl, rfl, rfl, rfl, rfl, rfl, rfl, rfl, rfl, rfl, rfl, rfl, rfl, rfl, rfl, rfl, rfl, rfl⟩

@[simp] theorem modStart_fields (k : Core) (f : Startup → Startup) :
    (modStart k f).pins = k.pins ∧ (modStart k f).shadow = k.shadow ∧ (modStart k f).burn = k.burn ∧ (modStart k f).regs = k.regs ∧
    (modStart k f).ctr = k.ctr ∧ (modStart k f).pci = k.pci ∧ (modStart k f).ports = k.ports ∧ (modStart k f).rings = k.rings ∧
    (modStart k f).ctxs = k.ctxs ∧ (modStart k f).accts = k.accts ∧ (modStart k f).seqs = k.seqs ∧ (modStart k f).pools = k.pools ∧
    (modStart k f).msets = k.msets ∧ (modStart k f).objs = k.objs ∧ (modStart k f).doms = k.doms ∧ (modStart k f).sched = k.sched ∧
    (modStart k f).dram = k.dram ∧ (modStart k f).stg = k.stg ∧ (modStart k f).tiles = k.tiles ∧ (modStart k f).ghcs = k.ghcs ∧
    (modStart k f).incs = k.incs ∧ (modStart k f).fab = k.fab ∧ (modStart k f).stks = k.stks ∧ (modStart k f).flss = k.flss ∧
    (modStart k f).flOps = k.flOps ∧ (modStart k f).flash = k.flash ∧ (modStart k f).slotA = k.slotA ∧ (modStart k f).slotB = k.slotB ∧
    (modStart k f).lifeMarker = k.lifeMarker ∧ (modStart k f).code = k.code ∧ (modStart k f).pwr = k.pwr ∧ (modStart k f).pst = k.pst ∧
    (modStart k f).sec = k.sec ∧ (modStart k f).maint = k.maint ∧ (modStart k f).err = k.err ∧ (modStart k f).flts = k.flts ∧
    (modStart k f).host = k.host ∧ (modStart k f).held = k.held ∧ (modStart k f).out = k.out ∧ (modStart k f).fresh = k.fresh ∧
    (modStart k f).glb = { k.glb with startup := f k.glb.startup } :=
  ⟨rfl, rfl, rfl, rfl, rfl, rfl, rfl, rfl, rfl, rfl, rfl, rfl, rfl, rfl, rfl, rfl, rfl, rfl, rfl, rfl, rfl, rfl, rfl, rfl, rfl, rfl, rfl, rfl, rfl, rfl, rfl, rfl, rfl, rfl, rfl, rfl, rfl, rfl, rfl, rfl, rfl⟩

@[simp] theorem bump_fields (k : Core) (off n : Nat) :
    (bump k off n).pins = k.pins ∧ (bump k off n).shadow = k.shadow ∧ (bump k off n).burn = k.burn ∧ (bump k off n).glb = k.glb ∧
    (bump k off n).regs = k.regs ∧ (bump k off n).pci = k.pci ∧ (bump k off n).ports = k.ports ∧ (bump k off n).rings = k.rings ∧
    (bump k off n).ctxs = k.ctxs ∧ (bump k off n).accts = k.accts ∧ (bump k off n).seqs = k.seqs ∧ (bump k off n).pools = k.pools ∧
    (bump k off n).msets = k.msets ∧ (bump k off n).objs = k.objs ∧ (bump k off n).doms = k.doms ∧ (bump k off n).sched = k.sched ∧
    (bump k off n).dram = k.dram ∧ (bump k off n).stg = k.stg ∧ (bump k off n).tiles = k.tiles ∧ (bump k off n).ghcs = k.ghcs ∧
    (bump k off n).incs = k.incs ∧ (bump k off n).fab = k.fab ∧ (bump k off n).stks = k.stks ∧ (bump k off n).flss = k.flss ∧
    (bump k off n).flOps = k.flOps ∧ (bump k off n).flash = k.flash ∧ (bump k off n).slotA = k.slotA ∧ (bump k off n).slotB = k.slotB ∧
    (bump k off n).lifeMarker = k.lifeMarker ∧ (bump k off n).code = k.code ∧ (bump k off n).pwr = k.pwr ∧ (bump k off n).pst = k.pst ∧
    (bump k off n).sec = k.sec ∧ (bump k off n).maint = k.maint ∧ (bump k off n).err = k.err ∧ (bump k off n).flts = k.flts ∧
    (bump k off n).host = k.host ∧ (bump k off n).held = k.held ∧ (bump k off n).out = k.out ∧ (bump k off n).fresh = k.fresh := by
  unfold bump; split <;> simp

@[simp] theorem finish_pending (s : State) (k : Core) : (s.finish k).pending = s.pending := rfl

/-- Blowing a fuse keeps every bit that is blown (R474). -/
theorem program_le (f : Fuses) (w : FuseWrite) : f.le (f.program w) := by
  cases w <;> simp only [Fuses.le, Fuses.program, BitVec.and_self, and_self, and_true, true_and] <;> ext i <;> simp <;> tauto

end Sys2Proof.Laws
end

