-- ==== Sys2Proof/Laws/Ops.lean ====
section
/-! SUPPORT. The frames of the shared operations: which parts of the core a write to host memory, an interrupt, a completion record, a
retirement, a delivery record and an error record can touch; every other part is as before. -/

namespace Sys2Proof.Laws
open Sys2Proof.Machine

/-- Emitting one item for each element of a list only puts them before what was emitted. -/
theorem foldl_emit {α : Type} (g : α → Emit) (l : List α) (k : Core) :
    l.foldl (fun k x => emit k (g x)) k = { k with out := (l.map g).reverse ++ k.out } := by
  induction l generalizing k with
  | nil => rfl
  | cons x l ih => rw [List.foldl_cons, ih]; simp [emit]

@[simp] theorem hostDo_frame (k : Core) (r : HostOp) :
    (hostDo k r).pins = k.pins ∧ (hostDo k r).shadow = k.shadow ∧ (hostDo k r).burn = k.burn ∧ (hostDo k r).glb = k.glb ∧
    (hostDo k r).regs = k.regs ∧ (hostDo k r).ctr = k.ctr ∧ (hostDo k r).pci = k.pci ∧ (hostDo k r).ports = k.ports ∧
    (hostDo k r).rings = k.rings ∧ (hostDo k r).ctxs = k.ctxs ∧ (hostDo k r).accts = k.accts ∧ (hostDo k r).seqs = k.seqs ∧
    (hostDo k r).pools = k.pools ∧ (hostDo k r).msets = k.msets ∧ (hostDo k r).objs = k.objs ∧ (hostDo k r).doms = k.doms ∧
    (hostDo k r).sched = k.sched ∧ (hostDo k r).dram = k.dram ∧ (hostDo k r).stg = k.stg ∧ (hostDo k r).tiles = k.tiles ∧
    (hostDo k r).ghcs = k.ghcs ∧ (hostDo k r).incs = k.incs ∧ (hostDo k r).fab = k.fab ∧ (hostDo k r).stks = k.stks ∧
    (hostDo k r).flss = k.flss ∧ (hostDo k r).flOps = k.flOps ∧ (hostDo k r).flash = k.flash ∧ (hostDo k r).slotA = k.slotA ∧
    (hostDo k r).slotB = k.slotB ∧ (hostDo k r).lifeMarker = k.lifeMarker ∧ (hostDo k r).code = k.code ∧ (hostDo k r).pwr = k.pwr ∧
    (hostDo k r).pst = k.pst ∧ (hostDo k r).sec = k.sec ∧ (hostDo k r).maint = k.maint ∧ (hostDo k r).err = k.err ∧
    (hostDo k r).flts = k.flts ∧ (hostDo k r).held = k.held ∧ (hostDo k r).fresh = k.fresh := by
  cases r <;> simp [hostDo, foldl_emit]

@[simp] theorem hostReq_frame (k : Core) (r : HostOp) :
    (hostReq k r).pins = k.pins ∧ (hostReq k r).shadow = k.shadow ∧ (hostReq k r).burn = k.burn ∧ (hostReq k r).glb = k.glb ∧
    (hostReq k r).regs = k.regs ∧ (hostReq k r).ctr = k.ctr ∧ (hostReq k r).pci = k.pci ∧ (hostReq k r).ports = k.ports ∧
    (hostReq k r).rings = k.rings ∧ (hostReq k r).ctxs = k.ctxs ∧ (hostReq k r).accts = k.accts ∧ (hostReq k r).seqs = k.seqs ∧
    (hostReq k r).pools = k.pools ∧ (hostReq k r).msets = k.msets ∧ (hostReq k r).objs = k.objs ∧ (hostReq k r).doms = k.doms ∧
    (hostReq k r).sched = k.sched ∧ (hostReq k r).dram = k.dram ∧ (hostReq k r).stg = k.stg ∧ (hostReq k r).tiles = k.tiles ∧
    (hostReq k r).ghcs = k.ghcs ∧ (hostReq k r).incs = k.incs ∧ (hostReq k r).fab = k.fab ∧ (hostReq k r).stks = k.stks ∧
    (hostReq k r).flss = k.flss ∧ (hostReq k r).flOps = k.flOps ∧ (hostReq k r).flash = k.flash ∧ (hostReq k r).slotA = k.slotA ∧
    (hostReq k r).slotB = k.slotB ∧ (hostReq k r).lifeMarker = k.lifeMarker ∧ (hostReq k r).code = k.code ∧ (hostReq k r).pwr = k.pwr ∧
    (hostReq k r).pst = k.pst ∧ (hostReq k r).sec = k.sec ∧ (hostReq k r).maint = k.maint ∧ (hostReq k r).err = k.err ∧
    (hostReq k r).flts = k.flts ∧ (hostReq k r).fresh = k.fresh := by
  unfold hostReq; split <;> simp

@[simp] theorem hostWrite_frame (k : Core) (a : Nat) (l : List Byte) :
    (hostWrite k a l).pins = k.pins ∧ (hostWrite k a l).shadow = k.shadow ∧ (hostWrite k a l).burn = k.burn ∧
    (hostWrite k a l).glb = k.glb ∧ (hostWrite k a l).regs = k.regs ∧ (hostWrite k a l).ctr = k.ctr ∧ (hostWrite k a l).pci = k.pci ∧
    (hostWrite k a l).ports = k.ports ∧ (hostWrite k a l).rings = k.rings ∧ (hostWrite k a l).ctxs = k.ctxs ∧
    (hostWrite k a l).accts = k.accts ∧ (hostWrite k a l).seqs = k.seqs ∧ (hostWrite k a l).pools = k.pools ∧
    (hostWrite k a l).msets = k.msets ∧ (hostWrite k a l).objs = k.objs ∧ (hostWrite k a l).doms = k.doms ∧
    (hostWrite k a l).sched = k.sched ∧ (hostWrite k a l).dram = k.dram ∧ (hostWrite k a l).stg = k.stg ∧
    (hostWrite k a l).tiles = k.tiles ∧ (hostWrite k a l).ghcs = k.ghcs ∧ (hostWrite k a l).incs = k.incs ∧
    (hostWrite k a l).fab = k.fab ∧ (hostWrite k a l).stks = k.stks ∧ (hostWrite k a l).flss = k.flss ∧
    (hostWrite k a l).flOps = k.flOps ∧ (hostWrite k a l).flash = k.flash ∧ (hostWrite k a l).slotA = k.slotA ∧
    (hostWrite k a l).slotB = k.slotB ∧ (hostWrite k a l).lifeMarker = k.lifeMarker ∧ (hostWrite k a l).code = k.code ∧
    (hostWrite k a l).pwr = k.pwr ∧ (hostWrite k a l).pst = k.pst ∧ (hostWrite k a l).sec = k.sec ∧ (hostWrite k a l).maint = k.maint ∧
    (hostWrite k a l).err = k.err ∧ (hostWrite k a l).flts = k.flts ∧ (hostWrite k a l).fresh = k.fresh := by
  simp [hostWrite]

@[simp] theorem issueRead_frame (k : Core) (t : Nat) (r : HostRd) (rest : List HostRd) :
    (issueRead k t r rest).pins = k.pins ∧ (issueRead k t r rest).shadow = k.shadow ∧ (issueRead k t r rest).burn = k.burn ∧
    (issueRead k t r rest).glb = k.glb ∧ (issueRead k t r rest).regs = k.regs ∧ (issueRead k t r rest).ctr = k.ctr ∧
    (issueRead k t r rest).ports = k.ports ∧ (issueRead k t r rest).rings = k.rings ∧ (issueRead k t r rest).ctxs = k.ctxs ∧
    (issueRead k t r rest).accts = k.accts ∧ (issueRead k t r rest).seqs = k.seqs ∧ (issueRead k t r rest).pools = k.pools ∧
    (issueRead k t r rest).msets = k.msets ∧ (issueRead k t r rest).objs = k.objs ∧ (issueRead k t r rest).doms = k.doms ∧
    (issueRead k t r rest).sched = k.sched ∧ (issueRead k t r rest).dram = k.dram ∧ (issueRead k t r rest).stg = k.stg ∧
    (issueRead k t r rest).tiles = k.tiles ∧ (issueRead k t r rest).ghcs = k.ghcs ∧ (issueRead k t r rest).incs = k.incs ∧
    (issueRead k t r rest).fab = k.fab ∧ (issueRead k t r rest).stks = k.stks ∧ (issueRead k t r rest).flss = k.flss ∧
    (issueRead k t r rest).flOps = k.flOps ∧ (issueRead k t r rest).flash = k.flash ∧ (issueRead k t r rest).slotA = k.slotA ∧
    (issueRead k t r rest).slotB = k.slotB ∧ (issueRead k t r rest).lifeMarker = k.lifeMarker ∧ (issueRead k t r rest).code = k.code ∧
    (issueRead k t r rest).pwr = k.pwr ∧ (issueRead k t r rest).pst = k.pst ∧ (issueRead k t r rest).sec = k.sec ∧
    (issueRead k t r rest).maint = k.maint ∧ (issueRead k t r rest).err = k.err ∧ (issueRead k t r rest).flts = k.flts ∧
    (issueRead k t r rest).host = k.host ∧ (issueRead k t r rest).held = k.held ∧ (issueRead k t r rest).fresh = k.fresh ∧
    (issueRead k t r rest).pci.lanes = k.pci.lanes ∧ (issueRead k t r rest).pci.speed = k.pci.speed ∧
    (issueRead k t r rest).pci.flit = k.pci.flit ∧ (issueRead k t r rest).pci.downtrain = k.pci.downtrain ∧
    (issueRead k t r rest).pci.busMaster = k.pci.busMaster ∧ (issueRead k t r rest).pci.d3hot = k.pci.d3hot ∧
    (issueRead k t r rest).pci.tagBits = k.pci.tagBits ∧ (issueRead k t r rest).pci.maxPayload = k.pci.maxPayload ∧
    (issueRead k t r rest).pci.maxReadRequest = k.pci.maxReadRequest ∧ (issueRead k t r rest).pci.bar4Gib = k.pci.bar4Gib ∧
    (issueRead k t r rest).pci.msixOn = k.pci.msixOn ∧ (issueRead k t r rest).pci.msixMaskAll = k.pci.msixMaskAll ∧
    (issueRead k t r rest).pci.msixTab = k.pci.msixTab ∧ (issueRead k t r rest).pci.msixPend = k.pci.msixPend ∧
    (issueRead k t r rest).pci.cplRange = k.pci.cplRange ∧ (issueRead k t r rest).pci.ecrcGen = k.pci.ecrcGen ∧
    (issueRead k t r rest).pci.ecrcCheck = k.pci.ecrcCheck ∧ (issueRead k t r rest).pci.aerHdr = k.pci.aerHdr ∧
    (issueRead k t r rest).pci.got = k.pci.got := by
  simp [issueRead]

@[simp] theorem issueReads_frame (k : Core) (n : Nat) :
    (issueReads k n).pins = k.pins ∧ (issueReads k n).shadow = k.shadow ∧ (issueReads k n).burn = k.burn ∧ (issueReads k n).glb = k.glb ∧
    (issueReads k n).regs = k.regs ∧ (issueReads k n).ctr = k.ctr ∧ (issueReads k n).ports = k.ports ∧ (issueReads k n).rings = k.rings ∧
    (issueReads k n).ctxs = k.ctxs ∧ (issueReads k n).accts = k.accts ∧ (issueReads k n).seqs = k.seqs ∧
    (issueReads k n).pools = k.pools ∧ (issueReads k n).msets = k.msets ∧ (issueReads k n).objs = k.objs ∧
    (issueReads k n).doms = k.doms ∧ (issueReads k n).sched = k.sched ∧ (issueReads k n).dram = k.dram ∧ (issueReads k n).stg = k.stg ∧
    (issueReads k n).tiles = k.tiles ∧ (issueReads k n).ghcs = k.ghcs ∧ (issueReads k n).incs = k.incs ∧ (issueReads k n).fab = k.fab ∧
    (issueReads k n).stks = k.stks ∧ (issueReads k n).flss = k.flss ∧ (issueReads k n).flOps = k.flOps ∧
    (issueReads k n).flash = k.flash ∧ (issueReads k n).slotA = k.slotA ∧ (issueReads k n).slotB = k.slotB ∧
    (issueReads k n).lifeMarker = k.lifeMarker ∧ (issueReads k n).code = k.code ∧ (issueReads k n).pwr = k.pwr ∧
    (issueReads k n).pst = k.pst ∧ (issueReads k n).sec = k.sec ∧ (issueReads k n).maint = k.maint ∧ (issueReads k n).err = k.err ∧
    (issueReads k n).flts = k.flts ∧ (issueReads k n).host = k.host ∧ (issueReads k n).held = k.held ∧ (issueReads k n).fresh = k.fresh ∧
    (issueReads k n).pci.lanes = k.pci.lanes ∧ (issueReads k n).pci.speed = k.pci.speed ∧ (issueReads k n).pci.flit = k.pci.flit ∧
    (issueReads k n).pci.downtrain = k.pci.downtrain ∧ (issueReads k n).pci.busMaster = k.pci.busMaster ∧
    (issueReads k n).pci.d3hot = k.pci.d3hot ∧ (issueReads k n).pci.tagBits = k.pci.tagBits ∧
    (issueReads k n).pci.maxPayload = k.pci.maxPayload ∧ (issueReads k n).pci.maxReadRequest = k.pci.maxReadRequest ∧
    (issueReads k n).pci.bar4Gib = k.pci.bar4Gib ∧ (issueReads k n).pci.msixOn = k.pci.msixOn ∧
    (issueReads k n).pci.msixMaskAll = k.pci.msixMaskAll ∧ (issueReads k n).pci.msixTab = k.pci.msixTab ∧
    (issueReads k n).pci.msixPend = k.pci.msixPend ∧ (issueReads k n).pci.cplRange = k.pci.cplRange ∧
    (issueReads k n).pci.ecrcGen = k.pci.ecrcGen ∧ (issueReads k n).pci.ecrcCheck = k.pci.ecrcCheck ∧
    (issueReads k n).pci.aerHdr = k.pci.aerHdr ∧ (issueReads k n).pci.got = k.pci.got := by
  induction n generalizing k with
  | zero => simp [issueReads]
  | succ n ih => unfold issueReads; split <;> [split; skip] <;> simp [ih]

@[simp] theorem hostIssue_frame (k : Core)  :
    (hostIssue k).pins = k.pins ∧ (hostIssue k).shadow = k.shadow ∧ (hostIssue k).burn = k.burn ∧ (hostIssue k).glb = k.glb ∧
    (hostIssue k).regs = k.regs ∧ (hostIssue k).ports = k.ports ∧ (hostIssue k).rings = k.rings ∧ (hostIssue k).ctxs = k.ctxs ∧
    (hostIssue k).accts = k.accts ∧ (hostIssue k).seqs = k.seqs ∧ (hostIssue k).pools = k.pools ∧ (hostIssue k).msets = k.msets ∧
    (hostIssue k).objs = k.objs ∧ (hostIssue k).doms = k.doms ∧ (hostIssue k).sched = k.sched ∧ (hostIssue k).dram = k.dram ∧
    (hostIssue k).stg = k.stg ∧ (hostIssue k).tiles = k.tiles ∧ (hostIssue k).ghcs = k.ghcs ∧ (hostIssue k).incs = k.incs ∧
    (hostIssue k).fab = k.fab ∧ (hostIssue k).stks = k.stks ∧ (hostIssue k).flss = k.flss ∧ (hostIssue k).flOps = k.flOps ∧
    (hostIssue k).flash = k.flash ∧ (hostIssue k).slotA = k.slotA ∧ (hostIssue k).slotB = k.slotB ∧
    (hostIssue k).lifeMarker = k.lifeMarker ∧ (hostIssue k).code = k.code ∧ (hostIssue k).pwr = k.pwr ∧ (hostIssue k).pst = k.pst ∧
    (hostIssue k).sec = k.sec ∧ (hostIssue k).maint = k.maint ∧ (hostIssue k).err = k.err ∧ (hostIssue k).flts = k.flts ∧
    (hostIssue k).host = k.host ∧ (hostIssue k).held = k.held ∧ (hostIssue k).pci.lanes = k.pci.lanes ∧
    (hostIssue k).pci.speed = k.pci.speed ∧ (hostIssue k).pci.flit = k.pci.flit ∧ (hostIssue k).pci.downtrain = k.pci.downtrain ∧
    (hostIssue k).pci.busMaster = k.pci.busMaster ∧ (hostIssue k).pci.d3hot = k.pci.d3hot ∧ (hostIssue k).pci.tagBits = k.pci.tagBits ∧
    (hostIssue k).pci.maxPayload = k.pci.maxPayload ∧ (hostIssue k).pci.maxReadRequest = k.pci.maxReadRequest ∧
    (hostIssue k).pci.bar4Gib = k.pci.bar4Gib ∧ (hostIssue k).pci.msixOn = k.pci.msixOn ∧
    (hostIssue k).pci.msixMaskAll = k.pci.msixMaskAll ∧ (hostIssue k).pci.msixTab = k.pci.msixTab ∧
    (hostIssue k).pci.msixPend = k.pci.msixPend ∧ (hostIssue k).pci.cplRange = k.pci.cplRange ∧
    (hostIssue k).pci.ecrcGen = k.pci.ecrcGen ∧ (hostIssue k).pci.ecrcCheck = k.pci.ecrcCheck ∧ (hostIssue k).pci.aerHdr = k.pci.aerHdr ∧
    (hostIssue k).pci.got = k.pci.got := by
  simp only [hostIssue, drawNat]; split <;> simp

@[simp] theorem hostRead_frame (k : Core) (r : HostRd) :
    (hostRead k r).pins = k.pins ∧ (hostRead k r).shadow = k.shadow ∧ (hostRead k r).burn = k.burn ∧ (hostRead k r).glb = k.glb ∧
    (hostRead k r).regs = k.regs ∧ (hostRead k r).ports = k.ports ∧ (hostRead k r).rings = k.rings ∧ (hostRead k r).ctxs = k.ctxs ∧
    (hostRead k r).accts = k.accts ∧ (hostRead k r).seqs = k.seqs ∧ (hostRead k r).pools = k.pools ∧ (hostRead k r).msets = k.msets ∧
    (hostRead k r).objs = k.objs ∧ (hostRead k r).doms = k.doms ∧ (hostRead k r).sched = k.sched ∧ (hostRead k r).dram = k.dram ∧
    (hostRead k r).stg = k.stg ∧ (hostRead k r).tiles = k.tiles ∧ (hostRead k r).ghcs = k.ghcs ∧ (hostRead k r).incs = k.incs ∧
    (hostRead k r).fab = k.fab ∧ (hostRead k r).stks = k.stks ∧ (hostRead k r).flss = k.flss ∧ (hostRead k r).flOps = k.flOps ∧
    (hostRead k r).flash = k.flash ∧ (hostRead k r).slotA = k.slotA ∧ (hostRead k r).slotB = k.slotB ∧
    (hostRead k r).lifeMarker = k.lifeMarker ∧ (hostRead k r).code = k.code ∧ (hostRead k r).pwr = k.pwr ∧ (hostRead k r).pst = k.pst ∧
    (hostRead k r).sec = k.sec ∧ (hostRead k r).maint = k.maint ∧ (hostRead k r).err = k.err ∧ (hostRead k r).flts = k.flts ∧
    (hostRead k r).host = k.host ∧ (hostRead k r).held = k.held ∧ (hostRead k r).pci.lanes = k.pci.lanes ∧
    (hostRead k r).pci.speed = k.pci.speed ∧ (hostRead k r).pci.flit = k.pci.flit ∧ (hostRead k r).pci.downtrain = k.pci.downtrain ∧
    (hostRead k r).pci.busMaster = k.pci.busMaster ∧ (hostRead k r).pci.d3hot = k.pci.d3hot ∧ (hostRead k r).pci.tagBits = k.pci.tagBits ∧
    (hostRead k r).pci.maxPayload = k.pci.maxPayload ∧ (hostRead k r).pci.maxReadRequest = k.pci.maxReadRequest ∧
    (hostRead k r).pci.bar4Gib = k.pci.bar4Gib ∧ (hostRead k r).pci.msixOn = k.pci.msixOn ∧
    (hostRead k r).pci.msixMaskAll = k.pci.msixMaskAll ∧ (hostRead k r).pci.msixTab = k.pci.msixTab ∧
    (hostRead k r).pci.msixPend = k.pci.msixPend ∧ (hostRead k r).pci.cplRange = k.pci.cplRange ∧
    (hostRead k r).pci.ecrcGen = k.pci.ecrcGen ∧ (hostRead k r).pci.ecrcCheck = k.pci.ecrcCheck ∧
    (hostRead k r).pci.aerHdr = k.pci.aerHdr ∧ (hostRead k r).pci.got = k.pci.got := by
  simp [hostRead]

@[simp] theorem msix_frame (k : Core) (v : Nat) :
    (msix k v).pins = k.pins ∧ (msix k v).shadow = k.shadow ∧ (msix k v).burn = k.burn ∧ (msix k v).glb = k.glb ∧
    (msix k v).regs = k.regs ∧ (msix k v).ctr = k.ctr ∧ (msix k v).ports = k.ports ∧ (msix k v).rings = k.rings ∧
    (msix k v).ctxs = k.ctxs ∧ (msix k v).accts = k.accts ∧ (msix k v).seqs = k.seqs ∧ (msix k v).pools = k.pools ∧
    (msix k v).msets = k.msets ∧ (msix k v).objs = k.objs ∧ (msix k v).doms = k.doms ∧ (msix k v).sched = k.sched ∧
    (msix k v).dram = k.dram ∧ (msix k v).stg = k.stg ∧ (msix k v).tiles = k.tiles ∧ (msix k v).ghcs = k.ghcs ∧ (msix k v).incs = k.incs ∧
    (msix k v).fab = k.fab ∧ (msix k v).stks = k.stks ∧ (msix k v).flss = k.flss ∧ (msix k v).flOps = k.flOps ∧
    (msix k v).flash = k.flash ∧ (msix k v).slotA = k.slotA ∧ (msix k v).slotB = k.slotB ∧ (msix k v).lifeMarker = k.lifeMarker ∧
    (msix k v).code = k.code ∧ (msix k v).pwr = k.pwr ∧ (msix k v).pst = k.pst ∧ (msix k v).sec = k.sec ∧ (msix k v).maint = k.maint ∧
    (msix k v).err = k.err ∧ (msix k v).flts = k.flts ∧ (msix k v).fresh = k.fresh ∧ (msix k v).pci.lanes = k.pci.lanes ∧
    (msix k v).pci.speed = k.pci.speed ∧ (msix k v).pci.flit = k.pci.flit ∧ (msix k v).pci.downtrain = k.pci.downtrain ∧
    (msix k v).pci.busMaster = k.pci.busMaster ∧ (msix k v).pci.d3hot = k.pci.d3hot ∧ (msix k v).pci.tagBits = k.pci.tagBits ∧
    (msix k v).pci.maxPayload = k.pci.maxPayload ∧ (msix k v).pci.maxReadRequest = k.pci.maxReadRequest ∧
    (msix k v).pci.bar4Gib = k.pci.bar4Gib ∧ (msix k v).pci.msixOn = k.pci.msixOn ∧ (msix k v).pci.msixMaskAll = k.pci.msixMaskAll ∧
    (msix k v).pci.msixTab = k.pci.msixTab ∧ (msix k v).pci.cplRange = k.pci.cplRange ∧ (msix k v).pci.ecrcGen = k.pci.ecrcGen ∧
    (msix k v).pci.ecrcCheck = k.pci.ecrcCheck ∧ (msix k v).pci.aerHdr = k.pci.aerHdr ∧ (msix k v).pci.reads = k.pci.reads ∧
    (msix k v).pci.waiting = k.pci.waiting ∧ (msix k v).pci.got = k.pci.got ∧ (msix k v).pci.nextTag = k.pci.nextTag := by
  unfold msix; split <;> simp

@[simp] theorem portSignal_frame (k : Core) (n : Nat) (b : Bool) :
    (portSignal k n b).pins = k.pins ∧ (portSignal k n b).shadow = k.shadow ∧ (portSignal k n b).burn = k.burn ∧
    (portSignal k n b).glb = k.glb ∧ (portSignal k n b).regs = k.regs ∧ (portSignal k n b).ctr = k.ctr ∧
    (portSignal k n b).rings = k.rings ∧ (portSignal k n b).ctxs = k.ctxs ∧ (portSignal k n b).accts = k.accts ∧
    (portSignal k n b).seqs = k.seqs ∧ (portSignal k n b).pools = k.pools ∧ (portSignal k n b).msets = k.msets ∧
    (portSignal k n b).objs = k.objs ∧ (portSignal k n b).doms = k.doms ∧ (portSignal k n b).sched = k.sched ∧
    (portSignal k n b).dram = k.dram ∧ (portSignal k n b).stg = k.stg ∧ (portSignal k n b).tiles = k.tiles ∧
    (portSignal k n b).ghcs = k.ghcs ∧ (portSignal k n b).incs = k.incs ∧ (portSignal k n b).fab = k.fab ∧
    (portSignal k n b).stks = k.stks ∧ (portSignal k n b).flss = k.flss ∧ (portSignal k n b).flOps = k.flOps ∧
    (portSignal k n b).flash = k.flash ∧ (portSignal k n b).slotA = k.slotA ∧ (portSignal k n b).slotB = k.slotB ∧
    (portSignal k n b).lifeMarker = k.lifeMarker ∧ (portSignal k n b).code = k.code ∧ (portSignal k n b).pwr = k.pwr ∧
    (portSignal k n b).pst = k.pst ∧ (portSignal k n b).sec = k.sec ∧ (portSignal k n b).maint = k.maint ∧
    (portSignal k n b).err = k.err ∧ (portSignal k n b).flts = k.flts ∧ (portSignal k n b).fresh = k.fresh ∧
    (portSignal k n b).pci.lanes = k.pci.lanes ∧ (portSignal k n b).pci.speed = k.pci.speed ∧ (portSignal k n b).pci.flit = k.pci.flit ∧
    (portSignal k n b).pci.downtrain = k.pci.downtrain ∧ (portSignal k n b).pci.busMaster = k.pci.busMaster ∧
    (portSignal k n b).pci.d3hot = k.pci.d3hot ∧ (portSignal k n b).pci.tagBits = k.pci.tagBits ∧
    (portSignal k n b).pci.maxPayload = k.pci.maxPayload ∧ (portSignal k n b).pci.maxReadRequest = k.pci.maxReadRequest ∧
    (portSignal k n b).pci.bar4Gib = k.pci.bar4Gib ∧ (portSignal k n b).pci.msixOn = k.pci.msixOn ∧
    (portSignal k n b).pci.msixMaskAll = k.pci.msixMaskAll ∧ (portSignal k n b).pci.msixTab = k.pci.msixTab ∧
    (portSignal k n b).pci.cplRange = k.pci.cplRange ∧ (portSignal k n b).pci.ecrcGen = k.pci.ecrcGen ∧
    (portSignal k n b).pci.ecrcCheck = k.pci.ecrcCheck ∧ (portSignal k n b).pci.aerHdr = k.pci.aerHdr ∧
    (portSignal k n b).pci.reads = k.pci.reads ∧ (portSignal k n b).pci.waiting = k.pci.waiting ∧ (portSignal k n b).pci.got = k.pci.got ∧
    (portSignal k n b).pci.nextTag = k.pci.nextTag := by
  simp only [portSignal]; split <;> simp

@[simp] theorem writeLine_frame (k : Core) (n : Nat) :
    (writeLine k n).pins = k.pins ∧ (writeLine k n).shadow = k.shadow ∧ (writeLine k n).burn = k.burn ∧ (writeLine k n).glb = k.glb ∧
    (writeLine k n).regs = k.regs ∧ (writeLine k n).ctr = k.ctr ∧ (writeLine k n).rings = k.rings ∧ (writeLine k n).ctxs = k.ctxs ∧
    (writeLine k n).accts = k.accts ∧ (writeLine k n).seqs = k.seqs ∧ (writeLine k n).pools = k.pools ∧ (writeLine k n).msets = k.msets ∧
    (writeLine k n).objs = k.objs ∧ (writeLine k n).doms = k.doms ∧ (writeLine k n).sched = k.sched ∧ (writeLine k n).dram = k.dram ∧
    (writeLine k n).stg = k.stg ∧ (writeLine k n).tiles = k.tiles ∧ (writeLine k n).ghcs = k.ghcs ∧ (writeLine k n).incs = k.incs ∧
    (writeLine k n).fab = k.fab ∧ (writeLine k n).stks = k.stks ∧ (writeLine k n).flss = k.flss ∧ (writeLine k n).flOps = k.flOps ∧
    (writeLine k n).flash = k.flash ∧ (writeLine k n).slotA = k.slotA ∧ (writeLine k n).slotB = k.slotB ∧
    (writeLine k n).lifeMarker = k.lifeMarker ∧ (writeLine k n).code = k.code ∧ (writeLine k n).pwr = k.pwr ∧
    (writeLine k n).pst = k.pst ∧ (writeLine k n).sec = k.sec ∧ (writeLine k n).maint = k.maint ∧ (writeLine k n).err = k.err ∧
    (writeLine k n).flts = k.flts ∧ (writeLine k n).fresh = k.fresh ∧ (writeLine k n).pci.lanes = k.pci.lanes ∧
    (writeLine k n).pci.speed = k.pci.speed ∧ (writeLine k n).pci.flit = k.pci.flit ∧ (writeLine k n).pci.downtrain = k.pci.downtrain ∧
    (writeLine k n).pci.busMaster = k.pci.busMaster ∧ (writeLine k n).pci.d3hot = k.pci.d3hot ∧
    (writeLine k n).pci.tagBits = k.pci.tagBits ∧ (writeLine k n).pci.maxPayload = k.pci.maxPayload ∧
    (writeLine k n).pci.maxReadRequest = k.pci.maxReadRequest ∧ (writeLine k n).pci.bar4Gib = k.pci.bar4Gib ∧
    (writeLine k n).pci.msixOn = k.pci.msixOn ∧ (writeLine k n).pci.msixMaskAll = k.pci.msixMaskAll ∧
    (writeLine k n).pci.msixTab = k.pci.msixTab ∧ (writeLine k n).pci.cplRange = k.pci.cplRange ∧
    (writeLine k n).pci.ecrcGen = k.pci.ecrcGen ∧ (writeLine k n).pci.ecrcCheck = k.pci.ecrcCheck ∧
    (writeLine k n).pci.aerHdr = k.pci.aerHdr ∧ (writeLine k n).pci.reads = k.pci.reads ∧ (writeLine k n).pci.waiting = k.pci.waiting ∧
    (writeLine k n).pci.got = k.pci.got ∧ (writeLine k n).pci.nextTag = k.pci.nextTag := by
  simp [writeLine]

@[simp] theorem record_frame (k : Core) (n : Nat) (i : Ctl) (r a : Nat) (p : List Byte) :
    (record k n i r a p).pins = k.pins ∧ (record k n i r a p).shadow = k.shadow ∧ (record k n i r a p).burn = k.burn ∧
    (record k n i r a p).glb = k.glb ∧ (record k n i r a p).regs = k.regs ∧ (record k n i r a p).ctr = k.ctr ∧
    (record k n i r a p).rings = k.rings ∧ (record k n i r a p).ctxs = k.ctxs ∧ (record k n i r a p).accts = k.accts ∧
    (record k n i r a p).seqs = k.seqs ∧ (record k n i r a p).pools = k.pools ∧ (record k n i r a p).msets = k.msets ∧
    (record k n i r a p).objs = k.objs ∧ (record k n i r a p).doms = k.doms ∧ (record k n i r a p).sched = k.sched ∧
    (record k n i r a p).dram = k.dram ∧ (record k n i r a p).stg = k.stg ∧ (record k n i r a p).tiles = k.tiles ∧
    (record k n i r a p).ghcs = k.ghcs ∧ (record k n i r a p).incs = k.incs ∧ (record k n i r a p).fab = k.fab ∧
    (record k n i r a p).stks = k.stks ∧ (record k n i r a p).flss = k.flss ∧ (record k n i r a p).flOps = k.flOps ∧
    (record k n i r a p).flash = k.flash ∧ (record k n i r a p).slotA = k.slotA ∧ (record k n i r a p).slotB = k.slotB ∧
    (record k n i r a p).lifeMarker = k.lifeMarker ∧ (record k n i r a p).code = k.code ∧ (record k n i r a p).pwr = k.pwr ∧
    (record k n i r a p).pst = k.pst ∧ (record k n i r a p).sec = k.sec ∧ (record k n i r a p).maint = k.maint ∧
    (record k n i r a p).err = k.err ∧ (record k n i r a p).flts = k.flts ∧ (record k n i r a p).fresh = k.fresh ∧
    (record k n i r a p).pci.lanes = k.pci.lanes ∧ (record k n i r a p).pci.speed = k.pci.speed ∧
    (record k n i r a p).pci.flit = k.pci.flit ∧ (record k n i r a p).pci.downtrain = k.pci.downtrain ∧
    (record k n i r a p).pci.busMaster = k.pci.busMaster ∧ (record k n i r a p).pci.d3hot = k.pci.d3hot ∧
    (record k n i r a p).pci.tagBits = k.pci.tagBits ∧ (record k n i r a p).pci.maxPayload = k.pci.maxPayload ∧
    (record k n i r a p).pci.maxReadRequest = k.pci.maxReadRequest ∧ (record k n i r a p).pci.bar4Gib = k.pci.bar4Gib ∧
    (record k n i r a p).pci.msixOn = k.pci.msixOn ∧ (record k n i r a p).pci.msixMaskAll = k.pci.msixMaskAll ∧
    (record k n i r a p).pci.msixTab = k.pci.msixTab ∧ (record k n i r a p).pci.cplRange = k.pci.cplRange ∧
    (record k n i r a p).pci.ecrcGen = k.pci.ecrcGen ∧ (record k n i r a p).pci.ecrcCheck = k.pci.ecrcCheck ∧
    (record k n i r a p).pci.aerHdr = k.pci.aerHdr ∧ (record k n i r a p).pci.reads = k.pci.reads ∧
    (record k n i r a p).pci.waiting = k.pci.waiting ∧ (record k n i r a p).pci.got = k.pci.got ∧
    (record k n i r a p).pci.nextTag = k.pci.nextTag := by
  simp only [record]; split <;> simp

@[simp] theorem recordGroup_frame (k : Core) (n : Nat) (g : List BRec) :
    (recordGroup k n g).pins = k.pins ∧ (recordGroup k n g).shadow = k.shadow ∧ (recordGroup k n g).burn = k.burn ∧
    (recordGroup k n g).glb = k.glb ∧ (recordGroup k n g).regs = k.regs ∧ (recordGroup k n g).ctr = k.ctr ∧
    (recordGroup k n g).rings = k.rings ∧ (recordGroup k n g).ctxs = k.ctxs ∧ (recordGroup k n g).accts = k.accts ∧
    (recordGroup k n g).seqs = k.seqs ∧ (recordGroup k n g).pools = k.pools ∧ (recordGroup k n g).msets = k.msets ∧
    (recordGroup k n g).objs = k.objs ∧ (recordGroup k n g).doms = k.doms ∧ (recordGroup k n g).sched = k.sched ∧
    (recordGroup k n g).dram = k.dram ∧ (recordGroup k n g).stg = k.stg ∧ (recordGroup k n g).tiles = k.tiles ∧
    (recordGroup k n g).ghcs = k.ghcs ∧ (recordGroup k n g).incs = k.incs ∧ (recordGroup k n g).fab = k.fab ∧
    (recordGroup k n g).stks = k.stks ∧ (recordGroup k n g).flss = k.flss ∧ (recordGroup k n g).flOps = k.flOps ∧
    (recordGroup k n g).flash = k.flash ∧ (recordGroup k n g).slotA = k.slotA ∧ (recordGroup k n g).slotB = k.slotB ∧
    (recordGroup k n g).lifeMarker = k.lifeMarker ∧ (recordGroup k n g).code = k.code ∧ (recordGroup k n g).pwr = k.pwr ∧
    (recordGroup k n g).pst = k.pst ∧ (recordGroup k n g).sec = k.sec ∧ (recordGroup k n g).maint = k.maint ∧
    (recordGroup k n g).err = k.err ∧ (recordGroup k n g).flts = k.flts ∧ (recordGroup k n g).fresh = k.fresh ∧
    (recordGroup k n g).pci.lanes = k.pci.lanes ∧ (recordGroup k n g).pci.speed = k.pci.speed ∧
    (recordGroup k n g).pci.flit = k.pci.flit ∧ (recordGroup k n g).pci.downtrain = k.pci.downtrain ∧
    (recordGroup k n g).pci.busMaster = k.pci.busMaster ∧ (recordGroup k n g).pci.d3hot = k.pci.d3hot ∧
    (recordGroup k n g).pci.tagBits = k.pci.tagBits ∧ (recordGroup k n g).pci.maxPayload = k.pci.maxPayload ∧
    (recordGroup k n g).pci.maxReadRequest = k.pci.maxReadRequest ∧ (recordGroup k n g).pci.bar4Gib = k.pci.bar4Gib ∧
    (recordGroup k n g).pci.msixOn = k.pci.msixOn ∧ (recordGroup k n g).pci.msixMaskAll = k.pci.msixMaskAll ∧
    (recordGroup k n g).pci.msixTab = k.pci.msixTab ∧ (recordGroup k n g).pci.cplRange = k.pci.cplRange ∧
    (recordGroup k n g).pci.ecrcGen = k.pci.ecrcGen ∧ (recordGroup k n g).pci.ecrcCheck = k.pci.ecrcCheck ∧
    (recordGroup k n g).pci.aerHdr = k.pci.aerHdr ∧ (recordGroup k n g).pci.reads = k.pci.reads ∧
    (recordGroup k n g).pci.waiting = k.pci.waiting ∧ (recordGroup k n g).pci.got = k.pci.got ∧
    (recordGroup k n g).pci.nextTag = k.pci.nextTag := by
  unfold recordGroup
  induction g generalizing k with
  | nil => simp
  | cons b g ih =>
    simp only [List.foldl_cons]
    split
    · have h := ih (record k n b.ins b.reason b.arg b.payload)
      simpa using h
    · exact ih k

@[simp] theorem unfence_frame (k : Core) (n : Nat) :
    (unfence k n).pins = k.pins ∧ (unfence k n).shadow = k.shadow ∧ (unfence k n).burn = k.burn ∧ (unfence k n).glb = k.glb ∧
    (unfence k n).regs = k.regs ∧ (unfence k n).ctr = k.ctr ∧ (unfence k n).pci = k.pci ∧ (unfence k n).rings = k.rings ∧
    (unfence k n).ctxs = k.ctxs ∧ (unfence k n).accts = k.accts ∧ (unfence k n).seqs = k.seqs ∧ (unfence k n).pools = k.pools ∧
    (unfence k n).msets = k.msets ∧ (unfence k n).objs = k.objs ∧ (unfence k n).doms = k.doms ∧ (unfence k n).sched = k.sched ∧
    (unfence k n).dram = k.dram ∧ (unfence k n).stg = k.stg ∧ (unfence k n).tiles = k.tiles ∧ (unfence k n).ghcs = k.ghcs ∧
    (unfence k n).incs = k.incs ∧ (unfence k n).fab = k.fab ∧ (unfence k n).stks = k.stks ∧ (unfence k n).flss = k.flss ∧
    (unfence k n).flOps = k.flOps ∧ (unfence k n).flash = k.flash ∧ (unfence k n).slotA = k.slotA ∧ (unfence k n).slotB = k.slotB ∧
    (unfence k n).lifeMarker = k.lifeMarker ∧ (unfence k n).code = k.code ∧ (unfence k n).pwr = k.pwr ∧ (unfence k n).pst = k.pst ∧
    (unfence k n).sec = k.sec ∧ (unfence k n).maint = k.maint ∧ (unfence k n).err = k.err ∧ (unfence k n).flts = k.flts ∧
    (unfence k n).host = k.host ∧ (unfence k n).held = k.held ∧ (unfence k n).out = k.out ∧ (unfence k n).fresh = k.fresh := by
  unfold unfence; split <;> simp

@[simp] theorem retire_frame (k : Core) (i : Ctl) (r a : Nat) (p : List Byte) :
    (retire k i r a p).pins = k.pins ∧ (retire k i r a p).shadow = k.shadow ∧ (retire k i r a p).burn = k.burn ∧
    (retire k i r a p).glb = k.glb ∧ (retire k i r a p).regs = k.regs ∧ (retire k i r a p).ctr = k.ctr ∧
    (retire k i r a p).rings = k.rings ∧ (retire k i r a p).ctxs = k.ctxs ∧ (retire k i r a p).accts = k.accts ∧
    (retire k i r a p).seqs = k.seqs ∧ (retire k i r a p).pools = k.pools ∧ (retire k i r a p).msets = k.msets ∧
    (retire k i r a p).objs = k.objs ∧ (retire k i r a p).doms = k.doms ∧ (retire k i r a p).sched = k.sched ∧
    (retire k i r a p).dram = k.dram ∧ (retire k i r a p).stg = k.stg ∧ (retire k i r a p).tiles = k.tiles ∧
    (retire k i r a p).ghcs = k.ghcs ∧ (retire k i r a p).incs = k.incs ∧ (retire k i r a p).fab = k.fab ∧
    (retire k i r a p).stks = k.stks ∧ (retire k i r a p).flss = k.flss ∧ (retire k i r a p).flOps = k.flOps ∧
    (retire k i r a p).flash = k.flash ∧ (retire k i r a p).slotA = k.slotA ∧ (retire k i r a p).slotB = k.slotB ∧
    (retire k i r a p).lifeMarker = k.lifeMarker ∧ (retire k i r a p).code = k.code ∧ (retire k i r a p).pwr = k.pwr ∧
    (retire k i r a p).pst = k.pst ∧ (retire k i r a p).sec = k.sec ∧ (retire k i r a p).maint = k.maint ∧
    (retire k i r a p).err = k.err ∧ (retire k i r a p).flts = k.flts ∧ (retire k i r a p).fresh = k.fresh ∧
    (retire k i r a p).pci.lanes = k.pci.lanes ∧ (retire k i r a p).pci.speed = k.pci.speed ∧ (retire k i r a p).pci.flit = k.pci.flit ∧
    (retire k i r a p).pci.downtrain = k.pci.downtrain ∧ (retire k i r a p).pci.busMaster = k.pci.busMaster ∧
    (retire k i r a p).pci.d3hot = k.pci.d3hot ∧ (retire k i r a p).pci.tagBits = k.pci.tagBits ∧
    (retire k i r a p).pci.maxPayload = k.pci.maxPayload ∧ (retire k i r a p).pci.maxReadRequest = k.pci.maxReadRequest ∧
    (retire k i r a p).pci.bar4Gib = k.pci.bar4Gib ∧ (retire k i r a p).pci.msixOn = k.pci.msixOn ∧
    (retire k i r a p).pci.msixMaskAll = k.pci.msixMaskAll ∧ (retire k i r a p).pci.msixTab = k.pci.msixTab ∧
    (retire k i r a p).pci.cplRange = k.pci.cplRange ∧ (retire k i r a p).pci.ecrcGen = k.pci.ecrcGen ∧
    (retire k i r a p).pci.ecrcCheck = k.pci.ecrcCheck ∧ (retire k i r a p).pci.aerHdr = k.pci.aerHdr ∧
    (retire k i r a p).pci.reads = k.pci.reads ∧ (retire k i r a p).pci.waiting = k.pci.waiting ∧ (retire k i r a p).pci.got = k.pci.got ∧
    (retire k i r a p).pci.nextTag = k.pci.nextTag := by
  simp only [retire]
  split
  · simp
  · split
    · split <;> simp
    · split <;> simp

@[simp] theorem retireFlt_frame (k : Core) (f : Flt) (r a : Nat) (p : List Byte) :
    (retireFlt k f r a p).pins = k.pins ∧ (retireFlt k f r a p).shadow = k.shadow ∧ (retireFlt k f r a p).burn = k.burn ∧
    (retireFlt k f r a p).glb = k.glb ∧ (retireFlt k f r a p).regs = k.regs ∧ (retireFlt k f r a p).ctr = k.ctr ∧
    (retireFlt k f r a p).rings = k.rings ∧ (retireFlt k f r a p).ctxs = k.ctxs ∧ (retireFlt k f r a p).accts = k.accts ∧
    (retireFlt k f r a p).seqs = k.seqs ∧ (retireFlt k f r a p).pools = k.pools ∧ (retireFlt k f r a p).msets = k.msets ∧
    (retireFlt k f r a p).objs = k.objs ∧ (retireFlt k f r a p).doms = k.doms ∧ (retireFlt k f r a p).sched = k.sched ∧
    (retireFlt k f r a p).dram = k.dram ∧ (retireFlt k f r a p).stg = k.stg ∧ (retireFlt k f r a p).tiles = k.tiles ∧
    (retireFlt k f r a p).ghcs = k.ghcs ∧ (retireFlt k f r a p).incs = k.incs ∧ (retireFlt k f r a p).fab = k.fab ∧
    (retireFlt k f r a p).stks = k.stks ∧ (retireFlt k f r a p).flss = k.flss ∧ (retireFlt k f r a p).flOps = k.flOps ∧
    (retireFlt k f r a p).flash = k.flash ∧ (retireFlt k f r a p).slotA = k.slotA ∧ (retireFlt k f r a p).slotB = k.slotB ∧
    (retireFlt k f r a p).lifeMarker = k.lifeMarker ∧ (retireFlt k f r a p).code = k.code ∧ (retireFlt k f r a p).pwr = k.pwr ∧
    (retireFlt k f r a p).pst = k.pst ∧ (retireFlt k f r a p).sec = k.sec ∧ (retireFlt k f r a p).maint = k.maint ∧
    (retireFlt k f r a p).err = k.err ∧ (retireFlt k f r a p).fresh = k.fresh ∧ (retireFlt k f r a p).pci.lanes = k.pci.lanes ∧
    (retireFlt k f r a p).pci.speed = k.pci.speed ∧ (retireFlt k f r a p).pci.flit = k.pci.flit ∧
    (retireFlt k f r a p).pci.downtrain = k.pci.downtrain ∧ (retireFlt k f r a p).pci.busMaster = k.pci.busMaster ∧
    (retireFlt k f r a p).pci.d3hot = k.pci.d3hot ∧ (retireFlt k f r a p).pci.tagBits = k.pci.tagBits ∧
    (retireFlt k f r a p).pci.maxPayload = k.pci.maxPayload ∧ (retireFlt k f r a p).pci.maxReadRequest = k.pci.maxReadRequest ∧
    (retireFlt k f r a p).pci.bar4Gib = k.pci.bar4Gib ∧ (retireFlt k f r a p).pci.msixOn = k.pci.msixOn ∧
    (retireFlt k f r a p).pci.msixMaskAll = k.pci.msixMaskAll ∧ (retireFlt k f r a p).pci.msixTab = k.pci.msixTab ∧
    (retireFlt k f r a p).pci.cplRange = k.pci.cplRange ∧ (retireFlt k f r a p).pci.ecrcGen = k.pci.ecrcGen ∧
    (retireFlt k f r a p).pci.ecrcCheck = k.pci.ecrcCheck ∧ (retireFlt k f r a p).pci.aerHdr = k.pci.aerHdr ∧
    (retireFlt k f r a p).pci.reads = k.pci.reads ∧ (retireFlt k f r a p).pci.waiting = k.pci.waiting ∧
    (retireFlt k f r a p).pci.got = k.pci.got ∧ (retireFlt k f r a p).pci.nextTag = k.pci.nextTag := by
  simp [retireFlt]

@[simp] theorem ringSignal_frame (k : Core) (r : Nat) (b : Bool) :
    (ringSignal k r b).pins = k.pins ∧ (ringSignal k r b).shadow = k.shadow ∧ (ringSignal k r b).burn = k.burn ∧
    (ringSignal k r b).glb = k.glb ∧ (ringSignal k r b).regs = k.regs ∧ (ringSignal k r b).ctr = k.ctr ∧
    (ringSignal k r b).ports = k.ports ∧ (ringSignal k r b).ctxs = k.ctxs ∧ (ringSignal k r b).accts = k.accts ∧
    (ringSignal k r b).seqs = k.seqs ∧ (ringSignal k r b).pools = k.pools ∧ (ringSignal k r b).msets = k.msets ∧
    (ringSignal k r b).objs = k.objs ∧ (ringSignal k r b).doms = k.doms ∧ (ringSignal k r b).sched = k.sched ∧
    (ringSignal k r b).dram = k.dram ∧ (ringSignal k r b).stg = k.stg ∧ (ringSignal k r b).tiles = k.tiles ∧
    (ringSignal k r b).ghcs = k.ghcs ∧ (ringSignal k r b).incs = k.incs ∧ (ringSignal k r b).fab = k.fab ∧
    (ringSignal k r b).stks = k.stks ∧ (ringSignal k r b).flss = k.flss ∧ (ringSignal k r b).flOps = k.flOps ∧
    (ringSignal k r b).flash = k.flash ∧ (ringSignal k r b).slotA = k.slotA ∧ (ringSignal k r b).slotB = k.slotB ∧
    (ringSignal k r b).lifeMarker = k.lifeMarker ∧ (ringSignal k r b).code = k.code ∧ (ringSignal k r b).pwr = k.pwr ∧
    (ringSignal k r b).pst = k.pst ∧ (ringSignal k r b).sec = k.sec ∧ (ringSignal k r b).maint = k.maint ∧
    (ringSignal k r b).err = k.err ∧ (ringSignal k r b).flts = k.flts ∧ (ringSignal k r b).fresh = k.fresh ∧
    (ringSignal k r b).pci.lanes = k.pci.lanes ∧ (ringSignal k r b).pci.speed = k.pci.speed ∧ (ringSignal k r b).pci.flit = k.pci.flit ∧
    (ringSignal k r b).pci.downtrain = k.pci.downtrain ∧ (ringSignal k r b).pci.busMaster = k.pci.busMaster ∧
    (ringSignal k r b).pci.d3hot = k.pci.d3hot ∧ (ringSignal k r b).pci.tagBits = k.pci.tagBits ∧
    (ringSignal k r b).pci.maxPayload = k.pci.maxPayload ∧ (ringSignal k r b).pci.maxReadRequest = k.pci.maxReadRequest ∧
    (ringSignal k r b).pci.bar4Gib = k.pci.bar4Gib ∧ (ringSignal k r b).pci.msixOn = k.pci.msixOn ∧
    (ringSignal k r b).pci.msixMaskAll = k.pci.msixMaskAll ∧ (ringSignal k r b).pci.msixTab = k.pci.msixTab ∧
    (ringSignal k r b).pci.cplRange = k.pci.cplRange ∧ (ringSignal k r b).pci.ecrcGen = k.pci.ecrcGen ∧
    (ringSignal k r b).pci.ecrcCheck = k.pci.ecrcCheck ∧ (ringSignal k r b).pci.aerHdr = k.pci.aerHdr ∧
    (ringSignal k r b).pci.reads = k.pci.reads ∧ (ringSignal k r b).pci.waiting = k.pci.waiting ∧ (ringSignal k r b).pci.got = k.pci.got ∧
    (ringSignal k r b).pci.nextTag = k.pci.nextTag := by
  simp only [ringSignal]; split <;> simp

@[simp] theorem ringWrite_frame (k : Core) (r : Nat) (l : List Byte) :
    (ringWrite k r l).pins = k.pins ∧ (ringWrite k r l).shadow = k.shadow ∧ (ringWrite k r l).burn = k.burn ∧
    (ringWrite k r l).glb = k.glb ∧ (ringWrite k r l).regs = k.regs ∧ (ringWrite k r l).ctr = k.ctr ∧ (ringWrite k r l).ports = k.ports ∧
    (ringWrite k r l).ctxs = k.ctxs ∧ (ringWrite k r l).accts = k.accts ∧ (ringWrite k r l).seqs = k.seqs ∧
    (ringWrite k r l).pools = k.pools ∧ (ringWrite k r l).msets = k.msets ∧ (ringWrite k r l).objs = k.objs ∧
    (ringWrite k r l).doms = k.doms ∧ (ringWrite k r l).sched = k.sched ∧ (ringWrite k r l).dram = k.dram ∧
    (ringWrite k r l).stg = k.stg ∧ (ringWrite k r l).tiles = k.tiles ∧ (ringWrite k r l).ghcs = k.ghcs ∧
    (ringWrite k r l).incs = k.incs ∧ (ringWrite k r l).fab = k.fab ∧ (ringWrite k r l).stks = k.stks ∧ (ringWrite k r l).flss = k.flss ∧
    (ringWrite k r l).flOps = k.flOps ∧ (ringWrite k r l).flash = k.flash ∧ (ringWrite k r l).slotA = k.slotA ∧
    (ringWrite k r l).slotB = k.slotB ∧ (ringWrite k r l).lifeMarker = k.lifeMarker ∧ (ringWrite k r l).code = k.code ∧
    (ringWrite k r l).pwr = k.pwr ∧ (ringWrite k r l).pst = k.pst ∧ (ringWrite k r l).sec = k.sec ∧ (ringWrite k r l).maint = k.maint ∧
    (ringWrite k r l).err = k.err ∧ (ringWrite k r l).flts = k.flts ∧ (ringWrite k r l).fresh = k.fresh ∧
    (ringWrite k r l).pci.lanes = k.pci.lanes ∧ (ringWrite k r l).pci.speed = k.pci.speed ∧ (ringWrite k r l).pci.flit = k.pci.flit ∧
    (ringWrite k r l).pci.downtrain = k.pci.downtrain ∧ (ringWrite k r l).pci.busMaster = k.pci.busMaster ∧
    (ringWrite k r l).pci.d3hot = k.pci.d3hot ∧ (ringWrite k r l).pci.tagBits = k.pci.tagBits ∧
    (ringWrite k r l).pci.maxPayload = k.pci.maxPayload ∧ (ringWrite k r l).pci.maxReadRequest = k.pci.maxReadRequest ∧
    (ringWrite k r l).pci.bar4Gib = k.pci.bar4Gib ∧ (ringWrite k r l).pci.msixOn = k.pci.msixOn ∧
    (ringWrite k r l).pci.msixMaskAll = k.pci.msixMaskAll ∧ (ringWrite k r l).pci.msixTab = k.pci.msixTab ∧
    (ringWrite k r l).pci.cplRange = k.pci.cplRange ∧ (ringWrite k r l).pci.ecrcGen = k.pci.ecrcGen ∧
    (ringWrite k r l).pci.ecrcCheck = k.pci.ecrcCheck ∧ (ringWrite k r l).pci.aerHdr = k.pci.aerHdr ∧
    (ringWrite k r l).pci.reads = k.pci.reads ∧ (ringWrite k r l).pci.waiting = k.pci.waiting ∧ (ringWrite k r l).pci.got = k.pci.got ∧
    (ringWrite k r l).pci.nextTag = k.pci.nextTag := by
  simp [ringWrite]

@[simp] theorem modERing_frame (k : Core) (r : Nat) (f : ERing → ERing) :
    (modERing k r f).pins = k.pins ∧ (modERing k r f).shadow = k.shadow ∧ (modERing k r f).burn = k.burn ∧ (modERing k r f).glb = k.glb ∧
    (modERing k r f).regs = k.regs ∧ (modERing k r f).ctr = k.ctr ∧ (modERing k r f).pci = k.pci ∧ (modERing k r f).ports = k.ports ∧
    (modERing k r f).rings = k.rings ∧ (modERing k r f).ctxs = k.ctxs ∧ (modERing k r f).accts = k.accts ∧
    (modERing k r f).seqs = k.seqs ∧ (modERing k r f).pools = k.pools ∧ (modERing k r f).msets = k.msets ∧
    (modERing k r f).objs = k.objs ∧ (modERing k r f).doms = k.doms ∧ (modERing k r f).sched = k.sched ∧ (modERing k r f).dram = k.dram ∧
    (modERing k r f).stg = k.stg ∧ (modERing k r f).tiles = k.tiles ∧ (modERing k r f).ghcs = k.ghcs ∧ (modERing k r f).incs = k.incs ∧
    (modERing k r f).fab = k.fab ∧ (modERing k r f).stks = k.stks ∧ (modERing k r f).flss = k.flss ∧ (modERing k r f).flOps = k.flOps ∧
    (modERing k r f).flash = k.flash ∧ (modERing k r f).slotA = k.slotA ∧ (modERing k r f).slotB = k.slotB ∧
    (modERing k r f).lifeMarker = k.lifeMarker ∧ (modERing k r f).code = k.code ∧ (modERing k r f).pwr = k.pwr ∧
    (modERing k r f).pst = k.pst ∧ (modERing k r f).sec = k.sec ∧ (modERing k r f).maint = k.maint ∧ (modERing k r f).flts = k.flts ∧
    (modERing k r f).host = k.host ∧ (modERing k r f).held = k.held ∧ (modERing k r f).out = k.out ∧
    (modERing k r f).fresh = k.fresh := by
  unfold modERing; split <;> simp

@[simp] theorem errToRing_frame (k : Core) (r : Nat) (e : ErrRec) (n : Nat) :
    (errToRing k r e n).pins = k.pins ∧ (errToRing k r e n).shadow = k.shadow ∧ (errToRing k r e n).burn = k.burn ∧
    (errToRing k r e n).glb = k.glb ∧ (errToRing k r e n).regs = k.regs ∧ (errToRing k r e n).ports = k.ports ∧
    (errToRing k r e n).rings = k.rings ∧ (errToRing k r e n).ctxs = k.ctxs ∧ (errToRing k r e n).accts = k.accts ∧
    (errToRing k r e n).seqs = k.seqs ∧ (errToRing k r e n).pools = k.pools ∧ (errToRing k r e n).msets = k.msets ∧
    (errToRing k r e n).objs = k.objs ∧ (errToRing k r e n).doms = k.doms ∧ (errToRing k r e n).sched = k.sched ∧
    (errToRing k r e n).dram = k.dram ∧ (errToRing k r e n).stg = k.stg ∧ (errToRing k r e n).tiles = k.tiles ∧
    (errToRing k r e n).ghcs = k.ghcs ∧ (errToRing k r e n).incs = k.incs ∧ (errToRing k r e n).fab = k.fab ∧
    (errToRing k r e n).stks = k.stks ∧ (errToRing k r e n).flss = k.flss ∧ (errToRing k r e n).flOps = k.flOps ∧
    (errToRing k r e n).flash = k.flash ∧ (errToRing k r e n).slotA = k.slotA ∧ (errToRing k r e n).slotB = k.slotB ∧
    (errToRing k r e n).lifeMarker = k.lifeMarker ∧ (errToRing k r e n).code = k.code ∧ (errToRing k r e n).pwr = k.pwr ∧
    (errToRing k r e n).pst = k.pst ∧ (errToRing k r e n).sec = k.sec ∧ (errToRing k r e n).maint = k.maint ∧
    (errToRing k r e n).flts = k.flts ∧ (errToRing k r e n).fresh = k.fresh ∧ (errToRing k r e n).pci.lanes = k.pci.lanes ∧
    (errToRing k r e n).pci.speed = k.pci.speed ∧ (errToRing k r e n).pci.flit = k.pci.flit ∧
    (errToRing k r e n).pci.downtrain = k.pci.downtrain ∧ (errToRing k r e n).pci.busMaster = k.pci.busMaster ∧
    (errToRing k r e n).pci.d3hot = k.pci.d3hot ∧ (errToRing k r e n).pci.tagBits = k.pci.tagBits ∧
    (errToRing k r e n).pci.maxPayload = k.pci.maxPayload ∧ (errToRing k r e n).pci.maxReadRequest = k.pci.maxReadRequest ∧
    (errToRing k r e n).pci.bar4Gib = k.pci.bar4Gib ∧ (errToRing k r e n).pci.msixOn = k.pci.msixOn ∧
    (errToRing k r e n).pci.msixMaskAll = k.pci.msixMaskAll ∧ (errToRing k r e n).pci.msixTab = k.pci.msixTab ∧
    (errToRing k r e n).pci.cplRange = k.pci.cplRange ∧ (errToRing k r e n).pci.ecrcGen = k.pci.ecrcGen ∧
    (errToRing k r e n).pci.ecrcCheck = k.pci.ecrcCheck ∧ (errToRing k r e n).pci.aerHdr = k.pci.aerHdr ∧
    (errToRing k r e n).pci.reads = k.pci.reads ∧ (errToRing k r e n).pci.waiting = k.pci.waiting ∧
    (errToRing k r e n).pci.got = k.pci.got ∧ (errToRing k r e n).pci.nextTag = k.pci.nextTag := by
  simp only [errToRing]; split <;> [skip; split] <;> simp

@[simp] theorem errRecord_frame (k : Core) (e : ErrRec) :
    (errRecord k e).pins = k.pins ∧ (errRecord k e).shadow = k.shadow ∧ (errRecord k e).burn = k.burn ∧ (errRecord k e).glb = k.glb ∧
    (errRecord k e).regs = k.regs ∧ (errRecord k e).ports = k.ports ∧ (errRecord k e).rings = k.rings ∧ (errRecord k e).ctxs = k.ctxs ∧
    (errRecord k e).accts = k.accts ∧ (errRecord k e).seqs = k.seqs ∧ (errRecord k e).pools = k.pools ∧ (errRecord k e).msets = k.msets ∧
    (errRecord k e).objs = k.objs ∧ (errRecord k e).doms = k.doms ∧ (errRecord k e).sched = k.sched ∧ (errRecord k e).dram = k.dram ∧
    (errRecord k e).stg = k.stg ∧ (errRecord k e).tiles = k.tiles ∧ (errRecord k e).ghcs = k.ghcs ∧ (errRecord k e).incs = k.incs ∧
    (errRecord k e).fab = k.fab ∧ (errRecord k e).stks = k.stks ∧ (errRecord k e).flss = k.flss ∧ (errRecord k e).flOps = k.flOps ∧
    (errRecord k e).flash = k.flash ∧ (errRecord k e).slotA = k.slotA ∧ (errRecord k e).slotB = k.slotB ∧
    (errRecord k e).lifeMarker = k.lifeMarker ∧ (errRecord k e).code = k.code ∧ (errRecord k e).pwr = k.pwr ∧
    (errRecord k e).pst = k.pst ∧ (errRecord k e).sec = k.sec ∧ (errRecord k e).maint = k.maint ∧ (errRecord k e).flts = k.flts ∧
    (errRecord k e).fresh = k.fresh ∧ (errRecord k e).pci.lanes = k.pci.lanes ∧ (errRecord k e).pci.speed = k.pci.speed ∧
    (errRecord k e).pci.flit = k.pci.flit ∧ (errRecord k e).pci.downtrain = k.pci.downtrain ∧
    (errRecord k e).pci.busMaster = k.pci.busMaster ∧ (errRecord k e).pci.d3hot = k.pci.d3hot ∧
    (errRecord k e).pci.tagBits = k.pci.tagBits ∧ (errRecord k e).pci.maxPayload = k.pci.maxPayload ∧
    (errRecord k e).pci.maxReadRequest = k.pci.maxReadRequest ∧ (errRecord k e).pci.bar4Gib = k.pci.bar4Gib ∧
    (errRecord k e).pci.msixOn = k.pci.msixOn ∧ (errRecord k e).pci.msixMaskAll = k.pci.msixMaskAll ∧
    (errRecord k e).pci.msixTab = k.pci.msixTab ∧ (errRecord k e).pci.cplRange = k.pci.cplRange ∧
    (errRecord k e).pci.ecrcGen = k.pci.ecrcGen ∧ (errRecord k e).pci.ecrcCheck = k.pci.ecrcCheck ∧
    (errRecord k e).pci.aerHdr = k.pci.aerHdr ∧ (errRecord k e).pci.reads = k.pci.reads ∧ (errRecord k e).pci.waiting = k.pci.waiting ∧
    (errRecord k e).pci.got = k.pci.got ∧ (errRecord k e).pci.nextTag = k.pci.nextTag := by
  simp only [errRecord]; split <;> simp

@[simp] theorem setState_frame (k : Core) (st : DevState) :
    (setState k st).pins = k.pins ∧ (setState k st).shadow = k.shadow ∧ (setState k st).burn = k.burn ∧ (setState k st).regs = k.regs ∧
    (setState k st).ports = k.ports ∧ (setState k st).rings = k.rings ∧ (setState k st).ctxs = k.ctxs ∧ (setState k st).accts = k.accts ∧
    (setState k st).seqs = k.seqs ∧ (setState k st).pools = k.pools ∧ (setState k st).msets = k.msets ∧ (setState k st).objs = k.objs ∧
    (setState k st).doms = k.doms ∧ (setState k st).sched = k.sched ∧ (setState k st).dram = k.dram ∧ (setState k st).stg = k.stg ∧
    (setState k st).tiles = k.tiles ∧ (setState k st).ghcs = k.ghcs ∧ (setState k st).incs = k.incs ∧ (setState k st).fab = k.fab ∧
    (setState k st).stks = k.stks ∧ (setState k st).flss = k.flss ∧ (setState k st).flOps = k.flOps ∧ (setState k st).flash = k.flash ∧
    (setState k st).slotA = k.slotA ∧ (setState k st).slotB = k.slotB ∧ (setState k st).lifeMarker = k.lifeMarker ∧
    (setState k st).code = k.code ∧ (setState k st).pwr = k.pwr ∧ (setState k st).pst = k.pst ∧ (setState k st).sec = k.sec ∧
    (setState k st).maint = k.maint ∧ (setState k st).flts = k.flts ∧ (setState k st).fresh = k.fresh ∧
    (setState k st).pci.lanes = k.pci.lanes ∧ (setState k st).pci.speed = k.pci.speed ∧ (setState k st).pci.flit = k.pci.flit ∧
    (setState k st).pci.downtrain = k.pci.downtrain ∧ (setState k st).pci.busMaster = k.pci.busMaster ∧
    (setState k st).pci.d3hot = k.pci.d3hot ∧ (setState k st).pci.tagBits = k.pci.tagBits ∧
    (setState k st).pci.maxPayload = k.pci.maxPayload ∧ (setState k st).pci.maxReadRequest = k.pci.maxReadRequest ∧
    (setState k st).pci.bar4Gib = k.pci.bar4Gib ∧ (setState k st).pci.msixOn = k.pci.msixOn ∧
    (setState k st).pci.msixMaskAll = k.pci.msixMaskAll ∧ (setState k st).pci.msixTab = k.pci.msixTab ∧
    (setState k st).pci.cplRange = k.pci.cplRange ∧ (setState k st).pci.ecrcGen = k.pci.ecrcGen ∧
    (setState k st).pci.ecrcCheck = k.pci.ecrcCheck ∧ (setState k st).pci.aerHdr = k.pci.aerHdr ∧
    (setState k st).pci.reads = k.pci.reads ∧ (setState k st).pci.waiting = k.pci.waiting ∧ (setState k st).pci.got = k.pci.got ∧
    (setState k st).pci.nextTag = k.pci.nextTag := by
  simp only [setState]; split <;> simp

end Sys2Proof.Laws
end

