-- ==== Sys2Proof/Tests/Slice0.lean ====
section
/-! SUPPORT. Own tests: the checks of WellFormed, single commands on small states, and for each obligation concrete values that meet the
hypotheses of its clauses. -/

namespace Sys2Proof.Tests
open Sys2Proof Sys2Proof.Machine
set_option Elab.async false

/-! ## Helpers -/

/-- A state with a core and an empty queue. -/
def st (k : Core) : State := { State.reset with core := k }
/-- The device in a state, its pins high and its link up. -/
def dev (d : DevState) : Core :=
  { glb := { st := d, startup := { pll := true, released := true } }
    pins := { resetN := true, perstN := true }
    pci := { lanes := 16, speed := 6, busMaster := true } }
/-- The device in ENABLED. -/
def live : Core := dev .enabled
/-- The core a command leaves. -/
def after (c : Instr) (k : Core) : Core := match exec c (st k) with | .next t => t.core | _ => k

/-! ## Witnesses: power, pins, resets, start-up and the link -/

theorem witness_ResetPinsReset :
    powered live = true ∧ live.pins.sysref = true ∧ 10 ≤ 10 ∧ 9 < 10 := by decide +kernel
theorem witness_LinkResetsReset :
    linkAlive live = true ∧ live.sec.lc ≠ 4 ∧ live.lifeMarker = live.sec.lc ∧ chooseSlot live = none ∧
    ({ live with sec := { lc := 4 } } : Core).sec.lc = 4 := by decide +kernel
theorem witness_SupplyPinsMoveTheDevice :
    ({ live with pins := { live.pins with vaon := false } } : Core).pins.vaon = false ∧ live.pins.pwrgood = true ∧
    (live.pins.vaon = true ∧ ({ live with pins := { live.pins with pwrgood := false } } : Core).pins.pwrgood = false) := by decide +kernel
theorem witness_PowerUpRuns :
    (let k : Core := { pins := { pwrgood := false } }
     k.pins.vaon = true ∧ k.pins.pwrgood = false ∧ k.pins.tripped = false ∧ (st k).fuse.lifeOk = true) ∧
    (let k : Core := {}
     powered k = true ∧ k.pins.sysref = true ∧ k.glb.startup.pll = false ∧ k.glb.startup.pllTimedOut = false ∧
       k.glb.startup.released = false ∧ k.pins.resetN = false ∧ k.glb.st = .reset ∧ (st k).fuse.lifeOk = true) := by decide +kernel
theorem witness_StartUpReachesConfig :
    (let k : Core := { glb := { startup := { bootRunning := true } } }
     k.glb.st = .reset ∧ k.glb.startup.bootRunning = true) ∧
    (let k : Core := { glb := { startup := { bootDone := true } } }
     k.glb.st = .reset ∧ k.glb.startup.bootDone = true ∧ k.glb.startup.dramWiped = false) ∧
    (let k : Core := { glb := { startup := { bootDone := true, sramWiped := true, hbmTrained := true, dramWiped := true, journalDone := true } } }
     k.glb.st = .reset ∧ k.glb.startup.bootDone = true ∧ k.glb.startup.sramWiped = true ∧ k.glb.startup.hbmTrained = true ∧
       k.glb.startup.dramWiped = true ∧ k.glb.startup.journalDone = true) := by decide +kernel
theorem witness_LinkTrainsAndConfigures :
    (let k : Core := { dev .config with pci := {} }
     linkAlive k = true ∧ hostUp k = false ∧ k.pci.busMaster = false) ∧
    (let k : Core := { dev .config with pci := { lanes := 8 } }
     linkAlive k = true ∧ k.pci.lanes ≠ 0 ∧ cfgServes k = true ∧ k.pci.busMaster = false ∧ k.pci.msixPend = [] ∧ k.pci.d3hot = false) ∧
    (let k := dev .reset
     linkAlive k = true ∧ k.pci.lanes ≠ 0 ∧ k.glb.st = .reset ∧ k.glb.startup.stopped = false) := by decide +kernel
theorem witness_HeatDrivesThermN :
    powered live = true ∧ 100 ≤ 100 ∧ 95 ≤ 95 ∧ live.pins.sysref = true ∧ live.pins.thermDrive = false ∧ live.glb.st = .enabled ∧
    110 ≤ 110 ∧ ({ live with pins := { live.pins with thermDrive := true } } : Core).pins.thermDrive = true := by decide +kernel

/-! ## Witnesses: SMBus and power -/

theorem witness_SmbusAnswersInEveryState : aclkOn live = true ∧ Pec.good ≠ Pec.bad := by decide +kernel
/-- A grant of 400 W with number 1, a lease and a report period. -/
def grantBody : List Byte := leBytes 2 1 ++ leBytes 2 1 ++ leBytes 4 400000 ++ leBytes 2 0 ++ leBytes 2 1000 ++ leBytes 2 1000 ++ leBytes 10 0
/-- The device with that grant, from the fabric. -/
def granted : Core := { live with pwr := { grant := some (grantOf grantBody), fabSrc := some 5 } }
theorem witness_GrantsAreTaken :
    smbManages live = true ∧ grantOk grantBody = true ∧ pathOk live none = true ∧ newer live.pwr (grantOf grantBody).seq = true ∧
    grantOk [] = false ∧ started granted = true ∧ live.pins.sysref = true ∧ granted.pwr.grant = some (grantOf grantBody) ∧ (grantOf grantBody).lease ≠ 0 := by
  decide +kernel
theorem witness_ReportsAnswer :
    smbManages live = true ∧ live.glb.st ≠ .graze ∧ memoryOn granted = true ∧ (grantOf grantBody).report ≠ 0 ∧ granted.pwr.fabSrc = some 5 := by
  decide +kernel
theorem witness_WakesBringTheDeviceBack :
    (aclkOn (dev .hold) = true ∧ pstateOf (dev .hold) ≠ 0 ∧ 4 ≤ 4) ∧
    (let k : Core := { dev .hold with pst := { asked := true } }
     pstateOf k ≠ 0 ∧ k.pst.waking = false ∧ sourceActive k (pstateOf k) 8 = true) ∧
    (let k : Core := { dev .hold with pst := { waking := true } }
     k.glb.st = .hold ∧ k.pst.waking = true ∧ k.pst.fromGraze = false ∧ k.pst.heldBar4 = [] ∧ k.fab.held = [] ∧ k.pwr.heldGrant = none) ∧
    ((dev .graze).glb.st = .graze ∧ aclkOn (dev .graze) = true ∧ (dev .graze).pst.waking = false) := by decide +kernel
/-- ENABLED with a PWR.ENTER in flight. -/
def entering : Core :=
  { live with
    pst := { handshake := 1, target := 1 }
    flts := [{ ins := { src := .conductor, ord := 0, flags := 8, cls := 0xB, op := 0x04, a := 1, b := 0, c := 0, x := 0 } }] }
theorem witness_EntryHandshakeEnds :
    (entering.glb.st = .enabled ∧ (enterFlt entering).isSome = true ∧ mayCommit entering = true) ∧
    (let k : Core := { entering with flss := [(0, { toErase := [0] })] }
     blockAnswer k 4 = .refuses 1) ∧
    (let k : Core := { entering with held := [.msix 0] }
     blockAnswer k 8 = .delays) ∧
    (let k : Core := { entering with pst := { entering.pst with asked := true } }
     sourceActive k k.pst.target 8 = true) := by decide +kernel
theorem witness_PowerLawsActOnTiles :
    alive live = true ∧
    (let k : Core := { live with doms := [(4, { divTurns := [3] })] }
     alive k = true ∧ (dom k (domOfTile k 3)).divTurns.head? = some 3) := by decide +kernel
theorem witness_MeasurementsMoveLimits :
    memoryOn live = true ∧ 1 ≠ 0 ∧ alive live = true ∧ powerInForce live ≤ powerInForce live := by decide +kernel

/-! ## Witnesses: the debug port, registers, ports and the aperture -/

/-- The core with registers set. -/
def withRegs (k : Core) (l : List (Nat × Nat)) : Core := l.foldl (fun k x => wreg k x.1 (BitVec.ofNat 64 x.2)) k
/-- An open feed port 0 with its rings. -/
def ported (k : Core) : Core :=
  { withRegs k [(oWbAddr 0, 0x1000), (oCqBase 0, 0x2000), (oCqSize 0, 64)] with ports := [(0, { st := .opened })] }

theorem witness_DebugPortCommands :
    debugOn live = true ∧ 5 ≤ 5 ∧ 4 < 5 ∧
    (let k : Core := { live with sec := { lockout := true } }
     k.sec.lockout = true) ∧
    (let k : Core := { live with sec := { challenge := some 1 } }
     debugOn k = true ∧ k.sec.challenge = some 1 ∧ k.sec.lockout = false) ∧ live.sec.challenge = none ∧
    (let k : Core := { live with sec := { unlock := some { level := 1, pk := [], sig := [], challenge := 1 } } }
     k.sec.unlock.isSome = true) := by decide +kernel
/-- A debug level held. -/
def levelled (k : Core) (n : Nat) : Core := { k with sec := { lc := 0, level := n } }
theorem witness_DebugLevelsOpenTheDevice :
    (debugOn (levelled live 1) = true ∧ 1 ≤ debugLevel (levelled live 1)) ∧ 2 ≤ debugLevel (levelled live 2) ∧
    (let k : Core := { levelled live 2 with ctxs := [(0, { isOpen := true, conf := true })], tiles := [(0, { owner := some 0 })] }
     2 ≤ debugLevel k ∧ tileConf k 0 = true) ∧
    debugLevel live < dbgNeeds (.register 0) ∧
    (∀ x ∈ [DbgTarget.register 8, .tileLine 0 24575, .stagingLine true 0, .dramLine 0, .object 1],
      let k := levelled { live with glb := { live.glb with startup := { live.glb.startup with sramWiped := true, dramWiped := true } } } 2
      dbgNeeds x ≤ debugLevel k ∧ dbgUnwiped k x = false) ∧
    (debugOn (levelled (dev .reset) 2) = true ∧ dbgUnwiped (levelled (dev .reset) 2) (.dramLine 0) = true) ∧ tileConf (levelled live 2) 0 = false ∧
    stgConf (levelled live 2) 0 0 = false ∧
    (let k : Core := { live with glb := { recovery := true } }
     debugOn k = true ∧ k.glb.recovery = true) ∧
    (let k := levelled (dev .reset) 3
     debugOn k = true ∧ debugLevel k = 3 ∧ k.glb.st = .reset ∧ k.burn = [] ∧ k.pst.heldBar4 = []) ∧
    (debugLevel (levelled (dev .config) 3) = 3 ∧ (levelled (dev .config) 3).glb.st = .config) := by decide +kernel

theorem witness_BadRegisterAccessesChangeNothing :
    powered live = true ∧ ((4 : Nat) = 4 ∨ (4 : Nat) = 8 → (2#22).toNat % 4 ≠ 0) ∧ ((3 : Nat) = 4 ∨ (3 : Nat) = 8 → (0#22).toNat % 3 ≠ 0) := by
  decide +kernel
/-- CONFIG during the consistency check. -/
def checking : Core := { dev .config with glb := { (dev .config).glb with checking := true } }
theorem witness_RegistersKeepTheirAccessTypes :
    bar0Served live = true ∧ ((dev .config).glb.st = .config ∧ (dev .config).glb.checking = false) ∧
    (checking.glb.st = .config ∧ checking.glb.checking = true) ∧ (dev .hold).glb.st = .hold ∧
    (bar0Served (dev .reset) = false ∧ (8#22).toNat % 8 = 0) := by decide +kernel
theorem witness_ClrZeroesItsCounters :
    bar0Served live = true ∧ live.glb.st ≠ .config ∧ bar0Served (dev .config) = true ∧ (0#64).getLsbD 0 = false ∧
    (dev .config).glb.checking = false := by decide +kernel
theorem witness_CountersSaturateAndFreeze :
    0 < 1 ∧ frozen live (oTileStall 0 0) = false ∧ frozen (withRegs live [(oTile 0 + 0x100, 2)]) (oTileStall 0 0) = true := by decide +kernel
/-- A configuration that passes every check. -/
def sound : Core := withRegs (ported checking) [(oSysRegion, 4)]
theorem witness_EnableChecksTheConfiguration :
    (checking.glb.st = .config ∧ (cfgFault checking).isSome = true) ∧ (sound.glb.checking = true ∧ cfgFault sound = none) ∧
    ((dev .config).glb.checking = false) ∧ live.glb.st ≠ .config := by decide +kernel
theorem witness_FeedWordsFillSlots :
    (let k := ported live
     powered k = true ∧ ctlServed k = true ∧ (List.replicate 16 (0 : Byte)).length = 16 ∧ (0xFFF0#22).toNat % 16 = 0 ∧
       (port k ((0xFFF0#22).toNat / 65536)).st = .opened ∧ slotFull (port k 0) ((0xFFF0#22).toNat / 16 % 4096) = false) ∧
    (powered live = true ∧ ctlServed live = true ∧ (port live 0).st ≠ .opened) ∧ (dev .halted).glb.st = .halted := by decide +kernel
/-- Bytes of one word of a slot: a SYS.NOP that does not end its bundle. -/
def slotBytes (flags : Nat) : SMap Byte := (leBytes 16 (0x01 * 2 ^ 120 + flags * 2 ^ 112)).zipIdx.map (fun x => (x.2, x.1))
theorem witness_FeedPortsTakeAndClose :
    (let k : Core := { ported live with ports := [] }
     k.glb.st = .enabled ∧ (port k 0).st = .closed ∧ portRule k 0 = true) ∧
    (let k : Core := { ported live with
       flts := [{ ins := { src := .port 0, ord := 0, flags := 8, cls := 0, op := 1, a := 0, b := 0, c := 0, x := 0 } }] }
     bar0Served k = true ∧ (port k 0).st = .opened ∧ (port k 0).bundle = [] ∧ portIdle k 0 = false) ∧
    (let k : Core := { live with ports := [(0, { st := .closing })] }
     (port k 0).st = .closing ∧ portIdle k 0 = true ∧ (port k 0).bundle = []) ∧
    (let k : Core := { ported live with ports := [(0, { st := .opened, slots := slotBytes 8 })] }
     ctlServed k = true ∧ portWait k 0 = 0 ∧ behindBar4 k 0 = false ∧ (port k 0).abortTail = none ∧ (insAt (port k 0) 0 (port k 0).consumed (port k 0).ordinal).isLast = false ∧
       (port k 0).bundle.length < 15) ∧
    (let k : Core := { live with ports := [(0, { wbPaced := true, wbDue := true })] }
     (port k 0).wbPaced = true ∧ (port k 0).wbDue = true) ∧
    (let k : Core := { live with ports := [(0, { wbPaced := true })] }
     (port k 0).wbPaced = true ∧ (port k 0).wbDue = false) := by decide +kernel
theorem witness_HeadsFreeRecords : bar0Served live = true ∧ (ering live 0).en = false ∧ (ering live 1).en = false := by decide +kernel
theorem witness_VectorsGoOut :
    (let k : Core := { live with pci := { live.pci with msixOn := true, msixPend := [7] } }
     bar0Served k = true ∧ k.pci.msixOn = true ∧ k.pci.msixMaskAll = false ∧ k.pci.msixPend = [(7#11).toNat] ∧ hostUp k = true ∧ k.held = []) ∧
    (let k : Core := { withRegs live [(oPortCtl 0, 2 ^ 40)] with ports := [(0, { covered := 1, unsignalled := 1 })] }
     rfld k (oPortCtl 0) 55 40 ≠ 0 ∧ (port k 0).covered ≠ 0) ∧
    (let k : Core := { live with rings := [(3, { time := 1, unsignalled := 1 })] }
     (dring k 3).time ≠ 0 ∧ (dring k 3).unsignalled ≠ 0) ∧
    rfld live (oPortCtl 0) 55 40 = 0 := by decide +kernel
/-- ENABLED with a resident HOST object at handle 0 in the first range of object space. -/
def apertured : Core := { live with objs := [(0, { alloc := true, home := 2, len := 1024, st := .complete, copy := 0 })] }
theorem witness_ApertureServesCopies :
    ((dev .config).glb.st = .config) ∧
    (let k := apertured
     powered k = true ∧ alive k = true ∧ apWaits k { off := 0, data := none, len := 8, poisoned := false } = false ∧ apOutside k 0 8 = false ∧
       apConf k 0 8 = false ∧ (apLines (apAddr k 0) 8).any (fun l => (stk k (lineStack k l)).frozen) = false ∧
       apWaits k { off := 256 * 2 ^ 30 - 1, data := some [1, 2], len := 2, poisoned := true, relaxed := true } = false ∧
       apOutside k (256 * 2 ^ 30 - 1) 2 = true ∧ apOutside k (objSpaceBytes k - 1) 2 = true ∧
       apOutside k (objSpaceBytes k - 2) 2 = false ∧ apOutside k (256 * 2 ^ 30) 8 = true ∧ apWaits k { off := 256 * 2 ^ 30, data := none, len := 8, poisoned := false } = false ∧
       apLines (apAddr k 0) 2 = [0] ∧ lineObj k 0 = some (0, 0) ∧ (obj k 0).home ≠ 1 ∧ (obj k 0).st = .complete ∧
       apWaits k { off := 0, data := some [1, 2], len := 2, poisoned := false } = false ∧ apOutside k 0 2 = false ∧ apConf k 0 2 = false) ∧
    (let k := live
     apLines (apAddr k 0) 2 = [0] ∧ lineObj k 0 = none ∧ apWaits k { off := 0, data := some [1, 2], len := 2, poisoned := false } = false ∧
       apOutside k 0 2 = false ∧ apConf k 0 2 = false) := by decide +kernel


/-! ## Witnesses: control instructions -/

/-- The header of an instruction the Conductor reads from its own code. -/
def hc : CtlHdr := { src := .conductor, ord := 0, creq := false, fence := false, last := true }
/-- Acceptance as a computation. -/
def acc (sp : CtlSpec) (a b c : W32) (x : W128) (k : Core) : Bool :=
  ctlServed k && srcLive k .conductor && k.pst.handshake != 1 && (checks3 sp (mkCtl hc sp.cls sp.op a b c x) false ++ sp.checks (mkCtl hc sp.cls sp.op a b c x) k).all (fun e => !e.bad)
theorem accepted_of_acc {sp : CtlSpec} {a b c : W32} {x : W128} {k : Core} (h : acc sp a b c x k = true) : Accepted sp hc a b c x k := by
  simp only [acc, Bool.and_eq_true, List.all_eq_true, Bool.not_eq_true'] at h
  exact ⟨h.1.1.1, h.1.1.2, fun _ => bne_iff_ne.1 h.1.2, h.2⟩
/-- The object copy that fills the shared domain's space. -/
def wide : Obj := { alloc := true, ctx := some 0, home := 2, len := 3750756352, st := .complete, copy := 0 }
/-- ENABLED with items in every state a control instruction meets. -/
def world : Core :=
  let dram : Obj := { alloc := true, ctx := some 0, home := 0, len := 1024, st := .complete, copy := 0 }
  let hostObj : Obj := { alloc := true, ctx := some 0, home := 2, len := 1024 }
  let mapped : SMap W64 := [(0, BitVec.ofNat 64 (2 ^ 36))]
  let q : Seq := { pool := some 0, pLeft := 4 }
  { withRegs live [(oSysRegion, 4)] with
    ctxs := [(0, { isOpen := true }), (1, { isOpen := true }), (2, { isOpen := true, conf := true })]
    rings := [(0, { isOpen := true, size := 64 }), (1, { isOpen := true, size := 64 })]
    accts := [(0, { isOpen := true }), (1, { isOpen := true })]
    msets := [(0, { st := .ready, ctx := some 0, dom := 4 }), (1, { st := .ready, ctx := some 0, dom := 4 })]
    pools := [(0, { isOpen := true, obj := 4, pages := 4, pl := 256, hdrs := [(0, { refs := 1 })], nextFresh := 1 }),
              (1, { isOpen := true, obj := 4, pages := 4, pl := 256 })]
    seqs := [(1, { q with st := .opened }), (2, { q with st := .queued }), (3, { q with st := .running }), (4, { q with st := .paused }),
             (5, { q with st := .finished, pages := mapped, idx := [(0, 1)], segs := [(0, 2)] }), (6, { st := .opened })]
    objs := [(1, dram), (2, { dram with copy := 1 }), (3, hostObj), (4, { dram with copy := 2 }), (5, { hostObj with st := .fetching, copy := 3 }),
             (6, { hostObj with len := 16, home := 1 }), (8, { hostObj with st := .complete, copy := 4 }), (9, { hostObj with st := .evicting, copy := 5 }),
             (10, { hostObj with st := .complete, copy := 6, hostPins := 1 }), (11, hostObj)]
    dram := { cells := [(0, 1), (2, 1), (4, 1), (8, 2), (17, 1), (40, 64), (44, 1), (64, 3), (66574, 0xA0), (66575, 1)], bad := [] } }

theorem witness_SysInstructionsComplete :
    acc sysNopSpec 0 1 2 0 world = true ∧ acc sysQuerySpec 0 0 0 0 world = true ∧ acc sysQuerySpec 1 0 0 0 world = true ∧
    srcPart world .conductor = none ∧ acc sysRingOpenSpec 2 64 0 0 world = true ∧ acc sysRingCloseSpec 1 0 0 0 world = true ∧
    acc sysCtxOpenSpec 3 0 0 0 world = true ∧ acc sysCtxCloseSpec 1 0 0 0 world = true := by decide +kernel
theorem witness_SequenceInstructionsComplete :
    acc seqOpenSpec 10 0 5 0 world = true ∧ acc seqPromptSpec 6 1 4 0 world = true ∧ acc seqStartSpec 1 0 0 0 world = true ∧
    acc seqPauseSpec 2 0 0 0 world = true ∧ (seq world 2).st = .queued ∧ acc seqPauseSpec 3 0 0 0 world = true ∧ (seq world 3).st = .running ∧
    acc seqResumeSpec 4 0 0 0 world = true ∧ acc seqCancelSpec 5 0 0 0 world = true ∧ (seq world 5).live = false ∧
    acc seqStopSpec 2 7 8 0 world = true ∧ acc seqPrioSpec 2 0 0 0 world = true ∧ acc seqQuerySpec 2 0 0 0 world = true ∧
    (seq world 10).st = .free ∧ (∀ e ∈ checks3 seqCancelSpec (mkCtl hc 1 4 10 0 0 0) false ++ seqCancelSpec.checks (mkCtl hc 1 4 10 0 0 0) world,
      e.ord < 11 → e.bad = false) := by decide +kernel
theorem witness_SequencesEndAndClose :
    acc seqCancelSpec 2 0 0 0 world = true ∧ (seq world 2).live = true ∧ acc seqCloseSpec 5 0 0 0 world = true := by decide +kernel
theorem witness_PoolInstructionsComplete :
    acc ptPoolOpenSpec 2 4 0x100 0 world = true ∧ acc ptPoolCloseSpec 1 0 0 0 world = true ∧ acc ptPoolStatSpec 0 0 0 0 world = true ∧
    acc ptBindSpec 6 0 0 0 world = true ∧ acc ptReadSpec 1 0 0 0 world = true ∧ (seq world 1).pool = some 0 := by decide +kernel
theorem witness_EditsChangeOnlyTheShadow :
    acc ptEditSpec 1 0 1 5 world = true ∧ acc ptEditSpec 0x400005 0 1 0 world = true ∧ alive world = true := by decide +kernel
theorem witness_AccountInstructionsComplete :
    acc acctOpenSpec 2 0 0 0 world = true ∧ acc acctSetSpec 0 5 9 0 world = true ∧ acc acctGrantSpec 0 100 0 0 world = true ∧
    acc acctCloseSpec 1 0 0 0 world = true ∧ acc acctStatSpec 0 0 0 0 world = true := by decide +kernel
/-- The manifest at handle 1 of `world`, but for the zeros at its end. -/
def manifestHead : List Byte :=
  [1, 0, 1, 0, 1, 0, 0, 0, 2, 0, 0, 0, 0, 0, 0, 0, 0, 1, 0, 0, 0, 0, 0, 0] ++ List.replicate 16 0 ++ [64, 0, 0, 0, 1, 0, 0, 0] ++
    List.replicate 16 0 ++ [3] ++ List.replicate 63 0
theorem manifestHead_length : manifestHead.length = 128 := by decide +kernel
/-- The first line of the manifest. -/
def manifestLine : Line := BitVec.ofNat 512 (ofLE (manifestHead.take 64))
theorem manifestHead_lines : leBytes 64 manifestLine.toNat ++ leBytes 64 (3 : BitVec 512).toNat = manifestHead := by decide +kernel
theorem zero_line : leBytes 64 (0 : BitVec 512).toNat = List.replicate 64 0 := by decide +kernel
/-- The lines of a plain object's copy are those of device memory. -/
theorem knownLine_dram (k : Core) (h n : Nat) (h1 : (obj k h).st = .complete) (h2 : objConf k h = false) (h3 : (obj k h).addr / 64 = n)
    (h4 : k.dram.bad = []) (l : Nat) : knownLine k h l = (k.dram.line 0 (n + l), false) := by
  simp only [knownLine, storedLine, plainLine, copyLine, h1, h2, h3, reduceCtorEq, false_and, if_false, Bool.false_eq_true, Mem.lineBad, h4,
    List.any_nil]
theorem byte_blank (m : Mem) (a : Nat) (h : ∀ e ∈ m.cells, e.1 ≠ a) : m.byte 0 a = 0 := by
  have : ∀ c : SMap Byte, (∀ e ∈ c, e.1 ≠ a) → mget 0 c a = 0 := by
    intro c
    induction c with
    | nil => intro _; rfl
    | cons e r ih =>
      intro h
      obtain ⟨k, v⟩ := e
      simp only [mget]
      rw [if_neg (fun hk => h (k, v) List.mem_cons_self hk.symm)]
      exact ih (fun e he => h e (List.mem_cons_of_mem _ he))
  exact this m.cells h
theorem blank_lines (m : Mem) (b lo n : Nat) (h : ∀ e ∈ m.cells, e.1 < 64 * (b + lo) ∨ 64 * (b + lo + n) ≤ e.1) :
    (upFrom lo n).map (fun l => (m.line 0 (b + l), false)) = List.replicate n (0, false) := by
  rw [List.eq_replicate_iff]
  refine ⟨?_, ?_⟩
  · rw [List.length_map]
    have : ∀ n lo, (upFrom lo n).length = n := by
      intro n
      induction n with
      | zero => intro _; rfl
      | succ n ih => intro lo; simp only [upFrom, List.length_cons, ih]
    exact this n lo
  · intro x hx
    obtain ⟨l, hl, rfl⟩ := List.mem_map.1 hx
    rw [Laws.mem_upFrom] at hl
    have hb : ∀ c a, 64 * (b + lo) ≤ a → a + c ≤ 64 * (b + lo + n) → m.bytes 0 a c = List.replicate c 0 := by
      intro c
      induction c with
      | zero => intro _ _ _; rfl
      | succ c ih =>
        intro a h1 h2
        rw [Mem.bytes, ih (a + 1) (by omega) (by omega), byte_blank m a (fun e he hk => by have := h e he; omega)]
        rfl
    rw [Mem.line, hb 64 (64 * (b + l)) (by omega) (by omega)]
    rfl
theorem manifest_bytes (k : Core) (h : (upFrom 0 64).map (knownLine k 1) = (manifestLine, false) :: (3, false) :: List.replicate 62 (0, false)) :
    (knownBytes k 1 0 4096).1 = manifestHead ++ List.replicate 3968 0 := by
  have hl := manifestHead_length
  unfold knownBytes
  rw [if_neg (by decide), show (0 + 4096 - 1) / 64 - 0 / 64 + 1 = 64 from rfl, show 0 / 64 = 0 from rfl, h]
  simp only [List.flatMap_cons, List.flatMap_replicate, zero_line, List.flatten_replicate_replicate, ← List.append_assoc, manifestHead_lines,
    Nat.zero_mod, List.drop_zero]
  rw [List.take_of_length_le (by rw [List.length_append, hl, List.length_replicate])]
theorem manifest_ok (k : Core) (h0 : (obj k 2).alloc = true) (h1 : (obj k 2).pack = 0) (h2 : objForeign (obj k 2) (some 0) = false)
    (h3 : 65 ≤ (obj k 2).len * 4) (h4 : (obj k 3).alloc = true) (h5 : objForeign (obj k 3) (some 0) = false) (h6 : k.shadow.grade = 1) :
    manifestFault k (some 0) (manifestHead ++ List.replicate 3968 0) = none := by
  have hl := manifestHead_length
  have hm : ∀ a n, a + n ≤ 128 → mf (manifestHead ++ List.replicate 3968 0) a n = mf manifestHead a n := by
    intro a n h
    simp only [mf]
    rw [List.drop_append_of_le_length (by omega), List.take_append_of_le_length (by rw [List.length_drop]; omega)]
  have hz : ∀ lo hi, (∀ i ∈ upFrom lo (min (hi - lo) (128 - lo)), manifestHead.getD i 0 = 0) →
      ∀ x ∈ (upFrom lo (hi - lo)).map (fun i => (i, decide ((manifestHead ++ List.replicate 3968 0).getD i 0 ≠ 0))), x.2 = false := by
    intro lo hi h x hx
    obtain ⟨i, hi', rfl⟩ := List.mem_map.1 hx
    rw [Laws.mem_upFrom] at hi'
    simp only [decide_eq_false_iff_not, not_not]
    by_cases hc : i < 128
    · rw [List.getD_append _ _ _ _ (by omega)]
      exact h i (Laws.mem_upFrom.2 (by omega))
    · rw [List.getD_append_right _ _ _ _ (by omega), List.getD_eq_getElem?_getD, List.getElem?_replicate]
      split <;> rfl
  have hn : mf manifestHead 44 4 = 1 := by decide +kernel
  unfold manifestFault
  rw [Option.map_eq_none_iff, List.find?_eq_none]
  simp only [hm 0 2 (by decide), hm 2 1 (by decide), hm 4 4 (by decide), hm 8 4 (by decide), hm 12 4 (by decide), hm 16 4 (by decide),
    hm 40 4 (by decide), hm 44 4 (by decide), hn]
  intro x hx
  simp only [List.mem_append] at hx
  have c4 : mf manifestHead 4 4 = 1 := by decide +kernel
  have c8 : mf manifestHead 8 4 = 2 := by decide +kernel
  have c12 : mf manifestHead 12 4 = 0 := by decide +kernel
  have c16 : mf manifestHead 16 4 = 256 := by decide +kernel
  have c40 : mf manifestHead 40 4 = 64 := by decide +kernel
  have cz : ∀ lo hi, hi ≤ 128 → (∀ i ∈ upFrom lo (hi - lo), manifestHead.getD i 0 = 0) →
      ∀ i ∈ upFrom lo (min (hi - lo) (128 - lo)), manifestHead.getD i 0 = 0 := by
    intro lo hi hh h i hi'
    exact h i (Laws.mem_upFrom.2 (by rw [Laws.mem_upFrom] at hi'; omega))
  have hw : mf (manifestHead ++ List.replicate 3968 0) 64 4 = 3 := by rw [hm _ _ (by decide)]; decide +kernel
  rw [Bool.not_eq_true]
  rcases hx with (((((((hx | hx) | hx) | hx) | hx) | hx) | hx) | hx)
  · rcases List.mem_cons.1 hx with rfl | hx
    · decide +kernel
    · rw [List.mem_singleton] at hx
      subst hx
      rw [h6]
      decide +kernel
  · exact hz 3 4 (cz 3 4 (by decide) (by decide +kernel)) x hx
  · rw [c4, c8, c12, c16] at hx
    rcases List.mem_cons.1 hx with rfl | hx
    · rfl
    · rcases List.mem_cons.1 hx with rfl | hx
      · simp only [show 2 % 2 ^ 24 = 2 from rfl, h0, h1, h2, Nat.zero_mul, Nat.zero_add, decide_eq_false_iff_not.2 (by omega : ¬ (obj k 2).len * 4 < 64 + 1)]
        rfl
      · rw [List.mem_singleton] at hx
        subst hx
        rfl
  · exact hz 20 24 (cz 20 24 (by decide) (by decide +kernel)) x hx
  · rw [c40] at hx
    rcases List.mem_cons.1 hx with rfl | hx
    · rfl
    · rw [List.mem_singleton] at hx
      subst hx
      rfl
  · exact hz 48 64 (cz 48 64 (by decide) (by decide +kernel)) x hx
  · rw [show min 1 1008 = 1 from rfl] at hx
    simp only [upFrom, List.map_cons, List.map_nil, List.mem_singleton] at hx
    subst hx
    simp only [Nat.mul_zero, Nat.add_zero, hw, h4, h5]
    rfl
  · exact hz 68 4096 (by decide +kernel) x hx
/-- The program at handle 2 of `world`: its tile table and one word, HX.END. -/
def programBytes : List Byte := List.replicate 1038 0 ++ [0xA0, 1]
theorem program_lines : (upFrom 0 17).map (knownLine (addRef world 3) 2) =
    List.replicate 16 (0, false) ++ [(BitVec.ofNat 512 (0x1A0 * 2 ^ 112), false)] := by
  have ha : ∀ n, upFrom 0 (n + 1) = upFrom 0 n ++ [n] := by
    have : ∀ n lo, upFrom lo (n + 1) = upFrom lo n ++ [lo + n] := by
      intro n
      induction n with
      | zero => intro lo; rfl
      | succ n ih => intro lo; rw [upFrom, ih (lo + 1), upFrom, List.cons_append]; congr 3; omega
    intro n
    rw [this n 0, Nat.zero_add]
  rw [show knownLine (addRef world 3) 2 = fun l => (world.dram.line 0 (1024 + l), false) from
    funext (knownLine_dram (addRef world 3) 2 1024 (by decide +kernel) (by decide +kernel) (by decide +kernel) (by decide +kernel)),
    ha 16, List.map_append, blank_lines world.dram 1024 0 16 (by decide +kernel), List.map_cons, List.map_nil,
    show world.dram.line 0 (1024 + 16) = BitVec.ofNat 512 (0x1A0 * 2 ^ 112) by decide +kernel]
theorem program_bytes : (knownBytes (addRef world 3) 2 0 1040).1 = programBytes := by
  have h : leBytes 64 (BitVec.ofNat 512 (0x1A0 * 2 ^ 112)).toNat = List.replicate 14 0 ++ [0xA0, 1] ++ List.replicate 48 0 := by decide +kernel
  unfold knownBytes programBytes
  rw [if_neg (by decide), show (0 + 1040 - 1) / 64 - 0 / 64 + 1 = 17 from rfl, show 0 / 64 = 0 from rfl, program_lines]
  simp only [List.flatMap_append, List.flatMap_replicate, List.flatMap_cons, List.flatMap_nil, zero_line, List.flatten_replicate_replicate,
    h, List.append_nil, Nat.zero_mod, List.drop_zero, ← List.append_assoc, List.replicate_append_replicate]
  rw [List.take_append_of_le_length (by rw [List.length_append, List.length_replicate]; rfl),
    List.take_of_length_le (by rw [List.length_append, List.length_replicate]; decide)]
theorem program_ok : programFault 1 (wordsOf (programBytes.drop 1024) 1) = none := by
  have h : programBytes.drop 1024 = List.replicate 14 0 ++ [0xA0, 1] := by decide +kernel
  have hw : wordsOf (List.replicate 14 0 ++ [0xA0, 1]) 1 = [BitVec.ofNat 128 (0x1A0 * 2 ^ 112)] := by decide +kernel
  rw [h, hw]
  decide +kernel
theorem tableOf_zeros (r : List Byte) : ∀ n, tableOf (List.replicate (4 * n) 0 ++ r) n = List.replicate n 0
  | 0 => rfl
  | n + 1 => by
    have h : List.replicate (4 * (n + 1)) (0 : Byte) ++ r = [0, 0, 0, 0] ++ (List.replicate (4 * n) 0 ++ r) := by
      rw [Nat.mul_succ, Nat.add_comm, ← List.replicate_append_replicate, List.append_assoc]
      rfl
    rw [h]
    change ofLE [0, 0, 0, 0] :: tableOf (List.replicate (4 * n) 0 ++ r) n = _
    rw [tableOf_zeros r n]
    rfl
theorem table_bytes : tableOf programBytes 256 = List.replicate 256 0 := by
  rw [show programBytes = List.replicate (4 * 256) 0 ++ (List.replicate 14 0 ++ [0xA0, 1]) by
    rw [← List.append_assoc, List.replicate_append_replicate]; rfl]
  exact tableOf_zeros _ 256
theorem table_ok : tableFault world (domOfCtx world 0) 1 (List.replicate 256 0) = none := by
  have hq : quarters world = 0 := by decide +kernel
  have hd : ∀ t, domOfTile world t = 4 := by
    intro t
    simp only [domOfTile, isPart, show rfld world oPartMode 3 0 = 0 from hq, bit, Nat.zero_testBit, Bool.false_eq_true, if_false]
  have hg : ∀ t, (List.replicate 256 0).getD t 0 = 0 := by
    intro t
    rw [List.getD_eq_getElem?_getD, List.getElem?_replicate]
    split <;> rfl
  simp only [tableFault, hd, hg, show domOfCtx world 0 = 4 by decide +kernel]
  rw [List.find?_eq_none.2 (by intro t _; decide)]
  decide +kernel
/-- `world` while the program's object is being fetched from the host. -/
def fetching : Core :=
  { world with
    objs := mput world.objs 2 { obj world 2 with st := .fetching, home := 2 }
    pci := { world.pci with reads := [(0, { obj := some 2, len := 1024 })] } }
theorem world_manifest : (knownBytes world 1 0 4096).1 = manifestHead ++ List.replicate 3968 0 := by
  refine manifest_bytes world ?_
  rw [show knownLine world 1 = fun l => (world.dram.line 0 (0 + l), false) from funext (knownLine_dram world 1 0 (by decide +kernel) (by decide +kernel)
    (by decide +kernel) (by decide +kernel))]
  have hz : (upFrom 2 62).map (fun l => (world.dram.line 0 (0 + l), false)) = List.replicate 62 (0, false) :=
    blank_lines world.dram 0 2 62 (by decide +kernel)
  have h0 : world.dram.line 0 0 = manifestLine := by decide +kernel
  have h1 : world.dram.line 0 1 = 3 := by decide +kernel
  rw [show upFrom 0 64 = 0 :: 1 :: upFrom 2 62 from rfl, List.map_cons, List.map_cons, hz, Nat.add_zero, h0, Nat.zero_add, h1]
theorem fetching_manifest : (knownBytes fetching 1 0 4096).1 = manifestHead ++ List.replicate 3968 0 := by
  have h : knownLine fetching 1 = knownLine world 1 := by
    funext l
    rfl
  rw [← world_manifest]
  simp only [knownBytes, h]
theorem witness_ModelSetInstructionsComplete_loading :
    acc msetLoadSpec 2 1 0 0 fetching = true ∧ recovering fetching 1 0 4096 = false ∧ firstBadLine fetching 1 0 4096 = none ∧
    loadFlt fetching 2 = none ∧ (obj fetching 2).st = .fetching ∧ (obj fetching 2).home ≠ 1 ∧ (obj fetching 2).lost = false ∧
    linesHeld fetching 2 (upFrom 0 17) = false ∧ 16 ∈ upFrom 0 17 ∧ lineFetched fetching 2 16 = false ∧
    (let k : Core := { world with objs := mput world.objs 1 { obj world 1 with recov := [(63, 1)] } }
     acc msetLoadSpec 2 1 0 0 k = true ∧ recovering k 1 0 4096 = true) ∧ acc msetSwapSpec 0 1 0 0 world = true ∧ acc msetDrainSpec 0 0 0 0 world = true ∧
    acc msetQuerySpec 0 0 0 0 world = true := by decide +kernel
theorem witness_ModelSetInstructionsComplete_ready :
    acc msetLoadSpec 2 1 0 0 world = true ∧ loadFlt world 2 = none ∧ firstBadLine world 1 0 4096 = none ∧ (obj world 2).st = .complete ∧
    (obj world 2).lost = false ∧ recovering world 1 0 4096 = false ∧ recovering world 2 0 1040 = false ∧ linesHeld world 2 (upFrom 0 17) = false ∧
    heldRead world 2 (upFrom 0 17) = false ∧ (obj world 3).alloc = true ∧ 1040 ≤ sysFree world ∧ firstBadLine (addRef world 3) 2 0 1040 = none ∧
    fetchable world 3 = true := by decide +kernel
/-- What the program's read gives once the manifest has filled set 2 and the instruction is in flight. -/
def programRead (k : Core) : Fetched :=
  let new : MSet := { st := .loading, ctx := some 0, dom := 4 }
  let k1 := { k with objs := (addRef k 3).objs, msets := mput k.msets 2 (new.fromManifest (manifestHead ++ List.replicate 3968 0)) }
  readObj { k1 with flts := k.flts ++ [{ ins := mkCtl hc 3 1 2 1 0 0, key := 2 }] } { ctl := some (.conductor, 0) } 4 2 0 17
/-- The lines read. -/
def linesRead : Fetched → List (Line × Bool) | .lines _ l => l | _ => []
theorem witness_ModelSetInstructionsComplete_reads :
    (match programRead fetching with | .wait _ => true | _ => false) = true ∧ (linesRead (programRead world)).length = 17 ∧
    (linesRead (programRead world)).all (fun l => !l.2) = true ∧
    (let p := ((linesRead (programRead world)).flatMap (fun l => leBytes 64 l.1.toNat)).take 1040
     programFault world.shadow.grade (wordsOf (p.drop 1024) 1) = none ∧ tableFault world 4 1 (tableOf p 256) = none) := by decide +kernel
theorem witness_ModelSetInstructionsComplete :
    manifestFault fetching (some 0) (knownBytes fetching 1 0 4096).1 = none ∧ manifestFault world (some 0) (knownBytes world 1 0 4096).1 = none ∧
    programFault world.shadow.grade (wordsOf ((knownBytes (addRef world 3) 2 0 1040).1.drop 1024) 1) = none ∧
    tableFault world (domOfCtx world 0) 1 (tableOf (knownBytes (addRef world 3) 2 0 1040).1 256) = none := by
  rw [fetching_manifest, world_manifest, program_bytes, table_bytes]
  refine ⟨manifest_ok _ ?_ ?_ ?_ ?_ ?_ ?_ ?_, manifest_ok _ ?_ ?_ ?_ ?_ ?_ ?_ ?_, program_ok, table_ok⟩ <;> decide +kernel
theorem witness_ObjectsAreAllocated :
    acc objAllocSpec 12 0x2000 64 0 world = true ∧ (2 : Nat) ≠ 0 ∧ acc objAllocSpec 12 0 64 0 world = true ∧
    (takeRange world 4 1).isSome = true := by decide +kernel
theorem witness_ObjectInstructionsComplete :
    acc objPromoteSpec 1 0 0 0 world = true ∧ (obj world 1).st = .complete ∧ acc objPromoteSpec 5 0 0 0 world = true ∧
    (obj world 5).st = .fetching ∧ acc objPromoteSpec 3 0 0 0 world = true ∧ (obj world 3).st = .absent ∧
    (firstFit world 4 (obj world 3).units).isSome = true ∧
    (let k : Core := { world with objs := [(3, { alloc := true, ctx := some 0, home := 2, len := 1024 }), (7, wide)] }
     acc objPromoteSpec 3 0 0 0 k = true ∧ (obj k 3).st = .absent ∧ firstFit k 4 (obj k 3).units = none) ∧
    acc objEvictSpec 8 0 0 0 world = true ∧ acc objPinSpec 1 0 0 0 world = true ∧ acc objPinSpec 9 0 0 0 world = true ∧
    (obj world 9).st = .evicting ∧ acc objUnpinSpec 10 0 0 0 world = true ∧ acc objCleanSpec 8 0 0 0 world = true ∧ objFlt world 5 8 = none ∧
    (let k : Core := { world with flts := [{ ins := mkCtl hc 4 5 8 0 0 0, key := 8 }] }
     acc objCleanSpec 8 0 0 0 k = true ∧ acc objEvictSpec 8 0 0 0 k = true ∧ (objFlt k 5 8).isSome = true) ∧
    acc objPromoteSpec 9 0 0 0 world = true ∧ (∀ e ∈ world.objs, e.2.wants = false) ∧
    acc objFreeSpec 11 0 0 0 world = true ∧ acc objQuerySpec 1 0 0 0 world = true := by decide +kernel
theorem witness_ScheduleAndFlashInstructionsComplete :
    acc objSchedSpec 0x100 0 0 0 world = true ∧ acc objFlEraseSpec 5 1 0 0 world = true ∧
    (let k1 := hwBegin { world with flts := [{ ins := mkCtl hc 4 0x10 5 1 0 0 }], flOps := [{ ins := mkCtl hc 4 0x10 5 1 0 0, erase := true, units := [5] }] } 6 0
     hwMay k1 6 0 = true) ∧ (fls world 0).erasing = [] ∧ (fls world 0).toErase = [] ∧
    ((fls world 0).punit ((fls world 0).phys 5)).pend = false ∧ (fls world 0).used < 4095 ∧
    (∀ v ∈ (fls world 0).bestSpare, ((fls world 0).punit ((fls world 0).phys 5)).ecount < ((fls world 0).punit v).ecount + 64) ∧
    2 ≤ ({ erasing := [{ lunit := 1, punit := 65 }, { lunit := 2, punit := 66 }] } : Fls).erasing.length ∧
    acc objFlQuerySpec 0 0 0 0 world = true ∧ acc objFlStoreSpec 6 1 0 0 world = true := by decide +kernel

/-! ## Witnesses: power, security, maintenance, the fabric, partitions and what serving does of itself -/

theorem witness_PowerInstructionsComplete :
    acc pwrStepTargetSpec 4 5000 0 0 world = true ∧ acc pwrLimitSpec 300 0 0 0 world = true ∧ acc pwrLimitSpec 0 0 0 0 world = true ∧
    acc pwrQuerySpec 0 0 0 0 world = true ∧ acc pwrQuerySpec 1 4 0 0 world = true ∧ acc pwrQuerySpec 2 0 0 0 world = true ∧
    acc pwrQuerySpec 3 0 0 0 world = true ∧ acc pwrEnterSpec 1 0 0 0 world = true ∧ acc pwrEnterSpec 2 0 0 0 world = true ∧
    acc pwrWakeSpec 0 0 0 0 world = true ∧ acc pwrWakeSpec 0 0 0 0 { world with glb := { world.glb with st := .hold } } = true := by decide +kernel
/-- The bytes of an extent are at hand, or to come. -/
def atHand : ByteRead → Bool | .ok _ _ => true | _ => false
def toCome : ByteRead → Bool | .wait _ => true | _ => false
theorem witness_SecurityInstructionsComplete_extents :
    (let r (k : Core) (h : Nat) := readBytes k { ctl := some (.conductor, 0) } h 0 64
     let damaged : Core := { world with objs := mput world.objs 1 { obj world 1 with recov := [(0, 1)] } }
     let direct : Core := { world with objs := mput world.objs 3 { obj world 3 with direct := true } }
     let closed : Core := { world with ctxs := [], flts := [{ ins := mkCtl hc 0xC 0x82 2 0 0 0, key := 2 }] }
     acc secExtendSpec 0x7000001 0 1 0 world = true ∧ atHand (r world 1) = true ∧ acc secExtendSpec 0x7000003 0 1 0 direct = true ∧
     toCome (r direct 3) = true ∧ acc secFwStageSpec 1 0 1 0 world = true ∧ atHand (r { world with sec := { world.sec with fw := 1 } } 1) = true ∧
     acc secFwStageSpec 1 0 1 0 damaged = true ∧ toCome (r { damaged with sec := { damaged.sec with fw := 1 } } 1) = true ∧
     (obj world 1).lost = false ∧ (obj world 1).st ≠ .absent ∧ recovering world 1 0 64 = false ∧ linesHeld world 1 [0] = false ∧
     recovering damaged 1 0 64 = true ∧ (ctx closed 2).isOpen = false ∧
     namedFlt closed 0xC 0x82 hc = some { ins := mkCtl hc 0xC 0x82 2 0 0 0, key := 2 }) := by decide +kernel
theorem witness_SecurityInstructionsComplete :
    acc secExtendSpec 0x7000001 0 1 0 world = true ∧ acc secFwStageSpec 1 0 1 0 world = true ∧
    (let k : Core := { world with sec := { fw := 2 } }
     acc secFwActivateSpec 0 0 0 0 k = true ∧ acc secFwAbortSpec 0 0 0 0 k = true) ∧
    acc secFwCommitSpec 0 0 0 0 { world with glb := { world.glb with svn := 3 } } = true ∧ acc secLcAdvanceSpec 2 1 0 0 world = true ∧
    acc secQuoteSpec 1 1 0 9 world = true ∧ acc secCtxKeySpec 2 0 0 0 world = true ∧
    (let k : Core := { world with flts := [{ ins := mkCtl hc 0xC 0x81 1 1 0 9 }] }
     alive k = true ∧ (namedFlt k 0xC 0x81 hc).isSome = true) ∧
    (let k : Core := { world with flts := [{ ins := mkCtl hc 0xC 0x82 2 0 0 0, key := 2 }] }
     portsServe k = true ∧ namedFlt k 0xC 0x82 hc = some { ins := mkCtl hc 0xC 0x82 2 0 0 0, key := 2 } ∧
     (1#512).toNat / 2 ^ 256 ≠ (1#512).toNat % 2 ^ 256 ∧ (0#512).toNat / 2 ^ 256 = (0#512).toNat % 2 ^ 256 ∧ (ctx k 2).isOpen = true) := by decide +kernel
/-- A field test of HBM stack 0 in slot 0, in the state given. -/
def testing (n : Nat) : Core :=
  { world with flts := [{ ins := mkCtl hc 0xD 1 2 1 0 0, key := 0 }], maint := { slots := [(0, { id := 0x12001, st := n, order := 1 })], count := 1 } }
theorem witness_MaintenanceInstructionsComplete :
    acc maintTestSpec 1 1 0 0 world = true ∧ (freeSlotFrom world 0).isSome = true ∧ acc maintScrubSpec 0 64 1 0 world = true ∧
    acc maintScrubSpec 0x301 1 0 0 world = true ∧
    (let k : Core := { world with maint := { slots := [(0, { id := 0x10002, st := 2, order := 1 })], count := 1 } }
     acc maintStopSpec 2 0 0 0 k = true ∧ (slotOfAct k 2 0).isSome = true) ∧
    acc maintQuerySpec 0 0 0 0 world = true ∧ alive (testing 1) = true ∧
    mget? (testing 1).maint.slots 0 = some { id := 0x12001, st := 1, order := 1 } ∧ (testFlt (testing 1) 0).isSome = true ∧
    0x12001 % 256 = 1 ∧ mget? (testing 2).maint.slots 0 = some { id := 0x12001, st := 2, order := 1 } ∧ (testFlt (testing 2) 0).isSome = true := by
  decide +kernel
/-- `world` with a broadcast manifest of one shard at handle 20, its destination, a shared object, a channel, and paired mode enabled. -/
def fabbed : Core :=
  let dram : Obj := { alloc := true, ctx := some 0, home := 0, len := 1024, st := .complete, copy := 20 }
  { withRegs world [(oTwinCtl, 1)] with
    objs := mput (mput (mput world.objs 20 dram) 21 { dram with ctx := none, copy := 21 }) 22 { dram with copy := 22 }
    dram := { cells := [(1310720, 1), (1310784, 22), (1310792, 4)], bad := [] }
    fab := { chans := [(6, { st := 1 })] } }
theorem witness_FabricInstructionsComplete :
    acc fabRouteSpec 1 1 1 0 fabbed = true ∧ acc fabChanOpenSpec 5 1 0 (BitVec.ofNat 128 (2 ^ 32)) fabbed = true ∧
    acc fabChanCloseSpec 6 0 0 0 fabbed = true ∧ acc fabBcastSendSpec 0x100 20 0 0 fabbed = true ∧ acc fabBcastRecvSpec 0x100 20 0 0 fabbed = true ∧
    acc fabTwinJoinSpec 0 0 0 0 fabbed = true ∧ acc fabTwinLeaveSpec 0 0 0 0 fabbed = true ∧ fabbed.fab.twin.st ≠ 1 ∧ fabbed.fab.twin.st ≠ 2 ∧
    acc fabTwinLeaveSpec 0 0 0 0 { fabbed with fab := { twin := { st := 2 } } } = true ∧ acc fabFailrecSpec 0 21 0 0 fabbed = true ∧
    acc fabNodeQuerySpec 0 0 0 0 fabbed = true := by decide +kernel
/-- Partition 0 in use, with a context, a sequence and objects of its own. -/
def parted : Core :=
  { withRegs world [(oPartMode, 1)] with
    ctxs := [(0, { isOpen := true, part := some 0, key := some 1 })]
    objs := [(1, { alloc := true, ctx := some 0, dom := 0, home := 0, len := 64, st := .complete }), (2, { alloc := true, ctx := some 0, dom := 0, home := 2, len := 64 })] }
theorem witness_PartitionsReset :
    parted.glb.st = .enabled ∧ (1#4) = BitVec.ofNat 4 (2 ^ 0) ∧ partCode parted 0 = 1 ∧ (seq parted 2).live = true ∧ seqDom parted 2 = 0 ∧
    objPart parted 1 = some 0 ∧ objPart parted 2 = some 0 ∧
    (let k : Core := { parted with glb := { parted.glb with resetting := [0] } }
     isResetting k 0 = true ∧ partTested k 0 = false ∧ partRecorded k 0 = true ∧ (ctx k 0).isOpen = true ∧ (ctx k 0).part = some 0) ∧
    isResetting parted 0 = false ∧ (9#4).getLsbD 0 = true ∧ live.glb.st = .enabled ∧ partCode live 0 ≠ 1 := by decide +kernel
/-- Reads of the host under way: of a fetch, of a recovered line, of a control instruction, and of a tile in place. -/
def reading : Core :=
  { world with
    objs := mput (mput world.objs 8 { obj world 8 with recov := [(3, 1)] }) 12 { obj world 11 with direct := true }
    pci := { world.pci with reads := [(0, { obj := some 5, len := 64 }), (1, { tile := some 0, len := 64, handle := some 12 }),
                                      (2, { ctl := some (.conductor, 0), len := 64 }), (3, { obj := some 8, len := 64, line := 3 })] } }
theorem witness_HostReadsEnd :
    (portsServe reading = true ∧ mget? reading.pci.reads 4 = none ∧ ReadStatus.unsupportedRequest ≠ ReadStatus.ok ∧
      (List.replicate 64 (0 : Byte)).length = 64 ∧ ([] : List Byte).length ≠ 64) ∧
    (mget? reading.pci.reads 0 = some { obj := some 5, len := 64 } ∧ (obj reading 5).st = .fetching ∧ (obj reading 5).recov = [] ∧
      (obj reading 5).alloc = true ∧ (obj reading 5).home = 2 ∧ (obj reading 5).lost = false ∧ (obj reading 5).bcast = none ∧ reading.fab.twin.st ≠ 2 ∧
      (∀ e ∈ reading.msets, e.2.st ≠ .loading ∧ 5 ∉ e.2.objs) ∧ (∀ e ∈ reading.objs, e.2.wants = false)) ∧
    (mget? reading.pci.reads 3 = some { obj := some 8, len := 64, line := 3 } ∧ mget? (obj reading 8).recov 3 = some 1) ∧
    mget? reading.pci.reads 2 = some { ctl := some (.conductor, 0), len := 64 } ∧
    (mget? reading.pci.reads 1 = some { tile := some 0, len := 64, handle := some 12 } ∧ readInPlace reading 12 = true ∧
      (sources reading (obj reading 12)).any (fun x => decide (1 < x)) = false ∧
      (sources reading { obj reading 12 with bcast := some 2 }).any (fun x => decide (1 < x)) = true ∧
      ([⟨{ tile := some 0, len := 64, handle := some 12 }, some []⟩] : List HostGot).all (fun g => !readsFor {} 12 g.rd) = true) ∧
    readInPlace { reading with objs := mput reading.objs 12 { obj reading 12 with lost := true } } 12 = false := by decide +kernel
/-- The first three events of a boundary of the shared domain. -/
def events (k : Core) : Core :=
  event3 (event2 (event1 { k with doms := mput k.doms 4 { dom k 4 with timerDue := false } } 4) 4) 4
/-- What event 4 of that boundary builds, and whether lines of its prompts are to come. -/
def builds (k : Core) : Bld × Bool :=
  let joule := domPower k 4 * (dom k 4).target / 1000
  let b := buildStep k 4 joule
  (b, (openPrompts k 4 b.plan).2)
/-- A step that ended, of sequence 3. -/
def ended : UStep := { num := 1, mset := 0, est := 0, ended := true, plan := [{ seq := 3, decode := true, q := 1, qpos0 := 0, kvlen := 1, delivers := false, urgent := false }] }
/-- `world` with a chunk size and the sequences given. -/
def serves (l : SMap Seq) : Core :=
  { world with seqs := l, msets := [(0, { st := .ready, ctx := some 0, dom := 4, chunk := 64 })], doms := [(4, { power := 1 })] }
theorem witness_BoundariesHaveTheirEvents :
    alive live = true ∧ boundaryDue live 4 = false ∧
    (let k := serves [(2, { st := .queued, pool := some 0, pLeft := 4, pHandle := 1 })]
     boundaryDue k 4 = true ∧ (dom k 4).opened = false ∧ k.fab.twin.syncDue = false ∧ k.glb.st = .enabled ∧ k.pst.handshake = 0 ∧
     retireAwaited (events k) 4 = false ∧ (builds (events k)).1.plan ≠ [] ∧ (builds (events k)).2 = false) ∧
    (let k := serves [(2, { st := .queued, pool := some 0, pLeft := 4, pHandle := 3 })]
     boundaryDue k 4 = true ∧ (builds (events k)).1.plan ≠ [] ∧ (builds (events k)).2 = true) ∧
    (let k : Core := { serves [(2, { st := .queued, pool := some 0, pLeft := 4, pHandle := 1 })] with doms := [(4, { power := 1, opened := true })] }
     boundaryDue k 4 = true ∧ (dom k 4).opened = true ∧ (builds k).1.plan ≠ [] ∧ (builds k).2 = false) ∧
    (let k : Core := { serves [] with doms := [(4, { running := some ended })] }
     boundaryDue k 4 = true ∧ (dom k 4).opened = false ∧ retireAwaited (events k) 4 = false ∧ (builds (events k)).1.plan = []) ∧
    (let k : Core := { serves [(3, { st := .running, pool := some 0 })] with doms := [(4, { running := some ended })] }
     boundaryDue k 4 = true ∧ (dom k 4).opened = false ∧ retireAwaited (events k) 4 = true) ∧
    (let k : Core := { serves [] with doms := [(4, { running := some ended })], glb := { live.glb with st := .hold } }
     alive k = true ∧ boundaryDue k 4 = true ∧ (dom k 4).opened = false) := by decide +kernel
theorem witness_ServingEventsComplete :
    (dom live 4).retiring = [] ∧
    (let k : Core := { serves [(3, { st := .running, pool := some 0 })] with doms := [(4, { retiring := [ended] })] }
     alive k = true ∧ (dom k 4).retiring = [ended] ∧ stepMirrored k 4 ended = true ∧ (seq k 3).st = .running ∧
     (mput k.doms 4 { dom k 4 with retiring := [] }).all (fun o => (o.2.running.toList ++ o.2.retiring).all (fun v => v.plan.all (fun x => x.seq != 3))) = true) ∧
    (let k : Core := { serves [] with doms := [(4, { retiring := [ended] })], fab := { twin := { st := 2 } } }
     stepMirrored k 4 ended = false) ∧
    (dom live 4).gates = [] ∧ (dom { live with doms := [(4, { gates := [(0, false), (1, false)] })] } 4).gates = [(0, false), (1, false)] ∧
    (seq live 0).pool = none ∧
    (let k : Core := { world with seqs := [(1, { pool := some 0, copying := [⟨0, 1, 0⟩] })] }
     (seq k 1).pool = some 0 ∧ (seq k 1).copying = [⟨0, 1, 0⟩] ∧ objConf k (pool k 0).obj = false ∧ (obj k (pool k 0).obj).stale = false ∧
     entryPage 0 ≠ 1 ∧ 0 < (pool k 0).pl) ∧
    ringFull live 0 = true ∧
    (let k : Core := { world with seqs := [(3, { st := .finished, waiting := [{}] })] }
     ringFull k 0 = false ∧ liveSeqs k = [3] ∧ (seq k 3).ring = 0 ∧ (seq k 3).waiting = [{}] ∧ recordReady k {} = true) ∧
    (domPhase live 4 ≠ 2 ∧ (dom live 4).running = none) ∧
    (let k : Core := { serves [] with doms := [(4, { running := some ended, phase := 2 })] }
     domPhase k 4 = 2 ∧ (dom k 4).running.isSome = true ∧ fieldTests k = false) ∧
    (let k : Core := { serves [] with
       tiles := [(0, { ap := some { ins := insOfWord 0 0 0 } })], maint := { slots := [(0, { id := 0x12001, st := 2, order := 1 })] } }
     fieldTests k = true ∧ (domTiles k 4).any (testWait k) = true) := by decide +kernel
theorem witness_ObjectWorkEnds :
    alive world = true ∧ (obj world 1).zeroing = false ∧ (obj { world with objs := [(1, { zeroing := true })] } 1).zeroing = true ∧
    (obj world 1).st ≠ .fetching ∧ (obj world 0).alloc = false ∧
    (let k := world
     (obj k 5).alloc = true ∧ (obj k 5).st = .fetching ∧ (obj k 5).recov = [] ∧ (obj k 5).pack = 0 ∧ (∀ e ∈ k.msets, e.2.st ≠ .loading) ∧
     (obj k 5).home = 2 ∧ k.pci.reads.all (fun r => r.2.obj != some 5) = true) ∧
    (let k : Core := { world with objs := [(6, { alloc := true, home := 1, len := 2, st := .fetching })] }
     (obj k 6).alloc = true ∧ (obj k 6).st = .fetching ∧ (obj k 6).home = 1 ∧ ∀ l, l < 2 → k.flash.lineBad (flsLineOf k 4 (0 + l)) = false) ∧
    ((obj world 9).alloc = true ∧ (obj world 9).st = .evicting) ∧ objFlt world 5 8 = none ∧ writesLand world [] = true ∧
    writesLand { world with pci := { world.pci with d3hot := true } } [0] = false ∧
    (let o : Obj := { alloc := true, home := 1, len := 64, st := .complete, recov := [(3, 1)] }
     let k : Core := { world with objs := [(6, o)] }
     mget? (obj k 6).recov 3 = some 1 ∧ (obj k 6).home ≠ 2 ∧ k.flash.lineBad (flsLineOf k 4 3) = false ∧ mdel (obj k 6).recov 3 = [] ∧
     (∀ e ∈ k.msets, e.2.st ≠ .loading) ∧
     ({ k with flash := k.flash.setBads true (8 * flsLineOf k 4 3) 8 } : Core).flash.lineBad (flsLineOf k 4 3) = true) ∧
    (let f : Flt := { ins := mkCtl hc 4 5 8 0 0 0, key := 8 }
     let k : Core := { world with flts := [f] }
     objFlt k 5 8 = some f ∧ objFlt { k with flts := k.flts.erase f } 5 8 = none) ∧
    (let k : Core := { world with objs := [(8, { alloc := true, home := 2, len := 64, st := .complete, recov := [(3, 1)] })] }
     mget? (obj k 8).recov 4 = none ∧ mget? (obj k 8).recov 3 = some 1 ∧ mdel (obj k 8).recov 3 = [] ∧ (obj k 8).st = .complete ∧
     (∀ e ∈ k.msets, e.2.st ≠ .loading ∧ 8 ∉ e.2.objs) ∧ (∀ e ∈ k.objs, e.2.wants = false) ∧ (obj k 8).wants = false ∧ (obj k 8).lost = false ∧
     (sources k (obj k 8)).find? (fun x => decide (1 < x)) = none) ∧
    (let k : Core := { world with objs := [(8, { alloc := true, home := 2, len := 64, st := .complete, recov := [(3, 1)], bcast := some 2 })] }
     (sources k (obj k 8)).find? (fun x => decide (1 < x)) = some 3) := by decide +kernel
/-- A store of object 1 into object 6 is under way. -/
def storing : Core :=
  { world with flOps := [{ ins := mkCtl hc 4 0x12 6 1 0 0, erase := false, dest := 6, src := 1, pages := storePages world (obj world 6) }] }
/-- The bytes of a page are at hand. -/
def hasBytes : StoreData → Bool | .ok _ _ => true | _ => false
/-- A stack every spare of which is retired. -/
def spent : Fls := { punits := (upFrom 57408 8128).map (fun u => (u, { kind := 2 })), erasing := [{ lunit := 1, punit := 65 }] }
theorem spent_punits (lo n u : Nat) : mget? ((upFrom lo n).map (fun u => (u, ({ kind := 2 } : Machine.PUnit)))) u =
    if lo ≤ u ∧ u < lo + n then some { kind := 2 } else none := by
  induction n generalizing lo with
  | zero => rw [if_neg (by omega)]; rfl
  | succ n ih =>
    rw [upFrom, List.map_cons, mget?, ih]
    by_cases h : u = lo
    · rw [if_pos h, if_pos (by omega)]
    · rw [if_neg h]
      by_cases h' : lo + 1 ≤ u ∧ u < lo + 1 + n
      · rw [if_pos h', if_pos (by omega)]
      · rw [if_neg h', if_neg (by omega)]
theorem no_spare (f : Fls) (hp : f.punits = (upFrom 57408 8128).map (fun u => (u, ({ kind := 2 } : Machine.PUnit)))) : f.bestSpare = none := by
  have hm : ∀ u, mget? f.punits u = if 57408 ≤ u ∧ u < 57408 + 8128 then some { kind := 2 } else none := by
    intro u
    rw [hp]
    exact spent_punits 57408 8128 u
  have hf : (upFrom 57408 8128).find? (fun u => (mget? f.punits u).isNone && (f.born u).kind == 1) = none := by
    rw [List.find?_eq_none]
    intro u hu
    rw [Laws.mem_upFrom] at hu
    rw [hm, if_pos hu]
    simp only [Option.isNone_some, Bool.false_and, Bool.false_eq_true, not_false_eq_true]
  have hs : (f.punits.map Prod.fst).filter f.isSpare = [] := by
    rw [List.filter_eq_nil_iff]
    intro u hu
    rw [hp, List.map_map, List.mem_map] at hu
    obtain ⟨v, hv, rfl⟩ := hu
    rw [Laws.mem_upFrom] at hv
    have hq : f.punit v = { kind := 2 } := by rw [Fls.punit, hm, if_pos hv]
    simp only [Function.comp, Fls.isSpare, hq]
    exact Bool.false_ne_true
  simp only [Fls.bestSpare, hf, hs]
  rfl
/-- The erase that fails on it finds no spare. -/
theorem witness_FlashEventsComplete_noSpare : Fls.bestSpare { spent with erasing := spent.erasing.erase { lunit := 1, punit := 65 } } = none := no_spare _ rfl
theorem witness_FlashEventsComplete :
    (fls world 0).erasing.find? (fun e => e.punit == 65) = none ∧
    (let k : Core := { world with flss := [(0, { erasing := [{ lunit := 1, punit := 65 }] })] }
     alive k = true ∧ (fls k 0).erasing.find? (fun e => e.punit == 65) = some { lunit := 1, punit := 65 } ∧ 65 ∉ (fls k 0).suspended ∧
     (fls k 0).phys 1 = 65 ∧ (fls k 0).toErase = []) ∧
    65 ∈ ({ suspended := [65] } : Fls).suspended ∧ currentPage world 0 = none ∧
    ((currentPage storing 0).isSome = true ∧ hwMay storing 6 0 = true ∧ 65536 ∉ (fls storing 0).suspended ∧
     (∀ x ∈ currentPage storing 0, hasBytes (pageBytes storing x.1 x.2) = true) ∧ (obj storing 6).len ≠ 0) ∧
    stackServes true 0 world = true ∧ userCw 0 0 0 = true ∧ (fls { world with flss := [(0, { lunits := [(0, { frontier := 2 })] })] } 0).programmed 0 1 = true ∧
    (fls world 0).programmed 0 1 = false ∧ ([121, 0].take 3).findIdx? (fun e => decide (e ≤ 120)) = some 1 ∧
    userCw 57343 2047 7 = true ∧ (∀ e ∈ [121, 121, 121], 120 < e) ∧ 3 ≤ [121, 121, 121].length ∧ homesAt world 0 (cwLine world 0 1 0 0) = [] ∧ memoryOn world = true ∧
    slotOfAct world 3 0 = none ∧
    (let k : Core := { world with maint := { slots := [(0, { id := 3, st := 2, order := 1 })], count := 1 }, flss := [(0, { lunits := [(0, { frontier := 2 })] })] }
     slotOfAct k 3 0 = some (0, { id := 3, st := 2, order := 1 }) ∧ nextScrub (fls k 0) 0 0 = some (0, 0) ∧ nextScrub (fls k 0) 0 1 = some (0, 1) ∧
     (∀ r ∈ [0, 0, 0, 0, 0, 0, 0, 0], r = 0)) ∧
    (let k : Core := { live with glb := { live.glb with startup := { bootDone := true } } }
     k.glb.startup.bootDone = true ∧ k.glb.st ≠ .off ∧ 2 ^ 30 - 1 < 2 ^ 30 ∧ k.code.buffer.any (fun e => e.1 == 0) = false ∧ k.glb.st ≠ .halted) ∧
    ({ buffer := [(0, [])] } : CodePath).buffer.any (fun e => e.1 == 511 / 512) = true ∧
    ({ targets := [(64, [])] } : CodePath).targets.any (fun e => e.1 == 64) = true := by decide +kernel

/-! ## Witnesses: tiles -/

/-- The header of a word at word 0 of a program, in tile 0. -/
def th : TileHdr := { tile := 0, widx := 0, fence := false, last := false, wen := false, wctr := 0, sen := false, sctr := 0 }
/-- The word of an HX instruction (R107): opcode, class 0xA, and its operands. -/
def hxWord (op : Nat) (a b c : W32) : W128 :=
  BitVec.ofNat 128 (op * 2 ^ 120 + 0xA * 2 ^ 116 + a.toNat * 2 ^ 64 + b.toNat * 2 ^ 32 + c.toNat)
/-- Tile 0 as given runs a program of the words given. -/
def tiled (q : Tile) (ws : List W128) : Core :=
  { world with
    msets := [(0, { st := .ready, ctx := some 0, dom := 4, words := ws, pwords := ws.length })]
    doms := [(0, { running := some { ended with ended := false } }), (4, { running := some { ended with ended := false } })]
    tiles := [(0, q)] }
/-- Tile 0 stands at word 0 with the program's lines in its buffer. -/
def ready : Tile := { phase := 2, buffer := [0] }
/-- An HX instruction that the sequencer stands at. -/
def atWord (op : Nat) (a b c : W32) (q : Tile) : Bool :=
  tsReady (tiled q [hxWord op a b c]) 0 (mkTIns th 0xA op a b c 0) && !q.dbgHalt
theorem witness_SequencerInstructionsComplete :
    atWord 0x10 1 5 0 ready = true ∧ atWord 0x11 1 5 0 ready = true ∧ atWord 0x12 1 0 0 ready = true ∧ atWord 0x20 0 0 0 ready = true ∧
    atWord 0x21 1 0 0 ready = true ∧ (mget 0 ready.regs 1 = (0 : W32)) ∧ (¬ (mget 0 ready.regs 1 = (7 : W32))) ∧ atWord 0x21 1 7 0 ready = true ∧
    atWord 0x22 1 0 0 ready = true ∧ atWord 0x22 1 0 0 { ready with regs := [(1, 2)] } = true ∧
    mget 0 ({ ready with regs := [(1, 2)] } : Tile).regs 1 ≠ (0 : W32) ∧ atWord 0x01 0 0 0 ready = true ∧
    tileIdle (tiled ready [hxWord 0x01 0 0 0]) 0 = true ∧
    (let k := tiled { phase := 2 } [hxWord 0x10 1 5 0]
     (tile k 0).phase = 2 ∧ tsWord k 0 (tile k 0).pc = none ∧ (tile k 0).buffer.contains ((tile k 0).pc / 64) = false ∧ (tile k 0).buffer.length < 32) ∧
    (let k := levelled (tiled { ready with dbgHalt := true } [hxWord 0x10 1 5 0]) 2
     debugOn k = true ∧ 2 ≤ debugLevel k ∧ (tile k 0).dbgHalt = true ∧ tsReady k 0 (mkTIns th 0xA 0x10 1 5 0 0) = true) := by decide +kernel
/-- Nothing holds an instruction of a unit in tile 0. -/
def free (k : Core) (u : Nat) (i : TIns) : Bool := canTake k 0 u i && hitchOk k 0 u i
theorem witness_HitchInstructionsComplete :
    (let k := tiled ready []
     free k uDm (mkTIns th 0xA 2 1 5 0 0) = true ∧ (tile k 0).dm.isNone = true ∧ free k uDm (mkTIns th 0xA 3 1 5 0 0) = true ∧
     physTile k 0 = 0 ∧ free k uDm (mkTIns th 0xA 3 0x101 5 0 0) = true ∧ physTile k 1 ≠ 0 ∧ domOfTile k (physTile k 1) = domOfTile k 0 ∧
     free k uDm (mkTIns th 0xA 4 0 2 0 0) = true ∧ ghcDom k 0 = domOfTile k 0 ∧ (mget {} k.ghcs 0).n = 0 ∧ (mget {} k.ghcs 0).count + 1 < 2) ∧
    (let k : Core := { tiled ready [] with ghcs := [(0, { count := 1, n := 2, arrived := [(1, 0)] })] }
     (mget {} k.ghcs 0).n = 2 ∧ 2 ≤ (mget {} k.ghcs 0).count + 1) ∧
    (let k := withRegs (tiled ready []) [(oPartMode, 1)]
     free k uDm (mkTIns th 0xA 3 0x801 5 0 0) = true ∧ domOfTile k (physTile k 8) ≠ domOfTile k 0) ∧
    (let k : Core := { tiled ready [] with incs := [{ tile := 0, ctr := 1, amount := 2 }] }
     k.incs.find? (fun x => x.tile == 0 && x.ctr == 1 && x.amount == 2 && inTurn k.incs x) = some { tile := 0, ctr := 1, amount := 2 } ∧
     (tile k 0).phase ≠ 1 ∧ hitch k 0 1 + 2 ≤ 0xFFFF ∧ (tile { k with tiles := [(0, { ready with phase := 1 })] } 0).phase = 1) ∧
    (let i := mkTIns th 0xA 3 1 2 0 0
     let k : Core := { tiled ready [] with incs := [{ tile := 0, ctr := 1, amount := 2, sender := some 1 }], tiles := [(0, ready), (1, { ready with dm := some (.add i) })] }
     k.incs.find? (fun x => x.tile == 0 && x.ctr == 1 && x.amount == 2 && inTurn k.incs x) =
       some { tile := 0, ctr := 1, amount := 2, sender := some 1 } ∧
     (match (tile k 1).dm with | some (.add j) => j == i | _ => false) = true) ∧
    (∀ x ∈ (tiled ready []).incs, ¬ (x.tile = 0 ∧ x.ctr = 1 ∧ x.amount = 2)) := by decide +kernel
/-- The extension word of a DM with tile 0 as its destination place, from line n. -/
def dmX (n : Nat) : Nat := 0x10000000 + n * 2 ^ 32
/-- A DM instruction whose checks pass. -/
def moves (k : Core) (op : Nat) (a b c : W32) (x : W128) : Bool :=
  let i := mkTIns th 5 op a b c x
  free k uDm i && (tile k 0).dm.isNone && (dmRunChks k 0 (heldIns k 0 uDm i)).all (fun e => !e.bad)
/-- The way is open. -/
def opens : Way → Bool | .go _ => true | _ => false
/-- The way is barred for good, by an object. -/
def lost : Way → Bool | .lost _ => true | _ => false
/-- The way opens later. -/
def shut : Way → Bool | .wait _ => true | _ => false
theorem witness_MovesComplete :
    (let k := tiled ready []
     moves k 0x81 0x10000000 0 1 (BitVec.ofNat 128 (dmX 5)) = true ∧
     moves k 0x82 0x10000000 0 0x10001 (BitVec.ofNat 128 (dmX 5 + 2 ^ 96 + 2 ^ 112)) = true ∧
     moves k 0x83 0x10000000 0 0x10080 (BitVec.ofNat 128 (dmX 200 + 2 ^ 96 + 2 ^ 112)) = true ∧ moves k 0x84 0x10000000 0 1 7 = true ∧
     plSpace 0x10000000 = 1 ∧ plSpace (dmX 5 % 2 ^ 32) = 1 ∧ moves k 0x81 0x20000000 0 1 (BitVec.ofNat 128 (0x20000001 + 5 * 2 ^ 32)) = true ∧
     plSpace 0x20000000 = 2 ∧ moves k 0x81 0x30000001 0 1 (BitVec.ofNat 128 (dmX 5)) = true ∧
     (let j := heldIns k 0 uDm (mkTIns th 5 0x81 0x30000001 0 1 (BitVec.ofNat 128 (dmX 5)))
      opens (dmOpenSrc k { tile := some 0 } 0 j) = true ∧ opens (dmOpenDest k { tile := some 0 } 0 j) = true)) ∧
    (let k := tiled ready []
     let w : Reader := { tile := some 0 }
     let j (op : Nat) (a : W32) (x : W128) := heldIns k 0 uDm (mkTIns th 5 op a 0 1 x)
     k.pst.handshake ≠ 1 ∧ moves k 0x81 0x30000003 0 1 (BitVec.ofNat 128 (dmX 5)) = true ∧
     shut (dmOpenSrc k w 0 (j 0x81 0x30000003 (BitVec.ofNat 128 (dmX 5)))) = true ∧ moves k 0x81 0x10000000 0 1 0x30000003 = true ∧
     opens (dmOpenSrc k w 0 (j 0x81 0x10000000 0x30000003)) = true ∧ shut (dmOpenDest k w 0 (j 0x81 0x10000000 0x30000003)) = true ∧
     moves k 0x81 0x10000000 0 1 0x30000008 = true ∧ opens (dmOpenDest k w 0 (j 0x81 0x10000000 0x30000008)) = true ∧
     moves k 0x84 0x30000008 0 1 7 = true ∧ opens (dmOpenDest k w 0 (j 0x84 0x30000008 7)) = true) ∧
    (let k (c : Chan) : Core := { tiled ready [] with fab := { chans := [(3, c)] } }
     let w : Reader := { tile := some 0 }
     let i := mkTIns th 5 0x81 0x10000000 0 1 0x40000003
     let c : Chan := { st := 1, peer := 1, peerChan := 5, lines := 64 }
     let full : Chan := { c with stg := true, slots := 2 }
     plSpace 0x40000003 = 4 ∧ moves (k c) 0x81 0x10000000 0 1 0x40000003 = true ∧ opens (dmOpenDest (k c) w 0 (heldIns (k c) 0 uDm i)) = true ∧
     moves (k full) 0x81 0x10000000 0 1 0x40000003 = true ∧ shut (dmOpenDest (k full) w 0 (heldIns (k full) 0 uDm i)) = true) ∧
    (let i := mkTIns th 5 0x81 0x30000003 0 1 (BitVec.ofNat 128 (dmX 5))
     let k := tiled { ready with dm := some (.move i) } []
     (match (tile k 0).dm with | some (.move v) => v.plain == i | _ => false) = true ∧ runsIns k 0 i = true) ∧
    (let k : Core := { tiled ready [] with objs := [(1, { alloc := true, ctx := some 0, home := 2, len := 64, lost := true })] }
     moves k 0x81 0x10000000 0 1 0x30000001 = true ∧
     lost (dmOpenDest k { tile := some 0 } 0 (heldIns k 0 uDm (mkTIns th 5 0x81 0x10000000 0 1 0x30000001))) = true) ∧
    (let k : Core := { tiled ready [] with objs := [(1, { alloc := true, ctx := some 0, home := 2, len := 64, lost := true })] }
     moves k 0x81 0x30000001 0 1 (BitVec.ofNat 128 (dmX 5)) = true ∧
     lost (dmOpenSrc k { tile := some 0 } 0 (heldIns k 0 uDm (mkTIns th 5 0x81 0x30000001 0 1 (BitVec.ofNat 128 (dmX 5))))) = true) := by decide +kernel
/-- Tile 0 with engine 0 as given. -/
def engined (g : Engine) : Core := tiled { ready with engines := [(0, g)] } []
/-- An MX instruction that engine 0 of tile 0 can take. -/
def feeds (k : Core) (op : Nat) (a b c : W32) (x : W128) : Bool :=
  let i := mkTIns th 6 op a b c x
  engOf k 0 i == some 0 && free k 0 i
/-- A load, a pass and a drain of one row. -/
def aLoad : TIns := mkTIns th 6 0x01 0x10400 0 0 0
def aPass : TIns := mkTIns th 6 0x02 0x400 0 1 0
def aDrain : TIns := mkTIns th 6 0x83 0x400 0 1 (BitVec.ofNat 128 (2 * 2 ^ 48))
theorem witness_MatrixInstructionsComplete :
    feeds (engined {}) 0x01 0x10400 0 0 0 = true ∧ (eng (engined {}) 0 0).s0.st = 0 ∧ (eng (engined {}) 0 0).run = [] ∧
    feeds (engined { s0 := { st := 2 }, s1 := { st := 3 } }) 0x01 0x10400 0 0 0 = true ∧
    feeds (engined { s0 := { st := 3 } }) 0x02 0x400 0 1 0 = true ∧ currentReg { s0 := { st := 3 } } = .use false ∧
    fmtPairs (bits (0x400#32).toNat 14 12) (({ s0 := { st := 3 } } : Engine).sreg false).fmt = true ∧
    feeds (engined { s0 := { st := 2 } }) 0x02 0xC00 0 1 0 = true ∧ bits (0xC00#32).toNat 11 11 = 1 ∧ takeReg { s0 := { st := 2 } } = .use false ∧
    feeds (engined {}) 0x83 0x400 0 1 (BitVec.ofNat 128 (2 * 2 ^ 48)) = true ∧
    ([{ ins := aLoad }] : List MxRun).find? (fun r => r.ins.op == 0x01 && !r.done) = some { ins := aLoad } ∧
    (let k := engined { s0 := { st := 3 }, run := [{ ins := aPass }] }
     let r : MxRun := { ins := aPass }
     (tile k 0).phase = 2 ∧ (eng k 0 0).run.find? feeding = some r ∧ r.emptyDue = false ∧ bits r.ins.a.toNat 16 16 = 0 ∧
     drainOwes (eng k 0 0).run r (r.ins.ostart + r.next) = false ∧ 16 ≤ (eng k 0 0).acc + rein k 0) ∧
    (let k := tiled { ready with soft := 4, engines := [(0, { acc := 0, run := [{ ins := aPass }] })] } []
     (eng k 0 0).acc + rein k 0 < 16) ∧
    (let w : Wave := { row := 0, acc := false, tag := false, bad := false, sums := [] }
     let g : Engine := { waves := [w], run := [{ ins := aPass, next := 1 }] }
     g.waves = [w] ∧ g.run.find? (fun r => r.ins.op == 0x02 && decide (r.wrote < r.ins.mxRows)) = some { ins := aPass, next := 1 }) ∧
    (let g : Engine := { run := [{ ins := aDrain }], oab := [(0, { vals := List.replicate 64 0 })] }
     let r : MxRun := { ins := aDrain }
     g.run.find? draining = some r ∧ passOwes g.run r (r.ins.ostart + r.next) = false ∧
       63 < (mget { vals := List.replicate 64 0 } g.oab 0).vals.length) ∧
    (eng (engined { s0 := { st := 4 } }) 0 0).s0.st = 4 ∧ (eng (engined {}) 0 0).s0.st ≠ 4 ∧ (eng (engined {}) 0 0).s1.st ≠ 4 := by decide +kernel
/-- A VX instruction that the vector engine of tile 0 can take. -/
def veTakes (op : Nat) (a b c : W32) (x : Nat) : Bool :=
  let k := tiled ready []
  free k uVe (mkTIns th 7 op a b c (BitVec.ofNat 128 x)) && (tile k 0).win.isNone
/-- One row of n BF16 elements. -/
def row (n : Nat) : W32 := BitVec.ofNat 32 (1 + n * 4096)
theorem witness_VectorInstructionsComplete :
    (∀ op ∈ [0x81, 0x82, 0x83, 0x84, 0x85, 0x87], veTakes op 0 0x20001 (row 32) 0 = true) ∧
    veTakes 0x86 0x3000000 0x20000 (row 32) (0x3F800000 * 2 ^ 64) = true ∧ veTakes 0x88 0xC00000 0x20000 (row 32) 0 = true ∧
    veTakes 0x89 0xC00000 0x20000 (row 32) 0 = true ∧ veTakes 0x8A 0x1000000 0x20001 (row 32) 0 = true ∧
    veTakes 0x8B 0 0x20000 (row 32) (0x3F800000 * 2 ^ 64 + 16 * 2 ^ 96) = true ∧ veTakes 0x8C 0 0x20001 (row 32) 0 = true ∧
    veTakes 0x8D 0 0x20000 (row 64) (64 * 2 ^ 96) = true ∧
    (let i := mkTIns th 7 0x8B 0 0x20000 (row 32) (BitVec.ofNat 128 (0x3F800000 * 2 ^ 64 + 16 * 2 ^ 96))
     i.vRows = 1 ∧ i.vPar 19 0 = 16 ∧ 16 < i.vLen ∧
       (((aRow (tiled ready []) 0 i 0).map Prod.fst).take 16).all (fun y => (mulR .fp32 y i.imm {}).1.isFin) = true) ∧
    (let i := mkTIns th 7 0x81 0 0x20001 (row 32) 0
     i.vRows = 1 ∧ 31 < i.vLen) ∧
    (let map := mkTIns th 9 0x81 0x8000 0x10001 1 0x11
     let k := tiled { ready with cf := some map } []
     let i := mkTIns th 7 0x8E 0x8000 0x20000 (row 64) 0
     let other := mkTIns th 7 0x8E 0x8000 0x20000 (row 32) 0
     let fmt := mkTIns th 7 0x8E 0x10000 0x20000 (row 64) 0
     let grouped (b : W32) := mkTIns th 7 0x8E 0x8000 b (row 64) (BitVec.ofNat 128 (2 * 2 ^ 96 + 2 ^ 100))
     free k uVe (grouped 0x10003) = true ∧ (windowWeights (grouped 0x10003) map).rows = 2 ∧ (windowWeights (grouped 0x10003) map).stop ≤ tmLines ∧
       (windowWeights (grouped 0x10003) map).meets (vxD (grouped 0x10003)) = false ∧ free k uVe (grouped 0x25FFE) = true ∧
       tmLines < (windowWeights (grouped 0x25FFE) map).stop ∧ free k uVe (grouped 0x50003) = true ∧
       (windowWeights (grouped 0x50003) map).stop ≤ tmLines ∧ (windowWeights (grouped 0x50003) map).meets (vxD (grouped 0x50003)) = true ∧
     (tile k 0).win = none ∧ (windowWeights i map).meets (vxD i) = false ∧ (windowWeights fmt map).meets (vxD fmt) = false ∧ free k uVe i = true ∧ i.vLen = chunkK map.cvFmt ∧ i.vAf = map.cvFmt ∧ free k uVe other = true ∧ other.vLen ≠ chunkK map.cvFmt ∧
       free k uVe fmt = true ∧ fmt.vLen = chunkK map.cvFmt ∧ fmt.vAf ≠ map.cvFmt) := by decide +kernel
/-- Tile 0 with the bytes given in its memory, while line 0 of the page that sequence 3 maps is under recovery. -/
def recovering (l : SMap Byte) : Core :=
  { tiled { ready with mem := { cells := l, bad := [] } } [] with
    seqs := [(3, { pool := some 0, st := .running, pages := [(0, BitVec.ofNat 64 (2 ^ 36))], idx := [(0, 1)], segs := [(0, 2)] })]
    objs := world.objs.map (fun x => if x.1 == 4 then (4, { x.2 with recov := [(0, 1)] }) else x) }
/-- An entry failed. -/
def refused : AtRes → Bool | .fail _ _ _ => true | _ => false
/-- Every entry passed. -/
def passed : AtRes → Bool | .go _ _ _ => true | _ => false
theorem witness_ConvolutionAndAttentionComplete :
    (let map := mkTIns th 9 0x81 0x8000 0x10001 1 0x11
     let feed := mkTIns th 9 0x02 0x10 0 1 0
     let bad := mkTIns th 9 0x02 0x50010 0 1 0
     let k := tiled { ready with cf := some map } []
     free k uCf map = true ∧ (tile k 0).feed = none ∧ free k uCf feed = true ∧ (tile k 0).cf = some map ∧ feedFault k 0 map feed = none ∧
       free k uCf bad = true ∧ feedFault k 0 map bad = some 80 ∧ (tile (tiled ready []) 0).cf = none) ∧
    (let k := tiled ready []
     let run := mkTIns th 8 0x81 0 0 0x10001 0x10000000
     let put := mkTIns th 8 0x82 0 0 0x10001 0x10000000
     let merge := mkTIns th 8 0x83 0 20 0x20001 5
     let waits := recovering [(0, 3), (8, 1), (12, 1)]
     let other := recovering [(8, 1)]
     (tile k 0).ap = none ∧ free other uAp run = true ∧ refused (atEntries (runEntry 0 run) (takeIns other 0 uAp run) 0 {} 0 1) = true ∧
       (match atEntries (runEntry 0 run) (takeIns waits 0 uAp run) 0 {} 0 1 with | .wait => true | _ => false) = true ∧
       free waits uAp run = true ∧
       (let k := tiled { ready with ap := some { ins := run } } []
        (match (tile k 0).ap with | some v => v.ins.plain == run | none => false) = true ∧ runsIns k 0 run = true) ∧
       free k uAp run = true ∧ (∀ e ∈ placeChks k 0 128 160 0x10000000 ⟨0, 0, 1, 1⟩, e.bad = false) ∧
       passed (atEntries (runEntry 0 run) (takeIns k 0 uAp run) 0 {} 0 1) = true ∧ free k uAp put = true ∧
       passed (atEntries (putEntryRows 0 put) (takeIns k 0 uAp put) 0 {} 0 1) = true ∧ free k uAp merge = true) := by decide +kernel

/-! ## Witnesses: stacks, ports, channels, sessions, mirroring, and the statements over every command -/

/-- A request of a line at port 0: a read, or a write of both lines of its check burst. -/
def request (n : Nat) (w : Bool) : DramReq := { port := 0, line := n, write := w, both := w, age := 0 }
/-- Stack 0 answers and nothing waits in it. -/
def idles (k : Core) : Bool := stackServes false 0 k && (stk k 0).slots.isEmpty && (stk k 0).input.isEmpty
/-- The hypotheses on a request that stands alone at stack 0, pseudo-channel 0, while the banks given are busy. -/
def standsAlone (k : Core) (r : DramReq) (busy : List Nat) : Bool :=
  idles k && !(stk k 0).training.contains 0 && !(stk k 0).frozen && !((stk k 0).pc 0).burst && ((stk k 0).pc 0).owed == 0 &&
  ((stk k 0).pc 0).nbr.isEmpty && (placeOf k 0 (64 * r.line)).pc == 0 && !busy.contains (placeOf k 0 (64 * r.line)).bankNo
/-- Stack 0 with the state given. -/
def stacked (q : Stk) : Core := { world with stks := [(0, q)] }
theorem witness_StacksServe :
    stacksRun world = true ∧ (∀ w ∈ [false, true], standsAlone world (request 0 w) [] = true ∧
      standsAlone world (request (14435 * 32768) w) [] = true) ∧ 64 * (14435 * 32768) < 14436 * 2 ^ 21 ∧
    standsAlone world (request (14436 * 32768) false) [] = true ∧ 64 * (14436 * 32768) < 2 ^ 35 ∧
    (request 0 false).write = false ∧ (request 0 true).write = true ∧ (request 0 true).both = true ∧
    systemLine world 0 = false ∧ systemLine world (14435 * 2 ^ 21) = true ∧ world.glb.st ≠ .halted ∧ memoryOn world = true ∧
    world.pst.handshake ≠ 1 ∧
    (let k := stacked { pcs := [(0, { owed := 8 })] }
     idles k = true ∧ (stk k 0).training.contains (0 / 2) = false ∧ ((stk k 0).pc 0).burst = false ∧ 0 < ((stk k 0).pc 0).owed ∧
     ((stk k 0).pc 0).owed ≤ min 8 (rfld k (oRefPostpone 0) 3 0)) ∧
    (let k := stacked { training := [0] }
     idles k = true ∧ (stk k 0).training.contains (0 / 2) = true ∧ (placeOf k 0 0).pc = 0 ∧ stacksRun k = true ∧ 1 ∉ (stk k 0).training ∧
     1 ∉ (stk k 0).trainWait ∧ (stk k 0).training ≠ [] ∧ rfld k (oRetrain 0) 31 0 ≠ 0 ∧ memoryOn k = true ∧ (stk k 0).trainWait = []) ∧
    (let k := stacked { trainTemp := [(0, 40)], temp := 50 }
     mget? (stk k 0).trainTemp 0 = some 40 ∧ rfld k (oRetrain 0) 39 32 ≠ 0 ∧ 40 + rfld k (oRetrain 0) 39 32 ≤ 50 ∧
     30 + rfld k (oRetrain 0) 39 32 ≤ 40 ∧ tempMoved k 0 0 = true ∧ stacksRun k = true) := by decide +kernel
theorem witness_StacksServe_migrationAndScrub :
    (∀ m ∈ [0, sliceFrames - 1, sliceFrames],
      let k := stacked { migrating := some 1, moved := m }
      memoryOn k = true ∧ (stk k 0).migrating = some 1 ∧ hwMay k 4 0 = true ∧ (stk k 0).frozen = false ∧ (stk k 0).moved = m ∧
      (stk k 0).waiting = [] ∧ (stk k 0).trainWait = [] ∧ (stk k 0).training = []) ∧
    systemLine (stacked { migrating := some 1 }) (frameAddr (stacked { migrating := some 1 }) 1 0) = false ∧
    (let e : FrameRead := { stack := 0, errs := [3] }
     e.stack = 0 ∧ e.errs = [3] ∧ ∀ x ∈ ({ e with errs := [0, 1, 2, 0] } : FrameRead).errs.take 4, x ≤ 2) ∧
    (stk (stacked { migrating := some 1, moved := sliceFrames, waiting := [2] }) 0).waiting = [2] ∧
    ((stk world 0).training = [] ∧ (stk world 0).trainWait = [] ∧ (stk world 0).migrating = none ∧ world.maint.slots = [] ∧
      rfld world (oRetrain 0) 31 0 ≠ 0) ∧
    (let k : Core := { world with maint := { slots := [(0, { id := 2, st := 2, order := 1 })], count := 1 } }
     alive k = true ∧ slotOfAct k 2 0 = some (0, { id := 2, st := 2, order := 1 }) ∧ mget? k.maint.slots 0 = some { id := 2, st := 2, order := 1 } ∧
     (stk k 0).frozen = false ∧ mget 0 (stk k 0).scrubbed 0 + 1 < pcFrames) ∧
    mget 0 (stk (stacked { scrubbed := [(0, 3695614)] }) 0).scrubbed 0 + 1 < pcFrames := by decide +kernel
/-- A frame from node 1. -/
def frame (ty dest chan tag : Nat) : Frame :=
  { dest := BitVec.ofNat 12 dest, src := 1, type := BitVec.ofNat 8 ty, hops := 1, chan := BitVec.ofNat 16 chan, tag := BitVec.ofNat 64 tag,
    offset := 0, flags := 0, body := [], lines := [] }
/-- Port 0 as given. -/
def porting (k : Core) (q : FPort) (f : Fab → Fab) : Core := { k with fab := f { k.fab with ports := [(0, q)] } }
/-- `world` with port 0 up. -/
def linked (f : Fab → Fab) : Core := porting world { link := 2, width := 8 } f
/-- The frame arrives at this node over a link that is up. -/
def arrives (k : Core) (f : Frame) : Bool :=
  portLive k 0 && decide (f.lines.length ≤ 16) && decide (f.body.length ≤ 28) && k.glb.st != .graze && f.dest != 0xFFF && f.dest.toNat == ownNode k &&
  !strayFrame k 0 f
theorem witness_PortsAndNodes :
    (portsServe (porting world { link := 1 } id) = true ∧ (fport (porting world { link := 1 } id) 0).link = 1 ∧ laneCount 0xFF = 8 ∧
     2 ≤ laneCount 0x0F ∧ laneCount 0x7F < 8 ∧ 2 ≤ laneCount 3 ∧ laneCount 1 < 2 ∧ laneCount 0 < 2) ∧
    ((fport world 0).link = 0 ∧ rfld world (oFabPortCtl 0) 0 0 = 1 ∧ portTested world 0 = false) ∧
    (let k := linked id
     (fport k 0).link = 2 ∧ (fport k 0).sent = [] ∧ isTwinPort k 0 = false ∧
       (∀ e ∈ k.fab.nodes, ((node k e.1).mask.testBit 0 = false ∨ (node k e.1).lost = true)) ∧ arrives k (frame tPing 0 0 0) = true ∧
       arrives k (frame tPong 0 0 0) = true ∧ arrives k (frame tGrant 0 0 0) = true) ∧
    (let k := porting world { link := 2, sent := [frame tData 1 0 0], resends := 14 } id
     (fport k 0).sent = [frame tData 1 0 0] ∧ (fport k 0).resends < 15 ∧ (frame tData 1 0 0).type.toNat ≠ tMirror) ∧
    (let f := frame tData 2 0 0
     knownType f.type.toNat = true ∧ f.dest ≠ 0xFFF ∧ f.dest.toNat ≠ ownNode (linked id) ∧ f.hops ≠ 0 ∧
       ({ f with hops := 0 } : Frame).hops = 0 ∧ knownType 0x7F = false) ∧
    (let f : Frame := { frame tDown 0 0 0 with body := [0, 0, 0, 0, 0, 0, 0, 0], hops := 0 }
     arrives (linked id) f = true ∧ ofLE (f.body.take 2) % 4096 = ownNode (linked id)) ∧
    (let f : Frame := { frame tDown 0 0 0 with body := [1, 0, 0, 0, 7, 0, 0, 0], hops := 0 }
     let k := linked (fun b => { b with nodes := [(1, { lost := true })] })
     arrives k f = true ∧ ofLE (f.body.take 2) % 4096 ≠ ownNode k ∧ BitVec.ofNat 32 (ofLE ((f.body.drop 4).take 4)) ∉ (node k 1).downs ∧
       (node k 1).lost = true ∧ twinEn k = false ∧ k.fab.sessions = [] ∧ (∀ e ∈ k.tiles, e.2.dm.isNone = true)) ∧
    (let k := withRegs (linked id) [(oGrantSrc, 1)]
     grantOk grantBody = true ∧ pathOk k (some 1) = true ∧ newer k.pwr (grantOf (grantBody ++ [])).seq = true) ∧
    (let k := { linked (fun b => { b with chans := [(3, { st := 1, peer := 1 })] }) with tiles := [(0, { dm := some (.peer aLoad 3 0) })] }
     (node k 1).lost = false ∧ (node k 1).pinged = false ∧ awaits k 1 = true) ∧
    (let k := linked (fun b => { b with nodes := [(1, { pinged := true })] })
     portsServe k = true ∧ (node k 1).lost = false ∧ (node k 1).pinged = true ∧ twinEn k = false ∧ k.fab.sessions = [] ∧
       (∀ e ∈ k.tiles, e.2.dm.isNone = true)) := by decide +kernel
/-- Paired mode enabled with node 1 as the twin, in the state given. -/
def twinned (w : Twin) : Core := withRegs (linked (fun b => { b with twin := w })) [(oTwinCtl, 1 + 1 * 2 ^ 16)]
/-- A shard of one line, and a session that receives it and another. -/
def shard : Shard := { handle := 1, first := 0, lines := 1, digest := sha256 (leBytes 64 9) }
def receiving : Session := { reader := false, peer := 1, mask := 1, ins := mkCtl hc 0xE 4 0 0 0 0, shards := [shard, shard], handles := [1] }
def sending : Session := { reader := true, mask := 1, count := 1, ins := mkCtl hc 0xE 3 0 0 0 0, shards := [shard, shard], handles := [] }
theorem witness_ChannelsSessionsAndMirroring_channels :
    (arrives (linked id) (frame tData 0 5 0) = true ∧ chanTakes (chan (linked id) 5) (frame tData 0 5 0) = false) ∧
    (let f : Frame := { frame tData 0 5 0 with lines := [7] }
     let k := linked (fun b => { b with chans := [(5, { st := 2, inbound := true, stg := true, peer := 1, lines := 1, slots := 1 })] })
     arrives k f = true ∧ chanTakes (chan k 5) f = true ∧ (chan k 5).stg = true ∧ f.flags.getLsbD 0 = false ∧
       ({ f with flags := 1 } : Frame).flags.getLsbD 0 = true) ∧
    (let k := { linked (fun b => { b with chans := [(3, { st := 1, peer := 1, peerChan := 5, stg := true, slots := 2 })] }) with
                tiles := [(0, { dm := some (.peer aLoad 3 0) })] }
     arrives k (frame tAck 0 5 0) = true ∧ arrives k (frame tNack 0 5 0) = true ∧ arrives k (frame tCredit 0 5 0) = true ∧
       outChan k 1 5 = some 3 ∧ peerWaiter k 3 0 = some (0, aLoad) ∧ ofLE ((frame tNack 0 5 0).body.take 2) ≠ rShardDigest) := by decide +kernel
theorem witness_ChannelsSessionsAndMirroring_sessions :
    (let k := linked (fun b => { b with sessions := [(5, sending)] })
     let f : Frame := { frame tNack 0 5 0 with body := leBytes 2 rShardDigest }
     arrives k f = true ∧ ofLE (f.body.take 2) = rShardDigest ∧ session k 5 = some sending ∧ sending.reader = true ∧ sending.started = false ∧
       arrives k (frame tCtl 0 5 0) = true ∧ bits (frame tCtl 0 5 0).flags.toNat 15 8 = bJoin) ∧
    (let k := linked (fun b => { b with sessions := [(5, receiving)] })
     let f : Frame := { frame tBcast 0 5 0 with lines := [9], flags := 1 }
     let e : Frame := { frame tCtl 0 5 0 with flags := 0x100 }
     arrives k f = true ∧ session k 5 = some receiving ∧ receiving.peer = 1 ∧ f.tag.toNat ∉ receiving.verified ∧
       receiving.shards[f.tag.toNat]? = some shard ∧ f.offset.toNat + f.lines.length ≤ shard.lines ∧ f.flags.getLsbD 0 = true ∧
       ({ f with flags := 0 } : Frame).flags.getLsbD 0 = false ∧ 1 < receiving.shards.length ∧ 1 ≠ f.tag.toNat ∧ 1 ∉ receiving.verified ∧
       arrives k e = true ∧ bits e.flags.toNat 15 8 = bEnd ∧ receiving.missing ≠ [] ∧
       (portLive k 0 = true ∧ ({ f with dest := 0xFFF } : Frame).dest = 0xFFF)) := by decide +kernel
theorem witness_ChannelsSessionsAndMirroring_repairs :
    (let v : Session := { sending with joined := [(1, {})] }
     let k := linked (fun b => { b with sessions := [(5, v)] })
     let f : Frame := { frame tCtl 0 5 0 with flags := 0x200, lines := [1] }
     let d : Frame := { frame tCtl 0 5 0 with flags := 0x300 }
     arrives k f = true ∧ bits f.flags.toNat 15 8 = bBitmap ∧ mget? v.joined 1 = some {} ∧ ({} : Recv).done = false ∧ ({} : Recv).failed = false ∧
       bitmapShards f = [0] ∧ (∀ i ∈ [0], i < v.shards.length ∧ mget 0 ({} : Recv).resends i < 4) ∧ arrives k d = true ∧
       bits d.flags.toNat 15 8 = bDone) ∧
    (let k := linked (fun b => { b with sessions := [(0, { receiving with gotEnd := true }), (1, sending)] })
     alive k = true ∧ session k 1 = some sending ∧ (session k 0).isSome = true ∧ ({ receiving with gotEnd := true } : Session).missing ≠ []) := by decide +kernel
theorem witness_ChannelsSessionsAndMirroring_mirroring :
    (let k := twinned { st := 3 }
     arrives k (frame tMirror 0 0 1) = true ∧ twinEn k = true ∧ twinNode k = 1 ∧ k.fab.twin.st = 3 ∧ k.fab.twin.applied < 1 ∧ k.fab.twin.early = []) ∧
    (let k := twinned { st := 2 }
     let f : Frame := { frame tMirror 0 0 1 with flags := BitVec.ofNat 32 (mStepEnd * 256) }
     arrives k f = true ∧ twinEn k = true ∧ k.fab.twin.st = 2 ∧ f.tag.toNat = k.fab.twin.applied + 1 ∧ k.fab.twin.early = [] ∧
       bits f.flags.toNat 15 8 = mStepEnd ∧ arrives k (frame tMirrorAck 0 0 1) = true ∧ k.fab.twin.syncEnd = none) ∧
    (∀ e ∈ world.seqs, e.2.waiting = []) := by decide +kernel
/-- Its one line has arrived. -/
def received : Core := putShard (linked id) shard { frame tBcast 0 5 0 with lines := [9], flags := 1 }
theorem received_line : copyLine received 1 0 = (9, false) := by decide +kernel
theorem witness_ChannelsSessionsAndMirroring_digest : shardDigest received shard = shard.digest := by
  unfold shardDigest
  rw [show upFrom shard.first shard.lines = [0] from rfl, List.flatMap_cons, List.flatMap_nil, List.append_nil, show shard.handle = 1 from rfl,
    received_line]
  rw [show leBytes 64 (9 : Line).toNat = leBytes 64 9 by decide +kernel, shard]
theorem witness_RefusalsChangeNothing :
    (ctlOf (.sysCtxOpen hc 0 0 0)).isSome = true ∧ ctlServed world = true ∧ srcLive world .conductor = true ∧
    (let r : CtlRow := ⟨sysCtxOpenSpec, hc, 0, 0, 0, 0⟩
     let bad := (r.checks world).filter (·.bad)
     bad = [cState 64 true 1]) ∧
    ctlServed (dev .graze) = false ∧ srcLive world (.port 0) = false ∧ world.pst.heldBar4 = [] ∧ world.burn = [] := by decide +kernel
theorem witness_FusesOnlyGain : Fuses.le State.reset.fuse State.reset.fuse := by
  unfold Fuses.le
  decide +kernel
theorem witness_HaltedIsLeftOnlyByReset :
    (st (dev .halted)).core.glb.st = .halted ∧ (st (dev .halted)).core.pst.waking = false ∧
    resets (.sysNop hc 0 0 0) = false ∧ resets .pwrgoodFall = true := by decide +kernel

/-! ## WellFormed refuses an ill-formed command for each of its checks -/

/-- A frame with a body one byte too long. -/
def longFrame : Frame :=
  { dest := 1, src := 2, type := 0, hops := 0, chan := 0, tag := 0, offset := 0, flags := 0, body := List.replicate 29 0, lines := [] }
/-- The longest body a frame takes (R409). -/
def fullFrame : Frame := { longFrame with body := List.replicate 28 0 }

theorem test_wellFormed_frame : wellFormed (.fabPing 0 longFrame) = false ∧ wellFormed (.fabPing 0 fullFrame) = true := by decide +kernel
theorem test_wellFormed_link :
    wellFormed (.pcieLinkTrained 2 6 true) = false ∧ wellFormed (.pcieLinkTrained 4 6 false) = false ∧
    wellFormed (.pcieLinkTrained 4 6 true) = true := by decide +kernel
theorem test_wellFormed_threshold : wellFormed (.thermNAssert 99) = false ∧ wellFormed (.thermNAssert 100) = true := by decide +kernel
theorem test_wellFormed_pulse : wellFormed (.resetNLow 9) = false ∧ wellFormed (.resetNLow 10) = true := by decide +kernel
theorem test_wellFormed_codeword : wellFormed (.flashRead 0 57344 0 0 0) = false ∧ wellFormed (.flashRead 0 57343 2047 7 0) = true := by
  decide +kernel
theorem test_wellFormed_retry :
    wellFormed (.flashReadRetry 0 0 0 0 [9, 9, 9, 9]) = false ∧ wellFormed (.flashReadRetry 0 0 0 0 [9, 9, 9]) = true := by decide +kernel
theorem test_wellFormed_loops : wellFormed (.flashEraseDone 0 0 10 0) = false ∧ wellFormed (.flashEraseDone 0 0 9 0) = true := by
  decide +kernel
theorem test_wellFormed_credential : wellFormed (.dbgUnlock 1 [] []) = false := by decide +kernel
theorem test_wellFormed_estimates :
    wellFormed (.fastPeriod { tilePower := [], uncore := [], tmax := 40 }) = false ∧
    wellFormed (.fastPeriod { tilePower := [1, 1, 1, 1, 1], uncore := [1, 1, 1, 1, 1], tmax := 40 }) = true := by decide +kernel
theorem test_wellFormed_cfg :
    wellFormed (.pcieConfigRequest (.maxPayload 1024)) = false ∧ wellFormed (.pcieConfigRequest (.maxPayload 512)) = true := by decide +kernel

/-! ## The spec's worked examples -/

/-- The DM.COPY of 05_instruction_set: OP 0x81, CLS 5, LAST, counters 5 and 9, A, B and C. -/
theorem test_tile_word :
    insOfWord 0 (0x81528589300012340000040000000100) 0 =
      { widx := 0, fence := false, last := true, wen := true, wctr := 5, sen := true, sctr := 9, cls := 5, op := 0x81
        a := 0x30001234, b := 0x400, c := 0x100, x := 0 } := by decide +kernel
/-- The quantised weights of 07_numerics: 448, −112, 17, −19 and −0.375 in E4M3. -/
theorem test_quantise :
    [Num.fin false 448 0, .fin true 112 0, .fin false 17 0, .fin true 19 0, .fin true 3 (-3)].map
      (fun x => Fmt.e4m3.encode (convert .e4m3 x {}).1) = [0x7E, 0xEE, 0x59, 0xDA, 0xAC] := by decide +kernel
/-- The weights of 12_weight_packs, coded with T[1] to T[7] = 120 to 126 (R342). -/
theorem test_code_weights :
    [0x3F40, 0xBC40, 0x3BC0, 0x3BC1, 0x3B20, 0x3BFF, 0x8000].map (codeWeight [120, 121, 122, 123, 124, 125, 126]) =
      [(7, 0x40), (1, 0xC0), (0, 0x60), (0, 0x61), (0, 0x28), (1, 0x00), (0, 0x80)] := by decide +kernel
/-- The block that holds them, and what it expands to (R340). -/
def exampleBlock : List Byte :=
  [0x77, 0x78, 0x79, 0x7A, 0x7B, 0x7C, 0x7D, 0x7E, 5, 0, 0, 0x10, 0, 0, 0, 0, 0x40, 0xC0, 0x60, 0x61, 0x28, 0x00, 0x80] ++
  List.replicate 505 0 ++ [0x0F, 0x80, 0]
theorem test_expand_weights :
    (upFrom 0 7).map (packWeight exampleBlock) = [0x3F40, 0xBC40, 0x3BC0, 0x3BC2, 0x3B20, 0x3C00, 0x8000] := by decide +kernel
/-- The delta block of the same example: SCALE, the codes of weights 2 and 3, and what they combine to (R345, R346). -/
theorem test_delta :
    deltaScale 448 (-18) = (128, -25) ∧ Fmt.bf16.encode (.fin false 128 (-25)) = 0x3680 ∧
    codeDelta (some (128, -25)) (deltaDiff 0x3BC4 0x3BC2) = 0x58 ∧ codeDelta (some (128, -25)) (deltaDiff 0x3BD9 0x3BC0) = 0x75 ∧
    deltaWeight ([0x80, 0x36] ++ List.replicate 14 0 ++ [0, 0, 0x75, 0x58]) 3 0x3BC2 = (0x3BC4, 0) ∧
    deltaWeight ([0x80, 0x36] ++ List.replicate 14 0 ++ [0, 0, 0x75, 0x58]) 2 0x3BC0 = (0x3BDA, 0) := by decide +kernel
/-- The system region of the voice service in 03_startup: 1,170 MiB (R80). -/
theorem test_system_region :
    let k : Core := { live with regs := [(oSysRegion, 3), (oSeqLimit, 1048576), (oAcctLimit, 16384), (oObjLimit, 262144)] }
    sysNeed k = 1170 * 2 ^ 20 ∧ sysBytes k = 1536 * 2 ^ 20 := by decide +kernel
/-- An instruction of the bundle in 05_instruction_set. -/
def bundleIns (ord : W32) (op : Nat) (a b : W32) (flags : BitVec 4) : Ctl :=
  { src := .port 2, ord := ord, flags := flags, cls := 0, op := op, a := a, b := b, c := 0, x := 0x1000 * 2 ^ 64 + 0x4000 }
/-- The bundle of 05_instruction_set: the third instruction is refused with WRONG_STATE 0x1, and nothing of the bundle stays (R122). -/
theorem test_bundle :
    let l := [bundleIns 40 0x06 7 0 0, bundleIns 41 0x84 12 64 0, bundleIns 42 0x84 12 64 2]
    let k : Core := { live with ports := [(2, { st := .opened })] }
    (applyBundle 0 l k).2.map (fun r => (r.1.ord, r.2)) = some (42, 0x0201, 1) ∧
    (let t := l.foldl (fun k i => joinBundle k 2 i) k
     (ctx t 7).isOpen = false ∧ (dring t 12).isOpen = false ∧ (port t 2).produced = 3) := by decide +kernel
/-- The word 1 has the BCH bits of x^14 modulo g(x) and, with nine bits set, PARITY 1; the word 0 without POISON has none (R502). One bit
in error is corrected (R503). -/
theorem test_codeword :
    bchOf 1 false = 0x377 ∧ checkBits 1 false = 0x86EE ∧ checkBits 0 false = 0 ∧
    decodeWord (flipBit (codeword 1 true) 70) = some (codeword 1 true, 1) := by decide +kernel
/-- SHA-256 of "abc" (FIPS 180-4). -/
theorem test_sha256 :
    (sha256 [0x61, 0x62, 0x63]).take 4 = [0xBA, 0x78, 0x16, 0xBF] ∧ (sha256 [0x61, 0x62, 0x63]).drop 28 = [0xF2, 0x00, 0x15, 0xAD] := by
  decide +kernel

/-! ## Single commands -/

/-- With no command waiting the block idles; with one at the front it takes that one. -/
theorem test_step_idle : step State.reset = .next State.reset := by rfl
theorem test_step_queue :
    (match step { st live with pending := [.resetNLow 10, .rootPllLock] } with | .next t => t.pending | _ => []) = [.rootPllLock] := by
  decide +kernel
end Sys2Proof.Tests
end

section
/-! PROOFS. Cause counters (R19, R531): what a table holds after a value is set or its entries are filtered by key, and from
these what counting and clearing do to each counter. -/

namespace Sys2Proof.Proofs.Counters
open Sys2Proof.Machine Sys2Proof.Laws

/-! ## Reads of a table -/

section Tables
variable {α : Type}

@[simp] theorem mget_mset_same [DecidableEq α] (d v : α) (m : SMap α) (n : Nat) : mget d (mset d m n v) n = v := by
  unfold mset
  split
  · next hv => rw [mget_mdel_same, hv]
  · rw [mget_mput_same]

theorem mget_mset_ne [DecidableEq α] (d v : α) (m : SMap α) {n j : Nat} (h : j ≠ n) :
    mget d (mset d m n v) j = mget d m j := by
  unfold mset
  split
  · exact mget_mdel_ne d m h
  · exact mget_mput_ne d v m h

/-- A filter on the keys needs no order of the table: all entries of one key stay or go together. -/
theorem mget_mfilter_key (d : α) (p : Nat → Bool) (m : SMap α) (n : Nat) :
    mget d (mfilter (fun a _ => p a) m) n = if p n then mget d m n else d := by
  induction m with
  | nil => simp [mfilter, mget]
  | cons e r ih =>
    obtain ⟨k, v⟩ := e
    by_cases hn : n = k
    · subst hn
      by_cases hp : p n
      · simp [mfilter, mget, hp]
      · simp [mfilter, hp, ih]
    · by_cases hk : p k <;> simp [mfilter, mget, hk, hn, ih]

end Tables

/-! ## Counting -/

theorem bump_of_frozen {k : Core} {off : Nat} (n : Nat) (h : frozen k off = true) : bump k off n = k := by
  simp [bump, h]

theorem bump_ctr_of_not_frozen {k : Core} {off : Nat} (n : Nat) (h : frozen k off = false) :
    (bump k off n).ctr = mset 0 k.ctr off (min ctrMax (mget 0 k.ctr off + n)) := by
  simp [bump, h]

theorem mget_bump_same {k : Core} {off : Nat} (n : Nat) (h : frozen k off = false) :
    mget 0 (bump k off n).ctr off = min ctrMax (mget 0 k.ctr off + n) := by
  rw [bump_ctr_of_not_frozen n h, mget_mset_same]

theorem mget_bump_ne (k : Core) {off o : Nat} (n : Nat) (h : o ≠ off) :
    mget 0 (bump k off n).ctr o = mget 0 k.ctr o := by
  cases hf : frozen k off with
  | true => rw [bump_of_frozen n hf]
  | false => rw [bump_ctr_of_not_frozen n hf, mget_mset_ne 0 _ _ h]

/-! ## Clearing -/

theorem mget_clrCtrs (k : Core) (lo hi o : Nat) :
    mget 0 (clrCtrs k lo hi).ctr o = if lo ≤ o ∧ o < hi then 0 else mget 0 k.ctr o := by
  have h := mget_mfilter_key 0 (fun a => !decide (lo ≤ a ∧ a < hi)) k.ctr o
  by_cases hr : lo ≤ o ∧ o < hi <;> simpa [clrCtrs, hr] using h

theorem mget_clrCtrs_within (k : Core) {lo hi o : Nat} (h : lo ≤ o ∧ o < hi) : mget 0 (clrCtrs k lo hi).ctr o = 0 := by
  rw [mget_clrCtrs, if_pos h]

theorem mget_clrCtrs_outside (k : Core) {lo hi o : Nat} (h : o < lo ∨ hi ≤ o) :
    mget 0 (clrCtrs k lo hi).ctr o = mget 0 k.ctr o := by
  rw [mget_clrCtrs, if_neg (by omega)]

/-- Settles O20: each clause is the rule of its operation on the table of counters. -/
theorem countersSaturateAndFreeze : Obligations.CountersSaturateAndFreeze :=
  fun k _ n _ =>
    ⟨mget_bump_same n, bump_of_frozen n, fun _ => mget_bump_ne k n,
      fun _ _ _ => ⟨mget_clrCtrs_within k, mget_clrCtrs_outside k⟩⟩

end Sys2Proof.Proofs.Counters
end

section
/-! PROOFS. Fail-stop (R511) reaches HALTED and moves no pin. Each operation it is made of leaves the pins and the global state as they
were; only fail-stop itself sets the device state. -/

namespace Sys2Proof.Proofs.FailStop
open Sys2Proof.Machine Sys2Proof.Laws

/-- A fold keeps the pins and the global state where each of its steps does. -/
theorem foldl_keeps {α : Type} {f : Core → α → Core} (hf : ∀ k x, (f k x).pins = k.pins ∧ (f k x).glb = k.glb) (l : List α) (k : Core) :
    (l.foldl f k).pins = k.pins ∧ (l.foldl f k).glb = k.glb := by
  induction l generalizing k with
  | nil => exact ⟨rfl, rfl⟩
  | cons x l ih =>
    obtain ⟨hp, hg⟩ := ih (f k x)
    exact ⟨hp.trans (hf k x).1, hg.trans (hf k x).2⟩

/-! ## Space and promotion (R315, R323 to R330) -/

@[simp] theorem beginFetch_keeps (k : Core) (h a : Nat) : (beginFetch k h a).pins = k.pins ∧ (beginFetch k h a).glb = k.glb := by
  simp only [beginFetch]; split <;> simp

@[simp] theorem evictUntil_keeps (k : Core) (d n : Nat) (limit skip : Option Nat) (fuel : Nat) :
    (evictUntil k d n limit skip fuel).pins = k.pins ∧ (evictUntil k d n limit skip fuel).glb = k.glb := by
  induction fuel generalizing k with
  | zero => simp [evictUntil]
  | succ fuel ih => unfold evictUntil; split <;> [skip; split] <;> simp [ih]

@[simp] theorem takeSpace_keeps (k : Core) (h : Nat) (skip : Option Nat) :
    (takeSpace k h skip).pins = k.pins ∧ (takeSpace k h skip).glb = k.glb := by
  simp only [takeSpace]; split <;> simp

@[simp] theorem takeOrDrop_keeps (k : Core) (h : Nat) (limit skip : Option Nat) :
    (takeOrDrop k h limit skip).pins = k.pins ∧ (takeOrDrop k h limit skip).glb = k.glb := by
  simp only [takeOrDrop]; split <;> [skip; split] <;> simp

@[simp] theorem retrySpace_keeps (k : Core) (skip : Option Nat) :
    (retrySpace k skip).pins = k.pins ∧ (retrySpace k skip).glb = k.glb := by
  refine foldl_keeps (fun k h => ?_) _ k
  dsimp only
  split <;> [skip; split] <;> simp

/-! ## Abandonment of a step (R133, R268, R289, R350, R452) -/

@[simp] theorem reportBlock_keeps (k : Core) (px h n check : Nat) :
    (reportBlock k px h n check).pins = k.pins ∧ (reportBlock k px h n check).glb = k.glb := by
  simp only [reportBlock, loadPxLast]; split <;> [skip; split] <;> simp

@[simp] theorem checkOrphans_keeps (k : Core) (h : Nat) : (checkOrphans k h).pins = k.pins ∧ (checkOrphans k h).glb = k.glb := by
  simp only [checkOrphans]
  split
  · exact ⟨rfl, rfl⟩
  · refine foldl_keeps (fun k n => ?_) _ k
    split <;> [skip; split] <;> simp

@[simp] theorem abandonReads_keeps (k : Core) (ts : List Nat) :
    (abandonReads k ts).pins = k.pins ∧ (abandonReads k ts).glb = k.glb :=
  foldl_keeps checkOrphans_keeps _ _

@[simp] theorem chargeEnergy_keeps (k : Core) (u : UStep) (e : Nat) :
    (chargeEnergy k u e).pins = k.pins ∧ (chargeEnergy k u e).glb = k.glb := by
  simp only [chargeEnergy]
  split
  · exact ⟨rfl, rfl⟩
  · refine foldl_keeps (fun k p => ?_) _ k
    split <;> simp

@[simp] theorem halveHot_keeps (k : Core) (d n : Nat) : (halveHot k d n).pins = k.pins ∧ (halveHot k d n).glb = k.glb := by
  unfold halveHot; split <;> simp

@[simp] theorem returnPages_keeps (k : Core) (d n : Nat) : (returnPages k d n).pins = k.pins ∧ (returnPages k d n).glb = k.glb := by
  refine foldl_keeps (fun k p => ?_) _ k
  dsimp only
  split <;> simp

theorem abandonStep_keeps (k : Core) (d : Nat) : (abandonStep k d).pins = k.pins ∧ (abandonStep k d).glb = k.glb := by
  have stopped (ts : List Nat) := foldl_keeps (f := fun k t => modTile k t Tile.stopped) (fun k t => by simp) ts k
  have unpinned (l : List Nat) (k : Core) := foldl_keeps (f := dropPin) (fun k h => by simp [dropPin]) l k
  unfold abandonStep
  split
  · exact ⟨rfl, rfl⟩
  · simp [drawNat, retryWants, stopped, unpinned]

@[simp] theorem abandonAll_keeps (k : Core) : (abandonAll k).pins = k.pins ∧ (abandonAll k).glb = k.glb :=
  foldl_keeps abandonStep_keeps _ k

/-! ## Completion records, DEVICE_DOWN and the failure record (R430, R431, R543) -/

theorem endPort_keeps (k : Core) (n : Nat) : (endPort k n).pins = k.pins ∧ (endPort k n).glb = k.glb := by
  have recorded (l : List Ctl) (k : Core) :=
    foldl_keeps (f := fun k i => record k n i rWrongState DevState.halted.code []) (fun k i => by simp) l k
  simp only [endPort]
  split <;> simp [recorded]

@[simp] theorem endAll_keeps (k : Core) : (endAll k).pins = k.pins ∧ (endAll k).glb = k.glb :=
  foldl_keeps endPort_keeps _ k

@[simp] theorem ownDown_keeps (k : Core) (reason : Nat) : (ownDown k reason).pins = k.pins ∧ (ownDown k reason).glb = k.glb :=
  foldl_keeps (fun k p => by simp [sendOn]) _ k

theorem entriesOf_keeps {α : Type} (f : Core → Bool → α → List Byte) (l : List α) (k : Core) :
    (entriesOf f l k).2.2.pins = k.pins ∧ (entriesOf f l k).2.2.glb = k.glb := by
  have draw (k : Core) : (unreadable k).2.pins = k.pins ∧ (unreadable k).2.glb = k.glb := by
    unfold unreadable; split <;> simp [drawBool]
  unfold entriesOf
  refine List.foldlRecOn l _ (motive := fun (r : List Byte × Bool × Core) => r.2.2.pins = k.pins ∧ r.2.2.glb = k.glb)
    ⟨rfl, rfl⟩ (fun r hr x _ => ?_)
  exact ⟨(draw r.2.2).1.trans hr.1, (draw r.2.2).2.trans hr.2⟩

@[simp] theorem noteWrite_keeps (k : Core) (h line n : Nat) :
    (noteWrite k h line n).pins = k.pins ∧ (noteWrite k h line n).glb = k.glb := by
  unfold noteWrite; split <;> simp

@[simp] theorem failureRecord_keeps (k : Core) (reason : Nat) :
    (failureRecord k reason).pins = k.pins ∧ (failureRecord k reason).glb = k.glb := by
  simp only [failureRecord]
  split
  · exact ⟨rfl, rfl⟩
  · split <;> simp [entriesOf_keeps]

/-! ## Fail-stop -/

theorem failStop_pins (k : Core) (reason source inst arg : Nat) : (failStop k reason source inst arg).pins = k.pins := by
  simp only [failStop]
  split
  · rfl
  · split <;> split <;> simp

/-- A device that is not off ends HALTED, as it is already or by the fault. -/
theorem failStop_halted {k : Core} (reason source inst arg : Nat) (h : k.glb.st ≠ .off) :
    (failStop k reason source inst arg).glb.st = .halted := by
  simp only [failStop, if_neg h]
  split
  · next hh => split <;> simp [hh]
  · split <;> simp

end Sys2Proof.Proofs.FailStop
end

section
/-! PROOFS. The power in force (R435) follows what forms it, and CAUSE with it; a change of CAUSE may send a report. -/

namespace Sys2Proof.Proofs.PowerInForce
open Sys2Proof.Machine Sys2Proof.Laws

/-- A frame that is routed leaves by a port or is counted as dropped (R412). -/
theorem routeFrame_cases (k : Core) (f : Frame) : ∃ fab ctr out, routeFrame k f = { k with fab := fab, ctr := ctr, out := out } := by
  unfold routeFrame routeVia
  split
  · exact ⟨_, _, _, rfl⟩
  · unfold bump
    split <;> exact ⟨_, _, _, rfl⟩

theorem sendReport_cases (k : Core) (mw : Nat) : ∃ fab ctr out, sendReport k mw = { k with fab := fab, ctr := ctr, out := out } := by
  unfold sendReport
  split
  · split
    · exact ⟨_, _, _, rfl⟩
    · exact routeFrame_cases k _
  · exact ⟨_, _, _, rfl⟩

/-- Beyond the change itself only CAUSE and the steady interval move, and what a report draws, sends or counts (R435, R438, R450). -/
theorem powerChange_cases (k : Core) (f : Core → Core) :
    ∃ cause steady fab ctr out fresh, powerChange k f =
      { f k with pwr := { (f k).pwr with cause := cause, steady := steady }, fab := fab, ctr := ctr, out := out, fresh := fresh } := by
  simp only [powerChange, drawNat]
  split
  · obtain ⟨fab, ctr, out, h⟩ := sendReport_cases _ _
    exact ⟨_, _, fab, ctr, out, _, h⟩
  · exact ⟨_, _, _, _, _, _, rfl⟩

theorem powerInForce_of_thermDemand {k : Core} (h : k.pins.thermDemand = true) : powerInForce k ≤ 300000 := by
  simp only [powerInForce, h, if_true]
  omega

end Sys2Proof.Proofs.PowerInForce
end

section
/-! PROOFS. THERM_N, its demand from the board and the thermal shutdown (R37, R38, R56). -/

namespace Sys2Proof.Proofs.Heat
open Sys2Proof.Machine Sys2Proof.Proofs.FailStop Sys2Proof.Proofs.PowerInForce

theorem vaon_of_powered {k : Core} (h : powered k = true) : k.pins.vaon = true := by
  simp only [powered, Bool.and_eq_true] at h
  exact h.1.1

theorem thermNAssert_hot {k : Core} {c : Nat} (hp : powered k = true) (hc : 100 ≤ c) :
    thermNAssert k c = { k with pins := { k.pins with thermDrive := true } } := by
  simp [thermNAssert, hp, hc]

theorem thermNRelease_cool {k : Core} {c : Nat} (hp : powered k = true) (hc : c ≤ 95) :
    thermNRelease k c = { k with pins := { k.pins with thermDrive := false } } := by
  simp [thermNRelease, hp, hc]

/-- While Chomor drives the pin, the board's level cannot be seen (R38). -/
theorem thermNDemand_of_driven {k : Core} (on : Bool) (h : k.pins.thermDrive = true) : thermNDemand k on = k := by
  simp [thermNDemand, h]

/-- A demand that is seen sets its pin's latch and otherwise changes only what follows the power in force. -/
theorem thermNDemand_seen {k : Core} (on : Bool) (hp : powered k = true) (hs : k.pins.sysref = true) (hd : k.pins.thermDrive = false) :
    (thermNDemand k on).pins = { k.pins with thermDemand := on } ∧
    thermNDemand k on = { k with
      pins := (thermNDemand k on).pins, pwr := (thermNDemand k on).pwr, fab := (thermNDemand k on).fab,
      ctr := (thermNDemand k on).ctr, out := (thermNDemand k on).out, fresh := (thermNDemand k on).fresh } := by
  have seen : thermNDemand k on = thermDemand k on := by simp [thermNDemand, hp, hs, hd]
  obtain ⟨cause, steady, fab, ctr, out, fresh, h⟩ := powerChange_cases k (fun k => { k with pins := { k.pins with thermDemand := on } })
  rw [seen, thermDemand, h]
  exact ⟨rfl, rfl⟩

/-- Out of RESET, 110 °C and more is a fatal fault with THERM_SHUT set (R56). -/
theorem thermalShutdown_hot {k : Core} {c : Nat} (hp : powered k = true) (hr : k.glb.st ≠ .reset) (hc : 110 ≤ c) :
    thermalShutdown k c = failStop { k with pins := { k.pins with thermShut := true } } rThermal 0 0 c := by
  simp [thermalShutdown, hp, hr, hc]

theorem faultNLow_of_halted {k : Core} (hv : k.pins.vaon = true) (hh : k.glb.st = .halted) : faultNLow k = true := by
  simp [faultNLow, hv, hh]

/-- Settles O7: a demand that is seen bounds the power in force, and the shutdown is a fail-stop, which moves no pin but THERM_SHUT. -/
theorem heatDrivesThermN : Obligations.HeatDrivesThermN := by
  refine ⟨fun s c hp hc => ?_, fun s c hp hc => ?_, fun s hp hs hd => ?_, fun s hp hs hd => ?_, fun s hd => ?_, fun s c hp he hc => ?_⟩
  · rw [← thermNAssert_hot hp hc]; rfl
  · rw [← thermNRelease_cool hp hc]; rfl
  · obtain ⟨hpins, hframe⟩ := thermNDemand_seen true hp hs hd
    exact ⟨_, rfl, hpins, powerInForce_of_thermDemand (by rw [hpins]), hframe⟩
  · obtain ⟨hpins, hframe⟩ := thermNDemand_seen false hp hs hd
    exact ⟨_, rfl, hpins, hframe⟩
  · have unseen (on : Bool) : onPlain s (fun k => thermNDemand k on) = .next s := by
      rw [onPlain, thermNDemand_of_driven on hd]
    exact ⟨unseen true, unseen false⟩
  · have stops := thermalShutdown_hot hp (by simp [he]) hc
    have halted : (thermalShutdown s.core c).glb.st = .halted := by
      rw [stops]; exact failStop_halted _ _ _ _ (by simp [he])
    have pins : (thermalShutdown s.core c).pins = { s.core.pins with thermShut := true } := by rw [stops, failStop_pins]
    exact ⟨_, rfl, halted, pins, faultNLow_of_halted (by rw [pins]; exact vaon_of_powered hp) halted⟩

end Sys2Proof.Proofs.Heat
end

section
/-! PROOFS. Read after write: what a table, a set of numbers, a memory and each table of the core hold after an update, and what a fold
of updates keeps or establishes. -/

namespace Sys2Proof.Proofs.Reads
open Sys2Proof.Machine Sys2Proof.Laws Sys2Proof.Proofs.Counters

/-! ## Tables and sets -/

section Tables
variable {α β : Type}

theorem mget_mmod (d : α) (m : SMap α) (n : Nat) (f : α → α) (j : Nat) :
    mget d (mmod d m n f) j = if j = n then f (mget d m n) else mget d m j := by
  unfold mmod
  split
  · next h => rw [h, mget_mput_same]
  · next h => exact mget_mput_ne d _ m h

/-- What every listed value keeps, every key keeps. -/
theorem mget_mmap_fixes (g : α → β) (d : α) {f : Nat → α → α} (hf : ∀ n v, g (f n v) = g v) (m : SMap α) (j : Nat) :
    g (mget d (mmap f m) j) = g (mget d m j) := by
  induction m with
  | nil => rfl
  | cons e r ih =>
    obtain ⟨n, v⟩ := e
    by_cases h : j = n
    · simp [mmap, mget, h, hf]
    · simpa [mmap, mget, h] using ih

/-- Where two defaults agree, so do the reads under them. -/
theorem mget_default_fixes (g : α → β) {d d' : α} (h : g d = g d') (m : SMap α) (j : Nat) : g (mget d m j) = g (mget d' m j) := by
  induction m with
  | nil => exact h
  | cons e r ih =>
    obtain ⟨n, v⟩ := e
    by_cases hj : j = n
    · simp [mget, hj]
    · simpa [mget, hj] using ih

/-- A value other than the default stands in the table. -/
theorem mem_of_mget_ne {d : α} {m : SMap α} {n : Nat} (h : mget d m n ≠ d) : (n, mget d m n) ∈ m := by
  induction m with
  | nil => exact absurd rfl h
  | cons e r ih =>
    obtain ⟨k, v⟩ := e
    by_cases hn : n = k
    · simp [mget, hn]
    · rw [mget, if_neg hn] at h ⊢
      exact List.mem_cons_of_mem _ (ih h)

end Tables

@[simp] theorem mem_sput {l : List Nat} {n x : Nat} : x ∈ sput l n ↔ x = n ∨ x ∈ l := by
  induction l with
  | nil => simp [sput]
  | cons k r ih =>
    unfold sput
    split
    · next h => simp [h]
    · split
      · simp
      · simp only [List.mem_cons, ih]; tauto

theorem not_mem_sdel_self (l : List Nat) (n : Nat) : n ∉ sdel l n := by
  induction l with
  | nil => simp [sdel]
  | cons k r ih =>
    unfold sdel
    split
    · exact ih
    · next h => simp [h, ih]

/-! ## Wiped lines of a memory (R64) -/

theorem byte_wipe (d : Byte) (m : Mem) {lo hi a : Nat} (h : 64 * lo ≤ a ∧ a < 64 * hi) : (m.wipe lo hi).byte d a = d := by
  have key := mget_mfilter_key d (fun a => !decide (64 * lo ≤ a ∧ a < 64 * hi)) m.cells a
  simpa [Mem.byte, Mem.wipe, h] using key

theorem ofLE_bytes_zero (m : Mem) (n : Nat) {a : Nat} (h : ∀ i, a ≤ i → i < a + n → m.byte 0 i = 0) : ofLE (m.bytes 0 a n) = 0 := by
  induction n generalizing a with
  | zero => rfl
  | succ n ih =>
    have first : m.byte 0 a = 0 := h a (by omega) (by omega)
    have rest : ofLE (m.bytes 0 (a + 1) n) = 0 := ih fun i _ _ => h i (by omega) (by omega)
    rw [Mem.bytes, ofLE, first, rest]
    rfl

theorem line_wipe (m : Mem) {lo hi l : Nat} (h : lo ≤ l ∧ l < hi) : (m.wipe lo hi).line 0 l = 0 := by
  unfold Mem.line
  rw [ofLE_bytes_zero _ _ fun i _ _ => byte_wipe 0 m (by omega)]
  rfl

theorem lineBad_wipe (m : Mem) {lo hi l : Nat} (h : lo ≤ l ∧ l < hi) : (m.wipe lo hi).lineBad l = false := by
  simp only [Mem.lineBad, Mem.wipe, List.any_eq_false, List.mem_filter, Bool.not_eq_true', decide_eq_false_iff_not, decide_eq_true_eq]
  omega

/-! ## The tables of the core -/

section CoreTables
variable (k : Core) (n j : Nat)

theorem seq_modSeq (f : Seq → Seq) : seq (modSeq k n f) j = if j = n then f (seq k n) else seq k j := mget_mmod ..
theorem obj_modObj (f : Obj → Obj) : obj (modObj k n f) j = if j = n then f (obj k n) else obj k j := mget_mmod ..
theorem ctx_modCtx (f : Ctx → Ctx) : ctx (modCtx k n f) j = if j = n then f (ctx k n) else ctx k j := mget_mmod ..
theorem tile_modTile (f : Tile → Tile) : tile (modTile k n f) j = if j = n then f (tile k n) else tile k j := mget_mmod ..

end CoreTables

/-! ## What the registers alone decide -/

theorem isPart_of_regs {k t : Core} (e : t.regs = k.regs) (p : Nat) : isPart t p = isPart k p := by simp only [isPart, rfld, rreg, e]

theorem stackUnits_of_regs {k t : Core} (e : t.regs = k.regs) : stackUnits t = stackUnits k := by simp only [stackUnits, rfld, rreg, e]

theorem domTiles_of_regs {k t : Core} (e : t.regs = k.regs) (d : Nat) : domTiles t d = domTiles k d := by
  have same : domOfTile t = domOfTile k := by
    funext n
    unfold domOfTile
    rw [isPart_of_regs e]
  simp only [domTiles, same]

/-! ## Folds of updates -/

section Folds
variable {α β : Type} {f : Core → α → Core}

/-- A fold keeps what each of its steps keeps. -/
theorem foldl_fixes {g : Core → β} (hf : ∀ k x, g (f k x) = g k) (l : List α) (k : Core) : g (l.foldl f k) = g k := by
  induction l generalizing k with
  | nil => rfl
  | cons x l ih => exact (ih (f k x)).trans (hf k x)

/-- What the step of one element establishes and every step keeps holds after a fold over a list with that element. -/
theorem foldl_establishes {P : Core → Prop} {x : α} (hx : ∀ k, P (f k x)) (hp : ∀ k y, P k → P (f k y)) {l : List α} (h : x ∈ l)
    (k : Core) : P (l.foldl f k) := by
  have keeps (l : List α) (k : Core) (hk : P k) : P (l.foldl f k) := List.foldlRecOn l f hk fun k hk y _ => hp k y hk
  induction l generalizing k with
  | nil => simp at h
  | cons y l ih =>
    rcases List.mem_cons.mp h with rfl | h
    · exact keeps l _ (hx k)
    · exact ih h (f k y)

end Folds

end Sys2Proof.Proofs.Reads
end

section
/-! PROOFS. Frames of the operations a partition reset is made of (R69, R70): the global state, the registers, the contexts and the Security
Core stay as they are, and, but for the operations on sequences, the sequences, accounts and step domains too. -/

namespace Sys2Proof.Proofs.ResetFrames
open Sys2Proof.Machine Sys2Proof.Laws Sys2Proof.Proofs.Reads

/-- The parts of the core that say which partitions reset, what lies in them and which keys and measurements they have. -/
@[simp] abbrev Kept (k t : Core) : Prop := t.glb = k.glb ∧ t.sec = k.sec ∧ t.regs = k.regs ∧ t.ctxs = k.ctxs
/-- Sequences, accounts and step domains stay too. -/
@[simp] abbrev ServingKept (k t : Core) : Prop := Kept k t ∧ t.seqs = k.seqs ∧ t.accts = k.accts ∧ t.doms = k.doms
/-- Tiles and memories stay too. -/
@[simp] abbrev MemoryKept (k t : Core) : Prop := ServingKept k t ∧ t.tiles = k.tiles ∧ t.dram = k.dram ∧ t.stg = k.stg

section Folds
variable {α : Type} {f : Core → α → Core}

theorem Kept.foldl (hf : ∀ k x, Kept k (f k x)) (l : List α) (k : Core) : Kept k (l.foldl f k) := by
  simpa [Kept] using foldl_fixes (g := fun k => (k.glb, k.sec, k.regs, k.ctxs)) (fun k x => by simp [hf k x]) l k

theorem ServingKept.foldl (hf : ∀ k x, ServingKept k (f k x)) (l : List α) (k : Core) : ServingKept k (l.foldl f k) := by
  simpa [ServingKept, and_assoc] using
    foldl_fixes (g := fun k => (k.glb, k.sec, k.regs, k.ctxs, k.seqs, k.accts, k.doms)) (fun k x => by simp [hf k x]) l k

theorem MemoryKept.foldl (hf : ∀ k x, MemoryKept k (f k x)) (l : List α) (k : Core) : MemoryKept k (l.foldl f k) := by
  simpa [MemoryKept, and_assoc] using
    foldl_fixes (g := fun k => (k.glb, k.sec, k.regs, k.ctxs, k.seqs, k.accts, k.doms, k.tiles, k.dram, k.stg))
      (fun k x => by simp [hf k x]) l k

end Folds

/-! ## Space and promotion (R323 to R330) -/

@[simp] theorem beginFetch_memoryKept (k : Core) (h a : Nat) : MemoryKept k (beginFetch k h a) := by
  simp only [beginFetch]
  split <;> simp

@[simp] theorem evictUntil_memoryKept (k : Core) (d n : Nat) (limit skip : Option Nat) (fuel : Nat) :
    MemoryKept k (evictUntil k d n limit skip fuel) := by
  induction fuel generalizing k with
  | zero => simp [evictUntil]
  | succ fuel ih => unfold evictUntil; split <;> [skip; split] <;> simp [ih]

@[simp] theorem takeSpace_memoryKept (k : Core) (h : Nat) (skip : Option Nat) : MemoryKept k (takeSpace k h skip) := by
  simp only [takeSpace]
  split <;> simp

@[simp] theorem takeOrDrop_memoryKept (k : Core) (h : Nat) (limit skip : Option Nat) : MemoryKept k (takeOrDrop k h limit skip) := by
  simp only [takeOrDrop]
  split <;> [skip; split] <;> simp

@[simp] theorem retryWants_memoryKept (k : Core) : MemoryKept k (retryWants k) := by
  refine MemoryKept.foldl (fun k h => ?_) _ k
  dsimp only
  split <;> [skip; split] <;> simp

/-! ## Abandonment of a step (R133, R268, R350, R452) -/

@[simp] theorem dropPin_memoryKept (k : Core) (h : Nat) : MemoryKept k (dropPin k h) := by simp [dropPin]
@[simp] theorem dropRef_memoryKept (k : Core) (h : Nat) : MemoryKept k (dropRef k h) := by simp [dropRef]

@[simp] theorem reportBlock_memoryKept (k : Core) (px h n check : Nat) :
    MemoryKept k (reportBlock k px h n check) ∧ (reportBlock k px h n check).objs = k.objs := by
  simp only [reportBlock, loadPxLast]
  split <;> [skip; split] <;> simp

@[simp] theorem checkOrphans_memoryKept (k : Core) (h : Nat) : MemoryKept k (checkOrphans k h) := by
  simp only [checkOrphans]
  split
  · simp
  · refine MemoryKept.foldl (fun k n => ?_) _ k
    split <;> [skip; split] <;> simp

@[simp] theorem checkOrphans_objs (k : Core) (h : Nat) : (checkOrphans k h).objs = k.objs := by
  simp only [checkOrphans]
  split
  · rfl
  · refine foldl_fixes (g := Core.objs) (fun k n => ?_) _ k
    split <;> [skip; split] <;> simp

@[simp] theorem abandonReads_memoryKept (k : Core) (ts : List Nat) :
    MemoryKept k (abandonReads k ts) ∧ (abandonReads k ts).objs = k.objs :=
  ⟨MemoryKept.foldl checkOrphans_memoryKept _ _, foldl_fixes (g := Core.objs) checkOrphans_objs _ _⟩

@[simp] theorem chargeEnergy_kept (k : Core) (u : UStep) (e : Nat) : Kept k (chargeEnergy k u e) := by
  simp only [chargeEnergy]
  split
  · simp
  · refine Kept.foldl (fun k p => ?_) _ k
    split <;> simp

theorem chargeEnergy_objs (k : Core) (u : UStep) (e : Nat) : (chargeEnergy k u e).objs = k.objs := by
  simp only [chargeEnergy]
  split
  · rfl
  · refine foldl_fixes (g := Core.objs) (fun k p => ?_) _ k
    split <;> simp

@[simp] theorem returnPages_memoryKept (k : Core) (d n : Nat) : MemoryKept k (returnPages k d n) := by
  refine MemoryKept.foldl (fun k p => ?_) _ k
  dsimp only
  split <;> simp

theorem returnPages_objs (k : Core) (d n : Nat) : (returnPages k d n).objs = k.objs := by
  refine foldl_fixes (g := Core.objs) (fun k p => ?_) _ k
  dsimp only
  split <;> simp

@[simp] theorem halveHot_memoryKept (k : Core) (d n : Nat) : MemoryKept k (halveHot k d n) := by
  unfold halveHot
  split <;> simp

theorem modTiles_kept (f : Core → Nat → Tile → Tile) (ts : List Nat) (k : Core) :
    Kept k (ts.foldl (fun k t => modTile k t (f k t)) k) :=
  Kept.foldl (fun k t => by simp) ts k

theorem dropPins_memoryKept (hs : List Nat) (k : Core) : MemoryKept k (hs.foldl dropPin k) := MemoryKept.foldl dropPin_memoryKept hs k
theorem dropRefs_memoryKept (hs : List Nat) (k : Core) : MemoryKept k (hs.foldl dropRef k) := MemoryKept.foldl dropRef_memoryKept hs k

@[simp] theorem abandonStep_kept (k : Core) (d : Nat) : Kept k (abandonStep k d) := by
  unfold abandonStep
  split
  · simp
  · simp [drawNat, dropPins_memoryKept, modTiles_kept (fun _ _ => Tile.stopped)]

/-! ## Sequences that end (R304 to R308) -/

@[simp] theorem mirrorSend_memoryKept (k : Core) (kind : Nat) (tag : W64) (body : List Byte) (l : List Line) :
    MemoryKept k (mirrorSend k kind tag body l) ∧ (mirrorSend k kind tag body l).objs = k.objs := by
  simp only [mirrorSend, mirrorLines, sendOn]
  split <;> [split; skip] <;> simp

@[simp] theorem ringCommit_memoryKept (k : Core) (s r : Nat) (l : List Byte) :
    MemoryKept k (ringCommit k s r l) ∧ (ringCommit k s r l).objs = k.objs := by
  simp only [ringCommit]
  split <;> simp

@[simp] theorem endPause_kept (k : Core) (s reason arg : Nat) :
    Kept k (endPause k s reason arg) ∧ (endPause k s reason arg).accts = k.accts ∧ (endPause k s reason arg).doms = k.doms ∧
    (endPause k s reason arg).objs = k.objs := by
  simp only [endPause]
  split <;> simp

@[simp] theorem commit_kept (k : Core) (s : Nat) (d : Deliv) :
    Kept k (commit k s d) ∧ (commit k s d).accts = k.accts ∧ (commit k s d).doms = k.doms ∧ (commit k s d).objs = k.objs := by
  simp only [commit]
  split
  · split <;> [split; skip] <;> simp
  · split <;> simp
  · simp

@[simp] theorem deliver_kept (k : Core) (s : Nat) (d : Deliv) :
    Kept k (deliver k s d) ∧ (deliver k s d).accts = k.accts ∧ (deliver k s d).doms = k.doms ∧ (deliver k s d).objs = k.objs := by
  simp only [deliver]
  split <;> split <;> simp

@[simp] theorem releasePrompt_kept (k : Core) (s : Nat) : Kept k (releasePrompt k s) ∧ (releasePrompt k s).doms = k.doms := by
  simp only [releasePrompt, abandonPrompt]
  split <;> simp

@[simp] theorem cancelSeq_kept (k : Core) (s : Nat) (i : Option Ctl) : Kept k (cancelSeq k s i) ∧ (cancelSeq k s i).doms = k.doms := by
  simp only [cancelSeq]
  split <;> simp

@[simp] theorem failSeq_kept (k : Core) (s reason : Nat) : Kept k (failSeq k s reason) := by
  simp only [failSeq]
  split <;> [skip; split] <;> simp

/-! ## Objects, quotes and model sets (R335, R484, R70) -/

@[simp] theorem endObj_memoryKept (k : Core) (op h reason arg : Nat) :
    MemoryKept k (endObj k op h reason arg) ∧ (endObj k op h reason arg).objs = k.objs :=
  ⟨MemoryKept.foldl (fun k f => by simp) _ k, foldl_fixes (g := Core.objs) (fun k f => by simp) _ k⟩

@[simp] theorem settleObj_memoryKept (k : Core) (h : Nat) : MemoryKept k (settleObj k h) := by
  simp [settleObj, orphanReads]

@[simp] theorem settleObjs_memoryKept (k : Core) (p : Nat) : MemoryKept k (settleObjs k p) :=
  MemoryKept.foldl settleObj_memoryKept _ k

theorem noteWrite_memoryKept (k : Core) (h l n : Nat) : MemoryKept k (noteWrite k h l n) := by
  unfold noteWrite
  split <;> simp

theorem putObjLine_servingKept (k : Core) (h l : Nat) (v : Line) (bad : Bool) : ServingKept k (putObjLine k h l v bad) := by
  simp only [putObjLine, putCopyLine]
  split <;> simp

@[simp] theorem writeObj_servingKept (k : Core) (h l : Nat) (vs : List (Line × Bool)) : ServingKept k (writeObj k h l vs) := by
  have lines := ServingKept.foldl (f := fun k (x : (Line × Bool) × Nat) => putObjLine k h (l + x.2) x.1.1 x.1.2)
    (fun k x => putObjLine_servingKept ..) vs.zipIdx k
  simp [writeObj, noteWrite_memoryKept, lines]

@[simp] theorem endQuotes_servingKept (k : Core) (p : Nat) : ServingKept k (endQuotes k p) := by
  refine ServingKept.foldl (fun k f => ?_) _ k
  have written (n : Nat) := ServingKept.foldl
    (f := fun k l => writeObj (drawLine k).2 f.ins.handle l [((drawLine k).1, false)]) (fun k l => by simp [drawLine]) (upFrom 0 n) k
  simp [written]

@[simp] theorem dropPending_kept (k : Core) (m arg : Nat) : Kept k (dropPending k m arg) := Kept.foldl (fun k f => by simp) _ k

@[simp] theorem msetFree_kept (k : Core) (m : Nat) : Kept k (msetFree k m) := by
  simp only [msetFree]
  split <;> split <;> simp [dropRefs_memoryKept, sysGive]

@[simp] theorem loadFail_kept (k : Core) (m reason arg bit : Nat) : Kept k (loadFail k m reason arg bit) := by
  simp only [loadFail]
  split <;> simp

@[simp] theorem msetFail_kept (k : Core) (m reason : Nat) : Kept k (msetFail k m reason) := by
  have failed (l : List Nat) (k : Core) := Kept.foldl (f := fun k q => failSeq k q reason) (fun k q => by simp) l k
  simp only [msetFail, freeFailed]
  split
  · simp
  · split <;> split <;> [split; split; skip; skip] <;> simp [failed]

@[simp] theorem settleSet_kept (k : Core) (m : Nat) : Kept k (settleSet k m) := by
  simp only [settleSet]
  split
  · simp
  · split <;> split <;> simp [dropRefs_memoryKept]

/-! ## Page lists, stores, channels, keys and maintenance (R270, R404, R446, R491, R521) -/

@[simp] theorem retireEdit_kept (k : Core) (d : Edit) (reason arg : Nat) : Kept k (retireEdit k d reason arg) := by
  unfold retireEdit
  split <;> [skip; split] <;> simp

@[simp] theorem clearPages_kept (k : Core) (s : Nat) : Kept k (clearPages k s) := by simp [clearPages, sysGive]

@[simp] theorem settleEdits_kept (k : Core) (p : Nat) : Kept k (settleEdits k p) := by
  refine Kept.foldl (fun k e => ?_) _ k
  dsimp only
  split <;> simp [sysGive]

@[simp] theorem settlePool_kept (k : Core) (p : Nat) : Kept k (settlePool k p) := by
  have cleared (l : List Nat) (k : Core) := Kept.foldl clearPages_kept l k
  simp [settlePool, cleared]

@[simp] theorem freeAct_memoryKept (k : Core) (n : Nat) : MemoryKept k (freeAct k n) := by
  have woken (k : Core) (n : Nat) : MemoryKept k (wakeAct k n) := by
    simp only [wakeAct, modAct, modMaint]
    split <;> [skip; split <;> [split; skip]] <;> simp
  have settled := MemoryKept.foldl woken (upFrom 16 16 ++ upFrom 0 16) (modMaint k fun m => { m with slots := mdel m.slots n })
  simp only [freeAct, settle]
  simpa only [MemoryKept, ServingKept, Kept, modMaint] using settled

@[simp] theorem flsRest_kept (k : Core) (s : Nat) : Kept k (flsRest k s) := by
  simp only [flsRest, hwEnd]
  split <;> [split; skip] <;> simp

@[simp] theorem closeUnits_kept (k : Core) (l : List OpenUnit) : Kept k (closeUnits k l) :=
  Kept.foldl (fun k e => by simp [journal]) l k

@[simp] theorem endFlOp_kept (k : Core) (o : FlOp) (reason arg : Nat) (payload : List Byte) : Kept k (endFlOp k o reason arg payload) := by
  have ended (l : List Nat) (k : Core) := Kept.foldl (f := programEnds) (fun k s => by simp [programEnds]) l k
  have rested (l : List Nat) (k : Core) := Kept.foldl flsRest_kept l k
  simp only [endFlOp, dropGot]
  cases o.erase <;> cases o.base <;> split <;> simp [ended, rested]

@[simp] theorem settleStores_kept (k : Core) (p : Nat) : Kept k (settleStores k p) := Kept.foldl (fun k o => by simp) _ k

@[simp] theorem closeChan_kept (k : Core) (c : Nat) : Kept k (closeChan k c) := by
  simp only [closeChan]
  split <;> simp

@[simp] theorem endSession_kept (k : Core) (s : Nat) (v : Session) (reason arg : Nat) (payload : List Byte) :
    Kept k (endSession k s v reason arg payload) := by
  simp only [endSession]
  split <;> simp

@[simp] theorem settleFabric_kept (k : Core) (p : Nat) : Kept k (settleFabric k p) := by
  have closed (l : List Nat) (k : Core) := Kept.foldl closeChan_kept l k
  have ended (l : List (Nat × Session)) (k : Core) :=
    Kept.foldl (f := fun k e => endSession k e.1 e.2 rWrongState 2 []) (fun k e => by simp) l k
  simp only [settleFabric]
  simp [closed, ended]

end Sys2Proof.Proofs.ResetFrames
end

section
/-! PROOFS. What ties sequences and objects to a partition outlasts all that ends before they are settled: a sequence's state and account,
an account's context, and an object's allocation, domain and home. -/

namespace Sys2Proof.Proofs.PartMembers
open Sys2Proof.Machine Sys2Proof.Laws Sys2Proof.Proofs.Reads Sys2Proof.Proofs.ResetFrames

/-! ## Objects -/

/-- What puts an object in its partition and says what its copy becomes at a reset (R335): its allocation, domain and home. -/
def residence (m : SMap Obj) (h : Nat) : Bool × Nat × Nat := ((mget {} m h).alloc, (mget {} m h).dom, (mget {} m h).home)

@[simp] theorem residence_mmod {f : Obj → Obj} (hf : ∀ o, (f o).alloc = o.alloc ∧ (f o).dom = o.dom ∧ (f o).home = o.home)
    (m : SMap Obj) (n : Nat) : residence (mmod {} m n f) = residence m := by
  funext h
  simp only [residence, mget_mmod]
  split
  · next e => simp [hf, e]
  · rfl

@[simp] theorem beginFetch_residence (k : Core) (n a : Nat) : residence (beginFetch k n a).objs = residence k.objs := by
  simp only [beginFetch]
  split <;> simp

@[simp] theorem evictUntil_residence (k : Core) (d n : Nat) (limit skip : Option Nat) (fuel : Nat) :
    residence (evictUntil k d n limit skip fuel).objs = residence k.objs := by
  induction fuel generalizing k with
  | zero => rfl
  | succ fuel ih => unfold evictUntil; split <;> [skip; split] <;> simp [ih]

@[simp] theorem takeSpace_residence (k : Core) (n : Nat) (skip : Option Nat) :
    residence (takeSpace k n skip).objs = residence k.objs := by
  simp only [takeSpace]
  split <;> simp

@[simp] theorem takeOrDrop_residence (k : Core) (n : Nat) (limit skip : Option Nat) :
    residence (takeOrDrop k n limit skip).objs = residence k.objs := by
  simp only [takeOrDrop]
  split <;> [skip; split] <;> simp

@[simp] theorem retryWants_residence (k : Core) : residence (retryWants k).objs = residence k.objs := by
  refine foldl_fixes (g := fun k => residence k.objs) (fun k n => ?_) _ k
  dsimp only
  split <;> [skip; split] <;> simp

@[simp] theorem dropPin_residence (k : Core) (n : Nat) : residence (dropPin k n).objs = residence k.objs := by
  unfold dropPin
  simp only [modObj_fields]
  refine residence_mmod (fun o => ?_) k.objs n
  split <;> simp

@[simp] theorem halveHot_residence (k : Core) (d n : Nat) : residence (halveHot k d n).objs = residence k.objs := by
  unfold halveHot
  split
  · funext h
    exact mget_mmap_fixes (fun o : Obj => (o.alloc, o.dom, o.home)) {} (fun _ o => by split <;> rfl) k.objs h
  · rfl

theorem abandonStep_residence (k : Core) (d : Nat) : residence (abandonStep k d).objs = residence k.objs := by
  have stopped (ts : List Nat) (k : Core) := foldl_fixes (g := Core.objs) (f := fun k t => modTile k t Tile.stopped) (fun k t => by simp) ts k
  have unpinned (hs : List Nat) (k : Core) := foldl_fixes (g := fun k => residence k.objs) dropPin_residence hs k
  unfold abandonStep
  split
  · rfl
  · simp [drawNat, stopped, unpinned, chargeEnergy_objs, returnPages_objs]

@[simp] theorem writeObj_residence (k : Core) (n l : Nat) (vs : List (Line × Bool)) :
    residence (writeObj k n l vs).objs = residence k.objs := by
  have lines := foldl_fixes (g := fun k => residence k.objs) (f := fun k (x : (Line × Bool) × Nat) => putObjLine k n (l + x.2) x.1.1 x.1.2)
    (fun k x => by simp only [putObjLine, putCopyLine]; split <;> simp) vs.zipIdx k
  simp only [writeObj, noteWrite]
  split
  · exact lines
  · simp only [modObj_fields]
    refine (residence_mmod (fun o => ?_) _ n).trans lines
    split <;> [skip; split] <;> simp

theorem endQuotes_residence (k : Core) (p : Nat) : residence (endQuotes k p).objs = residence k.objs := by
  refine foldl_fixes (g := fun k => residence k.objs) (fun k f => ?_) _ k
  have written (n : Nat) := foldl_fixes (g := fun k => residence k.objs)
    (f := fun k l => writeObj (drawLine k).2 f.ins.handle l [((drawLine k).1, false)]) (fun k l => by simp [drawLine]) (upFrom 0 n) k
  simp [written]

theorem cancelSeq_residence (k : Core) (s : Nat) (i : Option Ctl) : residence (cancelSeq k s i).objs = residence k.objs := by
  have released (k : Core) : residence (releasePrompt k s).objs = residence k.objs := by
    simp only [releasePrompt, abandonPrompt]
    split <;> simp
  simp only [cancelSeq]
  split <;> simp [released]

theorem objPart_of_residence {k t : Core} {h p : Nat} (e : residence t.objs = residence k.objs) (hp : objPart k h = some p) :
    objPart t h = some p ∧ (obj t h).home = (obj k h).home := by
  obtain ⟨ha, same⟩ : (obj t h).alloc = (obj k h).alloc ∧ _ := Prod.mk.inj (congrFun e h)
  obtain ⟨hd, hh⟩ : (obj t h).dom = (obj k h).dom ∧ (obj t h).home = (obj k h).home := Prod.mk.inj same
  exact ⟨by simpa only [objPart, ha, hd] using hp, hh⟩

/-! ## Sequences -/

/-- A sequence's state and its account, through whose context it runs in a domain. -/
def standing (m : SMap Seq) (n : Nat) : SeqSt × Nat := ((mget {} m n).st, (mget {} m n).acct)
/-- The context of each account. -/
def acctCtx (m : SMap Acct) (a : Nat) : Nat := (mget {} m a).ctx

/-- Stated for every default with the same standing: `simp` rewrites the literals of a sequence's default. -/
@[simp] theorem standing_mmod {d : Seq} (hd : d.st = .free ∧ d.acct = 0) {f : Seq → Seq}
    (hf : ∀ q, (f q).st = q.st ∧ (f q).acct = q.acct) (m : SMap Seq) (n : Nat) : standing (mmod d m n f) = standing m := by
  funext j
  have same := mget_default_fixes (fun q : Seq => (q.st, q.acct)) (d := d) (d' := {}) (Prod.ext hd.1 hd.2) m n
  simp only [Prod.mk.injEq] at same
  unfold mmod standing
  by_cases e : j = n
  · rw [e, mget_mput_same, (hf _).1, (hf _).2, same.1, same.2]
  · rw [mget_mput_ne _ _ _ e]

@[simp] theorem acctCtx_mmod {f : Acct → Acct} (hf : ∀ a, (f a).ctx = a.ctx) (m : SMap Acct) (n : Nat) :
    acctCtx (mmod {} m n f) = acctCtx m := by
  funext j
  simp only [acctCtx, mget_mmod]
  split
  · next e => simp [hf, e]
  · rfl

@[simp] theorem chargeEnergy_standing (k : Core) (u : UStep) (e : Nat) : standing (chargeEnergy k u e).seqs = standing k.seqs := by
  simp only [chargeEnergy]
  split
  · rfl
  · refine foldl_fixes (g := fun k => standing k.seqs) (fun k p => ?_) _ k
    split <;> simp

@[simp] theorem chargeEnergy_acctCtx (k : Core) (u : UStep) (e : Nat) : acctCtx (chargeEnergy k u e).accts = acctCtx k.accts := by
  simp only [chargeEnergy]
  split
  · rfl
  · refine foldl_fixes (g := fun k => acctCtx k.accts) (fun k p => ?_) _ k
    split <;> simp

theorem abandonStep_standing (k : Core) (d : Nat) :
    standing (abandonStep k d).seqs = standing k.seqs ∧ acctCtx (abandonStep k d).accts = acctCtx k.accts := by
  have stopped (ts : List Nat) (k : Core) := Prod.mk.inj
    (foldl_fixes (g := fun k => (k.seqs, k.accts)) (f := fun k t => modTile k t Tile.stopped) (fun k t => by simp) ts k)
  unfold abandonStep
  split
  · exact ⟨rfl, rfl⟩
  · simp [drawNat, stopped, dropPins_memoryKept]

theorem abandonStep_running (k : Core) (d : Nat) : (dom (abandonStep k d) d).running = none := by
  unfold abandonStep
  split
  · next h => exact h
  · simp [dom, mget_mmod]

theorem seq_of_standing {k t : Core} (e : standing t.seqs = standing k.seqs) (n : Nat) :
    (seq t n).st = (seq k n).st ∧ (seq t n).acct = (seq k n).acct :=
  Prod.mk.inj (congrFun e n)

theorem live_of_standing {k t : Core} (e : standing t.seqs = standing k.seqs) (n : Nat) : (seq t n).live = (seq k n).live := by
  simp only [Seq.live, seq_of_standing e]

theorem seqDom_of_standing {k t : Core} (hs : standing t.seqs = standing k.seqs) (ha : acctCtx t.accts = acctCtx k.accts)
    (hc : t.ctxs = k.ctxs) (n : Nat) : seqDom t n = seqDom k n := by
  have owner : (acct t (seq k n).acct).ctx = (acct k (seq k n).acct).ctx := congrFun ha _
  simp only [seqDom, seqCtx, domOfCtx, ctx, seq_of_standing hs, owner, hc]

/-! ## What a listing of members holds -/

theorem mem_domLive {k : Core} {n d : Nat} (h : (seq k n).live = true) (hd : seqDom k n = d) : n ∈ domLive k d := by
  have listed : (n, seq k n) ∈ k.seqs := mem_of_mget_ne fun e => by rw [seq, e] at h; exact absurd h (by decide)
  have used : (seq k n).st ≠ .free := fun e => by simp [Seq.live, e] at h
  simp only [domLive, domSeqs, liveSeqs, List.mem_filter, List.mem_map, hd, beq_self_eq_true, h, and_true]
  exact ⟨_, ⟨listed, decide_eq_true used⟩, rfl⟩

theorem mem_handles {k : Core} {h p : Nat} (hp : objPart k h = some p) : h ∈ handles k := by
  have alloc : (obj k h).alloc = true := by
    by_contra ha
    simp [objPart, ha] at hp
  have listed : (h, obj k h) ∈ k.objs := mem_of_mget_ne fun e => by rw [obj, e] at alloc; exact absurd alloc (by decide)
  simp only [handles, List.mem_map, List.mem_filter]
  exact ⟨_, ⟨listed, alloc⟩, rfl⟩

theorem mem_partCtxs {k : Core} {c p : Nat} (ho : (ctx k c).isOpen = true) (hp : (ctx k c).part = some p) : c ∈ partCtxs k p := by
  have listed : (c, ctx k c) ∈ k.ctxs := mem_of_mget_ne fun e => by rw [ctx, e] at ho; exact absurd ho (by decide)
  simp only [partCtxs, List.mem_map, List.mem_filter]
  exact ⟨_, ⟨listed, by simp [ho, hp]⟩, rfl⟩

end Sys2Proof.Proofs.PartMembers
end

section
/-! PROOFS. The start of a partition reset (R69 events 1 to 3, R335), and GLB_PART_RESET as it is written and read (R68). -/

namespace Sys2Proof.Proofs.PartResetStart
open Sys2Proof.Machine Sys2Proof.Laws Sys2Proof.Proofs.Reads Sys2Proof.Proofs.ResetFrames Sys2Proof.Proofs.PartMembers

/-! ## Live sequences are cancelled (R69 event 3) -/

@[simp] theorem endPause_standing (k : Core) (s reason arg : Nat) : standing (endPause k s reason arg).seqs = standing k.seqs := by
  simp only [endPause]
  split <;> simp

@[simp] theorem releasePrompt_standing (k : Core) (s : Nat) : standing (releasePrompt k s).seqs = standing k.seqs := by
  simp only [releasePrompt, abandonPrompt]
  split <;> simp

theorem deliver_cancelled_standing (k : Core) (s : Nat) (i : Option Ctl) :
    standing (deliver k s { kind := .cancelled, cancel := i }).seqs = standing k.seqs := by
  simp only [deliver, commit]
  split <;> split <;> cases i <;> simp

theorem cancelSeq_st (k : Core) (s n : Nat) (i : Option Ctl) :
    (seq (cancelSeq k s i) n).st = if n = s then .cancelled else (seq k n).st := by
  have only : standing (cancelSeq k s i).seqs = standing (modSeq k s fun q => { q with st := .cancelled, waiting := [] }).seqs := by
    simp only [cancelSeq, deliver_cancelled_standing]
    split <;> simp
  rw [(seq_of_standing only n).1, seq_modSeq]
  split <;> rfl

theorem cancelSeqs_st {l : List Nat} {n : Nat} (h : n ∈ l) (k : Core) :
    (seq (l.foldl (fun k s => cancelSeq k s none) k) n).st = .cancelled := by
  refine foldl_establishes (P := fun k => (seq k n).st = .cancelled) (x := n) (fun k => ?_) (fun k s hk => ?_) h k
  · rw [cancelSeq_st, if_pos rfl]
  · rw [cancelSeq_st, hk, ite_self]

/-! ## Copies are absent, or complete where their home is DRAM (R335) -/

theorem settleObj_residence (k : Core) (h : Nat) : residence (settleObj k h).objs = residence k.objs := by
  simp [settleObj, orphanReads, Obj.settled]

theorem settleObj_obj_same (k : Core) (h : Nat) :
    (obj (settleObj k h) h).st = if (obj (settleObj k h) h).home = 0 then .complete else .absent := by
  simp only [settleObj, obj_modObj, if_true, Obj.settled]

theorem settleObj_obj_ne (k : Core) {h n : Nat} (e : n ≠ h) : obj (settleObj k h) n = obj k n := by
  have ended (l : List Nat) := foldl_fixes (g := Core.objs) (f := fun k op => endObj k op h rWrongState 2) (fun k op => by simp) l k
  simp only [settleObj]
  rw [obj_modObj, if_neg e, obj, orphanReads, ended, ← obj]

theorem settleObjs_st {k : Core} {h p : Nat} (hp : objPart k h = some p) :
    (obj (settleObjs k p) h).st = if (obj k h).home = 0 then .complete else .absent := by
  have listed : h ∈ (handles k).filter (fun h => objPart k h == some p) := by simp [mem_handles hp, hp]
  have settled := foldl_establishes (P := fun k => (obj k h).st = if (obj k h).home = 0 then .complete else .absent)
    (fun k => settleObj_obj_same k h)
    (fun k n hk => by
      by_cases e : h = n
      · rw [← e]; exact settleObj_obj_same k h
      · rw [settleObj_obj_ne k e]; exact hk) listed k
  have home := (objPart_of_residence (t := settleObjs k p) (foldl_fixes (g := fun k => residence k.objs) settleObj_residence _ k) hp).2
  rw [← home]
  exact settled

theorem settleObjs_serving (k : Core) (p : Nat) : (settleObjs k p).seqs = k.seqs ∧ (settleObjs k p).doms = k.doms := by simp

/-! ## The start (R69 events 1 to 3) -/

/-- Partition p marked RESETTING and counted. -/
def marked (k : Core) (p : Nat) : Core :=
  { k with glb := { k.glb with resetting := sput k.glb.resetting p }, sec := { k.sec with partResets := k.sec.partResets + 1 } }
/-- With its step abandoned and the quotes of its scope ended. -/
def quieted (k : Core) (p : Nat) : Core := endQuotes (abandonStep (marked k p) p) p
/-- With its live sequences ended. -/
def emptied (k : Core) (p : Nat) : Core := (domLive (quieted k p) p).foldl (fun k s => cancelSeq k s none) (quieted k p)

theorem partResetStart_active {k : Core} {p : Nat} (he : k.glb.st = .enabled) (hp : partCode k p = 1) :
    partResetStart k p = settleObjs (emptied k p) p := by
  simp [partResetStart, he, hp, emptied, quieted, marked]

theorem partResetStart_ignored {k : Core} {p : Nat} (h : k.glb.st ≠ .enabled ∨ partCode k p ≠ 1) : partResetStart k p = k := by
  have : ¬(k.glb.st = .enabled ∧ partCode k p = 1) := by tauto
  simp [partResetStart, this]

theorem emptied_kept (k : Core) (p : Nat) : Kept (marked k p) (emptied k p) ∧ (emptied k p).doms = (abandonStep (marked k p) p).doms := by
  have cancelled (l : List Nat) (k : Core) := Kept.foldl (f := fun k s => cancelSeq k s none) (fun k s => by simp) l k
  have doms (l : List Nat) (k : Core) := foldl_fixes (g := Core.doms) (f := fun k s => cancelSeq k s none) (fun k s => by simp) l k
  simp [emptied, quieted, cancelled, doms]

theorem quieted_standing (k : Core) (p : Nat) :
    standing (quieted k p).seqs = standing k.seqs ∧ acctCtx (quieted k p).accts = acctCtx k.accts ∧ (quieted k p).ctxs = k.ctxs := by
  obtain ⟨hs, ha⟩ := abandonStep_standing (marked k p) p
  simp only [quieted, endQuotes_servingKept, hs, ha, abandonStep_kept]
  exact ⟨rfl, rfl, rfl⟩

theorem emptied_residence (k : Core) (p : Nat) : residence (emptied k p).objs = residence k.objs := by
  have cancelled := foldl_fixes (g := fun k => residence k.objs) (f := fun k s => cancelSeq k s none)
    (fun k s => cancelSeq_residence k s none) (domLive (quieted k p) p) (quieted k p)
  exact cancelled.trans ((endQuotes_residence _ p).trans (abandonStep_residence (marked k p) p))

section Start
variable {k : Core} {p : Nat} (he : k.glb.st = .enabled) (hp : partCode k p = 1)
include he hp

theorem partResetStart_kept :
    (partResetStart k p).glb = { k.glb with resetting := sput k.glb.resetting p } ∧ (partResetStart k p).regs = k.regs ∧
    (partResetStart k p).ctxs = k.ctxs ∧ (partResetStart k p).sec.partResets = k.sec.partResets + 1 := by
  obtain ⟨⟨hg, hs, hr, hc⟩, -⟩ := emptied_kept k p
  simp only [partResetStart_active he hp, settleObjs_memoryKept, hg, hs, hr, hc]
  exact ⟨rfl, rfl, rfl, rfl⟩

theorem partResetStart_running : (dom (partResetStart k p) p).running = none := by
  rw [partResetStart_active he hp, dom, (settleObjs_serving ..).2, (emptied_kept k p).2]
  exact abandonStep_running (marked k p) p

theorem partResetStart_seq {n : Nat} (hl : (seq k n).live = true) (hd : seqDom k n = p) : (seq (partResetStart k p) n).st = .cancelled := by
  obtain ⟨hs, ha, hc⟩ := quieted_standing k p
  have live : (seq (quieted k p) n).live = true := by rw [live_of_standing hs, hl]
  have there : seqDom (quieted k p) n = p := by rw [seqDom_of_standing hs ha hc, hd]
  rw [partResetStart_active he hp, seq, (settleObjs_serving ..).1]
  exact cancelSeqs_st (mem_domLive live there) (quieted k p)

theorem partResetStart_obj {h : Nat} (ho : objPart k h = some p) :
    (obj (partResetStart k p) h).st = if (obj k h).home = 0 then .complete else .absent := by
  obtain ⟨there, home⟩ := objPart_of_residence (emptied_residence k p) ho
  rw [partResetStart_active he hp, settleObjs_st there, home]

end Start

/-! ## A write to the register (R68) -/

theorem partCode_eq_one {k : Core} {p : Nat} : partCode k p = 1 ↔ isPart k p = true ∧ isResetting k p = false := by
  unfold partCode
  cases isPart k p <;> cases isResetting k p <;> simp

theorem partResetStart_keeps (k : Core) (q : Nat) :
    (partResetStart k q).glb.st = k.glb.st ∧ (partResetStart k q).regs = k.regs ∧
    ∀ p, isResetting k p = true → isResetting (partResetStart k q) p = true := by
  by_cases h : k.glb.st = .enabled ∧ partCode k q = 1
  · obtain ⟨hg, hr, -, -⟩ := partResetStart_kept h.1 h.2
    refine ⟨by rw [hg], hr, fun p hp => ?_⟩
    simp only [isResetting, List.contains_iff_mem] at hp ⊢
    rw [hg]
    exact mem_sput.mpr (.inr hp)
  · rw [partResetStart_ignored (by tauto)]
    exact ⟨rfl, rfl, fun _ hp => hp⟩

theorem partResetStart_resets {k : Core} {p : Nat} (he : k.glb.st = .enabled) (hp : partCode k p = 1) :
    isResetting (partResetStart k p) p = true := by
  simp only [isResetting, List.contains_iff_mem]
  rw [(partResetStart_kept he hp).1]
  exact mem_sput.mpr (.inl rfl)

/-- A partition of an ENABLED device resets once a start was asked for it, whichever others were asked for with it. -/
theorem partResetStarts_reset {l : List Nat} {p : Nat} (h : p ∈ l) {k : Core} (he : k.glb.st = .enabled) (hp : isPart k p = true) :
    isResetting (l.foldl partResetStart k) p = true := by
  have done := foldl_establishes (P := fun k => k.glb.st = .enabled → isPart k p = true → isResetting k p = true) (f := partResetStart)
    (x := p) (fun k he hp => ?_) (fun k q hk he hp => ?_) h k
  · have same := foldl_fixes (g := fun k : Core => (k.glb.st, k.regs)) (f := partResetStart)
      (fun k q => by simp [partResetStart_keeps k q]) l k
    obtain ⟨hst, hregs⟩ := Prod.mk.inj same
    exact done (hst.trans he) ((isPart_of_regs hregs p).trans hp)
  · obtain ⟨hst, hregs, hmore⟩ := partResetStart_keeps k p
    rw [hst] at he
    rw [isPart_of_regs hregs] at hp
    cases hr : isResetting k p with
    | true => exact hmore p hr
    | false => exact partResetStart_resets he (partCode_eq_one.mpr ⟨hp, hr⟩)
  · obtain ⟨hst, hregs, hmore⟩ := partResetStart_keeps k q
    exact hmore p (hk (hst ▸ he) (isPart_of_regs hregs p ▸ hp))

/-- Of a write with one bit set, one partition's start comes. -/
theorem glbPartReset_one (k : Core) {v : BitVec 4} {p : Nat} (hp : p < 4) (hv : v = BitVec.ofNat 4 (2 ^ p)) :
    glbPartReset k v.toNat = partResetStart k p := by
  have only : (upFrom 0 4).filter (bit v.toNat) = [p] := by
    subst hv
    interval_cases p <;> decide
  rw [glbPartReset, only]
  rfl

theorem glbPartReset_ignored {k : Core} {v : BitVec 4}
    (h : ∀ p, p < 4 → v.getLsbD p = true → k.glb.st ≠ .enabled ∨ partCode k p ≠ 1) : glbPartReset k v.toNat = k := by
  refine List.foldlRecOn _ _ (motive := fun t => t = k) rfl fun t ht p hp => ?_
  obtain ⟨hin, hbit⟩ := List.mem_filter.mp hp
  rw [ht, partResetStart_ignored (h p (by simpa using hin) hbit)]

theorem b2n_le_one (b : Bool) : b2n b ≤ 1 := by cases b <;> decide

theorem readField_partReset (k : Core) {p : Nat} (hp : p < 4) : bits (readField k oPartReset) p p = b2n (isResetting k p) := by
  have read : readField k oPartReset =
      b2n (isResetting k 0) + 2 * b2n (isResetting k 1) + 4 * b2n (isResetting k 2) + 8 * b2n (isResetting k 3) := by
    simp [readField, readGlb, oPartReset, oGlbCtrl, upFrom, atBit]
    omega
  have le (q : Nat) := b2n_le_one (isResetting k q)
  have := le 0; have := le 1; have := le 2; have := le 3
  rw [read]
  interval_cases p <;> simp only [bits] <;> omega

end Sys2Proof.Proofs.PartResetStart
end

section
/-! PROOFS. The end of a partition reset (R69 event 4, R70, R482, R491), and with its start the whole of R68. -/

namespace Sys2Proof.Proofs.PartReset
open Sys2Proof.Machine Sys2Proof.Laws Sys2Proof.Proofs.Reads Sys2Proof.Proofs.ResetFrames Sys2Proof.Proofs.PartResetStart
open Sys2Proof.Proofs.PartMembers (mem_partCtxs)

/-! ## The events, named by what they leave -/

/-- Partition p's model sets, staged edits, stores, channels and sessions have ended. -/
def workEnded (k : Core) (p : Nat) : Core := settleFabric (settleStores (settleEdits ((domSets k p).foldl settleSet k) p) p) p
/-- The keys of its contexts are erased. -/
def keysErased (k : Core) (p : Nat) : Core := (partCtxs (workEnded k p) p).foldl eraseKey (workEnded k p)
/-- All of partition p is settled but for the wipe. -/
def allSettled (k : Core) (p : Nat) : Core :=
  let k3 := keysErased k p
  settleObjs (((k3.pools.filter (fun e => e.2.isOpen && ctxPart k3 e.2.ctx == some p)).map Prod.fst).foldl settlePool k3) p
/-- Partition p is ACTIVE again, its measurement registers zero. -/
def reactivated (k : Core) (p : Nat) : Core :=
  let k6 := zeroMreg (zeroMreg k (8 + p)) (12 + p)
  let k7 := modDom k6 p (fun q => { q with lastCtx := none, lastConf := false, lastBuilt := true, opened := false, gates := [], layer := 0 })
  { k7 with glb := { k7.glb with resetting := sdel k7.glb.resetting p } }

theorem partitionResetDone_due {k : Core} {p : Nat} (hr : isResetting k p = true) (ht : partTested k p = false)
    (hc : partRecorded k p = true) : partitionResetDone k p = retryWants (reactivated (partWipe (allSettled k p) p) p) := by
  simp only [partitionResetDone, hr, ht, hc]
  rfl

theorem partitionResetDone_not_due {k : Core} {p : Nat}
    (h : isResetting k p = false ∨ partTested k p = true ∨ partRecorded k p = false) : partitionResetDone k p = k := by
  have : ¬(isResetting k p && !partTested k p && partRecorded k p) = true := by
    rcases h with h | h | h <;> simp [h]
  simp only [partitionResetDone, this]
  rfl

/-! ## Keys -/

theorem eraseKey_frame (k : Core) (c : Nat) :
    (eraseKey k c).glb = k.glb ∧ (eraseKey k c).regs = k.regs ∧
    ∀ d, (ctx (eraseKey k c) d).key = if d = c then none else (ctx k d).key := by
  unfold eraseKey
  split
  · next h =>
    refine ⟨rfl, rfl, fun d => ?_⟩
    split
    · next e => simpa [e] using h
    · rfl
  · have stale (l : List Nat) (k : Core) :=
      Kept.foldl (f := fun k h => modObj k h fun o => { o with stale := true, rewritten := [] }) (fun k h => by simp) l k
    obtain ⟨hg, -, hr, hc⟩ := stale (ctxObjs k c) (modCtx k c fun x => { x with key := none })
    refine ⟨hg, hr, fun d => ?_⟩
    rw [ctx, hc, ← ctx, ctx_modCtx]
    split <;> rfl

theorem workEnded_kept (k : Core) (p : Nat) : Kept k (workEnded k p) := by
  have sets := Kept.foldl settleSet_kept (domSets k p) k
  simp [workEnded, sets]

theorem keysErased_frame (k : Core) (p : Nat) : (keysErased k p).glb = k.glb ∧ (keysErased k p).regs = k.regs := by
  have erased (l : List Nat) (k : Core) := Prod.mk.inj
    (foldl_fixes (g := fun k : Core => (k.glb, k.regs)) (f := eraseKey) (fun k c => by simp [eraseKey_frame k c]) l k)
  simp [keysErased, erased, workEnded_kept]

theorem keysErased_key {k : Core} {p c : Nat} (ho : (ctx k c).isOpen = true) (hp : (ctx k c).part = some p) :
    (ctx (keysErased k p) c).key = none := by
  have same : ctx (workEnded k p) c = ctx k c := by simp only [ctx, workEnded_kept]
  have member : c ∈ partCtxs (workEnded k p) p := mem_partCtxs (by rw [same, ho]) (by rw [same, hp])
  exact foldl_establishes (P := fun k => (ctx k c).key = none) (fun k => by simp only [eraseKey_frame, if_true])
    (fun k d hk => by simp only [eraseKey_frame, hk, ite_self]) member (workEnded k p)

theorem allSettled_kept (k : Core) (p : Nat) : Kept (keysErased k p) (allSettled k p) := by
  have pools (l : List Nat) (k : Core) := Kept.foldl settlePool_kept l k
  simp [allSettled, pools]

theorem allSettled_regs (k : Core) (p : Nat) : (allSettled k p).regs = k.regs := by
  simp only [allSettled_kept, keysErased_frame]

/-! ## Memories -/

/-- The wipe's part in the tiles. -/
def tilesWiped (k : Core) (p : Nat) : Core :=
  (domTiles k p).foldl (fun k t => modTile k t (fun q => { q.stopped with
    mem := Mem.empty, ctrs := [], held := [], regs := [], soft := softStart k, owner := none })) k

theorem tilesWiped_frame (k : Core) (p : Nat) :
    Kept k (tilesWiped k p) ∧ (tilesWiped k p).dram = k.dram ∧ (tilesWiped k p).stg = k.stg :=
  ⟨modTiles_kept _ _ k, Prod.mk.inj (foldl_fixes (g := fun k : Core => (k.dram, k.stg)) (fun k t => by simp) (domTiles k p) k)⟩

theorem tilesWiped_tile {k : Core} {p n : Nat} (h : n ∈ domTiles k p) :
    (tile (tilesWiped k p) n).mem = Mem.empty ∧ (tile (tilesWiped k p) n).ctrs = [] ∧ (tile (tilesWiped k p) n).regs = [] ∧
    (tile (tilesWiped k p) n).phase = 0 := by
  refine foldl_establishes (P := fun k => (tile k n).mem = Mem.empty ∧ (tile k n).ctrs = [] ∧ (tile k n).regs = [] ∧ (tile k n).phase = 0)
    (fun k => ?_) (fun k t hk => ?_) h k
  · rw [tile_modTile, if_pos rfl]
    exact ⟨rfl, rfl, rfl, rfl⟩
  · rw [tile_modTile]
    split
    · exact ⟨rfl, rfl, rfl, rfl⟩
    · exact hk

/-- The wipe's part in the staging memory and in what is counted for the partition. -/
def stagingWiped (k : Core) (p : Nat) : Core :=
  let k1 := tilesWiped k p
  wipeQuarterStg { k1 with
    ghcs := mfilter (fun g _ => ghcDom k1 g != p) k1.ghcs, incs := k1.incs.filter (fun x => domOfTile k1 x.tile != p) } p
/-- The wipe without the scrubs it ends. -/
def memoryWiped (k : Core) (p : Nat) : Core :=
  let u := 1024 * stackUnits (stagingWiped k p)
  { stagingWiped k p with dram := (stagingWiped k p).dram.wipe (2 * p * u) ((2 * p + 2) * u) }

theorem stagingWiped_frame (k : Core) (p : Nat) :
    Kept k (stagingWiped k p) ∧ (stagingWiped k p).tiles = (tilesWiped k p).tiles ∧ (stagingWiped k p).dram = k.dram ∧
    (stagingWiped k p).stg = k.stg.wipe (stgLine (p / 2) (262144 * (p % 2))) (stgLine (p / 2) (262144 * (p % 2)) + 262144) := by
  obtain ⟨hk, hd, hs⟩ := tilesWiped_frame k p
  simp [stagingWiped, wipeQuarterStg, hk, hd, hs]

theorem memoryWiped_frame (k : Core) (p : Nat) :
    Kept k (memoryWiped k p) ∧ (memoryWiped k p).tiles = (tilesWiped k p).tiles ∧
    (memoryWiped k p).dram = k.dram.wipe (2 * p * (1024 * stackUnits k)) ((2 * p + 2) * (1024 * stackUnits k)) ∧
    (memoryWiped k p).stg = k.stg.wipe (stgLine (p / 2) (262144 * (p % 2))) (stgLine (p / 2) (262144 * (p % 2)) + 262144) := by
  have regs : (stagingWiped k p).regs = k.regs := by simp only [stagingWiped_frame]
  simp [memoryWiped, stagingWiped_frame, stackUnits_of_regs regs]

/-- A stack's scrub ends (R521). -/
def scrubEnded (k : Core) (s : Nat) : Core := match slotOfAct k 2 s with | some e => freeAct k e.1 | none => k

theorem scrubEnded_memoryKept (k : Core) (s : Nat) : MemoryKept k (scrubEnded k s) := by
  unfold scrubEnded
  split <;> simp

theorem partWipe_eq (k : Core) (p : Nat) : partWipe k p = scrubEnded (scrubEnded (memoryWiped k p) (2 * p)) (2 * p + 1) := rfl

theorem partWipe_memoryKept (k : Core) (p : Nat) : MemoryKept (memoryWiped k p) (partWipe k p) := by
  simp [partWipe_eq, scrubEnded_memoryKept]

theorem reactivated_frame (k : Core) (p : Nat) :
    (reactivated k p).glb = { k.glb with resetting := sdel k.glb.resetting p } ∧
    (reactivated k p).sec.mregs = mdel (mdel k.sec.mregs (8 + p)) (12 + p) ∧ (reactivated k p).ctxs = k.ctxs ∧
    (reactivated k p).tiles = k.tiles ∧ (reactivated k p).dram = k.dram ∧ (reactivated k p).stg = k.stg := by
  simp [reactivated, zeroMreg]

/-! ## What the whole end does -/

section End
variable {k : Core} {p : Nat} (hr : isResetting k p = true) (ht : partTested k p = false) (hc : partRecorded k p = true)
include hr ht hc

theorem partitionResetDone_active : isResetting (partitionResetDone k p) p = false := by
  simp only [isResetting, partitionResetDone_due hr ht hc, retryWants_memoryKept, reactivated_frame]
  simpa using not_mem_sdel_self _ p

theorem partitionResetDone_memories :
    (partitionResetDone k p).tiles = (tilesWiped (allSettled k p) p).tiles ∧
    (partitionResetDone k p).dram = (allSettled k p).dram.wipe (2 * p * (1024 * stackUnits k)) ((2 * p + 2) * (1024 * stackUnits k)) ∧
    (partitionResetDone k p).stg =
      (allSettled k p).stg.wipe (stgLine (p / 2) (262144 * (p % 2))) (stgLine (p / 2) (262144 * (p % 2)) + 262144) := by
  simp only [partitionResetDone_due hr ht hc, retryWants_memoryKept, reactivated_frame, partWipe_memoryKept, memoryWiped_frame,
    stackUnits_of_regs (allSettled_regs k p), and_self]

theorem partitionResetDone_tile {n : Nat} (hn : n ∈ domTiles k p) :
    (tile (partitionResetDone k p) n).mem = Mem.empty ∧ (tile (partitionResetDone k p) n).ctrs = [] ∧
    (tile (partitionResetDone k p) n).regs = [] ∧ (tile (partitionResetDone k p) n).phase = 0 := by
  rw [← domTiles_of_regs (allSettled_regs k p)] at hn
  rw [tile, (partitionResetDone_memories hr ht hc).1, ← tile]
  exact tilesWiped_tile hn

theorem partitionResetDone_mreg :
    mreg (partitionResetDone k p) (8 + p) = List.replicate 32 0 ∧ mreg (partitionResetDone k p) (12 + p) = List.replicate 32 0 := by
  simp only [mreg, partitionResetDone_due hr ht hc, retryWants_memoryKept, reactivated_frame, mget_mdel_same, and_true]
  rw [mget_mdel_ne _ _ (by omega), mget_mdel_same]

theorem partitionResetDone_key {c : Nat} (ho : (ctx k c).isOpen = true) (hp : (ctx k c).part = some p) :
    (ctx (partitionResetDone k p) c).key = none := by
  have same : (partitionResetDone k p).ctxs = (keysErased k p).ctxs := by
    simp only [partitionResetDone_due hr ht hc, retryWants_memoryKept, reactivated_frame, partWipe_memoryKept, memoryWiped_frame,
      allSettled_kept]
  rw [ctx, same, ← ctx]
  exact keysErased_key ho hp

end End

/-- Settles O41: the start and the end of a partition reset are followed event by event, each with what the events before it leave as
it was; a bit whose partition is not ACTIVE, or outside ENABLED, starts nothing. -/
theorem partitionsReset : Obligations.PartitionsReset := by
  refine ⟨fun s v p he hp hv ha => ?_, fun s v p he hp hb ha => ?_, fun s v hn => ?_, fun k p hp => readField_partReset k hp,
    fun s q hr ht hc => ?_, fun s q hn => ?_⟩
  · obtain ⟨-, -, hctxs, hcount⟩ := partResetStart_kept he ha
    refine ⟨partResetStart s.core p, ?_, partResetStart_resets he ha, hcount, partResetStart_running he ha,
      fun n hl hd => partResetStart_seq he ha hl hd, fun h ho => partResetStart_obj he ha ho, fun c => ?_⟩
    · rw [← glbPartReset_one s.core hp hv]
      rfl
    · rw [ctx, hctxs, ← ctx]
  · have asked : p ∈ (upFrom 0 4).filter (bit v.toNat) := List.mem_filter.mpr ⟨by simpa using hp, hb⟩
    exact ⟨_, rfl, partResetStarts_reset asked he (partCode_eq_one.mp ha).1⟩
  · exact congrArg (fun k => Host.Outcome.next (s.finish k)) (glbPartReset_ignored hn)
  · obtain ⟨-, hdram, hstg⟩ := partitionResetDone_memories hr ht hc
    obtain ⟨h8, h12⟩ := partitionResetDone_mreg hr ht hc
    refine ⟨partitionResetDone s.core q.toNat, rfl, partitionResetDone_active hr ht hc, fun n hn => partitionResetDone_tile hr ht hc hn,
      fun l hlo hhi => ?_, fun l hl => ?_, h8, h12, fun c ho hp => partitionResetDone_key hr ht hc ho hp⟩
    · rw [hdram]
      exact ⟨line_wipe _ ⟨hlo, hhi⟩, lineBad_wipe _ ⟨hlo, hhi⟩⟩
    · rw [hstg]
      exact line_wipe _ ⟨by omega, by omega⟩
  · exact congrArg (fun k => Host.Outcome.next (s.finish k)) (partitionResetDone_not_due hn)

end Sys2Proof.Proofs.PartReset
end

section
/-! PROOFS. What a control instruction does once it is known which of its checks fails: with none it does what its specification runs and
ends as that outcome says, with one it retires as that check says (R111, R112, R119, R120). -/

namespace Sys2Proof.Proofs.Acceptance
open Sys2Proof.Machine

/-! ## The check that is reported (R111) -/

theorem firstBad_eq_none {l : List Chk} (h : ∀ e ∈ l, e.bad = false) : firstBad l = none := by
  induction l with
  | nil => rfl
  | cons c r ih =>
    obtain ⟨hc, hr⟩ := List.forall_mem_cons.mp h
    simp [firstBad, ih hr, hc]

/-- The only failing check is the one reported, wherever it ranks. -/
theorem firstBad_append_singleton {l : List Chk} {c : Chk} (h : ∀ e ∈ l, e.bad = false) (hc : c.bad = true) :
    firstBad (l ++ [c]) = some c := by
  induction l with
  | nil => simp [firstBad, hc]
  | cons d r ih =>
    obtain ⟨hd, hr⟩ := List.forall_mem_cons.mp h
    simp [firstBad, ih hr, hd]

/-- The checks on reserved bits are all check 3 (R116). -/
theorem ord_of_mem_checks3 {sp : CtlSpec} {i : Ctl} {inBundle : Bool} {e : Chk} (h : e ∈ checks3 sp i inBundle) : e.ord = 3 := by
  have reserved {base x : Nat} {fs : List (Nat × Nat)} (h : e ∈ cReserved base x fs) : e.ord = 3 := by
    obtain ⟨f, -, rfl⟩ := List.mem_map.mp h
    rfl
  rcases List.mem_append.mp h with h | h
  · rcases List.mem_append.mp h with h | h
    · simp only [List.mem_cons, List.not_mem_nil, or_false] at h
      rcases h with rfl | rfl | rfl | rfl | rfl | rfl | rfl | rfl <;> rfl
    · exact reserved h
  · exact reserved h

/-! ## How the instruction goes on -/

section Outcomes
variable {sp : CtlSpec} {h : CtlHdr} {a b c : W32} {x : W128} {s : State}

theorem ctlExec_of_accepted {k : Core} (ha : Accepted sp h a b c x k) :
    ctlExec sp h a b c x k = ctlEnd k (mkCtl h sp.cls sp.op a b c x) (sp.run (mkCtl h sp.cls sp.op a b c x) k) := by
  obtain ⟨served, live, -, sound⟩ := ha
  simp [ctlExec, ctlRun, served, live, firstBad_eq_none sound]

theorem onCore_done {t : Core} {p : List Byte} (ha : Accepted sp h a b c x s.core)
    (hr : sp.run (mkCtl h sp.cls sp.op a b c x) s.core = .done t p) :
    onCore s (ctlExec sp h a b c x) = doneAt s (mkCtl h sp.cls sp.op a b c x) t p := by
  rw [onCore, ctlExec_of_accepted ha, hr, ctlEnd, doneAt]

theorem onCore_flight {t : Core} {f : Flt} (ha : Accepted sp h a b c x s.core)
    (hr : sp.run (mkCtl h sp.cls sp.op a b c x) s.core = inFlight t f) : onCore s (ctlExec sp h a b c x) = flightAt s t f := by
  rw [onCore, ctlExec_of_accepted ha, hr, inFlight, ctlEnd, flightAt]

theorem onCore_ends {t : Core} {reason arg : Nat} (ha : Accepted sp h a b c x s.core)
    (hr : sp.run (mkCtl h sp.cls sp.op a b c x) s.core = .ends t reason arg) :
    onCore s (ctlExec sp h a b c x) = .next (s.finish (retire t (mkCtl h sp.cls sp.op a b c x) reason arg [])) := by
  rw [onCore, ctlExec_of_accepted ha, hr, ctlEnd]

theorem onCore_refused {e : Chk} (served : ctlServed s.core = true) (live : srcLive s.core h.src = true)
    (he : firstBad (checks3 sp (mkCtl h sp.cls sp.op a b c x) false ++ sp.checks (mkCtl h sp.cls sp.op a b c x) s.core) = some e) :
    onCore s (ctlExec sp h a b c x) =
      .next (s.finish (retire (noteRefusal s.core (mkCtl h sp.cls sp.op a b c x) e.reason)
        (mkCtl h sp.cls sp.op a b c x) e.reason e.arg [])) := by
  simp [onCore, ctlExec, ctlRun, ctlEnd, served, live, he]

end Outcomes

/-- Only SEC.QUOTE counts its refusals (R486, R487). -/
theorem noteRefusal_of_cls {k : Core} {i : Ctl} (r : Nat) (h : i.cls ≠ 0xC) : noteRefusal k i r = k :=
  if_neg fun hq => h hq.1

end Sys2Proof.Proofs.Acceptance
end

section
/-! PROOFS. The SEQ instructions that succeed at once (R310), and SEQ.CANCEL where no sequence is live (R308). -/

namespace Sys2Proof.Proofs.SeqInstructions
open Sys2Proof.Machine Sys2Proof.Proofs.Acceptance

/-! ## The instructions whose effect depends on the sequence's state -/

section Runs
variable {i : Ctl} {k : Core}

theorem seqPause_run_queued (h : (seq k i.seq).st = .queued) :
    seqPauseSpec.run i k = .done (modSeq k i.seq fun q => { q with st := .paused }) [] := by
  simp [seqPauseSpec, h]

theorem seqPause_run_running (h : (seq k i.seq).st = .running) :
    seqPauseSpec.run i k = inFlight (modSeq k i.seq fun q => { q with pausePending := true }) { ins := i, key := i.seq } := by
  simp [seqPauseSpec, h]

theorem seqCancel_run_not_live (h : (seq k i.seq).live = false) :
    seqCancelSpec.run i k = .ends k rAlreadyComplete (seq k i.seq).st.code := by
  simp [seqCancelSpec, h]

end Runs

/-! ## SEQ.CANCEL of a FREE sequence -/

/-- A FREE sequence belongs to no partition, so of the checks 11 on it only that of its state can fail. -/
theorem cTarget_bad_of_free {i : Ctl} {k : Core} (h : (seq k i.seq).st = .free) {pos : Nat} {e : Chk}
    (he : e ∈ cTarget i k pos (seqPart k i.seq)) : e.bad = false := by
  rw [seqPart, if_pos h] at he
  simp only [cTarget, List.mem_cons, List.not_mem_nil, or_false] at he
  rcases he with rfl | rfl <;> rfl

/-- Where no check before check 11 fails, CANCEL of a FREE sequence is refused by the sequence's state, ARG 0 (R308). -/
theorem seqCancel_firstBad_of_free {i : Ctl} {k : Core} (hfree : (seq k i.seq).st = .free)
    (early : ∀ e ∈ checks3 seqCancelSpec i false ++ seqCancelSpec.checks i k, e.ord < 11 → e.bad = false) :
    firstBad (checks3 seqCancelSpec i false ++ seqCancelSpec.checks i k) = some (cState 64 true 0) := by
  have shape : checks3 seqCancelSpec i false ++ seqCancelSpec.checks i k =
      (checks3 seqCancelSpec i false ++ (cSeq i k 64 i.seq ++ [cOwnSeq i k])) ++ [cState 64 true 0] := by
    simp [seqCancelSpec, cSeqState, seqArg, hfree]
  rw [shape] at early ⊢
  refine firstBad_append_singleton (fun e he => ?_) rfl
  have sound (h : e.ord < 11) : e.bad = false := early e (List.mem_append_left _ he) h
  simp only [cSeq, List.mem_append, List.mem_singleton] at he
  rcases he with he | (rfl | he) | rfl
  · exact sound (ord_of_mem_checks3 he ▸ by decide)
  · exact sound (show (8 : Nat) < 11 by decide)
  · exact cTarget_bad_of_free hfree he
  · exact sound (show (8 : Nat) < 11 by decide)

/-! ## SEQ.QUERY -/

theorem seqQueryPayload_free : seqQueryPayload {} = List.replicate 16 0 := by decide

/-- QUERY changes nothing; of a FREE sequence it answers zeros, of another what the descriptor holds and whether it is urgent now. -/
theorem seqQuery_run (i : Ctl) (k : Core) :
    seqQuerySpec.run i k = .done k (if (seq k i.seq).st = .free then List.replicate 16 0 else
      seqQueryPayload { seq k i.seq with
        urgent := decide (rfld k oUrgentWait 15 0 ≠ 0 ∧ rfld k oUrgentWait 15 0 ≤ (seq k i.seq).wait) }) := by
  by_cases free : (seq k i.seq).st = .free
  · simp only [seqQuerySpec, if_pos free, seqQueryPayload_free]
  · simp only [seqQuerySpec, if_neg free, Bool.decide_and]

/-- Settles O28: an accepted instruction does what its specification runs; CANCEL of a FREE sequence meets check 11 alone. -/
theorem sequenceInstructionsComplete : Obligations.SequenceInstructionsComplete := by
  intro h a b c x s
  refine ⟨fun openOk => onCore_done openOk rfl,
    fun promptOk => onCore_done promptOk rfl,
    fun startOk => onCore_done startOk rfl,
    fun pauseOk queued => onCore_done pauseOk (seqPause_run_queued queued),
    fun pauseOk running => onCore_flight pauseOk (seqPause_run_running running),
    fun resumeOk => onCore_done resumeOk rfl,
    fun cancelOk ended => onCore_ends cancelOk (seqCancel_run_not_live ended),
    fun served live free early => ?_,
    fun stopOk => onCore_flight stopOk rfl,
    fun prioOk => onCore_flight prioOk rfl,
    fun queryOk => onCore_done queryOk (seqQuery_run _ _)⟩
  have refused := onCore_refused (x := 0) served live (seqCancel_firstBad_of_free free early)
  rwa [noteRefusal_of_cls _ (show (1 : Nat) ≠ 0xC by decide)] at refused

end Sys2Proof.Proofs.SeqInstructions
end

section
/-! PROOFS. The stacks after an update, and what the place and the class of a line depend on (R358 to R363). -/

namespace Sys2Proof.Proofs.StackReads
open Sys2Proof.Machine Sys2Proof.Laws Sys2Proof.Proofs.Reads

/-! ## Stacks after an update -/

@[simp] theorem mput_mput_same {α : Type} (m : SMap α) (n : Nat) (v w : α) : mput (mput m n v) n w = mput m n w := by
  induction m with
  | nil => simp [mput]
  | cons e r ih =>
    obtain ⟨j, u⟩ := e
    by_cases same : n = j
    · simp [mput, same]
    · by_cases below : n < j <;> simp [mput, same, below, ih]

theorem stk_of_stks {k t : Core} (e : t.stks = k.stks) (m : Nat) : stk t m = stk k m := by rw [stk, e, stk]

@[simp] theorem stk_modStk_same (k : Core) (s : Nat) (f : Stk → Stk) : stk (modStk k s f) s = f (stk k s) := by
  rw [stk, modStk, mget_mmod, if_pos rfl, stk]

theorem stk_modStk_ne (k : Core) {s m : Nat} (f : Stk → Stk) (h : m ≠ s) : stk (modStk k s f) m = stk k m := by
  rw [stk, modStk, mget_mmod, if_neg h, stk]

@[simp] theorem modStk_modStk (k : Core) (s : Nat) (f g : Stk → Stk) : modStk (modStk k s f) s g = modStk k s (fun q => g (f q)) := by
  simp [modStk, mmod]

theorem modStk_congr {k : Core} {s : Nat} {f g : Stk → Stk} (h : f (stk k s) = g (stk k s)) : modStk k s f = modStk k s g := by
  simp only [stk] at h
  simp only [modStk, mmod, h]

/-! ## What depends on the registers alone -/

section Regs
variable {k t : Core} (e : t.regs = k.regs)
include e

theorem rfld_of_regs (o hi lo : Nat) : rfld t o hi lo = rfld k o hi lo := by simp only [rfld, rreg, e]
theorem coarse_of_regs : coarse t = coarse k := by rw [coarse, rfld_of_regs e, coarse]
theorem pcOf_of_regs (a : Nat) : pcOf t a = pcOf k a := by rw [pcOf, coarse_of_regs e, pcOf]
theorem sliceOf_of_regs (a : Nat) : sliceOf t a = sliceOf k a := by rw [sliceOf, pcOf_of_regs e, sliceOf]
theorem frameOf_of_regs (a : Nat) : frameOf t a = frameOf k a := by rw [frameOf, coarse_of_regs e, frameOf]
theorem frameNo_of_regs (a : Nat) : frameNo t a = frameNo k a := by
  rw [frameNo, bankBits, coarse_of_regs e, frameOf_of_regs e, frameNo, bankBits]
theorem bankOf_of_regs (s a : Nat) : bankOf t s a = bankOf k s a := by simp only [bankOf, rfld_of_regs e]
theorem systemLine_of_regs (a : Nat) : systemLine t a = systemLine k a := by simp only [systemLine, rfld_of_regs e]
theorem objSpaceAddr_of_regs (s a : Nat) : objSpaceAddr t s a = objSpaceAddr k s a := by simp only [objSpaceAddr, rfld_of_regs e]

/-- The place of a line depends besides on the slices its stack retired and on how far a migration went. -/
theorem placeOf_congr {s : Nat} (spares : (stk t s).spares = (stk k s).spares) (migrating : (stk t s).migrating = (stk k s).migrating)
    (moved : (stk t s).moved = (stk k s).moved) (a : Nat) : placeOf t s a = placeOf k s a := by
  have spare : inSpare t s a = inSpare k s a := by simp only [inSpare, sliceOf_of_regs e, frameNo_of_regs e, spares, migrating, moved]
  simp only [placeOf, spare, spares, sliceOf_of_regs e, frameNo_of_regs e, pcOf_of_regs e, frameOf_of_regs e, bankOf_of_regs e]

end Regs

/-! ## Addresses and requests -/

theorem unitIx_lt {a : Nat} (h : a < 14436 * 2 ^ 21) : unitIx a < 14436 := by
  simp only [unitIx, bits]; omega

theorem le_unitIx {a : Nat} (lo : 14436 * 2 ^ 21 ≤ a) (hi : a < 2 ^ 35) : 14436 ≤ unitIx a := by
  simp only [unitIx, bits]; omega

/-- Address of the line that a request reads: its own, or, of a one-line write, the other line of its check burst (R359). -/
def readAddr (r : DramReq) : Nat :=
  if r.write then (if r.line % 2 = 0 then 64 * r.line + 64 else 64 * r.line - 64) else 64 * r.line

theorem otherLine_reqAddr {r : DramReq} (h : r.write = true) : otherLine (reqAddr r) = readAddr r := by
  simp [otherLine, reqAddr, readAddr, h]

theorem readAddr_aligned (r : DramReq) : readAddr r / 64 * 64 = readAddr r := by
  unfold readAddr
  split <;> [split; skip] <;> omega

end Sys2Proof.Proofs.StackReads
end

section
/-! PROOFS. How far the work of a Stack Controller reaches. Rows opened and lines handed over change the rows' bookkeeping of one stack and
draw free values (`RowsOnly`); a slice that retires moves the memory of no line (`SlicesOnly`); a line corrected counts besides (`LinesKept`);
and all of them leave the requests at the input and the marks of scrubs and migrations as they stand (`Serves`). -/

namespace Sys2Proof.Proofs.StackReach
open Sys2Proof.Machine Sys2Proof.Laws Sys2Proof.Proofs.Reads Sys2Proof.Proofs.StackReads

/-! ## The relations -/

/-- Of each listed activity nothing but its state changed. -/
def ActsKept (k t : Core) : Prop := ∀ j a, mget? k.maint.slots j = some a → ∃ st, mget? t.maint.slots j = some { a with st := st }

theorem ActsKept.refl {k : Core} : ActsKept k k := fun _ a ha => ⟨a.st, ha⟩

theorem ActsKept.trans {k t u : Core} (h : ActsKept k t) (g : ActsKept t u) : ActsKept k u := fun j a ha => by
  obtain ⟨_, hx⟩ := h j a ha
  obtain ⟨st, hu⟩ := g j _ hx
  exact ⟨st, hu⟩

theorem ActsKept.of_slots {k t : Core} (e : t.maint.slots = k.maint.slots) : ActsKept k t := fun _ a ha => ⟨a.st, by rw [e]; exact ha⟩

/-- The controller of stack s worked: the device state, the registers and the other stacks are as before, and what waits, what a migration or
a scrub has passed and what the activities counted stay. -/
structure Serves (s : Nat) (k t : Core) : Prop where
  glb : t.glb = k.glb
  regs : t.regs = k.regs
  others : ∀ m, m ≠ s → stk t m = stk k m
  input : (stk t s).input = (stk k s).input
  frozen : (stk t s).frozen = (stk k s).frozen
  scrubbed : (stk t s).scrubbed = (stk k s).scrubbed
  migration : (stk k s).migrating.isSome → (stk t s).migrating = (stk k s).migrating ∧ (stk t s).moved = (stk k s).moved
  acts : ActsKept k t
  serial : k.err.serial ≤ t.err.serial

/-- Besides, no line and no object changed. -/
structure LinesKept (s : Nat) (k t : Core) : Prop extends Serves s k t where
  dram : t.dram = k.dram
  objs : t.objs = k.objs

/-- Besides, no error was counted or latched. -/
structure SlicesOnly (s : Nat) (k t : Core) : Prop extends LinesKept s k t where
  ce : (stk t s).ce = (stk k s).ce
  errAddr : (stk t s).errAddr = (stk k s).errAddr

/-- Only free values were drawn, and the pseudo-channels of stack s moved. -/
structure RowsOnly (s : Nat) (k t : Core) : Prop where
  core : ∃ stks fresh, t = { k with stks := stks, fresh := fresh }
  others : ∀ m, m ≠ s → stk t m = stk k m
  own : ∃ pcs, stk t s = { stk k s with pcs := pcs }

section Relations
variable {s : Nat} {k t u : Core}

theorem Serves.refl : Serves s k k :=
  ⟨rfl, rfl, fun _ _ => rfl, rfl, rfl, rfl, fun _ => ⟨rfl, rfl⟩, .refl, le_rfl⟩

theorem Serves.trans (h : Serves s k t) (g : Serves s t u) : Serves s k u where
  glb := g.glb.trans h.glb
  regs := g.regs.trans h.regs
  others m hm := (g.others m hm).trans (h.others m hm)
  input := g.input.trans h.input
  frozen := g.frozen.trans h.frozen
  scrubbed := g.scrubbed.trans h.scrubbed
  migration hs := by
    obtain ⟨same, moved⟩ := h.migration hs
    obtain ⟨same', moved'⟩ := g.migration (by rw [same]; exact hs)
    exact ⟨same'.trans same, moved'.trans moved⟩
  acts := h.acts.trans g.acts
  serial := h.serial.trans g.serial

theorem LinesKept.refl : LinesKept s k k := ⟨.refl, rfl, rfl⟩
theorem LinesKept.trans (h : LinesKept s k t) (g : LinesKept s t u) : LinesKept s k u :=
  ⟨h.toServes.trans g.toServes, g.dram.trans h.dram, g.objs.trans h.objs⟩

theorem SlicesOnly.refl : SlicesOnly s k k := ⟨.refl, rfl, rfl⟩
theorem SlicesOnly.trans (h : SlicesOnly s k t) (g : SlicesOnly s t u) : SlicesOnly s k u :=
  ⟨h.toLinesKept.trans g.toLinesKept, g.ce.trans h.ce, g.errAddr.trans h.errAddr⟩

theorem Serves.modStk {f : Stk → Stk} (input : (f (stk k s)).input = (stk k s).input)
    (frozen : (f (stk k s)).frozen = (stk k s).frozen) (scrubbed : (f (stk k s)).scrubbed = (stk k s).scrubbed)
    (migration : (stk k s).migrating.isSome →
      (f (stk k s)).migrating = (stk k s).migrating ∧ (f (stk k s)).moved = (stk k s).moved) : Serves s k (modStk k s f) :=
  ⟨rfl, rfl, fun _ hm => stk_modStk_ne k f hm, by simpa using input, by simpa using frozen, by simpa using scrubbed,
    by simpa using migration, .of_slots rfl, le_rfl⟩

theorem SlicesOnly.modStk {f : Stk → Stk} (serves : Serves s k (modStk k s f))
    (ce : (f (stk k s)).ce = (stk k s).ce) (errAddr : (f (stk k s)).errAddr = (stk k s).errAddr) : SlicesOnly s k (modStk k s f) :=
  ⟨⟨serves, rfl, rfl⟩, by simpa using ce, by simpa using errAddr⟩

/-- What is withheld from the error log is of no stack. -/
theorem SlicesOnly.of_suppressed (m : SMap Nat) :
    SlicesOnly s k { k with err := { k.err with suppressed := m } } :=
  ⟨⟨⟨rfl, rfl, fun _ _ => rfl, rfl, rfl, rfl, fun _ => ⟨rfl, rfl⟩, .of_slots rfl, le_rfl⟩, rfl, rfl⟩, rfl, rfl⟩

theorem RowsOnly.refl : RowsOnly s k k := ⟨⟨_, _, rfl⟩, fun _ _ => rfl, ⟨_, rfl⟩⟩

theorem RowsOnly.trans (h : RowsOnly s k t) (g : RowsOnly s t u) : RowsOnly s k u where
  core := by
    obtain ⟨_, _, rfl⟩ := h.core
    obtain ⟨_, _, rfl⟩ := g.core
    exact ⟨_, _, rfl⟩
  others m hm := (g.others m hm).trans (h.others m hm)
  own := by
    obtain ⟨_, eh⟩ := h.own
    obtain ⟨_, eg⟩ := g.own
    exact ⟨_, eg.trans (by rw [eh])⟩

theorem RowsOnly.slicesOnly (h : RowsOnly s k t) : SlicesOnly s k t := by
  obtain ⟨⟨stks, fresh, core⟩, others, ⟨pcs, own⟩⟩ := h
  exact ⟨⟨⟨by rw [core], by rw [core], others, by rw [own], by rw [own], by rw [own], fun _ => by simp [own],
    .of_slots (by rw [core]), by rw [core]⟩, by rw [core], by rw [core]⟩, by rw [own], by rw [own]⟩

/-- What draws free values alone opens no row. -/
theorem RowsOnly.of_fresh (fresh : Nat) : RowsOnly s k { k with fresh := fresh } := ⟨⟨_, _, rfl⟩, fun _ _ => rfl, ⟨_, rfl⟩⟩

theorem RowsOnly.modPc (c : Nat) (f : Pc → Pc) : RowsOnly s k (modPc k s c f) :=
  ⟨⟨_, _, rfl⟩, fun _ hm => stk_modStk_ne k _ hm, ⟨_, stk_modStk_same ..⟩⟩

end Relations

/-! ## Rows are opened, and a line is handed over (R365, R370, R501) -/

theorem activate_rowsOnly (k : Core) (s c b r : Nat) : RowsOnly s k (activate k s c b r) := by
  have seeded : RowsOnly s k (lfsrOf k s c).2 := by
    unfold lfsrOf
    split
    · exact .refl
    · exact .of_fresh _
  exact seeded.trans (.modPc ..)

theorem openFrame_rowsOnly (k : Core) (s : Nat) (p : Place) : RowsOnly s k (openFrame k s p) :=
  List.foldlRecOn (motive := RowsOnly s k) p.rows _ .refl fun _ h x _ => h.trans (activate_rowsOnly _ s _ _ x)

theorem dramLine_fresh (k : Core) (s a : Nat) : ∃ fresh, (dramLine k s a).2 = { k with fresh := fresh } := by
  unfold dramLine drawLine
  split <;> exact ⟨_, rfl⟩

theorem transfer_rowsOnly (k : Core) (s : Nat) (r : DramReq) (p : Place) : RowsOnly s k (transfer k s r p).2 := by
  obtain ⟨f, e⟩ := dramLine_fresh k s (reqAddr r)
  obtain ⟨g, e'⟩ := dramLine_fresh (dramLine k s (reqAddr r)).2 s (otherLine (reqAddr r))
  have both : (transfer k s r p).2 = { k with fresh := g } := e'.trans (by rw [e])
  rw [both]
  exact .of_fresh g

/-- The line that was decoded is transferred, unless its stack froze. -/
def handOver (k : Core) (s c : Nat) (r : DramReq) (p : Place) : Core :=
  if (stk k s).frozen then k else modPc (transfer k s r p).2 s c (fun x => { x with last := some (transfer k s r p).1 })

theorem handOver_of_frozen {k : Core} {s : Nat} (c : Nat) (r : DramReq) (p : Place) (h : (stk k s).frozen = true) :
    handOver k s c r p = k := if_pos h

theorem handOver_rowsOnly (k : Core) (s c : Nat) (r : DramReq) (p : Place) : RowsOnly s k (handOver k s c r p) := by
  unfold handOver
  split
  · exact .refl
  · exact (transfer_rowsOnly k s r p).trans (.modPc ..)

theorem handOver_last {k : Core} {s : Nat} (c : Nat) (r : DramReq) (p : Place) (h : (stk k s).frozen = false) :
    ((stk (handOver k s c r p) s).pc c).last = some (transfer k s r p).1 := by
  simp [handOver, h, modPc, mmod, Stk.pc]

theorem transfer_out_of_tenant {k : Core} {s : Nat} {r : DramReq} (p : Place) (hr : r.write = false)
    (hs : systemLine k (64 * r.line) = false) :
    (transfer k s r p).1.out =
      lineCode (k.dram.line 0 (objSpaceAddr k s (64 * r.line) / 64)) (k.dram.lineBad (objSpaceAddr k s (64 * r.line) / 64)) := by
  have line : (dramLine k s (reqAddr r)).1 =
      (k.dram.line 0 (objSpaceAddr k s (64 * r.line) / 64), k.dram.lineBad (objSpaceAddr k s (64 * r.line) / 64)) := by
    simp [dramLine, reqAddr, hs]
  have out : (transfer k s r p).1.out =
      if r.write then [] else lineCode (dramLine k s (reqAddr r)).1.1 (dramLine k s (reqAddr r)).1.2 := rfl
  rw [out, line, hr]
  rfl

/-! ## Maintenance activities (R518, R520) -/

theorem modAct_maint (k : Core) (n : Nat) (f : Act → Act) : ∃ m, modAct k n f = { k with maint := m } := by
  unfold modAct
  split <;> exact ⟨_, rfl⟩

/-- A fold changes only the table of activities where each of its steps does. -/
theorem foldl_maint {α : Type} {f : Core → α → Core} (hf : ∀ k x, ∃ m, f k x = { k with maint := m }) (l : List α) (k : Core) :
    ∃ m, l.foldl f k = { k with maint := m } := by
  induction l generalizing k with
  | nil => exact ⟨_, rfl⟩
  | cons x l ih =>
    obtain ⟨_, e⟩ := hf k x
    obtain ⟨m, e'⟩ := ih (f k x)
    exact ⟨m, by rw [List.foldl_cons, e', e]⟩

theorem hwBegin_maint (k : Core) (kind inst : Nat) : ∃ m, hwBegin k kind inst = { k with maint := m } := by
  obtain ⟨m, e⟩ := foldl_maint (fun k (e : Nat × Act) => modAct_maint k e.1 fun a => { a with st := 4 }) (conflicting k kind inst) k
  unfold hwBegin
  split
  · exact ⟨_, rfl⟩
  · split
    · exact ⟨_, rfl⟩
    · dsimp only
      split
      · exact ⟨_, rfl⟩
      · rw [e]; exact ⟨_, rfl⟩

theorem wakeAct_maint (k : Core) (n : Nat) : ∃ m, wakeAct k n = { k with maint := m } := by
  unfold wakeAct
  split
  · exact ⟨_, rfl⟩
  · split
    · exact modAct_maint ..
    · exact ⟨_, rfl⟩

theorem freeAct_maint (k : Core) (n : Nat) : ∃ m, freeAct k n = { k with maint := m } := by
  obtain ⟨m, e⟩ := foldl_maint wakeAct_maint (upFrom 16 16 ++ upFrom 0 16) (modMaint k fun m => { m with slots := mdel m.slots n })
  exact ⟨m, by rw [freeAct, settle, e, modMaint]⟩

theorem hwEnd_maint (k : Core) (kind inst : Nat) : ∃ m, hwEnd k kind inst = { k with maint := m } := by
  unfold hwEnd
  split
  · exact freeAct_maint ..
  · exact ⟨_, rfl⟩

@[simp] theorem stk_hwEnd (k : Core) (kind inst m : Nat) : stk (hwEnd k kind inst) m = stk k m := by
  obtain ⟨_, e⟩ := hwEnd_maint k kind inst
  rw [e]; rfl

theorem modAct_state_actsKept (k : Core) (n st : Nat) : ActsKept k (modAct k n fun a => { a with st := st }) := by
  intro j a ha
  unfold modAct
  split
  · exact ⟨a.st, ha⟩
  · next b hb =>
    by_cases same : j = n
    · subst same
      obtain rfl : b = a := Option.some.inj (hb.symm.trans ha)
      exact ⟨st, mget?_mput_same ..⟩
    · exact ⟨a.st, (mget?_mput_ne _ _ same).trans ha⟩

/-- A hardware activity takes a slot that is free: what stands in another stays but for its state. -/
theorem hwBegin_actsKept (k : Core) (kind inst : Nat) : ActsKept k (hwBegin k kind inst) := by
  unfold hwBegin
  split
  · exact .refl
  · split
    · exact .refl
    · next n free =>
      have suspended : ActsKept k ((conflicting k kind inst).foldl (fun k e => modAct k e.1 fun a => { a with st := 4 }) k) :=
        List.foldlRecOn (motive := ActsKept k) _ _ .refl fun t h e _ => h.trans (modAct_state_actsKept t e.1 4)
      have empty : mget? k.maint.slots n = none := by simpa [freeSlotFrom] using List.find?_some free
      intro j a ha
      have other : j ≠ n := by rintro rfl; simp [empty] at ha
      dsimp only
      split
      · exact ⟨a.st, (mget?_mput_ne _ _ other).trans ha⟩
      · obtain ⟨st, hst⟩ := suspended j a ha
        exact ⟨st, (mget?_mput_ne _ _ other).trans hst⟩

/-! ## Error records (R506 to R509) -/

theorem errToRing_serial (k : Core) (r : Nat) (e : ErrRec) (n : Nat) : (errToRing k r e n).err.serial = k.err.serial := by
  have ring (k : Core) (f : ERing → ERing) : (modERing k r f).err.serial = k.err.serial := by unfold modERing; split <;> rfl
  simp only [errToRing]
  split <;> [skip; split] <;> simp [ring]

@[simp] theorem errRecord_serial (k : Core) (e : ErrRec) : (errRecord k e).err.serial = k.err.serial + 1 := by
  simp only [errRecord, errToRing_serial]
  split <;> simp [errToRing_serial]

@[simp] theorem stk_errRecord (k : Core) (e : ErrRec) (m : Nat) : stk (errRecord k e) m = stk k m := stk_of_stks (by simp) m

theorem errRecord_slicesOnly (k : Core) (e : ErrRec) (s : Nat) : SlicesOnly s k (errRecord k e) := by
  refine ⟨⟨⟨?_, ?_, ?_, ?_, ?_, ?_, ?_, .of_slots ?_, ?_⟩, ?_, ?_⟩, ?_, ?_⟩ <;> simp

end Sys2Proof.Proofs.StackReach
end

section
/-! PROOFS. What a read that decodes to bits in error leaves: up to two are corrected and counted, three poison a tenant line (R373 to R378,
R503). -/

namespace Sys2Proof.Proofs.LineErrors
open Sys2Proof.Machine Sys2Proof.Laws Sys2Proof.Proofs.Reads Sys2Proof.Proofs.StackReads Sys2Proof.Proofs.StackReach

/-! ## Slices retire (R374 to R377) -/

theorem hwBegin_slicesOnly (k : Core) (kind inst s : Nat) : SlicesOnly s k (hwBegin k kind inst) := by
  have acts := hwBegin_actsKept k kind inst
  obtain ⟨_, e⟩ := hwBegin_maint k kind inst
  rw [e] at acts ⊢
  exact ⟨⟨⟨rfl, rfl, fun _ _ => rfl, rfl, rfl, rfl, fun _ => ⟨rfl, rfl⟩, acts, le_rfl⟩, rfl, rfl⟩, rfl, rfl⟩

theorem startMigration_slicesOnly {k : Core} {s : Nat} (sl : Nat) (h : (stk k s).migrating = none) :
    SlicesOnly s k (startMigration k s sl) :=
  have began : Serves s k (modStk k s fun q => { q with spares := q.spares ++ [sl], migrating := some sl, moved := 0 }) :=
    .modStk rfl rfl rfl (by simp [h])
  ((SlicesOnly.modStk began rfl rfl).trans (errRecord_slicesOnly ..)).trans (hwBegin_slicesOnly ..)

theorem noSpare_slicesOnly (k : Core) (s : Nat) : SlicesOnly s k (modStk k s fun q => { q with noSpare := true }) :=
  .modStk (.modStk rfl rfl rfl fun _ => ⟨rfl, rfl⟩) rfl rfl

/-- A slice that retires while another migrates waits (R375). -/
theorem retireSlice_slicesOnly (k : Core) (s sl : Nat) : SlicesOnly s k (retireSlice k s sl) := by
  simp only [retireSlice]
  split
  · exact .refl
  · split
    · exact noSpare_slicesOnly k s
    · split
      · exact .modStk (.modStk rfl rfl rfl fun _ => ⟨rfl, rfl⟩) rfl rfl
      · next none => exact startMigration_slicesOnly sl (by simpa using none)

/-! ## Corrected lines (R373, R377) -/

theorem bump_slicesOnly (k : Core) (o n s : Nat) : SlicesOnly s k (bump k o n) := by
  have same := stk_of_stks (k := k) (t := bump k o n) (by simp)
  refine ⟨⟨⟨?_, ?_, fun m _ => same m, ?_, ?_, ?_, ?_, .of_slots ?_, ?_⟩, ?_, ?_⟩, ?_, ?_⟩ <;> simp [same]

theorem corrected_slicesOnly (k : Core) (source inst : Nat) (e : ErrRec) (s : Nat) : SlicesOnly s k (corrected k source inst e) := by
  simp only [corrected]
  split
  · exact (SlicesOnly.of_suppressed _).trans (errRecord_slicesOnly ..)
  · have drawn : SlicesOnly s k (drawBool k).2 := (RowsOnly.of_fresh _).slicesOnly
    split
    · exact (drawn.trans (.of_suppressed _)).trans (errRecord_slicesOnly ..)
    · exact drawn.trans (.of_suppressed _)

theorem ceLimit_slicesOnly (k : Core) (s sl : Nat) : SlicesOnly s k (ceLimit k s sl) := by
  simp only [ceLimit]
  split
  · exact retireSlice_slicesOnly k s sl
  · exact .refl

/-- No line changes, and the slice of the line counts one more. -/
theorem correctedLine_counts (k : Core) (s a : Nat) :
    LinesKept s k (correctedLine k s a) ∧ (stk (correctedLine k s a) s).ce = mmod 0 (stk k s).ce (sliceOf k a) (· + 1) := by
  have noted : SlicesOnly s k (stackCorrected k s) := (bump_slicesOnly k _ 1 s).trans (corrected_slicesOnly ..)
  have counted (t : Core) : Serves s t (modStk t s fun q => { q with ce := mmod 0 q.ce (sliceOf k a) (· + 1) }) :=
    .modStk rfl rfl rfl fun _ => ⟨rfl, rfl⟩
  have limited (t : Core) := ceLimit_slicesOnly t s (sliceOf k a)
  refine ⟨(noted.toLinesKept.trans ⟨counted _, rfl, rfl⟩).trans (limited _).toLinesKept, (limited _).ce.trans ?_⟩
  rw [stk_modStk_same, noted.ce]

/-! ## Poisoned lines (R374, R376, R503) -/

theorem startRecovery_frame (k : Core) (h : Nat) (ls : List Nat) :
    (startRecovery k h ls).stks = k.stks ∧ (startRecovery k h ls).dram = k.dram ∧ (startRecovery k h ls).glb = k.glb ∧
    (startRecovery k h ls).regs = k.regs ∧ (startRecovery k h ls).maint = k.maint ∧ (startRecovery k h ls).err = k.err := by
  have reads (o : Obj) (l : List Nat) (k : Core) :=
    foldl_fixes (g := fun t => (t.stks, t.dram, t.glb, t.regs, t.maint, t.err))
      (f := fun k l => hostRead k { obj := some h, addr := o.haddr + 64 * l, len := min 64 (o.stored - 64 * l), line := l })
      (fun k x => by simp) l k
  simp only [Prod.mk.injEq] at reads
  unfold startRecovery
  split
  · simp
  · dsimp only
    split
    · simp [reads]
    · simp

theorem damagedLine_serves (k : Core) (h l s : Nat) :
    Serves s k (damagedLine k h l) ∧ (damagedLine k h l).stks = k.stks ∧ (damagedLine k h l).dram = k.dram := by
  simp only [damagedLine]
  split
  · obtain ⟨stks, dram, glb, regs, maint, err⟩ := startRecovery_frame k h [l]
    have same := stk_of_stks stks
    exact ⟨⟨glb, regs, fun m _ => same m, by rw [same], by rw [same], by rw [same], fun _ => by simp [same],
      .of_slots (by rw [maint]), by rw [err]⟩, stks, dram⟩
  · exact ⟨.refl, by simp⟩

/-- A tenant line is poisoned whole: its address is latched and an error recorded, and no byte changes. -/
structure Poisons (s a : Nat) (k t : Core) : Prop extends Serves s k t where
  dram : t.dram = k.dram.setBads true (objSpaceAddr k s a / 64 * 8) 8
  errAddr : (stk t s).errAddr = a / 64 * 64 + 2 ^ 36
  recorded : k.err.serial < t.err.serial

theorem Poisons.trans_slicesOnly {s a : Nat} {k t u : Core} (h : Poisons s a k t) (g : SlicesOnly s t u) : Poisons s a k u :=
  ⟨h.toServes.trans g.toServes, g.dram.trans h.dram, g.errAddr.trans h.errAddr, h.recorded.trans_le g.serial⟩

theorem Poisons.after {s a : Nat} {k t u : Core} (g : Poisons s a t u) (h : SlicesOnly s k t) : Poisons s a k u :=
  ⟨h.toServes.trans g.toServes, by rw [g.dram, h.dram, objSpaceAddr_of_regs h.regs], g.errAddr, h.serial.trans_lt g.recorded⟩

theorem Poisons.damagedLine {s a : Nat} {k t : Core} (before : Poisons s a k t) (h l : Nat) : Poisons s a k (damagedLine t h l) := by
  obtain ⟨works, stks, dram⟩ := damagedLine_serves t h l s
  exact ⟨before.toServes.trans works, dram.trans before.dram, by rw [stk_of_stks stks]; exact before.errAddr,
    before.recorded.trans_le works.serial⟩

theorem uncorrectableLine_poisons {k : Core} {s a : Nat} (tenant : systemLine k a = false) : Poisons s a k (uncorrectableLine k s a) := by
  simp only [uncorrectableLine, tenant, Bool.false_eq_true, if_false]
  generalize hk1 : modStk (bump k (oMem s + 0x108) 1) s
    (fun q => { q with errAddr := a / 64 * 64 + b2n false * 2 ^ 35 + 2 ^ 36 }) = k1
  have latched : Serves s k k1 ∧ k1.dram = k.dram ∧ (stk k1 s).errAddr = a / 64 * 64 + 2 ^ 36 := by
    have marked : Serves s (bump k (oMem s + 0x108) 1) k1 := hk1 ▸ .modStk rfl rfl rfl fun _ => ⟨rfl, rfl⟩
    have dram : k1.dram = (bump k (oMem s + 0x108) 1).dram := by rw [← hk1]; rfl
    exact ⟨(bump_slicesOnly k _ 1 s).toServes.trans marked, by simpa using dram, by simp [← hk1, b2n]⟩
  obtain ⟨serves, dram, errAddr⟩ := latched
  generalize hk2 : ({ k1 with dram := k1.dram.setBads true (objSpaceAddr k s a / 64 * 8) 8 } : Core) = k2
  have poisoned : Serves s k1 k2 := by
    rw [← hk2]
    exact ⟨rfl, rfl, fun _ _ => rfl, rfl, rfl, rfl, fun _ => ⟨rfl, rfl⟩, .of_slots rfl, le_rfl⟩
  have recorded (e : ErrRec) : Poisons s a k (errRecord k2 e) := by
    have noted := errRecord_slicesOnly k2 e s
    refine ⟨(serves.trans poisoned).trans noted.toServes, noted.dram.trans (by rw [← hk2, ← dram]),
      noted.errAddr.trans (by rw [← errAddr, ← hk2]; rfl), ?_⟩
    rw [errRecord_serial]
    exact Nat.lt_succ_of_le (serves.trans poisoned).serial
  have retired (t : Core) (h : Poisons s a k t) :
      Poisons s a k (if inSpare k s a then modStk t s (fun q => { q with noSpare := true }) else retireSlice t s (sliceOf k a)) := by
    split
    · exact h.trans_slicesOnly (noSpare_slicesOnly t s)
    · exact h.trans_slicesOnly (retireSlice_slicesOnly t s _)
  refine retired _ ?_
  split
  · exact (recorded _).damagedLine _ _
  · exact recorded _

/-! ## A memory whose line was poisoned -/

theorem byte_setBads (d : Byte) (m : Mem) (p : Bool) (w n a : Nat) : (m.setBads p w n).byte d a = m.byte d a := by
  induction n generalizing m w with
  | zero => rfl
  | succ n ih => rw [Mem.setBads, ih]; rfl

theorem mem_setBads_bad {m : Mem} {w n x : Nat} : x ∈ (m.setBads true w n).bad ↔ x ∈ m.bad ∨ (w ≤ x ∧ x < w + n) := by
  induction n generalizing m w with
  | zero => simp [Mem.setBads]
  | succ n ih =>
    rw [Mem.setBads, ih]
    simp only [Mem.setBad, if_true, mem_sput]
    constructor
    · rintro ((rfl | h) | h)
      · right; omega
      · exact .inl h
      · right; omega
    · rintro (h | h)
      · exact .inl (.inr h)
      · by_cases x = w
        · exact .inl (.inl ‹_›)
        · right; omega

theorem lineBad_iff {m : Mem} {l : Nat} : m.lineBad l = true ↔ ∃ w ∈ m.bad, 8 * l ≤ w ∧ w < 8 * l + 8 := by
  simp [Mem.lineBad]

theorem lineBad_setBads_same (m : Mem) (l : Nat) : (m.setBads true (l * 8) 8).lineBad l = true :=
  lineBad_iff.mpr ⟨8 * l, mem_setBads_bad.mpr (.inr (by omega)), by omega⟩

theorem lineBad_setBads_ne (m : Mem) {l n : Nat} (h : n ≠ l) : (m.setBads true (l * 8) 8).lineBad n = m.lineBad n := by
  rw [Bool.eq_iff_iff, lineBad_iff, lineBad_iff]
  refine exists_congr fun w => and_congr_left fun hw => ?_
  rw [mem_setBads_bad]
  exact ⟨fun h => h.resolve_right (by omega), .inl⟩

/-! ## Decoding (R503) -/

theorem decodeLine_clean (k : Core) (s a : Nat) : decodeLine k s a 0 = k := rfl

theorem decodeLine_corrects {n : Nat} (k : Core) (s a : Nat) (h : n = 1 ∨ n = 2) : decodeLine k s a n = correctedLine k s a := by
  rcases h with rfl | rfl <;> rfl

theorem decodeLine_detects (k : Core) (s a : Nat) : decodeLine k s a 3 = uncorrectableLine k s a := rfl

theorem decodeLine_linesKept {n : Nat} (k : Core) (s a : Nat) (h : n ≤ 2) : LinesKept s k (decodeLine k s a n) := by
  rcases Nat.eq_zero_or_pos n with rfl | pos
  · exact .refl
  · rw [decodeLine_corrects k s a (by omega)]
    exact (correctedLine_counts k s a).1

end Sys2Proof.Proofs.LineErrors
end

section
/-! PROOFS. A fail-stop (R511) leaves every stack as it stands but for PX_LAST, which a block that fails its check may load (R352). -/

namespace Sys2Proof.Proofs.HaltedStacks
open Sys2Proof.Machine Sys2Proof.Laws Sys2Proof.Proofs.Reads Sys2Proof.Proofs.StackReads

/-- Every stack keeps all but PX_LAST. -/
def OnlyPxLast (k t : Core) : Prop := ∀ s, ∃ v, stk t s = { stk k s with pxLast := v }

section Relation
variable {k t u : Core}

theorem OnlyPxLast.of_stks (e : t.stks = k.stks) : OnlyPxLast k t := fun s => ⟨(stk k s).pxLast, stk_of_stks e s⟩

theorem OnlyPxLast.trans (h : OnlyPxLast k t) (g : OnlyPxLast t u) : OnlyPxLast k u := fun s => by
  obtain ⟨_, eh⟩ := h s
  obtain ⟨v, eg⟩ := g s
  exact ⟨v, by rw [eg, eh]⟩

theorem OnlyPxLast.frozen (h : OnlyPxLast k t) (s : Nat) : (stk t s).frozen = (stk k s).frozen := by
  obtain ⟨_, e⟩ := h s
  rw [e]

theorem OnlyPxLast.input (h : OnlyPxLast k t) (s : Nat) : (stk t s).input = (stk k s).input := by
  obtain ⟨_, e⟩ := h s
  rw [e]

theorem OnlyPxLast.foldl {α : Type} {f : Core → α → Core} (hf : ∀ k x, OnlyPxLast k (f k x)) (l : List α) (k : Core) :
    OnlyPxLast k (l.foldl f k) :=
  List.foldlRecOn (motive := OnlyPxLast k) l f (.of_stks rfl) fun t h x _ => h.trans (hf t x)

end Relation

/-! ## Space and promotion (R323 to R330) -/

@[simp] theorem beginFetch_stks (k : Core) (h a : Nat) : (beginFetch k h a).stks = k.stks := by
  simp only [beginFetch]
  split <;> simp

@[simp] theorem evictUntil_stks (k : Core) (d n : Nat) (limit skip : Option Nat) (fuel : Nat) :
    (evictUntil k d n limit skip fuel).stks = k.stks := by
  induction fuel generalizing k with
  | zero => simp [evictUntil]
  | succ fuel ih => unfold evictUntil; split <;> [skip; split] <;> simp [ih]

@[simp] theorem takeSpace_stks (k : Core) (h : Nat) (skip : Option Nat) : (takeSpace k h skip).stks = k.stks := by
  simp only [takeSpace]
  split <;> simp

@[simp] theorem takeOrDrop_stks (k : Core) (h : Nat) (limit skip : Option Nat) : (takeOrDrop k h limit skip).stks = k.stks := by
  simp only [takeOrDrop]
  split <;> [skip; split] <;> simp

@[simp] theorem retryWants_stks (k : Core) : (retryWants k).stks = k.stks := by
  refine foldl_fixes (g := Core.stks) (fun k h => ?_) _ k
  dsimp only
  split <;> [skip; split] <;> simp

/-! ## Abandonment of a step (R133, R268, R350, R352) -/

theorem loadPxLast_onlyPxLast (k : Core) (px v : Nat) : OnlyPxLast k (loadPxLast k px v) := by
  simp only [loadPxLast]
  split
  · intro s
    by_cases same : s = (px - 0x80000) / 0x10000
    · subst same; exact ⟨v, stk_modStk_same k _ _⟩
    · exact ⟨_, stk_modStk_ne k _ same⟩
  · exact .of_stks rfl

theorem reportBlock_onlyPxLast (k : Core) (px h n check : Nat) : OnlyPxLast k (reportBlock k px h n check) := by
  simp only [reportBlock]
  split
  · exact .of_stks rfl
  · have loaded := loadPxLast_onlyPxLast (bump k (px + 0x10) 1) px (h + check * 2 ^ 24 + n * 2 ^ 32)
    exact ((OnlyPxLast.of_stks (by simp)).trans loaded).trans (.of_stks (by simp))

theorem checkOrphans_onlyPxLast (k : Core) (h : Nat) : OnlyPxLast k (checkOrphans k h) := by
  simp only [checkOrphans]
  split
  · exact .of_stks rfl
  · refine OnlyPxLast.foldl (fun k n => ?_) _ k
    split
    · exact .of_stks rfl
    · split
      · exact .of_stks rfl
      · exact reportBlock_onlyPxLast k _ h n _

theorem abandonReads_onlyPxLast (k : Core) (ts : List Nat) : OnlyPxLast k (abandonReads k ts) :=
  (OnlyPxLast.of_stks rfl).trans (OnlyPxLast.foldl checkOrphans_onlyPxLast _ _)

@[simp] theorem chargeEnergy_stks (k : Core) (u : UStep) (e : Nat) : (chargeEnergy k u e).stks = k.stks := by
  simp only [chargeEnergy]
  split
  · rfl
  · refine foldl_fixes (g := Core.stks) (fun k p => ?_) _ k
    split <;> simp

@[simp] theorem returnPages_stks (k : Core) (d n : Nat) : (returnPages k d n).stks = k.stks := by
  refine foldl_fixes (g := Core.stks) (fun k p => ?_) _ k
  dsimp only
  split <;> simp

@[simp] theorem halveHot_stks (k : Core) (d n : Nat) : (halveHot k d n).stks = k.stks := by
  unfold halveHot
  split <;> simp

theorem abandonStep_onlyPxLast (k : Core) (d : Nat) : OnlyPxLast k (abandonStep k d) := by
  have stopped (ts : List Nat) (k : Core) : (ts.foldl (fun k t => modTile k t Tile.stopped) k).stks = k.stks :=
    foldl_fixes (g := Core.stks) (fun k t => by simp) ts k
  have unpinned (l : List Nat) (k : Core) : (l.foldl dropPin k).stks = k.stks :=
    foldl_fixes (g := Core.stks) (fun k h => by simp [dropPin]) l k
  unfold abandonStep
  split
  · exact .of_stks rfl
  · have abandoned := abandonReads_onlyPxLast
      { (domTiles k d).foldl (fun k t => modTile k t Tile.stopped) k with incs := k.incs.filter (fun x => domOfTile k x.tile != d) }
      (domTiles k d)
    exact ((OnlyPxLast.of_stks (by simp [stopped])).trans abandoned).trans (.of_stks (by simp [drawNat, unpinned]))

/-! ## What a fail-stop reports (R430, R431, R543) -/

theorem endPort_stks (k : Core) (n : Nat) : (endPort k n).stks = k.stks := by
  have recorded (l : List Ctl) (k : Core) :=
    foldl_fixes (g := Core.stks) (f := fun k i => record k n i rWrongState DevState.halted.code []) (fun k i => by simp) l k
  simp only [endPort]
  split <;> simp [recorded]

@[simp] theorem endAll_stks (k : Core) : (endAll k).stks = k.stks := foldl_fixes (g := Core.stks) endPort_stks _ k

@[simp] theorem ownDown_stks (k : Core) (reason : Nat) : (ownDown k reason).stks = k.stks :=
  foldl_fixes (g := Core.stks) (fun k p => by simp [sendOn]) _ k

theorem entriesOf_stks {α : Type} (f : Core → Bool → α → List Byte) (l : List α) (k : Core) : (entriesOf f l k).2.2.stks = k.stks := by
  have draw (k : Core) : (unreadable k).2.stks = k.stks := by
    unfold unreadable; split <;> simp [drawBool]
  unfold entriesOf
  exact List.foldlRecOn l _ (motive := fun (r : List Byte × Bool × Core) => r.2.2.stks = k.stks) rfl
    fun r hr x _ => (draw r.2.2).trans hr

@[simp] theorem noteWrite_stks (k : Core) (h line n : Nat) : (noteWrite k h line n).stks = k.stks := by
  unfold noteWrite
  split <;> simp

@[simp] theorem failureRecord_stks (k : Core) (reason : Nat) : (failureRecord k reason).stks = k.stks := by
  simp only [failureRecord]
  split
  · rfl
  · split <;> simp [entriesOf_stks]

theorem failStop_onlyPxLast (k : Core) (reason source inst arg : Nat) : OnlyPxLast k (failStop k reason source inst arg) := by
  have abandoned : OnlyPxLast k (abandonAll k) := OnlyPxLast.foldl abandonStep_onlyPxLast _ k
  simp only [failStop]
  split
  · exact .of_stks rfl
  · split
    · split <;> exact .of_stks (by simp)
    · split <;> exact abandoned.trans (.of_stks (by simp))

end Sys2Proof.Proofs.HaltedStacks
end

section
/-! PROOFS. A DCLK of a pseudo-channel (R356, R365 to R368, R372): what a stack with nothing waiting does with no request and with one. -/

namespace Sys2Proof.Proofs.StackRequests
open Sys2Proof.Machine Sys2Proof.Laws Sys2Proof.Proofs.StackReads Sys2Proof.Proofs.StackReach Sys2Proof.Proofs.LineErrors

/-! ## Slots and the input (R356) -/

/-- Stack s with the requests l in its slots. -/
def holding (k : Core) (s : Nat) (l : List DramReq) : Core := modStk k s fun q => { q with slots := l }

section Slots
variable {k : Core} {s : Nat}

@[simp] theorem stk_holding (l : List DramReq) : stk (holding k s l) s = { stk k s with slots := l } := stk_modStk_same ..

@[simp] theorem placeOf_holding (l : List DramReq) (a : Nat) : placeOf (holding k s l) s a = placeOf k s a :=
  placeOf_congr (k := k) (t := holding k s l) rfl (by simp) (by simp) (by simp) a

theorem fillSlots_of_no_input (h : (stk k s).input = []) : fillSlots k s = k := by simp [fillSlots, fillFrom, h]

theorem takeRequests_none (slots : (stk k s).slots = []) (input : (stk k s).input = []) (d : Nat) : takeRequests k s d [] = k := by
  simp [takeRequests, slots, input]

/-- A request that comes alone takes a slot at once. -/
theorem takeRequests_one (slots : (stk k s).slots = []) (input : (stk k s).input = []) (d : Nat) (r : DramReq) :
    takeRequests k s d [r] = holding k s [r] := by
  simp only [takeRequests, fillSlots, stk_modStk_same, slots, input]
  simp only [List.isEmpty_nil, List.isEmpty_cons, Bool.and_false, Bool.false_eq_true, if_false, List.map_nil, List.nil_append,
    fillFrom, List.countP_nil, Nat.zero_lt_succ, if_true, List.length_nil, List.length_singleton, Nat.zero_ne_one, modStk_modStk]
  exact modStk_congr (by simp only [← input])

theorem countWaits_of_none_trains (input : (stk k s).input = [])
    (idle : ∀ r ∈ (stk k s).slots, (stk k s).training.contains ((placeOf k s (reqAddr r)).pc / 2) = false) (d : Nat) :
    countWaits k s d = k := by
  have none : ¬ (stk k s).slots.any (fun r => (stk k s).training.contains ((placeOf k s (reqAddr r)).pc / 2)) = true := by
    rw [List.any_eq_true]
    rintro ⟨r, hr, trains⟩
    rw [idle r hr] at trains
    exact Bool.false_ne_true trains
  simp only [countWaits, input]
  exact if_neg none

theorem countWaits_of_one_trains {r : DramReq} (input : (stk k s).input = []) (slots : (stk k s).slots = [r])
    (trains : (stk k s).training.contains ((placeOf k s (reqAddr r)).pc / 2) = true) (d : Nat) :
    countWaits k s d = bump k (oMem s + 0x120) d := by
  simp only [countWaits, input, slots, List.any_cons, trains, Bool.true_or, if_true]

end Slots

/-! ## Nothing but a refresh is due (R367) -/

theorem dramRequest_refreshes {k : Core} {s c : Nat} (held : stackHeld k false s = false) (slots : (stk k s).slots = [])
    (input : (stk k s).input = []) (training : (stk k s).training.contains (c / 2) = false) (burst : ((stk k s).pc c).burst = false)
    (owed : 0 < ((stk k s).pc c).owed) (few : ((stk k s).pc c).owed ≤ min 8 (rfld k (oRefPostpone s) 3 0)) (y : DramCycle) :
    dramRequest k s [] c y = refresh k s c := by
  have waits : countWaits k s y.dclks = k := countWaits_of_none_trains input (by simp [slots]) _
  have command : pcCommand k s c y = refresh k s c := by
    simp only [pcCommand, burst, Bool.false_eq_true, if_false, not_lt.mpr few]
    exact if_pos ⟨owed, by simp [slotsOf, slots]⟩
  have after : (stk (refresh k s c) s).input = [] := (stk_modStk_same ..).symm ▸ input
  simp only [dramRequest, takeRequests_none slots input, waits, training, held, command, Bool.or_self, Bool.false_eq_true, if_false]
  exact fillSlots_of_no_input after

theorem refresh_of_no_burst {k : Core} {s c : Nat} (burst : ((stk k s).pc c).burst = false) :
    refresh k s c = modStk k s fun q => { q with pcs := mput q.pcs c { q.pc c with owed := (q.pc c).owed - 1 } } := by
  have still (p : Pc) (h : p.burst = false) :
      { p with owed := p.owed - 1, burst := p.burst && decide (1 < p.owed) } = { p with owed := p.owed - 1 } := by simp [h]
  exact modStk_congr (congrArg (fun p => { stk k s with pcs := mput (stk k s).pcs c p }) (still _ burst))

/-! ## A request that stands alone -/

/-- The stack serves and holds nothing; of pseudo-channel c no refresh is owed, and the request's bank is not busy. -/
structure Alone (k : Core) (s c : Nat) (r : DramReq) (busy : List Nat) : Prop where
  held : stackHeld k false s = false
  slots : (stk k s).slots = []
  input : (stk k s).input = []
  training : (stk k s).training.contains (c / 2) = false
  frozen : (stk k s).frozen = false
  burst : ((stk k s).pc c).burst = false
  owed : ((stk k s).pc c).owed = 0
  nbr : ((stk k s).pc c).nbr = []
  place : (placeOf k s (reqAddr r)).pc = c
  bank : (placeOf k s (reqAddr r)).bankNo ∉ busy

theorem pcCommand_of_startable {k : Core} {s c : Nat} {r : DramReq} {y : DramCycle} (frozen : (stk k s).frozen = false)
    (burst : ((stk k s).pc c).burst = false) (owed : ((stk k s).pc c).owed = 0) (nbr : ((stk k s).pc c).nbr = [])
    (starts : startable k s c y.busy = [r]) :
    pcCommand k s c y = serve (modStk k s fun q => { q with slots := q.slots.erase r }) s c r y.err := by
  simp [pcCommand, burst, owed, nbr, frozen, starts, chosen]

section Alone
variable {k : Core} {s c : Nat} {r : DramReq} {y : DramCycle} (h : Alone k s c r y.busy)
include h

theorem Alone.command : pcCommand (holding k s [r]) s c y = serve (holding k s []) s c r y.err := by
  have waiting : slotsOf (holding k s [r]) s c = [r] := by simp [slotsOf, h.place]
  have starts : startable (holding k s [r]) s c y.busy = [r] := by simp [startable, waiting, firstOfFrame, h.bank]
  have emptied : modStk (holding k s [r]) s (fun q => { q with slots := q.slots.erase r }) = holding k s [] := by simp [holding]
  have channel : (stk (holding k s [r]) s).pc c = (stk k s).pc c := by rw [stk_holding]; rfl
  rw [pcCommand_of_startable (by simpa using h.frozen) (channel ▸ h.burst) (channel ▸ h.owed) (channel ▸ h.nbr) starts, emptied]

/-- It takes a slot, and is served in the same cycle. -/
theorem Alone.served (after : (stk (serve (holding k s []) s c r y.err) s).input = []) :
    dramRequest k s [r] c y = serve (holding k s []) s c r y.err := by
  have training : (stk (holding k s [r]) s).training.contains (c / 2) = false := by rw [stk_holding]; exact h.training
  have waits (d : Nat) : countWaits (holding k s [r]) s d = holding k s [r] := by
    refine countWaits_of_none_trains (by simpa using h.input) (fun x hx => ?_) d
    obtain rfl : x = r := by simpa using hx
    rw [placeOf_holding, h.place]
    exact training
  have held : stackHeld (holding k s [r]) false s = false := h.held
  simp only [dramRequest, takeRequests_one h.slots h.input, waits, training, held, h.command, Bool.or_self, Bool.false_eq_true, if_false]
  exact fillSlots_of_no_input after

end Alone

/-- A request for a channel that trains waits in its slot, and the wait counts (R372). -/
theorem dramRequest_waits {k : Core} {s c : Nat} {r : DramReq} (slots : (stk k s).slots = []) (input : (stk k s).input = [])
    (training : (stk k s).training.contains (c / 2) = true) (place : (placeOf k s (reqAddr r)).pc = c) (y : DramCycle) :
    dramRequest k s [r] c y = bump (holding k s [r]) (oMem s + 0x120) y.dclks := by
  have trains : (stk (holding k s [r]) s).training.contains (c / 2) = true := by rw [stk_holding]; exact training
  have waits : countWaits (holding k s [r]) s y.dclks = bump (holding k s [r]) (oMem s + 0x120) y.dclks :=
    countWaits_of_one_trains (r := r) (by simpa using input) (by simp) (by rw [placeOf_holding, place]; exact trains) _
  have counted : stk (bump (holding k s [r]) (oMem s + 0x120) y.dclks) s = stk (holding k s [r]) s := stk_of_stks (by simp) s
  simp only [dramRequest, takeRequests_one slots input, waits, counted, trains, Bool.true_or, if_true]

/-! ## Serving a request (R359, R368, R378) -/

section Serve
variable {k : Core} {s c : Nat} {r : DramReq} {e : ReadErrors}

/-- The stack once a request's rows are open and what it reads is decoded. -/
def decoded (k : Core) (s : Nat) (r : DramReq) (e : ReadErrors) : Core :=
  let k1 := openFrame k s (placeOf k s (reqAddr r))
  if r.write then (if r.both then k1 else decodeLine k1 s (otherLine (reqAddr r)) e.bits) else decodeLine k1 s (reqAddr r) e.bits

theorem serve_inside (inside : 64 * r.line < 14436 * 2 ^ 21) (clean : e.parity = false) :
    serve k s c r e = handOver (decoded k s r e) s c r (placeOf k s (reqAddr r)) := by
  have below : ¬ 14436 ≤ unitIx (reqAddr r) := not_le.mpr (unitIx_lt inside)
  simp only [serve, below, if_false, parityRetry, clean, Bool.false_eq_true]
  rfl

theorem decoded_of_reads (h : r.write = false ∨ r.both = false) :
    decoded k s r e = decodeLine (openFrame k s (placeOf k s (reqAddr r))) s (readAddr r) e.bits := by
  cases write : r.write with
  | false => simp [decoded, write, readAddr, reqAddr]
  | true =>
    have one : r.both = false := h.resolve_left (by simp [write])
    simp [decoded, write, one, otherLine_reqAddr write]

/-- With no bit in error, and for a write of both lines, nothing is left to decode. -/
theorem decoded_of_clean (h : e.bits = 0 ∨ (r.write = true ∧ r.both = true)) :
    decoded k s r e = openFrame k s (placeOf k s (reqAddr r)) := by
  rcases h with h | ⟨write, both⟩
  · simp [decoded, h, decodeLine_clean]
  · simp [decoded, write, both]

/-- A request beyond the stack reads poisoned data or is discarded, and BADADDR is set (R368). -/
theorem serve_beyond (lo : 14436 * 2 ^ 21 ≤ 64 * r.line) (hi : 64 * r.line < 2 ^ 35) :
    ∃ x v fresh, serve k s c r e = modStk { k with fresh := fresh } s (fun q =>
        { q with badAddr := true, pcs := mput q.pcs c { q.pc c with last := some x } }) ∧
      x.out = if r.write then [] else lineCode v true := by
  obtain ⟨fresh, drawn⟩ := dramLine_fresh k s (reqAddr r)
  have beyond : 14436 ≤ unitIx (reqAddr r) := le_unitIx lo hi
  let x : Access :=
    { req := r, sid := (placeOf k s (reqAddr r)).sid, bank := (placeOf k s (reqAddr r)).bank, rows := [], bursts := []
      out := if r.write then [] else lineCode (dramLine k s (reqAddr r)).1.1 true }
  refine ⟨x, (dramLine k s (reqAddr r)).1.1, fresh, ?_, rfl⟩
  have served : serve k s c r e =
      modPc (modStk (dramLine k s (reqAddr r)).2 s fun q => { q with badAddr := true }) s c fun p => { p with last := some x } := by
    simp only [serve, beyond, if_true]
    rfl
  rw [served, drawn, modPc, modStk_modStk]
  rfl

end Serve

end Sys2Proof.Proofs.StackRequests
end

section
/-! PROOFS. What a request that stands alone leaves, by the bits in error that its read meets (R357, R359, R368, R373, R378, R503). -/

namespace Sys2Proof.Proofs.StackAnswers
open Sys2Proof.Machine Sys2Proof.Laws Sys2Proof.Proofs.Reads Sys2Proof.Proofs.FailStop
open Sys2Proof.Proofs.StackReads Sys2Proof.Proofs.StackReach
open Sys2Proof.Proofs.LineErrors Sys2Proof.Proofs.HaltedStacks Sys2Proof.Proofs.StackRequests

/-- A system line in which three bits are in error halts the device and freezes its stack (R378). -/
theorem uncorrectableLine_halts {k : Core} {s a : Nat} (system : systemLine k a = true) (on : k.glb.st ≠ .off) :
    (uncorrectableLine k s a).glb.st = .halted ∧ (stk (uncorrectableLine k s a) s).frozen = true ∧
      (stk (uncorrectableLine k s a) s).input = (stk k s).input := by
  simp only [uncorrectableLine, system, if_true, modStk_modStk]
  generalize hf : modStk (bump k (oMem s + 0x108) 1) s
    (fun q => { q with errAddr := a / 64 * 64 + b2n true * 2 ^ 35 + 2 ^ 36, frozen := true }) = t
  have glb : t.glb = k.glb := by
    have : t.glb = (bump k (oMem s + 0x108) 1).glb := by rw [← hf]; rfl
    simpa using this
  have own : (stk t s).frozen = true ∧ (stk t s).input = (stk k s).input := by
    have counted : stk (bump k (oMem s + 0x108) 1) s = stk k s := stk_of_stks (by simp) s
    rw [← hf, stk_modStk_same, counted]
    exact ⟨rfl, rfl⟩
  have kept := failStop_onlyPxLast t rUncorrectable 2 s s
  exact ⟨failStop_halted _ _ _ _ (by rw [glb]; exact on), (kept.frozen s).trans own.1, (kept.input s).trans own.2⟩

/-- The stack with the rows open of a request that stands alone. -/
def opened (k : Core) (s : Nat) (r : DramReq) : Core := openFrame (holding k s []) s (placeOf (holding k s []) s (reqAddr r))

section Answers
variable {k : Core} {s c : Nat} {r : DramReq} {y : DramCycle} (h : Alone k s c r y.busy)
include h

theorem opened_rowsOnly : RowsOnly s k (opened k s r) := by
  have own : stk (holding k s []) s = stk k s := by rw [stk_holding, ← h.slots]
  have empty : RowsOnly s k (holding k s []) := ⟨⟨_, _, rfl⟩, fun _ hm => stk_modStk_ne k _ hm, ⟨_, own⟩⟩
  exact empty.trans (openFrame_rowsOnly ..)

section Inside
variable (inside : 64 * r.line < 14436 * 2 ^ 21) (sound : y.err.parity = false)
include inside sound

theorem answer {t : Core} (read : decoded (holding k s []) s r y.err = t) (input : (stk t s).input = (stk k s).input) :
    dramRequest k s [r] c y = handOver t s c r (placeOf (holding k s []) s (reqAddr r)) := by
  have served : serve (holding k s []) s c r y.err = handOver t s c r (placeOf (holding k s []) s (reqAddr r)) := by
    rw [serve_inside inside sound, read]
  have handed := (handOver_rowsOnly t s c r (placeOf (holding k s []) s (reqAddr r))).slicesOnly.input
  rw [h.served (by rw [served, handed, input]; exact h.input), served]

/-- With nothing to correct the line is handed over with its codewords, and nothing else changes. -/
theorem answer_clean (clean : y.err.bits = 0 ∨ (r.write = true ∧ r.both = true)) :
    RowsOnly s k (dramRequest k s [r] c y) ∧
      ∃ x, ((stk (dramRequest k s [r] c y) s).pc c).last = some x ∧ x.req = r ∧
        (r.write = false → systemLine k (64 * r.line) = false →
          x.out = lineCode (k.dram.line 0 (objSpaceAddr k s (64 * r.line) / 64)) (k.dram.lineBad (objSpaceAddr k s (64 * r.line) / 64))) := by
  have ready := opened_rowsOnly h
  have read : decoded (holding k s []) s r y.err = opened k s r := decoded_of_clean clean
  rw [answer h inside sound read ready.slicesOnly.input]
  have thawed := ready.slicesOnly.frozen.trans h.frozen
  refine ⟨ready.trans (handOver_rowsOnly ..), _, handOver_last c r _ thawed, rfl, fun read tenant => ?_⟩
  rw [transfer_out_of_tenant _ read (by rw [systemLine_of_regs ready.slicesOnly.regs]; exact tenant), ready.slicesOnly.dram,
    objSpaceAddr_of_regs ready.slicesOnly.regs]

variable (reads : r.write = false ∨ r.both = false)
include reads

/-- One or two bits in error are corrected, and the slice counts the line. -/
theorem answer_corrects (bits : y.err.bits = 1 ∨ y.err.bits = 2) :
    LinesKept s k (dramRequest k s [r] c y) ∧
      mget 0 (stk (dramRequest k s [r] c y) s).ce (sliceOf k (readAddr r)) = mget 0 (stk k s).ce (sliceOf k (readAddr r)) + 1 ∧
      ∀ d, d ≠ sliceOf k (readAddr r) → mget 0 (stk (dramRequest k s [r] c y) s).ce d = mget 0 (stk k s).ce d := by
  have ready := (opened_rowsOnly h).slicesOnly
  obtain ⟨kept, counted⟩ := correctedLine_counts (opened k s r) s (readAddr r)
  have read : decoded (holding k s []) s r y.err = correctedLine (opened k s r) s (readAddr r) := by
    rw [decoded_of_reads reads, decodeLine_corrects _ _ _ bits]; rfl
  have handed := (handOver_rowsOnly (correctedLine (opened k s r) s (readAddr r)) s c r (placeOf (holding k s []) s (reqAddr r))).slicesOnly
  rw [answer h inside sound read (kept.input.trans ready.input)]
  rw [handed.ce, counted, ready.ce, sliceOf_of_regs ready.regs]
  exact ⟨(ready.toLinesKept.trans kept).trans handed.toLinesKept, (mget_mmod ..).trans (if_pos rfl),
    fun d other => (mget_mmod ..).trans (if_neg other)⟩

/-- Three bits in error poison a tenant line. -/
theorem answer_poisons (bits : y.err.bits = 3) (tenant : systemLine k (readAddr r) = false) :
    Poisons s (readAddr r) k (dramRequest k s [r] c y) := by
  have ready := (opened_rowsOnly h).slicesOnly
  have poisoned := uncorrectableLine_poisons (s := s) ((systemLine_of_regs ready.regs _).trans tenant)
  have read : decoded (holding k s []) s r y.err = uncorrectableLine (opened k s r) s (readAddr r) := by
    rw [decoded_of_reads reads, bits, decodeLine_detects]; rfl
  rw [answer h inside sound read (poisoned.input.trans ready.input)]
  exact (poisoned.after ready).trans_slicesOnly (handOver_rowsOnly ..).slicesOnly

/-- Three bits in error in a system line halt the device. -/
theorem answer_halts (bits : y.err.bits = 3) (system : systemLine k (readAddr r) = true) (on : k.glb.st ≠ .off) :
    (dramRequest k s [r] c y).glb.st = .halted ∧ (stk (dramRequest k s [r] c y) s).frozen = true := by
  have ready := (opened_rowsOnly h).slicesOnly
  obtain ⟨halted, frozen, input⟩ := uncorrectableLine_halts (s := s) ((systemLine_of_regs ready.regs _).trans system)
    (by rw [ready.glb]; exact on)
  have read : decoded (holding k s []) s r y.err = uncorrectableLine (opened k s r) s (readAddr r) := by
    rw [decoded_of_reads reads, bits, decodeLine_detects]; rfl
  rw [answer h inside sound read (input.trans ready.input), handOver_of_frozen _ _ _ frozen]
  exact ⟨halted, frozen⟩

end Inside

/-- A request beyond the stack reads poisoned data or is discarded. -/
theorem answer_beyond (lo : 14436 * 2 ^ 21 ≤ 64 * r.line) (hi : 64 * r.line < 2 ^ 35) :
    (stk (dramRequest k s [r] c y) s).badAddr = true ∧ (dramRequest k s [r] c y).dram = k.dram ∧
      ∃ x v, ((stk (dramRequest k s [r] c y) s).pc c).last = some x ∧ x.out = if r.write then [] else lineCode v true := by
  obtain ⟨x, v, fresh, served, out⟩ := serve_beyond (k := holding k s []) (s := s) (c := c) (e := y.err) lo hi
  have own : stk (serve (holding k s []) s c r y.err) s =
      { stk (holding k s []) s with
        badAddr := true, pcs := mput (stk (holding k s []) s).pcs c { (stk (holding k s []) s).pc c with last := some x } } := by
    rw [served]
    exact stk_modStk_same ..
  rw [h.served (by rw [own]; simpa using h.input), own]
  exact ⟨rfl, by rw [served]; rfl, x, v, by simp [Stk.pc], out⟩

end Answers

end Sys2Proof.Proofs.StackAnswers
end

section
/-! PROOFS. Migration frame by frame (R375), and the DRAM scrub (R522). -/

namespace Sys2Proof.Proofs.StackFrames
open Sys2Proof.Machine Sys2Proof.Laws Sys2Proof.Proofs.StackReads Sys2Proof.Proofs.StackReach Sys2Proof.Proofs.LineErrors

/-! ## A frame of a migration -/

/-- The frame at a is read with the errors its lines meet, while its stack is not frozen. -/
def frameRead (k : Core) (s a : Nat) (errs : List Nat) : Core :=
  (errs.take 4).zipIdx.foldl (fun t e => if (stk t s).frozen then t else decodeLine t s (a + 64 * e.2) e.1) (openFrame k s (placeOf k s a))
/-- The frame at a is written to the spare. -/
def frameWritten (k : Core) (s a : Nat) : Core :=
  let k3 := modStk k s (fun q => { q with moved := q.moved + 1 })
  openFrame k3 s (placeOf k3 s a)

section Migration
variable {k : Core} {s f : Nat} {errs : List Nat}

theorem migrationFrame_next (migrating : (stk k s).migrating = some f) (left : (stk k s).moved < sliceFrames) (may : hwMay k 4 s = true)
    (frozen : (stk k s).frozen = false) {a : Nat} (next : a = frameAddr k (f % 32) (f / 32 * sliceFrames + (stk k s).moved))
    (read : (stk (frameRead k s a errs) s).frozen = false) :
    migrationFrame k s errs = frameWritten (frameRead k s a errs) s a := by
  have unfolded : migrationFrame k s errs =
      if (stk (frameRead k s a errs) s).frozen then frameRead k s a errs else frameWritten (frameRead k s a errs) s a := by
    subst next
    simp only [migrationFrame, migrating]
    exact if_pos ⟨left, may, frozen⟩
  rw [unfolded, read]
  rfl

theorem migrationFrame_past (migrating : (stk k s).migrating = some f) (done : sliceFrames ≤ (stk k s).moved) :
    migrationFrame k s errs = k := by
  simp only [migrationFrame, migrating]
  exact if_neg fun h => absurd h.1 (not_lt.mpr done)

theorem frameRead_linesKept (a : Nat) (h : ∀ x ∈ errs.take 4, x ≤ 2) : LinesKept s k (frameRead k s a errs) := by
  refine List.foldlRecOn (motive := LinesKept s k) _ _ (openFrame_rowsOnly ..).slicesOnly.toLinesKept fun t kept e he => ?_
  split
  · exact kept
  · exact kept.trans (decodeLine_linesKept t s _ (h e.1 (List.fst_mem_of_mem_zipIdx he)))

/-- The first line of the frame meets three bits in error. -/
theorem frameRead_poisons {a : Nat} (frozen : (stk k s).frozen = false) (tenant : systemLine k a = false) :
    Poisons s a k (frameRead k s a [3]) := by
  have ready := (openFrame_rowsOnly k s (placeOf k s a)).slicesOnly
  have read : frameRead k s a [3] = uncorrectableLine (openFrame k s (placeOf k s a)) s a := by
    simp [frameRead, ready.frozen, frozen, decodeLine_detects]
  rw [read]
  exact (uncorrectableLine_poisons ((systemLine_of_regs ready.regs a).trans tenant)).after ready

/-- The migration counts the frame, and no line changes. -/
theorem frameWritten_moves (k : Core) (s a : Nat) :
    (stk (frameWritten k s a) s).moved = (stk k s).moved + 1 ∧ (stk (frameWritten k s a) s).migrating = (stk k s).migrating ∧
      (∀ m, m ≠ s → stk (frameWritten k s a) m = stk k m) ∧ (frameWritten k s a).dram = k.dram ∧ (frameWritten k s a).objs = k.objs := by
  obtain ⟨core, others, ⟨pcs, own⟩⟩ :=
    openFrame_rowsOnly (modStk k s fun q => { q with moved := q.moved + 1 }) s (placeOf (modStk k s fun q => { q with moved := q.moved + 1 }) s a)
  obtain ⟨_, _, core⟩ := core
  refine ⟨?_, ?_, fun m hm => (others m hm).trans (stk_modStk_ne k _ hm), ?_, ?_⟩
  · rw [frameWritten, own, stk_modStk_same]
  · rw [frameWritten, own, stk_modStk_same]
  · rw [frameWritten, core]; rfl
  · rw [frameWritten, core]; rfl

end Migration

/-! ## The end of a migration -/

section Complete
variable {k : Core} {s f : Nat}

theorem migrationComplete_next (migrating : (stk k s).migrating = some f) (may : hwMay k 4 s = true) (all : (stk k s).moved = sliceFrames)
    {v : Nat} {r : List Nat} (waiting : (stk k s).waiting = v :: r) :
    migrationComplete k s = startMigration (modStk (hwEnd (modStk k s fun q => { q with migrating := none, moved := 0 }) 4 s) s
      fun q => { q with waiting := r }) s v := by
  simp [migrationComplete, migrating, may, all, waiting]

theorem nextTraining_idle (training : (stk k s).training = []) (wait : (stk k s).trainWait = []) : nextTraining k s = hwEnd k 5 s := by
  simp [nextTraining, training, wait]

theorem migrationComplete_last (migrating : (stk k s).migrating = some f) (may : hwMay k 4 s = true) (all : (stk k s).moved = sliceFrames)
    (waiting : (stk k s).waiting = []) (wait : (stk k s).trainWait = []) (training : (stk k s).training = []) :
    migrationComplete k s = hwEnd (hwEnd (modStk k s fun q => { q with migrating := none, moved := 0 }) 4 s) 5 s := by
  have next := nextTraining_idle (k := hwEnd (modStk k s fun q => { q with migrating := none, moved := 0 }) 4 s) (s := s)
    (by simpa using training) (by simpa using wait)
  simp [migrationComplete, migrating, may, all, waiting, next]

theorem migrationComplete_early (left : (stk k s).moved < sliceFrames) : migrationComplete k s = k := by
  have short : ((stk k s).moved == sliceFrames) = false := beq_false_of_ne (Nat.ne_of_lt left)
  simp [migrationComplete, short]

end Complete

/-! ## A frame of the scrub -/

/-- The scrub's activity after one more frame. -/
def scrubbedOnce (a : Act) (n : Nat) : Act :=
  { a with done := a.done + 1, good := a.good + b2n (decide (1 ≤ n ∧ n ≤ 2)), bad := a.bad + b2n (decide (3 ≤ n)) }

/-- The next frame of pseudo-channel c is marked as scrubbed and its activity, in slot m, counts it. -/
def frameMarked (k : Core) (s c m : Nat) (a : Act) (n : Nat) : Core :=
  modMaint (modStk (drawNat k).2 s fun q => { q with scrubbed := mput q.scrubbed c (mget 0 q.scrubbed c + 1) })
    fun x => { x with slots := mput x.slots m (scrubbedOnce a n) }

section Scrub
variable {k : Core} {s c m : Nat} {a : Act} {e : ReadErrors}

@[simp] theorem stk_frameMarked (n : Nat) :
    stk (frameMarked k s c m a n) s = { stk k s with scrubbed := mput (stk k s).scrubbed c (mget 0 (stk k s).scrubbed c + 1) } :=
  stk_modStk_same (drawNat k).2 s fun q => { q with scrubbed := mput q.scrubbed c (mget 0 q.scrubbed c + 1) }

theorem stk_frameMarked_ne (n : Nat) {j : Nat} (h : j ≠ s) : stk (frameMarked k s c m a n) j = stk k j :=
  stk_modStk_ne (drawNat k).2 (fun q => { q with scrubbed := mput q.scrubbed c (mget 0 q.scrubbed c + 1) }) h

/-- Where the pass does not end, the frame is opened and decoded at one of its lines. -/
theorem dramScrubFrame_next (act : slotOfAct k 2 s = some (m, a)) (slot : mget? k.maint.slots m = some a) (runs : a.st = 2)
    (frozen : (stk k s).frozen = false) (left : mget 0 (stk k s).scrubbed c + 1 < pcFrames) (channel : c < 32) (sound : e.parity = false)
    (few : e.bits ≤ 2) :
    ∃ p l, dramScrubFrame k s c e = decodeLine (openFrame (frameMarked k s c m a e.bits) s p) s l e.bits := by
  generalize hl : frameAddr k c (mget 0 (stk k s).scrubbed c) + 64 * ((drawNat k).1 % 4) = l
  have marked : modAct (modStk (drawNat k).2 s fun q => { q with scrubbed := mput q.scrubbed c (mget 0 (stk k s).scrubbed c + 1) }) m
      (fun a => scrubbedOnce a e.bits) = frameMarked k s c m a e.bits := by
    have kept : mget? (modStk (drawNat k).2 s fun q =>
        { q with scrubbed := mput q.scrubbed c (mget 0 (stk k s).scrubbed c + 1) }).maint.slots m = some a := slot
    simp only [modAct, kept]
    rfl
  generalize hp : placeOf (frameMarked k s c m a e.bits) s l = p
  generalize ht : decodeLine (openFrame (frameMarked k s c m a e.bits) s p) s l e.bits = t
  have served : Serves s (frameMarked k s c m a e.bits) t :=
    ht ▸ (openFrame_rowsOnly ..).slicesOnly.toServes.trans (decodeLine_linesKept _ s l few).toServes
  have unfinished : (upFrom 0 32).all (fun d => decide (pcFrames ≤ mget 0 (stk t s).scrubbed d)) = false := by
    refine List.all_eq_false.mpr ⟨c, mem_upFrom.mpr (by omega), ?_⟩
    rw [served.scrubbed, stk_frameMarked]
    simpa using left
  refine ⟨p, l, ?_⟩
  have going : ¬ (a.st ≠ 2 ∨ (stk k s).frozen = true ∨ pcFrames ≤ mget 0 (stk k s).scrubbed c) := by
    simp only [runs, frozen, ne_eq, not_true_eq_false, Bool.false_eq_true, false_or]
    omega
  have unfolded : dramScrubFrame k s c e =
      if (upFrom 0 32).all (fun d => decide (pcFrames ≤ mget 0 (stk t s).scrubbed d)) then
        passEnds (modStk t s fun q => { q with scrubbed := [] }) m a
      else t := by
    rw [← ht, ← hp, ← marked, ← hl]
    simp only [dramScrubFrame, act, if_neg going, parityRetry, sound, Bool.false_eq_true, if_false]
    rfl
  rw [unfolded, unfinished, ht]
  rfl

end Scrub

end Sys2Proof.Proofs.StackFrames
end

section
/-! PROOFS. Channels take their turn to train, by their interval or by the temperature (R372, R520). -/

namespace Sys2Proof.Proofs.Retraining
open Sys2Proof.Machine Sys2Proof.Laws Sys2Proof.Proofs.StackReads Sys2Proof.Proofs.StackReach

/-! ## Turns -/

/-- The channel trains or waits for its turn. -/
def turnTaken (k : Core) (s d : Nat) : Prop := d ∈ (stk k s).training ∨ d ∈ (stk k s).trainWait

/-- Only turns of stack s and activities changed, and no channel lost its turn. -/
structure TurnsOnly (s : Nat) (k t : Core) : Prop where
  core : ∃ stks maint, t = { k with stks := stks, maint := maint }
  others : ∀ m, m ≠ s → stk t m = stk k m
  own : ∃ training trainWait, stk t s = { stk k s with training := training, trainWait := trainWait }
  turns : ∀ d, turnTaken k s d → turnTaken t s d

section Turns
variable {k t u : Core} {s : Nat}

theorem TurnsOnly.refl : TurnsOnly s k k := ⟨⟨_, _, rfl⟩, fun _ _ => rfl, ⟨_, _, rfl⟩, fun _ h => h⟩

theorem TurnsOnly.trans (h : TurnsOnly s k t) (g : TurnsOnly s t u) : TurnsOnly s k u where
  core := by
    obtain ⟨_, _, rfl⟩ := h.core
    obtain ⟨_, _, rfl⟩ := g.core
    exact ⟨_, _, rfl⟩
  others m hm := (g.others m hm).trans (h.others m hm)
  own := by
    obtain ⟨_, _, eh⟩ := h.own
    obtain ⟨_, _, eg⟩ := g.own
    exact ⟨_, _, eg.trans (by rw [eh])⟩
  turns d hd := g.turns d (h.turns d hd)

theorem TurnsOnly.of_maint {m : Maint} (e : t = { k with maint := m }) : TurnsOnly s k t := by
  subst e
  exact ⟨⟨_, _, rfl⟩, fun _ _ => rfl, ⟨_, _, rfl⟩, fun _ h => h⟩

theorem TurnsOnly.modStk {f : Stk → Stk} {training trainWait : List Nat}
    (own : f (stk k s) = { stk k s with training := training, trainWait := trainWait })
    (turns : ∀ d, turnTaken k s d → d ∈ training ∨ d ∈ trainWait) : TurnsOnly s k (modStk k s f) := by
  have after : stk (Machine.modStk k s f) s = { stk k s with training := training, trainWait := trainWait } := (stk_modStk_same ..).trans own
  exact ⟨⟨_, _, rfl⟩, fun _ hm => stk_modStk_ne k _ hm, ⟨_, _, after⟩, fun d hd => by rw [turnTaken, after]; exact turns d hd⟩

theorem nextTraining_turnsOnly (k : Core) (s : Nat) : TurnsOnly s k (nextTraining k s) := by
  simp only [nextTraining]
  split
  · split
    · obtain ⟨_, e⟩ := hwEnd_maint k 5 s
      exact .of_maint e
    · exact .refl
  · next c r wait =>
    split
    · exact .refl
    · next idle =>
      obtain ⟨_, e⟩ := hwBegin_maint k 5 s
      have began : TurnsOnly s k (hwBegin k 5 s) := .of_maint e
      have same : stk (hwBegin k 5 s) s = stk k s := by rw [e]; rfl
      split
      · refine began.trans (.modStk rfl fun d hd => ?_)
        obtain ⟨none, -⟩ : (stk k s).training = [] ∧ (stk k s).migrating = none := by simpa using idle
        rw [turnTaken, same, none, wait] at hd
        simpa using hd
      · exact began

theorem retrain_turnsOnly (k : Core) (s c : Nat) : TurnsOnly s k (retrain k s c) := by
  simp only [retrain]
  split
  · exact .refl
  · exact TurnsOnly.trans (.modStk rfl fun d hd => hd.imp_right (List.mem_append_left _)) (nextTraining_turnsOnly ..)

theorem retrain_turnTaken (k : Core) (s c : Nat) : turnTaken (retrain k s c) s c := by
  simp only [retrain]
  split
  · next has => simpa [turnTaken] using has
  · refine (nextTraining_turnsOnly ..).turns c ?_
    rw [turnTaken, stk_modStk_same]
    exact .inr (List.mem_append_right _ List.mem_cons_self)

/-- Training waits for the channel that trains now. -/
theorem retrain_waits {c : Nat} (out : c ∉ (stk k s).training) (fresh : c ∉ (stk k s).trainWait) (busy : (stk k s).training ≠ []) :
    retrain k s c = modStk k s fun q => { q with trainWait := q.trainWait ++ [c] } := by
  have queued : nextTraining (modStk k s fun q => { q with trainWait := q.trainWait ++ [c] }) s =
      modStk k s fun q => { q with trainWait := q.trainWait ++ [c] } := by
    cases wait : (stk k s).trainWait <;> simp [nextTraining, wait, busy]
  simp [retrain, out, fresh, queued]

theorem hwBegin_of_no_slots (kind inst : Nat) (none : k.maint.slots = []) : hwBegin k kind inst = register k 16 kind inst 2 id := by
  simp [hwBegin, slotOfAct, freeSlotFrom, upFrom, mget?, conflicting, none]

/-- A hardware activity of a stack registers in an empty table, and runs. -/
theorem actRuns_register {kind inst : Nat} (none : k.maint.slots = []) (hk : kind < 256) (hi : inst < 256) :
    slotOfAct (register k 16 kind inst 2 id) kind inst =
      some (16, { id := actId kind inst (k.maint.count + 1), st := 2, order := k.maint.count + 1 }) := by
  have id_kind : actId kind inst (k.maint.count + 1) % 256 = kind := by simp only [actId]; omega
  have id_inst : actId kind inst (k.maint.count + 1) / 256 % 256 = inst := by simp only [actId]; omega
  simp [slotOfAct, register, modMaint, none, mput, Act.kind, Act.inst, id_kind, id_inst]

/-- With nothing that trains, migrates or is registered, the channel trains at once. -/
theorem retrain_starts {c : Nat} (hs : s < 256) (idle : (stk k s).training = []) (wait : (stk k s).trainWait = [])
    (still : (stk k s).migrating = none) (free : k.maint.slots = []) :
    (stk (retrain k s c) s).training = [c] ∧ (stk (retrain k s c) s).trainWait = [] ∧ actRuns (retrain k s c) 5 s = true := by
  generalize hq : modStk k s (fun q => { q with trainWait := q.trainWait ++ [c] }) = t
  have own : stk t s = { stk k s with trainWait := [c] } := by rw [← hq, stk_modStk_same, wait]; rfl
  have slots : t.maint.slots = [] := by rw [← hq]; exact free
  have slot := actRuns_register (k := t) (kind := 5) slots (by decide) hs
  have may : hwMay (register t 16 5 s 2 id) 5 s = true := by rw [hwMay, slot]; rfl
  have begun : retrain k s c = modStk (register t 16 5 s 2 id) s fun q => { q with training := [c], trainWait := [] } := by
    have next : nextTraining t s = modStk (register t 16 5 s 2 id) s fun q => { q with training := [c], trainWait := [] } := by
      simp [nextTraining, own, idle, still, hwBegin_of_no_slots 5 s slots, may]
    rw [← next, ← hq]
    simp [retrain, idle, wait]
  have runs : actRuns (register t 16 5 s 2 id) 5 s = true := by rw [actRuns, slot]; rfl
  rw [begun]
  exact ⟨by simp, by simp, runs⟩

/-- A channel is done, and no other waits. -/
theorem retrainDone_last {c : Nat} (training : (stk k s).training = [c]) (wait : (stk k s).trainWait = []) (t : Core)
    (ended : t = modStk k s fun q => { q with training := [], trainTemp := mput q.trainTemp c q.temp }) :
    retrainDone k s c true = hwEnd t 5 s ∧
    retrainDone k s c false = hwEnd
      (errRecord t { reason := rRetrainFailed, cls := 1, source := 2, inst := s, opOnly := true, arg := s + c * 256 }) 5 s := by
  have erased : modStk k s (fun q => { q with training := q.training.erase c, trainTemp := mput q.trainTemp c q.temp }) = t :=
    (modStk_congr (by simp [training])).trans ended.symm
  have own : (stk t s).training = [] ∧ (stk t s).trainWait = [] := by rw [ended, stk_modStk_same]; exact ⟨rfl, wait⟩
  have listed : (stk k s).training.contains c = true := by simp [training]
  constructor
  · simp only [retrainDone, listed, if_true, erased]
    exact StackFrames.nextTraining_idle own.1 own.2
  · simp only [retrainDone, listed, if_true, erased, Bool.false_eq_true, if_false]
    exact StackFrames.nextTraining_idle (by rw [stk_errRecord]; exact own.1) (by rw [stk_errRecord]; exact own.2)

end Turns

/-! ## Temperature (R372) -/

section Temperature
variable {k : Core} {s : Nat}

theorem takeTemp_trainTemp (k : Core) (s v : Nat) {d u : Nat} (h : mget? (stk k s).trainTemp d = some u) :
    mget? (stk (takeTemp k s v) s).trainTemp d = some u := by
  rw [takeTemp, stk_modStk_same]
  dsimp only
  generalize upFrom 0 16 = channels
  refine List.foldlRecOn (motive := fun m => mget? m d = some u) channels _ h fun m hm c _ => ?_
  split
  · exact hm
  · next none =>
    have other : d ≠ c := by rintro rfl; simp [none] at hm
    exact (mget?_mput_ne v m other).trans hm

theorem tempMoved_of_turnsOnly {t : Core} (h : TurnsOnly s k t) (d : Nat) : tempMoved t s d = tempMoved k s d := by
  obtain ⟨⟨_, _, core⟩, _, ⟨_, _, own⟩, _⟩ := h
  have regs : t.regs = k.regs := by rw [core]
  simp only [tempMoved, own, rfld_of_regs regs]

theorem trigger_turnsOnly (k : Core) (s d : Nat) : TurnsOnly s k (if tempMoved k s d then retrain k s d else k) := by
  split
  · exact retrain_turnsOnly ..
  · exact .refl

theorem triggers_turnsOnly (s : Nat) (l : List Nat) (k : Core) :
    TurnsOnly s k (l.foldl (fun k d => if tempMoved k s d then retrain k s d else k) k) :=
  List.foldlRecOn (motive := TurnsOnly s k) l _ .refl fun t h d _ => h.trans (trigger_turnsOnly t s d)

/-- A channel whose temperature has moved takes its turn, whatever channels come before and after it. -/
theorem tempTriggers_turnTaken {d : Nat} (hd : d < 16) (moved : tempMoved k s d = true) : turnTaken (tempTriggers k s) s d := by
  obtain ⟨before, after, split⟩ := List.append_of_mem (mem_upFrom.mpr ⟨Nat.zero_le d, by omega⟩ : d ∈ upFrom 0 16)
  have still := (tempMoved_of_turnsOnly (triggers_turnsOnly s before k) d).trans moved
  rw [tempTriggers, split, List.foldl_append, List.foldl_cons, if_pos still]
  exact (triggers_turnsOnly s after _).turns d (retrain_turnTaken ..)

theorem unlessHeld_of_no_handshake {f : Core → Core} (h : k.pst.handshake ≠ 1) : unlessHeld f k = f k := by
  have off : (k.pst.handshake == 1) = false := beq_false_of_ne h
  simp [unlessHeld, handshakeHolds, off]

/-- The reading is taken; beyond it only turns are. -/
theorem stackTempRow_turnsOnly (v : Nat) (calm : k.pst.handshake ≠ 1) : TurnsOnly s (takeTemp k s v) (stackTempRow k s v) := by
  simp only [stackTempRow, onlyIf, unlessHeld_of_no_handshake (k := takeTemp k s v) calm]
  split
  · exact triggers_turnsOnly ..
  · exact .refl

theorem stackTempRow_turnTaken {v d u : Nat} (calm : k.pst.handshake ≠ 1) (run : stacksRun k = true) (hd : d < 16)
    (last : mget? (stk k s).trainTemp d = some u) (set : rfld k (oRetrain s) 39 32 ≠ 0)
    (moved : u + rfld k (oRetrain s) 39 32 ≤ v ∨ v + rfld k (oRetrain s) 39 32 ≤ u) : turnTaken (stackTempRow k s v) s d := by
  have temp : (stk (takeTemp k s v) s).temp = v := by rw [takeTemp, stk_modStk_same]
  have delta : rfld (takeTemp k s v) (oRetrain s) 39 32 = rfld k (oRetrain s) 39 32 := rfld_of_regs rfl ..
  have triggers : tempMoved (takeTemp k s v) s d = true := by
    simp [tempMoved, takeTemp_trainTemp k s v last, temp, delta, set, moved]
  have row : stackTempRow k s v = tempTriggers (takeTemp k s v) s := by
    rw [stackTempRow, onlyIf, if_pos (show stacksRun (takeTemp k s v) = true from run), unlessHeld_of_no_handshake (k := takeTemp k s v) calm]
  rw [row]
  exact tempTriggers_turnTaken hd triggers

end Temperature

end Sys2Proof.Proofs.Retraining
end

section
/-! PROOFS. The Stack Controllers serve (R355 to R379, R503, R522): each row of the table is the operation of its chapter, and what that
operation leaves has been said above. -/

namespace Sys2Proof.Proofs.StackRows
open Sys2Proof.Machine Sys2Proof.Laws Sys2Proof.Proofs.Reads Sys2Proof.Proofs.StackReads Sys2Proof.Proofs.StackReach
open Sys2Proof.Proofs.LineErrors Sys2Proof.Proofs.StackRequests Sys2Proof.Proofs.StackAnswers Sys2Proof.Proofs.StackFrames
open Sys2Proof.Proofs.Retraining

/-! ## Rows that run -/

theorem onCore_onlyIf {s : State} {p : Core → Bool} (f : Core → Core) (h : p s.core = true) :
    onCore s (onlyIf p f) = .next (s.finish (f s.core)) := by simp [onCore, onlyIf, h]

theorem onCore_whenAlive {s : State} (f : Core → Core) (h : alive s.core = true) :
    onCore s (whenAlive f) = .next (s.finish (f s.core)) := by simp [onCore, whenAlive, h]

theorem onPlain_onlyIf {s : State} {p : Core → Bool} (f : Core → Core) (h : p s.core = true) :
    onPlain s (onlyIf p f) = .next { s with core := f s.core } := by simp [onPlain, onlyIf, h]

theorem exec_dramRequest {s : State} {st : BitVec 3} (h : stackServes false st.toNat s.core = true) (l : List DramReq) (pc : BitVec 5)
    (y : DramCycle) : exec (.dramRequest st l pc y) s = .next (s.finish (dramRequest s.core st.toNat l pc.toNat y)) :=
  onCore_onlyIf _ (Bool.and_eq_true_iff.mp h).1

theorem not_held_of_serves {k : Core} {n : Nat} (h : stackServes false n k = true) : stackHeld k false n = false := by
  simpa using (Bool.and_eq_true_iff.mp h).2

theorem not_off_of_serves {k : Core} {n : Nat} (h : stackServes false n k = true) : k.glb.st ≠ .off := by
  intro off
  have on := (Bool.and_eq_true_iff.mp h).1
  simp [memoryOn, alive, off] at on

theorem exec_retrainStart {s : State} {st : BitVec 3} {d : BitVec 4} (run : stacksRun s.core = true) (calm : s.core.pst.handshake ≠ 1)
    (due : rfld s.core (oRetrain st.toNat) 31 0 ≠ 0 ∨ tempMoved s.core st.toNat d.toNat = true) :
    exec (.retrainStart st d) s = .next (s.finish (retrain s.core st.toNat d.toNat)) := by
  have started : retrainRow s.core st.toNat d.toNat = retrain s.core st.toNat d.toNat := by
    rw [retrainRow, unlessHeld_of_no_handshake calm, retrainStart, if_pos due]
  rw [← started]
  exact onCore_onlyIf (fun k => retrainRow k st.toNat d.toNat) run

/-! ## The scrub's row -/

section Scrub
variable {k : Core} {n c m : Nat} {a : Act} {e : ReadErrors}

/-- What a frame of the scrub leaves that meets at most two bits in error, and what one that meets none leaves. -/
theorem dramScrubFrame_counts (act : slotOfAct k 2 n = some (m, a)) (slot : mget? k.maint.slots m = some a) (runs : a.st = 2)
    (frozen : (stk k n).frozen = false) (left : mget 0 (stk k n).scrubbed c + 1 < pcFrames) (channel : c < 32) (sound : e.parity = false)
    (few : e.bits ≤ 2) :
    ∃ b, (stk (dramScrubFrame k n c e) n).scrubbed = mput (stk k n).scrubbed c (mget 0 (stk k n).scrubbed c + 1) ∧
      (∀ j, j ≠ n → stk (dramScrubFrame k n c e) j = stk k j) ∧ (dramScrubFrame k n c e).dram = k.dram ∧
      mget? (dramScrubFrame k n c e).maint.slots m = some b ∧ b.done = a.done + 1 ∧ b.bad = a.bad ∧
      b.good = a.good + (if e.bits = 0 then 0 else 1) ∧
      (e.bits = 0 → dramScrubFrame k n c e = { k with
          stks := (dramScrubFrame k n c e).stks, maint := { k.maint with slots := mput k.maint.slots m b },
          fresh := (dramScrubFrame k n c e).fresh } ∧ b = { a with done := a.done + 1 }) := by
  obtain ⟨p, l, scrubs⟩ := dramScrubFrame_next act slot runs frozen left channel sound few
  have opened := openFrame_rowsOnly (frameMarked k n c m a e.bits) n p
  have served : LinesKept n (frameMarked k n c m a e.bits) (dramScrubFrame k n c e) :=
    scrubs ▸ opened.slicesOnly.toLinesKept.trans (decodeLine_linesKept _ n l few)
  have marked : mget? (frameMarked k n c m a e.bits).maint.slots m = some (scrubbedOnce a e.bits) := mget?_mput_same ..
  have scrubbed : (stk (dramScrubFrame k n c e) n).scrubbed = mput (stk k n).scrubbed c (mget 0 (stk k n).scrubbed c + 1) := by
    rw [served.scrubbed, stk_frameMarked]
  have others (j : Nat) (hj : j ≠ n) : stk (dramScrubFrame k n c e) j = stk k j :=
    (served.others j hj).trans (stk_frameMarked_ne _ hj)
  have bad : a.bad + b2n (decide (3 ≤ e.bits)) = a.bad := by simp [b2n, Nat.not_le.mpr (Nat.lt_succ_of_le few)]
  by_cases clean : e.bits = 0
  · have once : scrubbedOnce a e.bits = { a with done := a.done + 1 } := by simp [scrubbedOnce, clean, b2n]
    obtain ⟨_, _, core⟩ := opened.core
    rw [clean, decodeLine_clean, ← clean, core] at scrubs
    refine ⟨{ a with done := a.done + 1 }, scrubbed, others, served.dram, ?_, rfl, rfl, by simp [clean], fun _ => ⟨?_, rfl⟩⟩
    · rw [scrubs, ← once]; exact marked
    · rw [← once, scrubs]; rfl
  · have good : a.good + b2n (decide (1 ≤ e.bits ∧ e.bits ≤ 2)) = a.good + (if e.bits = 0 then 0 else 1) := by
      simp [b2n, few, clean, Nat.one_le_iff_ne_zero]
    obtain ⟨st, kept⟩ := served.acts m _ marked
    exact ⟨_, scrubbed, others, served.dram, kept, rfl, bad, good, fun h => absurd h clean⟩

end Scrub

/-- Settles O53: every clause is what its row's operation leaves, with at most one request at the stack. -/
theorem stacksServe : Obligations.StacksServe := by
  intro s st pc k n q c p put idle alone inside reads ad line others answers
  have small : n < 256 := lt_trans st.isLt (by decide)
  have lone {r : DramReq} {y : DramCycle} (h : alone r y) : stackServes false n k = true ∧ Alone k n c r y.busy := by
    obtain ⟨⟨serves, slots, input⟩, training, frozen, burst, owed, nbr, place, bank⟩ := h
    exact ⟨serves, not_held_of_serves serves, slots, input, training, frozen, burst, owed, nbr, place, bank⟩
  refine ⟨fun run => onPlain_onlyIf _ run, ?refreshed, ?clean, ?corrected, ?poisoned, ?halted, ?beyond, ?waits, ?temperature, ?migrates,
    ?lastMigration, ?nextMigration, ?early, ?turns, ?trained, ?scrubs⟩
  case refreshed =>
    rintro ⟨serves, slots, input⟩ training burst owed few y
    have refreshes : refresh k n c = put { q with pcs := mput q.pcs c { p with owed := p.owed - 1 } } := refresh_of_no_burst burst
    rw [exec_dramRequest serves, dramRequest_refreshes (not_held_of_serves serves) slots input training burst owed few, refreshes]
  case clean =>
    rintro r y ⟨h, within, sound⟩ nothing
    obtain ⟨serves, single⟩ := lone h
    obtain ⟨⟨⟨_, _, core⟩, rest, ⟨_, own⟩⟩, last⟩ := answer_clean single within sound nothing
    refine ⟨_, exec_dramRequest serves [r] pc y, by rw [own], by rw [own], by rw [own]; exact single.slots, ?_, rest, by rw [core]⟩
    obtain ⟨x, latest, req, out⟩ := last
    refine ⟨x, latest, req, fun read tenant => ?_⟩
    have own : ad r = 64 * r.line := by simp [ad, read]
    rw [out read tenant, show line r = objSpaceAddr k n (64 * r.line) / 64 by rw [← own]]
  case corrected =>
    rintro r y ⟨h, within, sound⟩ read few sl
    obtain ⟨serves, single⟩ := lone h
    obtain ⟨kept, counted, still⟩ := answer_corrects single within sound read few
    exact ⟨_, exec_dramRequest serves [r] pc y, counted, still, kept.dram, kept.objs, kept.glb, kept.others⟩
  case poisoned =>
    rintro r y ⟨h, within, sound⟩ read three tenant
    obtain ⟨serves, single⟩ := lone h
    have poisons := answer_poisons single within sound read three tenant
    refine ⟨_, exec_dramRequest serves [r] pc y, ?_, fun l other => ?_, fun a => ?_, poisons.recorded, ?_⟩
    · rw [poisons.dram]; exact lineBad_setBads_same ..
    · rw [poisons.dram]; exact lineBad_setBads_ne _ other
    · rw [poisons.dram]; exact byte_setBads ..
    · rw [poisons.errAddr, readAddr_aligned]; rfl
  case halted =>
    rintro r y ⟨h, within, sound⟩ read three system -
    obtain ⟨serves, single⟩ := lone h
    exact ⟨_, exec_dramRequest serves [r] pc y, answer_halts single within sound read three system (not_off_of_serves serves)⟩
  case beyond =>
    intro r y h lo hi
    obtain ⟨serves, single⟩ := lone h
    exact ⟨_, exec_dramRequest serves [r] pc y, answer_beyond single lo hi⟩
  case waits =>
    rintro r y ⟨serves, slots, input⟩ training place
    refine ⟨holding k n [r], rfl, stk_holding [r], fun j hj => stk_modStk_ne k _ hj, ?_⟩
    rw [exec_dramRequest serves, dramRequest_waits slots input training place]
  case temperature =>
    intro on calm v
    obtain ⟨⟨_, _, core⟩, rest, ⟨_, _, own⟩, -⟩ := stackTempRow_turnsOnly (k := k) (s := n) v.toNat calm
    refine ⟨stackTempRow k n v.toNat, onPlain_onlyIf (fun k => stackTempRow k n v.toNat) on, ?_,
      fun j hj => (rest j hj).trans (stk_modStk_ne k _ hj), ?_, fun run d u hd last set moved => stackTempRow_turnTaken calm run hd last set moved⟩
    · rw [own, takeTemp, stk_modStk_same]
    · rw [core]; rfl
  case migrates =>
    intro fr f stack on migrating may frozen a
    have row : exec (.migrationFrame fr) s = .next (s.finish (migrationFrame k n fr.errs)) := by
      rw [show n = fr.stack.toNat by rw [stack]]
      exact onCore_onlyIf (fun k => migrationFrame k fr.stack.toNat fr.errs) on
    refine ⟨fun left few => ?_, fun left three tenant => ?_, fun past => by rw [row, migrationFrame_past migrating past]⟩
    · have kept : LinesKept n k (frameRead k n a fr.errs) := frameRead_linesKept a few
      have going := kept.migration (by rw [show (stk k n).migrating = some f from migrating]; rfl)
      obtain ⟨moved, same, rest, dram, objs⟩ := frameWritten_moves (frameRead k n a fr.errs) n a
      refine ⟨_, row, ?_⟩
      rw [migrationFrame_next migrating left may frozen rfl (kept.frozen.trans frozen)]
      exact ⟨moved.trans (by rw [going.2]), same.trans (going.1.trans migrating), dram.trans kept.dram, objs.trans kept.objs,
        fun j hj => (rest j hj).trans (kept.others j hj)⟩
    · have poisons : Poisons n a k (frameRead k n a fr.errs) := three ▸ frameRead_poisons frozen tenant
      have going := poisons.migration (by rw [show (stk k n).migrating = some f from migrating]; rfl)
      obtain ⟨moved, -, -, dram, -⟩ := frameWritten_moves (frameRead k n a fr.errs) n a
      refine ⟨_, row, ?_⟩
      rw [migrationFrame_next migrating left may frozen rfl (poisons.frozen.trans frozen)]
      refine ⟨moved.trans (by rw [going.2]), ?_⟩
      rw [dram.trans poisons.dram]
      exact lineBad_setBads_same ..
  case lastMigration =>
    intro on f migrating may all waiting wait training
    rw [← show migrationComplete k n = hwEnd (hwEnd (put { q with migrating := none, moved := 0 }) 4 n) 5 n from
      migrationComplete_last migrating may all waiting wait training]
    exact onCore_onlyIf (fun k => migrationComplete k n) on
  case nextMigration =>
    intro on f v r migrating may all waiting
    rw [← show migrationComplete k n = startMigration (modStk (hwEnd (put { q with migrating := none, moved := 0 }) 4 n) n
      (fun q => { q with waiting := r })) n v from migrationComplete_next migrating may all waiting]
    exact onCore_onlyIf (fun k => migrationComplete k n) on
  case early =>
    intro on left
    have still : migrationComplete k n = k := migrationComplete_early left
    exact (onCore_onlyIf (fun k => migrationComplete k n) on).trans (by rw [still])
  case turns =>
    intro d run calm due
    refine ⟨fun out fresh busy => ?_, fun idle wait still free => ?_⟩
    · rw [exec_retrainStart run calm due, show retrain s.core st.toNat d.toNat = _ from retrain_waits out fresh busy]
      rfl
    · exact ⟨_, exec_retrainStart run calm due, retrain_starts small idle wait still free⟩
  case trained =>
    intro on d training wait t
    obtain ⟨passed, failed⟩ := retrainDone_last training wait t rfl
    exact ⟨passed ▸ onCore_onlyIf (fun k => retrainDone k n d.toNat true) on,
      failed ▸ onCore_onlyIf (fun k => retrainDone k n d.toNat false) on⟩
  case scrubs =>
    intro on m a act slot runs frozen left e sound few
    obtain ⟨b, scrubbed, rest, dram, counts⟩ := dramScrubFrame_counts act slot runs frozen left pc.isLt sound few
    refine ⟨_, b, onCore_whenAlive (fun k => dramScrubFrame k n c e) on, ?_, fun d other => ?_, rest, dram, counts⟩
    · rw [scrubbed, mget_mput_same]
    · rw [scrubbed, mget_mput_ne 0 _ _ other]

end Sys2Proof.Proofs.StackRows
end

section
/-! PROOFS. The fuses (R471, R473): a step answers a next state, and its fuses are those before it with some more blown. -/

namespace Sys2Proof.Proofs.FuseGain
open Sys2Proof.Machine Sys2Proof.Laws

theorem le_trans {f g h : Fuses} (hfg : f.le g) (hgh : g.le h) : f.le h := by
  obtain ⟨rows, tvedda, operator, svn, secret, grade, stepping, engines, fcap, core0, core1⟩ := hfg
  obtain ⟨rows', tvedda', operator', svn', secret', grade', stepping', engines', fcap', core0', core1'⟩ := hgh
  exact ⟨kept rows rows', kept tvedda tvedda', kept operator operator', kept svn svn', kept secret secret', grade.trans grade',
    stepping.trans stepping', engines.trans engines', fcap.trans fcap', core0.trans core0', core1.trans core1'⟩
where
  /-- Bits of x that y holds, and of y that z holds, are held by z. -/
  kept {n : Nat} {x y z : BitVec n} (hxy : x &&& y = x) (hyz : y &&& z = y) : x &&& z = x := by
    rw [← hxy, BitVec.and_assoc, hyz]

theorem le_foldl_program {f g : Fuses} (h : f.le g) (ws : List FuseWrite) : f.le (ws.foldl Fuses.program g) :=
  List.foldlRecOn (motive := f.le) ws Fuses.program h fun g hg w _ => le_trans hg (program_le g w)

/-- What a command can be: its own effect on the core and what follows it, or its effect alone. -/
theorem exec_cases (c : Instr) (s : State) :
    (∃ k, exec c s = .next (s.finish k)) ∨ ∃ k, exec c s = .next { s with core := k } := by
  cases c <;> first | exact .inl ⟨_, rfl⟩ | exact .inr ⟨_, rfl⟩

theorem exec_gains {f : Fuses} (c : Instr) {s : State} (h : f.le s.fuse) :
    ∃ t, exec c s = .next t ∧ f.le t.fuse ∧ t.pending = s.pending := by
  obtain ⟨k, e⟩ | ⟨k, e⟩ := exec_cases c s
  · exact ⟨_, e, le_foldl_program h _, rfl⟩
  · exact ⟨_, e, h, rfl⟩

/-- Settles O59: a command's step ends in `State.finish`, which only blows fuses, or leaves them as they are. -/
theorem fusesOnlyGain : Obligations.FusesOnlyGain := by
  intro s f h
  obtain ⟨fuse, core, _ | ⟨c, rest⟩⟩ := s
  · exact ⟨_, rfl, h, rfl⟩
  · exact exec_gains c (s := { fuse, core, pending := rest }) h

end Sys2Proof.Proofs.FuseGain
end

section
/-! PROOFS. Resets of the whole device: the pins (R34), the link's resets and the boot ROM they start (R62, R72 to R77), and the supply
(R35, R48, R51, R59). -/

namespace Sys2Proof.Proofs.Resets
open Sys2Proof.Machine Sys2Proof.Laws

/-! ## One step (assumption 23) -/

/-- A row over pins, resets, registers, power figures and the debug port answers the core its function gives. -/
theorem onPlain_of_eq {s : State} {f : Core → Core} {k : Core} (e : f s.core = k) : onPlain s f = .next { s with core := k } := by
  rw [onPlain, e]

/-- Where the function leaves the core, the row leaves the state. -/
theorem onPlain_of_fixed {s : State} {f : Core → Core} (e : f s.core = s.core) : onPlain s f = .next s := onPlain_of_eq e

/-- Settles O57: both clauses are the branches of `step`. -/
theorem stepRunsTheFrontCommand : Obligations.StepRunsTheFrontCommand :=
  ⟨fun _ _ _ => rfl, fun s idle => by simp [step, idle]⟩

/-! ## The reset pins (R34) -/

theorem pinReset_long {k : Core} {n : Nat} (kind : Nat) (on : powered k = true) (clock : k.pins.sysref = true) (long : 10 ≤ n) :
    pinReset k n kind = { resetCore k kind with
      pins := { k.pins with resetN := k.pins.resetN && kind != rkBoard, perstN := k.pins.perstN && kind != rkFundamental } } := by
  simp [pinReset, on, clock, long, resetCore]

theorem pinReset_short (k : Core) {n : Nat} (kind : Nat) (short : n < 10) : pinReset k n kind = k := by
  simp [pinReset, show ¬10 ≤ n by omega]

/-- Settles O1: a long pulse is a reset of the core with its pin low, a short one is nothing. -/
theorem resetPinsReset : Obligations.ResetPinsReset := by
  refine ⟨fun s n on clock long => ?_, fun s n short => ?_⟩
  · have low (kind : Nat) := pinReset_long kind on clock long
    constructor
    · change onPlain s (fun k => pinReset k n rkBoard) = _
      simp [onPlain, low, resetCore, rkBoard, rkFundamental, rkHot, rkFunction]
    · change onPlain s (fun k => pinReset k n rkFundamental) = _
      simp [onPlain, low, resetCore, rkBoard, rkFundamental, rkHot, rkFunction]
  · exact ⟨onPlain_of_fixed (pinReset_short _ rkBoard short), onPlain_of_fixed (pinReset_short _ rkFundamental short)⟩

/-! ## A reset over the link (R62) and the boot ROM (R72 to R77, R473, R477) -/

/-- The core a reset over the link leaves, before its boot ROM. -/
def linkReset (k : Core) (kind : Nat) (b : BootReads) : Core :=
  modStart (resetCore k kind) (fun s => { s with released := true, boot := b })

theorem warmReset_alive {k : Core} (kind : Nat) (b : BootReads) (alive : linkAlive k = true) :
    warmReset k kind b = bootRom (linkReset k kind b) b := by
  simp [warmReset, alive, linkReset]

theorem bootRom_sha {k : Core} {b : BootReads} (bad : b.sha = false) : bootRom k b = stopStartup k true := by
  simp [bootRom, bad]

theorem bootRom_scrapped {k : Core} {b : BootReads} (good : b.sha = true) (scrapped : k.sec.lc = 4) : bootRom k b = stopStartup k false := by
  simp [bootRom, good, scrapped]

theorem bootRom_unread {k : Core} {b : BootReads} (good : b.sha = true) (lc : k.sec.lc ≠ 4) (bad : b.region = false) :
    bootRom k b = stopStartup k true := by
  simp [bootRom, good, lc, bad]

theorem bootRom_noSlot {k : Core} {b : BootReads} (good : b.sha = true) (lc : k.sec.lc ≠ 4) (reads : b.region = true)
    (marked : k.lifeMarker = k.sec.lc) (none : chooseSlot k = none) : bootRom k b = stopStartup k true := by
  simp [bootRom, good, lc, reads, marked, none]

/-- t is k with other measurement registers (R482). -/
def Measures (k t : Core) : Prop := ∃ m, t = { k with sec := { k.sec with mregs := m } }

theorem Measures.extendMreg {k t : Core} (h : Measures k t) (n : Nat) (d : List Byte) : Measures k (extendMreg t n d) := by
  obtain ⟨m, rfl⟩ := h
  exact ⟨_, rfl⟩

theorem bootMeasure_measures (k : Core) (b fb recovered : Bool) : Measures k (bootMeasure k b fb recovered) :=
  have cleared : Measures k (modSec k (fun s => { s with mregs := [] })) := ⟨[], rfl⟩
  (((cleared.extendMreg 0 _).extendMreg 1 _).extendMreg 2 _).extendMreg 3 _

theorem bootRom_slot {k : Core} {b : BootReads} {slot fb : Bool} (good : b.sha = true) (lc : k.sec.lc ≠ 4) (reads : b.region = true)
    (marked : k.lifeMarker = k.sec.lc) (some : chooseSlot k = some (slot, fb)) :
    ∃ m, bootRom k b = { k with
      glb := { k.glb with
        slotB := slot, fallback := fb, recovery := false, svn := fld (fwSlot k slot).header 2 1,
        version := fld (fwSlot k slot).header 4 4, startup := { k.glb.startup with stopped := false, bootRunning := true } }
      sec := { k.sec with mregs := m, devKey := padTo 48 (Config.slhPublic (devSeeds k (keyClass k.sec.lc))) } } := by
  obtain ⟨m, measured⟩ := bootMeasure_measures k slot fb k.sec.recovered
  exact ⟨m, by simp [bootRom, good, lc, reads, marked, some, measured, modSec, modStart, devSeeds]⟩

/-- Settles O2: a link reset ends in `bootRom`, whose outcomes are the lemmas above. -/
theorem linkResetsReset : Obligations.LinkResetsReset := by
  refine ⟨fun s cause b alive => ?_, fun s cause b alive good reads lc marked => ?_⟩
  · have left (kind : Nat) := warmReset_alive (k := s.core) kind b alive
    refine ⟨?_, ?_, fun bad => ?_, fun good lc => ?_, fun good lc bad => ?_⟩
    · exact onPlain_of_eq (left 4)
    · exact onPlain_of_eq (left 5)
    · exact ⟨bootRom_sha bad, bootRom_sha bad⟩
    · exact ⟨bootRom_scrapped good lc, bootRom_scrapped good lc⟩
    · exact ⟨bootRom_unread good lc bad, bootRom_unread good lc bad⟩
  · have left (kind : Nat) := warmReset_alive (k := s.core) kind b alive
    have same (kind : Nat) : chooseSlot (linkReset s.core kind b) = chooseSlot s.core := rfl
    have ran (kind : Nat) {k : Core} (boot : bootRom (linkReset s.core kind b) b = k) :
        onPlain s (fun k => warmReset k kind b) = .next { s with core := k } := onPlain_of_eq ((left kind).trans boot)
    cases found : chooseSlot s.core with
    | none =>
      have boot (kind : Nat) : bootRom (linkReset s.core kind b) b = stopStartup (linkReset s.core kind b) true :=
        bootRom_noSlot good lc reads marked found
      exact ⟨_, _, ran 4 (boot 4), rfl, ran 5 (boot 5), rfl, fun _ => ⟨⟨rfl, rfl, rfl, rfl, rfl⟩, ⟨rfl, rfl, rfl, rfl, rfl⟩⟩, nofun⟩
    | some choice =>
      obtain ⟨slot, fb⟩ := choice
      have boot (kind : Nat) := bootRom_slot (k := linkReset s.core kind b) good lc reads marked found
      obtain ⟨m, hot⟩ := boot 4
      obtain ⟨n, function⟩ := boot 5
      refine ⟨_, _, ran 4 hot, rfl, ran 5 function, rfl, nofun, ?_⟩
      rintro _ _ ⟨⟩
      exact ⟨⟨rfl, rfl, rfl, rfl, rfl, rfl, rfl, rfl, rfl, rfl, rfl, rfl, rfl, rfl, rfl⟩,
        ⟨rfl, rfl, rfl, rfl, rfl, rfl, rfl, rfl, rfl, rfl, rfl, rfl, rfl, rfl, rfl⟩⟩

end Sys2Proof.Proofs.Resets
end

section
/-! PROOFS. Power, pins and SMBus (R35, R36, R40 to R44, R48 to R53, R59, R72) and BAR0 accesses of a wrong form (R92, R528). -/

namespace Sys2Proof.Proofs.Supply
open Sys2Proof.Machine Sys2Proof.Laws Sys2Proof.Proofs.Resets

/-! ## Supply (R35, R48, R51, R59) -/

theorem pwrgoodFall_high {k : Core} (high : k.pins.pwrgood = true) :
    pwrgoodFall k = powerLost { k with pins := { k.pins with pwrgood := false } } := by
  simp [pwrgoodFall, high]

theorem railTrip_high {k : Core} (high : k.pins.pwrgood = true) :
    railTrip k = powerLost { k with pins := { k.pins with pwrgood := false, railLow := true, tripped := true } } := by
  simp [railTrip, high]

theorem faultNLow_of_reset {k : Core} (vaon : k.pins.vaon = true) (reset : k.glb.st = .reset) : faultNLow k = true := by
  simp [faultNLow, vaon, reset]

/-- Settles O3: a fall and a trip are both `powerLost`, whose fields are read off. -/
theorem supplyPinsMoveTheDevice : Obligations.SupplyPinsMoveTheDevice := by
  refine ⟨fun s straps low => ?_, fun s high => ?_, fun s rail high => ?_, fun s vaon low => ?_⟩
  · change onPlain s (fun k => vaonIn k straps) = _
    simp [onPlain, vaonIn, low]
  · refine ⟨_, onPlain_of_eq (pwrgoodFall_high high), ?_⟩
    exact ⟨rfl, rfl, rfl, rfl, rfl, rfl, rfl, rfl, rfl, rfl, rfl, rfl, rfl, rfl, rfl, fun vaon => faultNLow_of_reset vaon rfl⟩
  · refine ⟨_, onPlain_of_eq (railTrip_high high), ?_⟩
    exact ⟨rfl, rfl, rfl, rfl, rfl, rfl, rfl, rfl, rfl, rfl, rfl, rfl, rfl, rfl, rfl⟩
  · refine ⟨vaonOut s.core, rfl, ?_, ?_⟩ <;> simp [vaonOut, faultNLow, vaon, low]

/-! ## Power-up (R25, R50, R53, R72) -/

theorem loadShadow_good {k : Core} {f : Fuses} (ok : f.lifeOk = true) :
    loadShadow k f true = { k with shadow := f, sec := { k.sec with lc := f.life, lcNext := f.life, pend := none } } := by
  simp [loadShadow, ok]

/-- PWRGOOD's rise after a power-on is a reset of that kind with the fuse shadow loaded (R72). -/
theorem pwrgoodRise_powerOn {k : Core} {f : Fuses} (vaon : k.pins.vaon = true) (low : k.pins.pwrgood = false)
    (untripped : k.pins.tripped = false) (ok : f.lifeOk = true) :
    pwrgoodRise f true k = { resetCore k rkPowerOn with
      pins := { k.pins with
        pwrgood := true, pwrgoodSeen := true, resetN := false, perstN := false, thermDrive := false, thermDemand := false }
      glb := { st := .reset, causeKind := rkPowerOn, wasHalted := false }
      shadow := f
      sec := { lc := f.life, lcNext := f.life } } := by
  simp [pwrgoodRise, vaon, low, untripped, loadShadow_good ok, resetCore]

/-- Settles O4: the rise is `pwrgoodRise_powerOn`; the other clauses are the one branch of their functions that the hypotheses leave. -/
theorem powerUpRuns : Obligations.PowerUpRuns := by
  refine ⟨fun s vaon low untripped ok => ?_, fun s on clock unlocked running early => ?_, fun s on clock unlocked => ?_,
    fun s b on clock early low reset unlocked ok => ?_, fun s => ⟨rfl, rfl⟩⟩
  · refine ⟨_, onPlain_of_eq (pwrgoodRise_powerOn vaon low untripped ok), ?_⟩
    exact ⟨rfl, rfl, rfl, rfl, rfl, rfl, rfl, rfl, rfl, rfl, rfl, rfl, rfl, rfl, rfl⟩
  · change onPlain s rootPllLock = _
    simp [onPlain, rootPllLock, on, clock, unlocked, running, early, modStart]
  · refine ⟨pllLockTimeout s.core, rfl, ?_, ?_⟩
    · simp [pllLockTimeout, on, clock, unlocked, modStart]
    · change onPlain { s with core := pllLockTimeout s.core } rootPllLock = _
      simp [onPlain, rootPllLock, pllLockTimeout, on, clock, unlocked, modStart]
  · change onPlain s (resetRelease s.fuse b) = _
    simp [onPlain, resetRelease, on, clock, early, low, reset, unlocked, modStart, loadShadow_good ok]

/-! ## SMBus (R40 to R44) -/

theorem smbAnswer_plain (k : Core) (cmd : Nat) (l : List Byte) : smbAnswer k cmd l false = emit k (.smb l) := rfl

/-- Settles O8: each command is its one branch of the ACLK domain, which answers or changes the always-on status. -/
theorem smbusAnswersInEveryState : Obligations.SmbusAnswersInEveryState := by
  refine ⟨fun s on => ⟨?_, ?_, ?_⟩, fun s v pec on good => ?_, fun s v on => ?_, fun s => rfl⟩
  · change onPlain s (smbReadGrade s.fuse false) = _
    simp [onPlain, smbReadGrade, on, smbAnswer_plain, emit, leBytes]
  · change onPlain s (smbReadSetPoints s.fuse false) = _
    simp [onPlain, smbReadSetPoints, on, smbAnswer_plain, emit, leBytes]
  · change onPlain s (fun k => smbReadStatus k false) = _
    simp [onPlain, smbReadStatus, on, smbAnswer_plain, emit, leBytes, aonStatus]
  · change onPlain s (fun k => smbWriteStatus k v pec) = _
    simp [onPlain, smbWriteStatus, on, good]
  · change onPlain s (fun k => smbWriteStatus k v .bad) = _
    simp [onPlain, smbWriteStatus, on, emit]

/-! ## BAR0 accesses of a wrong size or alignment (R92, R528) -/

theorem badAccess_wrong {k : Core} {off n : Nat} (read : Bool) (on : powered k = true) (wrong : n = 4 ∨ n = 8 → off % n ≠ 0) :
    badAccess k read off n = if read then emit k .unsupported else aerReport k ⟨false, 0, off, n⟩ := by
  have bad : ((n == 4 || n == 8) && off % n == 0) = false := by simpa using wrong
  simp [badAccess, on, bad]

/-- Settles O17: a read is only answered and a write only reported. -/
theorem badRegisterAccessesChangeNothing : Obligations.BadRegisterAccessesChangeNothing := by
  intro s off n on wrong
  constructor
  · change onPlain s (fun k => badAccess k true off.toNat n) = _
    exact onPlain_of_eq (badAccess_wrong true on wrong)
  · change onPlain s (fun k => badAccess k false off.toNat n) = _
    exact onPlain_of_eq (badAccess_wrong false on wrong)

end Sys2Proof.Proofs.Supply
end

section
/-! PROOFS. What the movement of objects and the work on the weight flash leave alone: pins, fuses, device state, registers, firmware,
power state and security, and most of it the memories too. -/

namespace Sys2Proof.Proofs.DeviceFrames
open Sys2Proof.Machine Sys2Proof.Laws Sys2Proof.Proofs.Reads

/-- The parts of the core that only resets, register writes, power states, the debug port and the Security Core change. -/
@[simp] abbrev DeviceKept (k t : Core) : Prop :=
  t.pins = k.pins ∧ t.shadow = k.shadow ∧ t.burn = k.burn ∧ t.glb = k.glb ∧ t.regs = k.regs ∧ t.slotA = k.slotA ∧ t.slotB = k.slotB ∧
  t.lifeMarker = k.lifeMarker ∧ t.pst = k.pst ∧ t.sec = k.sec
/-- Tile memory, staging memory and device memory stay too. -/
@[simp] abbrev StoreKept (k t : Core) : Prop := DeviceKept k t ∧ t.tiles = k.tiles ∧ t.dram = k.dram ∧ t.stg = k.stg

section Folds
variable {α : Type} {f : Core → α → Core}

theorem DeviceKept.foldl (hf : ∀ k x, DeviceKept k (f k x)) (l : List α) (k : Core) : DeviceKept k (l.foldl f k) := by
  simpa [DeviceKept] using
    foldl_fixes (g := fun k => (k.pins, k.shadow, k.burn, k.glb, k.regs, k.slotA, k.slotB, k.lifeMarker, k.pst, k.sec))
      (fun k x => by simp [hf k x]) l k

theorem StoreKept.foldl (hf : ∀ k x, StoreKept k (f k x)) (l : List α) (k : Core) : StoreKept k (l.foldl f k) := by
  simpa [StoreKept, and_assoc] using
    foldl_fixes (g := fun k =>
        (k.pins, k.shadow, k.burn, k.glb, k.regs, k.slotA, k.slotB, k.lifeMarker, k.pst, k.sec, k.tiles, k.dram, k.stg))
      (fun k x => by simp [hf k x]) l k

end Folds

@[simp] theorem drawBool_storeKept (k : Core) : StoreKept k (drawBool k).2 := by simp [drawBool]

/-! ## Space and promotion (R323 to R330) -/

@[simp] theorem beginFetch_storeKept (k : Core) (h a : Nat) : StoreKept k (beginFetch k h a) := by
  simp only [beginFetch]; split <;> simp

@[simp] theorem evictUntil_storeKept (k : Core) (d n : Nat) (limit skip : Option Nat) (fuel : Nat) :
    StoreKept k (evictUntil k d n limit skip fuel) := by
  induction fuel generalizing k with
  | zero => simp [evictUntil]
  | succ fuel ih => unfold evictUntil; split <;> [skip; split] <;> simp [ih]

@[simp] theorem takeSpace_storeKept (k : Core) (h : Nat) (skip : Option Nat) : StoreKept k (takeSpace k h skip) := by
  simp only [takeSpace]; split <;> simp

@[simp] theorem takeOrDrop_storeKept (k : Core) (h : Nat) (limit skip : Option Nat) : StoreKept k (takeOrDrop k h limit skip) := by
  simp only [takeOrDrop]; split <;> [skip; split] <;> simp

@[simp] theorem retrySpace_storeKept (k : Core) (skip : Option Nat) : StoreKept k (retrySpace k skip) := by
  refine StoreKept.foldl (fun k h => ?_) _ k
  dsimp only
  split <;> [skip; split] <;> simp

@[simp] theorem retryWants_storeKept (k : Core) : StoreKept k (retryWants k) := retrySpace_storeKept k none

@[simp] theorem dropPin_storeKept (k : Core) (h : Nat) : StoreKept k (dropPin k h) := by simp [dropPin]

@[simp] theorem dropRef_storeKept (k : Core) (h : Nat) : StoreKept k (dropRef k h) := by simp [dropRef]

/-! ## The maintenance arbiter (R515, R516) -/

@[simp] theorem modAct_storeKept (k : Core) (n : Nat) (f : Act → Act) : StoreKept k (modAct k n f) := by
  unfold modAct; split <;> simp

@[simp] theorem wakeAct_storeKept (k : Core) (n : Nat) : StoreKept k (wakeAct k n) := by
  unfold wakeAct; split <;> [skip; split] <;> simp

@[simp] theorem settle_storeKept (k : Core) : StoreKept k (settle k) := StoreKept.foldl wakeAct_storeKept _ k

@[simp] theorem freeAct_storeKept (k : Core) (n : Nat) : StoreKept k (freeAct k n) := by simp [freeAct]

@[simp] theorem hwEnd_storeKept (k : Core) (kind inst : Nat) : StoreKept k (hwEnd k kind inst) := by
  unfold hwEnd; split <;> simp

/-! ## Journal, units and stores of a flash stack (R387 to R396, R404) -/

@[simp] theorem journal_storeKept (k : Core) (s : Nat) (e : JEnt) : StoreKept k (journal k s e) := by simp [journal]

@[simp] theorem closeUnits_storeKept (k : Core) (l : List OpenUnit) : StoreKept k (closeUnits k l) :=
  StoreKept.foldl (fun k e => by simp) l k

@[simp] theorem programEnds_storeKept (k : Core) (s : Nat) : StoreKept k (programEnds k s) := by simp [programEnds]

@[simp] theorem flsRest_storeKept (k : Core) (s : Nat) : StoreKept k (flsRest k s) := by unfold flsRest; split <;> simp

@[simp] theorem endFlOp_storeKept (k : Core) (o : FlOp) (reason arg : Nat) (payload : List Byte) :
    StoreKept k (endFlOp k o reason arg payload) := by
  have ended (l : List Nat) (k : Core) := StoreKept.foldl programEnds_storeKept l k
  have rested (l : List Nat) (k : Core) := StoreKept.foldl flsRest_storeKept l k
  simp only [endFlOp, dropGot]
  cases o.erase <;> cases o.base <;> split <;> simp [ended, rested]

@[simp] theorem becomeWorn_storeKept (k : Core) (s : Nat) : StoreKept k (becomeWorn k s) := by
  have ended (l : List FlOp) (k : Core) := StoreKept.foldl (fun k o => endFlOp_storeKept k o rFlashWorn s []) l k
  unfold becomeWorn; split <;> simp [ended]

@[simp] theorem retireUnit_storeKept (k : Core) (s u : Nat) : StoreKept k (retireUnit k s u) := by simp [retireUnit]

@[simp] theorem takeSpare_storeKept (k : Core) (s fuel : Nat) : StoreKept k (takeSpare k s fuel).2 := by
  induction fuel generalizing k with
  | zero => simp [takeSpare]
  | succ fuel ih =>
    by_cases blank : Config.freeNat k.fresh % 2 = 1 <;> by_cases again : Config.freeNat (k.fresh + 1) % 2 = 1 <;>
      cases spare : (fls k s).bestSpare <;> simp [takeSpare, drawBool, blank, again, spare, ih]

@[simp] theorem mapUnit_storeKept (k : Core) (s l v : Nat) : StoreKept k (mapUnit k s l v) := by simp [mapUnit]

@[simp] theorem replaceUnit_storeKept (k : Core) (s l : Nat) : StoreKept k (replaceUnit k s l).2 := by
  have taken := takeSpare_storeKept k s ((fls k s).spares + 1)
  simp only [replaceUnit]
  split <;> simp_all

@[simp] theorem wipeUnit_storeKept (k : Core) (s l : Nat) : StoreKept k (wipeUnit k s l) := by simp [wipeUnit]

@[simp] theorem reErase_storeKept (k : Core) (s l u : Nat) : StoreKept k (reErase k s l u) := by
  have drawn : StoreKept k (drawBool (journal k s { typ := jEraseBegin, seq := 0, lunit := l, punit := u })).2 := by simp
  unfold reErase
  generalize drawBool (journal k s { typ := jEraseBegin, seq := 0, lunit := l, punit := u }) = d at drawn ⊢
  obtain ⟨ok, k1⟩ := d
  have taken := replaceUnit_storeKept k1 s l
  dsimp only at drawn ⊢
  generalize replaceUnit k1 s l = r at taken ⊢
  obtain ⟨there, k3⟩ := r
  dsimp only at taken ⊢
  generalize ((fls k1 s).phys l == u) = mapped
  cases ok <;> cases mapped <;> cases there <;> simp [drawn, taken]

@[simp] theorem journalScan_storeKept (k : Core) (s : Nat) : StoreKept k (journalScan k s) := by
  have erased (l : List JEnt) (k : Core) : StoreKept k (l.foldl (fun k e => reErase k s e.lunit e.punit) k) :=
    StoreKept.foldl (fun k e => by simp) l k
  unfold journalScan
  extract_lets k1 open_ k2 ls
  have second : StoreKept k k2 := by simp [k2, k1, erased]
  have closed (l : List Nat) (k : Core) : StoreKept k (l.foldl (fun k l =>
      let (bad, k3) := drawBool k
      if bad then reErase k3 s l ((fls k3 s).phys l)
      else journal k3 s { typ := jProgClose, seq := 0, lunit := l, punit := (fls k3 s).phys l, page := ((fls k3 s).lun l).frontier }) k) :=
    StoreKept.foldl (fun k l => by
      have drawn := drawBool_storeKept k
      generalize drawBool k = d at drawn ⊢
      obtain ⟨bad, k3⟩ := d
      cases bad <;> simp_all) l k
  obtain ⟨_, _⟩ := closed (ls.filter (fun l => !(((fls k2 s).lun l).again))) k2
  simp_all

end Sys2Proof.Proofs.DeviceFrames
end

section
/-! PROOFS. Start-up (R64, R72, R76, R371, R507) and the host link's training and configuration (R73, R87 to R89). -/

namespace Sys2Proof.Proofs.StartUp
open Sys2Proof.Machine Sys2Proof.Laws Sys2Proof.Proofs.DeviceFrames Sys2Proof.Proofs.Resets

/-! ## The core, field by field -/

/-- Two cores are equal where their fields are. -/
theorem core_ext {k t : Core} (pins : k.pins = t.pins) (shadow : k.shadow = t.shadow) (burn : k.burn = t.burn) (glb : k.glb = t.glb)
    (regs : k.regs = t.regs) (ctr : k.ctr = t.ctr) (pci : k.pci = t.pci) (ports : k.ports = t.ports) (rings : k.rings = t.rings)
    (ctxs : k.ctxs = t.ctxs) (accts : k.accts = t.accts) (seqs : k.seqs = t.seqs) (pools : k.pools = t.pools) (msets : k.msets = t.msets)
    (objs : k.objs = t.objs) (doms : k.doms = t.doms) (sched : k.sched = t.sched) (dram : k.dram = t.dram) (stg : k.stg = t.stg)
    (tiles : k.tiles = t.tiles) (ghcs : k.ghcs = t.ghcs) (incs : k.incs = t.incs) (fab : k.fab = t.fab) (stks : k.stks = t.stks)
    (flss : k.flss = t.flss) (flOps : k.flOps = t.flOps) (flash : k.flash = t.flash) (slotA : k.slotA = t.slotA)
    (slotB : k.slotB = t.slotB) (lifeMarker : k.lifeMarker = t.lifeMarker) (code : k.code = t.code) (pwr : k.pwr = t.pwr)
    (pst : k.pst = t.pst) (sec : k.sec = t.sec) (maint : k.maint = t.maint) (err : k.err = t.err) (flts : k.flts = t.flts)
    (host : k.host = t.host) (held : k.held = t.held) (out : k.out = t.out) (fresh : k.fresh = t.fresh) : k = t := by
  cases k; cases t; simp_all

/-! ## Start-up (R64, R72, R76, R371) -/

theorem bootRomComplete_good {k : Core} (reset : k.glb.st = .reset) (running : k.glb.startup.bootRunning = true) :
    ∃ t, bootRomComplete k true 15 = t ∧
      t.glb = { k.glb with startup := { k.glb.startup with
        bootRunning := false, bootDone := true, sramWiped := true, journalDone := true, lifeWiping := false } } ∧
      t.lifeMarker = (if k.glb.startup.lifeWiping then k.sec.lc else k.lifeMarker) ∧
      t.tiles = [] ∧ t.stg = Mem.empty ∧ t.dram = k.dram ∧ t.regs = k.regs ∧ t.sec = k.sec ∧ t.pins = k.pins := by
  have scanned (l : List Nat) (k : Core) := StoreKept.foldl journalScan_storeKept l k
  exact ⟨_, rfl, by simp [bootRomComplete, reset, running, scanned]⟩

theorem hbmTrainingDone_good {k : Core} (reset : k.glb.st = .reset) (booted : k.glb.startup.bootDone = true)
    (unwiped : k.glb.startup.dramWiped = false) :
    hbmTrainingDone k 0xFF true = { k with
      dram := Mem.empty
      glb := { k.glb with startup := { k.glb.startup with hbmTrained := true, dramWiped := true } } } := by
  simp [hbmTrainingDone, reset, booted, unwiped, modStart]

/-! ## Error records (R506 to R508) -/

@[simp] theorem modERing_log (k : Core) (r : Nat) (f : ERing → ERing) :
    (modERing k r f).err.serial = k.err.serial ∧ (modERing k r f).err.log = k.err.log := by
  unfold modERing; split <;> simp

@[simp] theorem errToRing_log (k : Core) (r : Nat) (e : ErrRec) (n : Nat) :
    (errToRing k r e n).err.serial = k.err.serial ∧ (errToRing k r e n).err.log = k.err.log := by
  simp only [errToRing]; split <;> [skip; split] <;> simp

/-- A record takes the next serial and joins the log. -/
@[simp] theorem errRecord_log (k : Core) (e : ErrRec) :
    (errRecord k e).err.serial = k.err.serial + 1 ∧ (errRecord k e).err.log = (k.err.serial, e) :: k.err.log := by
  simp only [errRecord]; split <;> simp

theorem errRecord_eq (k : Core) (e : ErrRec) :
    errRecord k e = { k with
      err := (errRecord k e).err, ctr := (errRecord k e).ctr, host := (errRecord k e).host, held := (errRecord k e).held,
      out := (errRecord k e).out, pci := (errRecord k e).pci } := by
  apply core_ext <;> simp

theorem setState_ne {k : Core} {st : DevState} (h : k.glb.st ≠ st) :
    setState k st = errRecord { k with glb := { k.glb with st := st } }
      { reason := 0, cls := 0, detail := leBytes 1 k.glb.st.code ++ leBytes 1 st.code } := by
  simp [setState, h]

theorem startupComplete_due {k : Core} (reset : k.glb.st = .reset) (booted : k.glb.startup.bootDone = true)
    (sram : k.glb.startup.sramWiped = true) (trained : k.glb.startup.hbmTrained = true) (dram : k.glb.startup.dramWiped = true)
    (scanned : k.glb.startup.journalDone = true) : startupComplete k = setState k .config := by
  simp [startupComplete, reset, booted, sram, trained, dram, scanned]

/-- Settles O5: the journal scans keep all that the clauses name, and the end of start-up is one state-change record. -/
theorem startUpReachesConfig : Obligations.StartUpReachesConfig := by
  refine ⟨fun s reset running => ?_, fun s reset booted unwiped => onPlain_of_eq (hbmTrainingDone_good reset booted unwiped),
    fun s reset booted sram trained dram scanned => ?_, fun s j reset running => ?_⟩
  · obtain ⟨t, done, facts⟩ := bootRomComplete_good reset running
    exact ⟨t, onPlain_of_eq done, facts⟩
  · have ends := startupComplete_due reset booted sram trained dram scanned
    rw [setState_ne (by simp [reset])] at ends
    refine ⟨_, onPlain_of_eq ends, by simp, by simp, by simp [reset, DevState.code, leBytes], by simp [faultNLow], ?_⟩
    apply core_ext <;> simp
  · refine ⟨_, rfl, ?_⟩
    simp [bootRomComplete, reset, running, startupFault, FailStop.failStop_halted]

end Sys2Proof.Proofs.StartUp
end

section
/-! PROOFS. The host link (R41, R50, R73, R85, R87 to R90): what resuming the requests that waited changes, training and configuration. -/

namespace Sys2Proof.Proofs.HostLink
open Sys2Proof.Machine Sys2Proof.Laws Sys2Proof.Proofs.Resets Sys2Proof.Proofs.StartUp

/-! ## Requests that go out (R89, R90) -/

/-- t is k after some of its waiting reads were requested. -/
def Issues (k t : Core) : Prop :=
  ∃ reads waiting nextTag ctr out fresh,
    t = { k with pci := { k.pci with reads := reads, waiting := waiting, nextTag := nextTag }, ctr := ctr, out := out, fresh := fresh }

theorem Issues.refl (k : Core) : Issues k k := ⟨_, _, _, _, _, _, rfl⟩

theorem Issues.trans {k t u : Core} (h : Issues k t) (g : Issues t u) : Issues k u := by
  obtain ⟨_, _, _, _, _, _, rfl⟩ := h
  obtain ⟨_, _, _, _, _, _, rfl⟩ := g
  exact ⟨_, _, _, _, _, _, rfl⟩

theorem bump_issues (k : Core) (off n : Nat) : Issues k (bump k off n) := by
  unfold bump; split <;> exact ⟨_, _, _, _, _, _, rfl⟩

theorem issueReads_issues (k : Core) (n : Nat) : Issues k (issueReads k n) := by
  induction n generalizing k with
  | zero => exact .refl k
  | succ n ih =>
    unfold issueReads
    split
    · split
      · exact .trans ⟨_, _, _, _, _, _, rfl⟩ (ih _)
      · exact .refl k
    · exact .refl k

theorem hostIssue_issues (k : Core) : Issues k (hostIssue k) := by
  have issued := issueReads_issues k (tagLimit k)
  simp only [hostIssue, drawNat]
  split
  · exact issued.trans (.trans ⟨_, _, _, _, _, _, rfl⟩ (bump_issues _ _ _))
  · exact issued

theorem hostIssue_none {k : Core} (none : k.pci.waiting = []) : hostIssue k = k := by
  have stays : issueReads k (tagLimit k) = k := by
    cases tagLimit k with
    | zero => rfl
    | succ n => simp [issueReads, none]
  simp [hostIssue, stays, none]

/-- Requests to host memory that are carried out change host memory and what left the device. -/
theorem foldl_hostDo (l : List HostOp) (k : Core) : ∃ host out, l.foldl hostDo k = { k with host := host, out := out } := by
  have one (k : Core) (o : HostOp) : ∃ host out, hostDo k o = { k with host := host, out := out } := by
    cases o with
    | write a b bulk bad =>
      simp only [hostDo, foldl_emit]
      exact ⟨_, _, rfl⟩
    | msix v => exact ⟨_, _, rfl⟩
  induction l generalizing k with
  | nil => exact ⟨_, _, rfl⟩
  | cons o l ih =>
    obtain ⟨h, e, done⟩ := one k o
    obtain ⟨h', e', rest⟩ := ih (hostDo k o)
    exact ⟨h', e', by rw [List.foldl_cons, rest, done]⟩

theorem hostFlush_down {k : Core} (down : hostUp k = false) : hostFlush k = k := by simp [hostFlush, down]

/-- The link that serves resumes all writes that waited, and then the reads. -/
theorem hostFlush_up {k : Core} (up : hostUp k = true) :
    ∃ host out, hostFlush k = hostIssue { k with held := [], host := host, out := out } := by
  obtain ⟨host, out, done⟩ := foldl_hostDo k.held { k with held := [] }
  exact ⟨host, out, by simp [hostFlush, up, done]⟩

/-- After that nothing waits to be written, and where no read waited no counter and no draw is touched. -/
theorem hostFlush_clears {k : Core} (up : hostUp k = true) :
    ∃ reads waiting nextTag host out ctr fresh, hostFlush k = { k with
      pci := { k.pci with reads := reads, waiting := waiting, nextTag := nextTag }
      host := host, held := [], out := out, ctr := ctr, fresh := fresh } ∧
      (k.pci.waiting = [] → ctr = k.ctr ∧ fresh = k.fresh) := by
  obtain ⟨host, out, flushed⟩ := hostFlush_up up
  by_cases none : k.pci.waiting = []
  · have idle := hostIssue_none (k := { k with held := [], host := host, out := out }) none
    exact ⟨_, _, _, _, _, _, _, flushed.trans idle, fun _ => ⟨rfl, rfl⟩⟩
  · obtain ⟨_, _, _, _, _, _, issued⟩ := hostIssue_issues { k with held := [], host := host, out := out }
    exact ⟨_, _, _, _, _, _, _, flushed.trans issued, fun h => absurd h none⟩

/-- What resuming changes: the requests, host memory, what left the device, a counter and a draw. -/
theorem hostFlush_eq (k : Core) :
    ∃ reads waiting nextTag host held out ctr fresh, hostFlush k = { k with
      pci := { k.pci with reads := reads, waiting := waiting, nextTag := nextTag }
      host := host, held := held, out := out, ctr := ctr, fresh := fresh } := by
  cases up : hostUp k with
  | false => exact ⟨_, _, _, _, _, _, _, _, hostFlush_down up⟩
  | true =>
    obtain ⟨host, out, flushed⟩ := hostFlush_up up
    obtain ⟨_, _, _, _, _, _, issued⟩ := hostIssue_issues { k with held := [], host := host, out := out }
    exact ⟨_, _, _, _, _, _, _, _, flushed.trans issued⟩

theorem hostReq_up {k : Core} {o : HostOp} (up : hostUp k = true) (clear : k.held = []) : hostReq k o = hostDo k o := by
  simp [hostReq, up, clear]

/-- Vectors that are no longer masked go out: only the pending bits and what left the device change, and nothing starts to wait while the link
serves. -/
theorem msixKick_up {k : Core} (up : hostUp k = true) (clear : k.held = []) :
    ∃ pend out, msixKick k = { k with pci := { k.pci with msixPend := pend }, out := out } := by
  suffices ∀ (l : List Nat) (k : Core), hostUp k = true → k.held = [] →
      ∃ pend out, l.foldl (fun k v => if msixMasked k v then k
        else hostReq { k with pci := { k.pci with msixPend := sdel k.pci.msixPend v } } (.msix v)) k =
          { k with pci := { k.pci with msixPend := pend }, out := out } from this _ k up clear
  intro l
  induction l with
  | nil => exact fun k _ _ => ⟨_, _, rfl⟩
  | cons v l ih =>
    intro k up clear
    rw [List.foldl_cons]
    split
    · exact ih k up clear
    · rw [hostReq_up (by exact up) (by exact clear)]
      obtain ⟨pend, out, rest⟩ := ih (hostDo { k with pci := { k.pci with msixPend := sdel k.pci.msixPend v } } (.msix v)) up clear
      exact ⟨pend, out, rest⟩

theorem msixKick_none {k : Core} (none : k.pci.msixPend = []) : msixKick k = k := by simp [msixKick, none]

/-! ## Training and configuration (R41, R73, R87, R88) -/

theorem linkTrained_full {k : Core} (alive : linkAlive k = true) :
    linkTrained k 16 6 true = hostFlush { k with pci := { k.pci with lanes := 16, speed := 6, flit := true } } := by
  simp [linkTrained, alive]

theorem linkTrained_low {k : Core} {n v : Nat} {flit : Bool} (alive : linkAlive k = true) (width : n = 16 ∨ n = 8 ∨ n = 4)
    (least : 1 ≤ v) (most : v ≤ 6) (low : n < 16 ∨ v < 6) (flits : v = 6 → flit = true) :
    linkTrained k n v flit = hostFlush (errRecord
      { k with pci := { k.pci with lanes := n, speed := v, flit := flit, downtrain := min 255 (k.pci.downtrain + 1) } }
      { reason := rLinkDegraded, cls := 3, source := 5, arg := 0x80 + 256 * n }) := by
  have form : (v != 6 || flit) = true := by
    by_cases full : v = 6 <;> simp [full, flits]
  have widths : (n == 16 || n == 8 || n == 4) = true := by simpa [or_assoc] using width
  simp [linkTrained, alive, widths, least, most, form, low]

theorem configRequest_served {k : Core} (r : CfgReq) (alive : linkAlive k = true) (trained : k.pci.lanes ≠ 0) (serves : cfgServes k = true) :
    configRequest k r = msixKick (hostFlush (emit { k with pci := cfgSet k.pci r } (cfgAnswer k.pci r))) := by
  simp [configRequest, alive, trained, serves]

/-- A setting that leaves the bus mastering off and no vector pending only sets and answers. -/
theorem configRequest_quiet {k : Core} (r : CfgReq) (alive : linkAlive k = true) (trained : k.pci.lanes ≠ 0) (serves : cfgServes k = true)
    (off : (cfgSet k.pci r).busMaster = false) (none : (cfgSet k.pci r).msixPend = []) :
    configRequest k r = { k with pci := cfgSet k.pci r, out := cfgAnswer k.pci r :: k.out } := by
  rw [configRequest_served r alive trained serves, hostFlush_down (by simp [hostUp, off]), msixKick_none none]
  rfl

/-- Settles O6: training and configuration end in `hostFlush` and `msixKick`, which do nothing while the link does not serve. -/
theorem linkTrainsAndConfigures : Obligations.LinkTrainsAndConfigures := by
  refine ⟨fun s alive down off => ?_, fun s n v flit alive width least most low flits => ?_, fun s n => ?_,
    fun s b alive trained serves off none size => ?_, fun s alive trained serves d3 => ?_, fun s i alive trained serves off none => ?_,
    fun s r alive trained reset going => ?_⟩
  · exact onPlain_of_eq ((linkTrained_full alive).trans (hostFlush_down (by simp [hostUp, off])))
  · have trained := linkTrained_low alive width least most low fun full => flits full
    obtain ⟨reads, waiting, nextTag, host, held, out, ctr, fresh, flushed⟩ := hostFlush_eq (errRecord
      { s.core with pci := { s.core.pci with lanes := n, speed := v.toNat, flit := flit, downtrain := min 255 (s.core.pci.downtrain + 1) } }
      { reason := rLinkDegraded, cls := 3, source := 5, arg := 0x80 + 256 * n })
    refine ⟨_, onPlain_of_eq (trained.trans flushed), ?_, ?_, ?_, ?_, ?_, ?_⟩
    case refine_6 => apply core_ext <;> simp
    all_goals simp
  · exact onPlain_of_fixed (f := fun k => linkTrained k n (6#3).toNat false) (by simp [linkTrained])
  · have set : cfgSet s.core.pci (.maxPayload b) = { s.core.pci with maxPayload := b } := by simp [cfgSet, size]
    have quiet := configRequest_quiet (.maxPayload b) alive trained serves (by simp [set, off]) (by simp [set, none])
    rw [set] at quiet
    exact onPlain_of_eq (f := (configRequest · _)) quiet
  · have up : hostUp (emit { s.core with pci := cfgSet s.core.pci (.busMaster true) } .cfgServed) = true := by
      simp [hostUp, cfgSet, trained, d3]
    obtain ⟨reads, waiting, nextTag, host, out, ctr, fresh, flushed, still⟩ := hostFlush_clears up
    have served := configRequest_served (.busMaster true) alive trained serves
    rw [show cfgAnswer s.core.pci (.busMaster true) = .cfgServed from rfl, flushed] at served
    obtain ⟨pend, out', kicked⟩ := msixKick_up (k := { emit { s.core with pci := cfgSet s.core.pci (.busMaster true) } .cfgServed with
      pci := { cfgSet s.core.pci (.busMaster true) with reads := reads, waiting := waiting, nextTag := nextTag }
      host := host, held := [], out := out, ctr := ctr, fresh := fresh }) up rfl
    exact ⟨_, onPlain_of_eq (f := (configRequest · _)) (served.trans kicked), rfl, rfl, rfl, still⟩
  · exact onPlain_of_eq (f := (configRequest · _)) (configRequest_quiet (.read i) alive trained serves off none)
  · refine onPlain_of_eq (f := fun k => configRequest k r) ?_
    simp [configRequest, alive, trained, cfgServes, startupStopped, reset, going, emit]

end Sys2Proof.Proofs.HostLink
end

section
/-! PROOFS. Power grants, leases and reports (R435 to R438). -/

namespace Sys2Proof.Proofs.Grants
open Sys2Proof.Machine Sys2Proof.Laws Sys2Proof.Proofs.PowerInForce Sys2Proof.Proofs.Resets Sys2Proof.Proofs.StackRows

theorem bump_cases (k : Core) (off n : Nat) : ∃ ctr, bump k off n = { k with ctr := ctr } := by
  unfold bump; split <;> exact ⟨_, rfl⟩

theorem onPlain_onlyIf_of_eq {s : State} {p : Core → Bool} {f : Core → Core} {k : Core} (on : p s.core = true) (e : f s.core = k) :
    onPlain s (onlyIf p f) = .next { s with core := k } := by rw [onPlain_onlyIf f on, e]

theorem onPlain_whenAlive_of_eq {s : State} {f : Core → Core} {k : Core} (on : alive s.core = true) (e : f s.core = k) :
    onPlain s (whenAlive f) = .next { s with core := k } := onPlain_onlyIf_of_eq (p := alive) on e

/-! ## Grants and leases (R436, R437) -/

theorem smbGrant_good {k : Core} (b : List Byte) (manages : smbManages k = true) : smbGrant k b .good = takeGrant k b none := by
  simp [smbGrant, manages]

theorem takeGrant_accepted {k : Core} {b : List Byte} {src : Option Nat} (ok : grantOk b = true) (path : pathOk k src = true)
    (new : newer k.pwr (grantOf b).seq = true) :
    takeGrant k b src = powerChange (bump k oGrants 1) (fun k => modPwr k (fun p => { p with
      grant := some (grantOf b), seen := some (grantOf b).mw, lastSeq := some (grantOf b).seq, from0 := p.force, periods := 0
      lapsed := false, fabSrc := src, force := if (grantOf b).mw < p.force ∨ (grantOf b).ramp = 0 then (grantOf b).mw else p.force })) := by
  simp [takeGrant, ok, path, new]

theorem takeGrant_malformed {k : Core} {b : List Byte} {src : Option Nat} (bad : grantOk b = false) :
    takeGrant k b src = bump k oGrantIgnored 1 := by
  simp [takeGrant, bad]

theorem leaseExpiry_due {k : Core} {g : Grant} (grant : k.pwr.grant = some g) (lease : g.lease ≠ 0)
    (clock : k.glb.st = .graze → k.pins.sysref = true) :
    leaseExpiry k = powerChange k (fun k => modPwr k (fun p => { p with
      grant := none, fabSrc := none, lapsed := true, force := 1000 * rfld k oGrantDefault 10 0 })) := by
  have runs : (k.glb.st == .graze && !k.pins.sysref) = false := by simpa using clock
  simp [leaseExpiry, grant, lease, runs]

/-- Settles O9: an accepted grant and a lapse are changes of what forms the power in force. -/
theorem grantsAreTaken : Obligations.GrantsAreTaken := by
  refine ⟨fun s b manages ok path new => ?_, fun s b manages bad => ?_, fun s g on grant lease clock => ?_⟩
  · have taken := (smbGrant_good b manages).trans (takeGrant_accepted ok path new)
    obtain ⟨ctr, counted⟩ := bump_cases s.core oGrants 1
    rw [counted] at taken
    obtain ⟨cause, steady, fab, ctr', out, fresh, change⟩ := powerChange_cases { s.core with ctr := ctr } (fun k => modPwr k (fun p => { p with
      grant := some (grantOf b), seen := some (grantOf b).mw, lastSeq := some (grantOf b).seq, from0 := p.force, periods := 0
      lapsed := false, fabSrc := none, force := if (grantOf b).mw < p.force ∨ (grantOf b).ramp = 0 then (grantOf b).mw else p.force }))
    exact ⟨_, onPlain_of_eq (f := (smbGrant · b .good)) (taken.trans change), rfl, rfl, rfl, rfl, rfl, rfl, rfl, rfl⟩
  · exact onPlain_of_eq (f := (smbGrant · b .good)) ((smbGrant_good b manages).trans (takeGrant_malformed bad))
  · obtain ⟨cause, steady, fab, ctr, out, fresh, change⟩ := powerChange_cases s.core (fun k => modPwr k (fun p => { p with
      grant := none, fabSrc := none, lapsed := true, force := 1000 * rfld k oGrantDefault 10 0 }))
    exact ⟨_, onPlain_onlyIf_of_eq on ((leaseExpiry_due grant lease clock).trans change), rfl, rfl, rfl, rfl, rfl, rfl⟩

/-! ## Reports (R437, R438) -/

@[simp] theorem length_leBytes (n x : Nat) : (leBytes n x).length = n := by
  induction n generalizing x with
  | zero => rfl
  | succ n ih => simp [leBytes, ih]

theorem smbReport_average {k : Core} (manages : smbManages k = true) (state : k.glb.st ≠ .graze) :
    ∃ l pec, smbReport k = { k with fresh := k.fresh + 1, out := .smb (28 :: l ++ [pec]) :: k.out } ∧ l.length = 28 ∧
      (l.drop 4).take 4 = leBytes 4 (powerInForce k) := by
  simp only [smbReport, manages, state, drawNat, Bool.not_true, Bool.false_eq_true, if_false]
  refine ⟨_, _, rfl, ?_, ?_⟩
  · simp [reportBody]
  · simp [reportBody, leBytes, powerInForce]

theorem reportPeriod_fabric {k : Core} {g : Grant} {n : Nat} (mw : Nat) (grant : k.pwr.grant = some g) (asked : g.report ≠ 0)
    (src : k.pwr.fabSrc = some n) (state : k.glb.st ≠ .graze) :
    reportPeriod k mw = routeFrame k (mkFrame k n tReport 0 0 0 0 (reportBody k mw) []) := by
  simp [reportPeriod, grant, asked, sendReport, src, state]

theorem not_graze_of_memoryOn {k : Core} (on : memoryOn k = true) : k.glb.st ≠ .graze := by
  intro graze
  simp [memoryOn, alive, graze] at on

/-- Settles O10: a report's body is 28 bytes with the power in force at its fifth. -/
theorem reportsAnswer : Obligations.ReportsAnswer := by
  refine ⟨fun s manages state => ?_, fun s g n mw on grant asked src => ?_⟩
  · obtain ⟨l, pec, sent, length, power⟩ := smbReport_average manages state
    refine ⟨_, _, onPlain_of_eq sent, by simp [length], rfl, ?_⟩
    rw [← power, List.cons_append, List.drop_succ_cons, List.drop_append_of_le_length (by omega),
      List.take_append_of_le_length (by rw [List.length_drop]; omega)]
  · exact onPlain_onlyIf_of_eq (f := (reportPeriod · mw)) on (reportPeriod_fabric mw grant asked src (not_graze_of_memoryOn on))

end Sys2Proof.Proofs.Grants
end

section
/-! PROOFS. Power states (R39, R460 to R467): wake sources, the exit from HOLD, the GRAZE sampler and the ends of an entry handshake. -/

namespace Sys2Proof.Proofs.PowerStates
open Sys2Proof.Machine Sys2Proof.Laws Sys2Proof.Proofs.Resets Sys2Proof.Proofs.StartUp Sys2Proof.Proofs.Grants

/-! ## Wake and exit (R39, R464, R465) -/

theorem onCore_of_eq {s : State} {a b : Core} (e : a = b) : onCore s (fun _ => a) = .next (s.finish b) := by rw [← e]; rfl

theorem wakeNAssert_seen {k : Core} {n : Nat} (clock : aclkOn k = true) (state : pstateOf k ≠ 0) (long : 4 ≤ n) :
    wakeNAssert k n = { k with fresh := k.fresh + 1, pst := { k.pst with wakeSeen := true } } := by
  simp [wakeNAssert, clock, state, long, show 2 ≤ n by omega, drawBool, modPst]

theorem powerWake_begins {k : Core} {n : Nat} (state : pstateOf k ≠ 0) (idle : k.pst.waking = false)
    (active : sourceActive k (pstateOf k) n = true) :
    powerWake k n = { k with pst := { k.pst with waking := true, lastWake := n, fromGraze := k.glb.st == .graze } } := by
  simp [powerWake, state, idle, active, modPst]

theorem softStartAll_cases (k : Core) (l : List Nat) : ∃ tiles, softStartAll k l = { k with tiles := tiles } := by
  unfold softStartAll
  induction l generalizing k with
  | nil => exact ⟨_, rfl⟩
  | cons t l ih =>
    obtain ⟨tiles, rest⟩ := ih (modTile k t (fun q => { q with soft := softStart k }))
    exact ⟨tiles, rest⟩

theorem apRetry_none {k : Core} (none : k.pst.heldBar4 = []) : apRetry k = k := by
  have same : { k.pst with heldBar4 := [] } = k.pst := by rw [← none]
  simp [apRetry, none, same]

theorem heldGrantTaken_none {k : Core} (none : k.pwr.heldGrant = none) : heldGrantTaken k = k := by
  simp [heldGrantTaken, none]

theorem releaseHeld_none {k : Core} (none : k.fab.held = []) : releaseHeld k = k := by
  have same : { k.fab with held := [] } = k.fab := by rw [← none]
  simp [releaseHeld, none, same]

/-- The exit from HOLD with nothing held: a state-change record, the handshake's end and a soft start (R465). -/
theorem powerExitComplete_hold {k : Core} (waking : k.pst.waking = true) (from_ : k.pst.fromGraze = false)
    (bar4 : k.pst.heldBar4 = []) (frames : k.fab.held = []) (grant : k.pwr.heldGrant = none) :
    ∃ tiles, powerExitComplete k true = { modPst (setState k .enabled) (fun p => { p with
      handshake := 0, waking := false, wakeSeen := false, asked := false, runs := [] }) with tiles := tiles } := by
  obtain ⟨tiles, started⟩ := softStartAll_cases (modPst (setState k .enabled) (fun p => { p with
      handshake := 0, waking := false, wakeSeen := false, asked := false, runs := [] })) (upFrom 0 256)
  refine ⟨tiles, ?_⟩
  simp only [powerExitComplete, waking, from_, Bool.not_true, Bool.false_and, Bool.false_eq_true, if_false, started]
  rw [apRetry_none (by simp [bar4]), heldGrantTaken_none (by simp [grant]), releaseHeld_none (by simp [frames])]

@[simp] theorem setState_glb {k : Core} (st : DevState) : (setState k st).glb = { k.glb with st := st } := by
  unfold setState
  split
  · next same => rw [← same]
  · simp

/-! ## The GRAZE sampler (R467) -/

theorem cmpStep_cases (r : GrazeReadings) (g : Nat) (k : Core) (n : Nat) :
    ∃ runs hit, cmpStep r g k n = { k with pst := { k.pst with runs := runs, hit := hit } } := by
  unfold cmpStep
  extract_lets on k1
  by_cases active : cmpActive k1 n = true
  · exact ⟨_, _, by rw [if_pos active]; rfl⟩
  · exact ⟨_, _, by rw [if_neg active]; rfl⟩

theorem foldl_cmpStep_cases (r : GrazeReadings) (g : Nat) (l : List Nat) (k : Core) :
    ∃ runs hit, l.foldl (cmpStep r g) k = { k with pst := { k.pst with runs := runs, hit := hit } } := by
  induction l generalizing k with
  | nil => exact ⟨_, _, rfl⟩
  | cons n l ih =>
    obtain ⟨_, _, one⟩ := cmpStep_cases r g k n
    obtain ⟨_, _, rest⟩ := ih (cmpStep r g k n)
    exact ⟨_, _, by rw [List.foldl_cons, rest, one]⟩

/-- What counting a sample, storing its word `w` and comparing it leave. -/
theorem storeSample_cases (k : Core) (r : GrazeReadings) (g : Nat) (w : W64) :
    ∃ ctr runs hit, (upFrom 0 8).foldl (cmpStep r g) (modPst (bump (drawNat k).2 oGrazeCycles 1) (fun p => { p with last := w })) =
      { k with pst := { k.pst with last := w, runs := runs, hit := hit }, ctr := ctr, fresh := k.fresh + 1 } := by
  obtain ⟨ctr, counted⟩ := bump_cases (drawNat k).2 oGrazeCycles 1
  rw [counted]
  obtain ⟨runs, hit, compared⟩ := foldl_cmpStep_cases r g (upFrom 0 8) _
  exact ⟨ctr, runs, hit, compared⟩

theorem sampleWord_fields (r : GrazeReadings) (g : Nat) :
    let w := (BitVec.ofNat 64 (r.temp.toNat + r.core0.toNat * 2 ^ 8 + r.core1.toNat * 2 ^ 18 + r.hbm.toNat * 2 ^ 28 +
      r.power.toNat * 2 ^ 36 + g * 2 ^ 47)).toNat
    w % 256 = r.temp.toNat ∧ bits w 17 8 = r.core0.toNat ∧ bits w 27 18 = r.core1.toNat ∧ bits w 35 28 = r.hbm.toNat ∧
    bits w 46 36 = r.power.toNat := by
  have temp := r.temp.isLt
  have core0 := r.core0.isLt
  have core1 := r.core1.isLt
  have hbm := r.hbm.isLt
  have power := r.power.isLt
  simp only [bits, BitVec.toNat_ofNat]
  omega

theorem grazeSample_cases {k : Core} (r : GrazeReadings) (graze : k.glb.st = .graze) (clock : aclkOn k = true)
    (idle : k.pst.waking = false) :
    ∃ w : W64, (w.toNat % 256 = r.temp.toNat ∧ bits w.toNat 17 8 = r.core0.toNat ∧ bits w.toNat 27 18 = r.core1.toNat ∧
        bits w.toNat 35 28 = r.hbm.toNat ∧ bits w.toNat 46 36 = r.power.toNat) ∧
      ∃ ctr runs hit, grazeSample k r = { k with
        pst := { k.pst with last := w, runs := runs, hit := hit }, ctr := ctr, fresh := k.fresh + 1 } := by
  rw [grazeSample, if_pos ⟨graze, clock, idle⟩]
  exact ⟨_, sampleWord_fields r _, storeSample_cases k r _ _⟩

/-- Settles O11. -/
theorem wakesBringTheDeviceBack : Obligations.WakesBringTheDeviceBack := by
  refine ⟨fun s n clock state long => ?_, fun s src state idle active => ?_, fun s _ waking from_ bar4 frames grant => ?_,
    fun s r graze clock idle => ?_⟩
  · exact ⟨_, onPlain_of_eq (f := (wakeNAssert · n)) (wakeNAssert_seen clock state long)⟩
  · exact onPlain_of_eq (f := (powerWake · src.toNat)) (powerWake_begins state idle active)
  · obtain ⟨tiles, exits⟩ := powerExitComplete_hold waking from_ bar4 frames grant
    refine ⟨_, onCore_of_eq exits, ?_⟩
    simp
  · obtain ⟨w, ⟨temp, core0, core1, hbm, power⟩, ctr, runs, hit, sampled⟩ := grazeSample_cases r graze clock idle
    exact ⟨_, onPlain_of_eq (f := (grazeSample · r)) sampled, temp, core0, core1, hbm, power, rfl, rfl, rfl⟩

/-! ## The ends of an entry handshake (R460 to R462) -/

theorem entryCommit_agreed {k : Core} {f : Flt} (t : W32) (state : k.glb.st = .enabled) (entering : enterFlt k = some f)
    (may : mayCommit k = true) :
    entryCommit k t = retireFlt (setState (modPst (payRefresh k) (fun p => { p with
        handshake := 2, runs := [], wakeSeen := false, asked := false, waking := false })) (if k.pst.target = 2 then .graze else .hold)) f 0 0
      (leBytes 4 (if k.pst.target = 2 then DevState.graze else .hold).code ++ leBytes 4 t.toNat) := by
  simp [entryCommit, entering, state, may]

theorem entryFails_eq {k : Core} {f : Flt} (arg : Nat) (entering : enterFlt k = some f) :
    entryFails k arg =
      retireFlt (bump { k with pst := { k.pst with handshake := 0, wakeSeen := false } } oEntryRefused 1) f rPowerRefused arg [] := by
  simp [entryFails, entering, modPst]

/-- Settles O12. -/
theorem entryHandshakeEnds : Obligations.EntryHandshakeEnds := by
  refine ⟨fun s f t state entering may => ?_, fun s f state entering => ⟨fun b c refuses => ?_, fun b delays => ?_, fun n active => ?_⟩⟩
  · have commits := entryCommit_agreed t state entering may
    rw [setState_ne (by simp [payRefresh, state]; split <;> simp)] at commits
    refine ⟨_, onPlain_of_eq (f := (entryCommit · t)) commits, by simp [payRefresh], by simp [retireFlt, payRefresh],
      by simp [payRefresh], by simp [payRefresh], ?_⟩
    apply core_ext <;> simp [payRefresh]
  · exact onCore_of_eq (show entryRefused s.core (.refused b) = _ by
      simp [entryRefused, state, refuses, entryFails_eq _ entering])
  · exact onCore_of_eq (show entryRefused s.core (.delayLimit b) = _ by
      simp [entryRefused, state, delays, entryFails_eq _ entering])
  · exact onCore_of_eq (show entryRefused s.core (.woken n) = _ by
      simp [entryRefused, state, active, entryFails_eq _ entering])

end Sys2Proof.Proofs.PowerStates
end

section
/-! PROOFS. The power laws (R26, R436, R441 to R450): periods, dividers, droops, soft starts and measurements. -/

namespace Sys2Proof.Proofs.PowerLaws
open Sys2Proof.Machine Sys2Proof.Laws Sys2Proof.Proofs.PowerInForce Sys2Proof.Proofs.Resets Sys2Proof.Proofs.StartUp
open Sys2Proof.Proofs.Grants Sys2Proof.Proofs.StackRows Sys2Proof.Proofs.Reads Sys2Proof.Proofs.ResetFrames

theorem dom_modDom (k : Core) (n j : Nat) (f : Dom → Dom) : dom (modDom k n f) j = if j = n then f (dom k n) else dom k j := mget_mmod ..

theorem slew_cases (k : Core) : ∃ ctr fresh, slew k = { k with ctr := ctr, fresh := fresh } := by
  simp only [slew, drawNat]
  obtain ⟨ctr, counted⟩ := bump_cases { k with fresh := k.fresh + 1 } oSlewHold (Config.freeNat k.fresh)
  exact ⟨ctr, _, counted⟩

/-! ## The fast period (R26, R436, R442) -/

theorem fastDom_cases (i : FastIn) (k : Core) (d : Nat) :
    ∃ doms ctr fresh, fastDom i k d = { k with doms := doms, ctr := ctr, fresh := fresh } ∧
      ∀ e, domInUse k e = false → mget {} doms e = dom k e := by
  unfold fastDom
  by_cases use : domInUse k d = true
  · simp only [use, Bool.not_true, Bool.false_eq_true, if_false]
    split
    · obtain ⟨ctr, fresh, slewed⟩ := slew_cases k
      rw [slewed]
      refine ⟨_, ctr, fresh, rfl, fun e unused => ?_⟩
      rw [mget_mmod, if_neg (by rintro rfl; simp [use] at unused)]
      rfl
    · refine ⟨_, _, _, rfl, fun e unused => ?_⟩
      rw [mget_mmod, if_neg (by rintro rfl; simp [use] at unused)]
      rfl
  · exact ⟨_, _, _, by simp only [use]; rfl, fun _ _ => rfl⟩

theorem foldl_fastDom_cases (i : FastIn) (l : List Nat) (k : Core) :
    ∃ doms ctr fresh, l.foldl (fastDom i) k = { k with doms := doms, ctr := ctr, fresh := fresh } ∧
      ∀ e, domInUse k e = false → mget {} doms e = dom k e := by
  induction l generalizing k with
  | nil => exact ⟨_, _, _, rfl, fun _ _ => rfl⟩
  | cons d l ih =>
    obtain ⟨doms, ctr, fresh, one, kept⟩ := fastDom_cases i k d
    obtain ⟨doms', ctr', fresh', rest, kept'⟩ := ih (fastDom i k d)
    rw [one] at rest kept'
    exact ⟨doms', ctr', fresh', by rw [List.foldl_cons, one, rest], fun e unused => (kept' e unused).trans (kept e unused)⟩

theorem fastPeriod_cases (k : Core) (i : FastIn) :
    ∃ doms cause steady fab ctr out fresh, fastPeriod k i = { k with
        pwr := { k.pwr with
          fastNo := k.pwr.fastNo + 1, periods := k.pwr.periods + 1, force := rampTo k.pwr (k.pwr.periods + 1), tmax := i.tmax.toNat
          cause := cause, steady := steady }
        doms := doms, fab := fab, ctr := ctr, out := out, fresh := fresh } ∧
      ∀ e, domInUse k e = false → mget {} doms e = dom k e := by
  obtain ⟨cause, steady, fab, ctr, out, fresh, change⟩ := powerChange_cases k (fun k => modPwr k (fun p => { p with
    fastNo := p.fastNo + 1, periods := p.periods + 1, force := rampTo p (p.periods + 1), tmax := i.tmax.toNat }))
  simp only [fastPeriod]
  rw [change]
  obtain ⟨doms, ctr', fresh', ceilings, kept⟩ := foldl_fastDom_cases i (upFrom 0 5) _
  exact ⟨doms, cause, steady, fab, ctr', out, fresh', ceilings, kept⟩

/-! ## The slow period and dividers (R443 to R445) -/

/-- Every tile of a list gets a divider asked for, and the domain its turns. -/
theorem setDividers_cases (k : Core) (d : Nat) (g : Nat → Nat) (ts : List Nat) :
    ∃ tiles, modDom (ts.foldl (fun k t => modTile k t (fun x => { x with reqDiv := g x.reqDiv })) k) d (fun x => { x with divTurns := ts }) =
      modDom { k with tiles := tiles } d (fun x => { x with divTurns := ts }) := by
  have folded (l : List Nat) (k : Core) :
      ∃ tiles, l.foldl (fun k t => modTile k t (fun x => { x with reqDiv := g x.reqDiv })) k = { k with tiles := tiles } := by
    induction l generalizing k with
    | nil => exact ⟨_, rfl⟩
    | cons t l ih =>
      obtain ⟨tiles, rest⟩ := ih (modTile k t (fun x => { x with reqDiv := g x.reqDiv }))
      exact ⟨tiles, rest⟩
  obtain ⟨tiles, eqn⟩ := folded ts k
  exact ⟨tiles, by rw [eqn]⟩

/-- A domain's slow period starts its two conditions again and touches no other domain. -/
theorem slowDom_cases (k : Core) (d : Nat) :
    ∃ doms tiles, slowDom k d = { k with doms := doms, tiles := tiles } ∧ (mget {} doms d).allLow = true ∧ (mget {} doms d).allFull = true ∧
      ∀ e, e ≠ d → mget {} doms e = dom k e := by
  have restarts (k t : Core) (tiles : SMap Tile) (f : Dom → Dom) (e : t = modDom { k with tiles := tiles } d f) :
      ∃ doms tiles, modDom t d (fun x => { x with allLow := true, allFull := true }) = { k with doms := doms, tiles := tiles } ∧
        (mget {} doms d).allLow = true ∧ (mget {} doms d).allFull = true ∧ ∀ e, e ≠ d → mget {} doms e = dom k e := by
    subst e
    refine ⟨_, tiles, rfl, by simp [mget_mmod], by simp [mget_mmod], fun e ne => ?_⟩
    simp [modDom, mget_mmod, ne, dom]
  have keeps (k : Core) : ∃ doms tiles, modDom k d (fun x => { x with allLow := true, allFull := true }) =
      { k with doms := doms, tiles := tiles } ∧ (mget {} doms d).allLow = true ∧ (mget {} doms d).allFull = true ∧
        ∀ e, e ≠ d → mget {} doms e = dom k e :=
    ⟨_, _, rfl, by simp [mget_mmod], by simp [mget_mmod], fun e ne => by simp [mget_mmod, ne, dom]⟩
  simp only [slowDom]
  split
  · exact keeps k
  · split
    · obtain ⟨tiles, eqn⟩ := setDividers_cases k d (fun r => min (r + 1) 12) (domTiles k d)
      exact restarts k _ tiles _ eqn
    · split
      · obtain ⟨tiles, eqn⟩ := setDividers_cases k d (fun r => max (r - 1) (if rfld k oPwrCtl 2 2 = 1 then 5 else 6)) (domTiles k d)
        exact restarts k _ tiles _ eqn
      · exact keeps k

theorem slowDom_restarts (k : Core) (d : Nat) : (dom (slowDom k d) d).allLow = true ∧ (dom (slowDom k d) d).allFull = true := by
  obtain ⟨doms, tiles, eqn, low, full, -⟩ := slowDom_cases k d
  rw [eqn]
  exact ⟨low, full⟩

theorem slowDom_keeps {k : Core} {e : Nat} (d : Nat) (h : (dom k e).allLow = true ∧ (dom k e).allFull = true) :
    (dom (slowDom k d) e).allLow = true ∧ (dom (slowDom k d) e).allFull = true := by
  by_cases same : e = d
  · exact same ▸ slowDom_restarts k d
  · obtain ⟨doms, tiles, eqn, -, -, others⟩ := slowDom_cases k d
    rw [eqn, show dom { k with doms := doms, tiles := tiles } e = dom k e from others e same]
    exact h

theorem slowPeriod_restarts (k : Core) {d : Nat} (small : d < 5) :
    (dom (slowPeriod k) d).allLow = true ∧ (dom (slowPeriod k) d).allFull = true :=
  foldl_establishes (P := fun k => (dom k d).allLow = true ∧ (dom k d).allFull = true) (fun k => slowDom_restarts k d)
    (fun _ y h => slowDom_keeps y h) (by simp [small]) k

theorem slowPeriod_cases (k : Core) : ∃ doms tiles, slowPeriod k = { k with doms := doms, tiles := tiles } := by
  have folded (l : List Nat) (k : Core) : ∃ doms tiles, l.foldl slowDom k = { k with doms := doms, tiles := tiles } := by
    induction l generalizing k with
    | nil => exact ⟨_, _, rfl⟩
    | cons d l ih =>
      obtain ⟨doms, tiles, eqn, -⟩ := slowDom_cases k d
      obtain ⟨doms', tiles', rest⟩ := ih (slowDom k d)
      exact ⟨doms', tiles', by rw [List.foldl_cons, rest, eqn]⟩
  exact folded _ k

theorem dividerApply_turn {k : Core} {t : Nat} (turn : (dom k (domOfTile k t)).divTurns.head? = some t) :
    ∃ ctr fresh, dividerApply k t = modDom (modTile { k with ctr := ctr, fresh := fresh } t
        (fun q => { q with div := max (tile k t).reqDiv (fcapOf k t) })) (domOfTile k t) (fun q => { q with divTurns := q.divTurns.drop 1 }) := by
  obtain ⟨ctr, fresh, slewed⟩ := slew_cases k
  rw [dividerApply, if_pos turn]
  dsimp only
  split
  · exact ⟨ctr, fresh, by rw [slewed]⟩
  · exact ⟨_, _, rfl⟩

/-- Settles O13. -/
theorem powerLawsActOnTiles : Obligations.PowerLawsActOnTiles := by
  refine ⟨fun s i on => ?_, fun s on => ?_, fun s t on turn => ?_, fun s t on => ?_, fun s t on => onPlain_whenAlive_of_eq on rfl,
    fun s t on => ?_⟩
  · obtain ⟨doms, cause, steady, fab, ctr, out, fresh, eqn, kept⟩ := fastPeriod_cases s.core i
    exact ⟨_, onPlain_whenAlive_of_eq (f := (fastPeriod · i)) on eqn, rfl, rfl, rfl, rfl, fun d _ unused => kept d unused, rfl, rfl, rfl,
      rfl, rfl⟩
  · refine ⟨_, onPlain_whenAlive_of_eq on rfl, fun d small => slowPeriod_restarts s.core small, ?_⟩
    obtain ⟨doms, tiles, eqn⟩ := slowPeriod_cases s.core
    rw [eqn]
  · obtain ⟨ctr, fresh, eqn⟩ := dividerApply_turn turn
    refine ⟨_, onPlain_whenAlive_of_eq (f := (dividerApply · t.toNat)) on eqn, ?_, ?_, rfl⟩
    · simp [tile, mget_mmod]
    · simp [dom, mget_mmod]
  · obtain ⟨ctr, eqn⟩ := bump_cases (modTile s.core t.toNat (fun q => { q with
      droop := max 1 (min 16 (rfld s.core oDroop 4 0)), clamped := true })) (oDroopCount (t.toNat / 128)) 1
    exact ⟨_, onPlain_whenAlive_of_eq (f := (droopFire · t.toNat)) on eqn, by simp [tile, mget_mmod], rfl⟩
  · obtain ⟨ctr, fresh, slewed⟩ := slew_cases s.core
    refine ⟨_, onPlain_whenAlive_of_eq (f := (softStartRise · t.toNat)) on (by rw [softStartRise, slewed]), ?_, ?_, rfl⟩
    · simp [tile, mget_mmod]
    · simp only [modTile, tile, mget_mmod, if_true]
      rfl

/-! ## Measurements (R441, R449, R450) -/

theorem windowRatio_used {k : Core} {e : Nat} (m : Nat) (used : e ≠ 0) : windowRatio k e m = (max 128 (min 512 (256 * m / e)), k) := by
  simp [windowRatio, used]

/-- What a change of the disagreement leaves. -/
theorem setDisagree_frame (k : Core) (b : Bool) :
    let t := powerChange k (fun k => modPwr k (fun p => { p with disagree := b }))
    t.pwr.measured = k.pwr.measured ∧ t.pwr.energy = k.pwr.energy ∧ t.pwr.ratio = k.pwr.ratio ∧ t.pwr.force = k.pwr.force ∧ t.glb = k.glb ∧
      t.regs = k.regs ∧ t.seqs = k.seqs ∧ t.objs = k.objs := by
  obtain ⟨cause, steady, fab, ctr, out, fresh, change⟩ := powerChange_cases k (fun k => modPwr k (fun p => { p with disagree := b }))
  rw [change]
  exact ⟨rfl, rfl, rfl, rfl, rfl, rfl, rfl, rfl⟩

/-- What a window's end leaves where the disagreement may begin or end. -/
theorem judgeDisagreement_frame (k : Core) (r : Nat) :
    let t :=
      if !k.pwr.disagree && decide (16 ≤ k.pwr.disRun) then
        errRecord (bump (powerChange k (fun k => modPwr k (fun p => { p with disagree := true }))) oDisagreeCount 1)
          { reason := rDisagree, cls := 3, source := 6, opOnly := true, arg := r }
      else if k.pwr.disagree && decide (64 ≤ k.pwr.agreeRun) then powerChange k (fun k => modPwr k (fun p => { p with disagree := false }))
      else k
    t.pwr.measured = k.pwr.measured ∧ t.pwr.energy = k.pwr.energy ∧ t.pwr.ratio = k.pwr.ratio ∧ t.pwr.force = k.pwr.force ∧ t.glb = k.glb ∧
      t.regs = k.regs ∧ t.seqs = k.seqs ∧ t.objs = k.objs := by
  dsimp only
  split
  · simp [setDisagree_frame]
  · split
    · simp [setDisagree_frame]
    · simp

theorem estimatorWindow_frame {k : Core} {e : Nat} (m : Nat) (used : e ≠ 0) :
    let t := estimatorWindow k e m
    t.pwr.measured = m ∧ t.pwr.energy = k.pwr.energy + 4096 * m ∧ t.pwr.ratio = max 128 (min 512 (256 * m / e)) ∧
      t.pwr.force = k.pwr.force ∧ t.glb = k.glb ∧ t.regs = k.regs ∧ t.seqs = k.seqs ∧ t.objs = k.objs := by
  dsimp only
  rw [estimatorWindow, windowRatio_used m used]
  exact judgeDisagreement_frame _ _

/-- A change that leaves the power in force leaves the interval steady. -/
theorem powerChange_steady {k : Core} {f : Core → Core} (steady : (f k).pwr.steady = true) (same : powerInForce (f k) = powerInForce k) :
    (powerChange k f).pwr.steady = true := by
  simp only [powerChange, drawNat]
  split
  · obtain ⟨fab, ctr, out, sent⟩ := sendReport_cases _ _
    rw [sent]
    simp [steady, same]
  · simp [steady, same]

theorem complianceInterval_within {k : Core} {mw : Nat} (within : mw ≤ powerInForce k) :
    complianceInterval k mw = powerChange { k with pwr := { k.pwr with steady := true } }
      (fun k => modPwr k (fun p => { p with shortfall := false })) := by
  have under : ¬ powerInForce k * 102 < mw * 100 := by omega
  simp [complianceInterval, under, within]

/-- Settles O14. -/
theorem measurementsMoveLimits : Obligations.MeasurementsMoveLimits := by
  refine ⟨fun s e m on used => ?_, fun s c on => ?_, fun s mw on within => ?_⟩
  · exact ⟨_, onPlain_onlyIf_of_eq (f := (estimatorWindow · e m)) on rfl, estimatorWindow_frame m used⟩
  · obtain ⟨cause, steady, fab, ctr, out, fresh, change⟩ := powerChange_cases s.core (fun k => modPwr k (fun p => { p with
      tmax := c
      therm := if max 60 (min 98 (rfld s.core oTherm 7 0)) < c then max 300 (p.therm - 4 * (c - max 60 (min 98 (rfld s.core oTherm 7 0))))
        else if c + 2 < max 60 (min 98 (rfld s.core oTherm 7 0)) then min 1800 (p.therm + 1) else p.therm }))
    refine ⟨_, onPlain_onlyIf_of_eq (f := (thermalLaw · c)) on change, rfl, fun above => if_pos above, fun below => ?_,
      fun reached near => ?_, rfl⟩
    · exact (if_neg (by omega)).trans (if_pos below)
    · exact (if_neg (by omega)).trans (if_neg (by omega))
  · obtain ⟨cause, steady, fab, ctr, out, fresh, change⟩ := powerChange_cases { s.core with pwr := { s.core.pwr with steady := true } }
      (fun k => modPwr k (fun p => { p with shortfall := false }))
    refine ⟨_, onPlain_whenAlive_of_eq (f := (complianceInterval · mw)) on ((complianceInterval_within within).trans change), rfl, ?_, rfl⟩
    rw [← change]
    exact powerChange_steady rfl rfl

end Sys2Proof.Proofs.PowerLaws
end

section
/-! PROOFS. What a fail-stop (R511) leaves: no step runs, no instruction is in flight, the Security Core is as it was and the fault status
has the first fatal record. -/

namespace Sys2Proof.Proofs.FaultRecord
open Sys2Proof.Machine Sys2Proof.Laws Sys2Proof.Proofs.Reads Sys2Proof.Proofs.ResetFrames

/-! ## Operations that write no fault status (R511) -/

@[simp] theorem modERing_last (k : Core) (r : Nat) (f : ERing → ERing) : (modERing k r f).err.last = k.err.last := by
  unfold modERing; split <;> rfl

@[simp] theorem errToRing_last (k : Core) (r : Nat) (e : ErrRec) (n : Nat) : (errToRing k r e n).err.last = k.err.last := by
  simp only [errToRing]; split <;> [skip; split] <;> simp

@[simp] theorem errRecord_last (k : Core) (e : ErrRec) : (errRecord k e).err.last = k.err.last := by
  simp only [errRecord]; split <;> simp

@[simp] theorem beginFetch_last (k : Core) (h a : Nat) : (beginFetch k h a).err.last = k.err.last := by
  simp only [beginFetch]; split <;> simp

@[simp] theorem evictUntil_last (k : Core) (d n : Nat) (limit skip : Option Nat) (fuel : Nat) :
    (evictUntil k d n limit skip fuel).err.last = k.err.last := by
  induction fuel generalizing k with
  | zero => simp [evictUntil]
  | succ fuel ih => unfold evictUntil; split <;> [skip; split] <;> simp [ih]

@[simp] theorem takeSpace_last (k : Core) (h : Nat) (skip : Option Nat) : (takeSpace k h skip).err.last = k.err.last := by
  simp only [takeSpace]; split <;> simp

@[simp] theorem takeOrDrop_last (k : Core) (h : Nat) (limit skip : Option Nat) : (takeOrDrop k h limit skip).err.last = k.err.last := by
  simp only [takeOrDrop]; split <;> [skip; split] <;> simp

@[simp] theorem retryWants_last (k : Core) : (retryWants k).err.last = k.err.last := by
  refine foldl_fixes (g := fun k => k.err.last) (fun k h => ?_) _ k
  dsimp only
  split <;> [skip; split] <;> simp

@[simp] theorem reportBlock_last (k : Core) (px h n check : Nat) : (reportBlock k px h n check).err.last = k.err.last := by
  simp only [reportBlock, loadPxLast]; split <;> [skip; split] <;> simp

@[simp] theorem checkOrphans_last (k : Core) (h : Nat) : (checkOrphans k h).err.last = k.err.last := by
  simp only [checkOrphans]
  split
  · rfl
  · refine foldl_fixes (g := fun k => k.err.last) (fun k n => ?_) _ k
    split <;> [skip; split] <;> simp

@[simp] theorem abandonReads_last (k : Core) (ts : List Nat) : (abandonReads k ts).err.last = k.err.last :=
  foldl_fixes (g := fun k => k.err.last) checkOrphans_last _ _

@[simp] theorem chargeEnergy_err (k : Core) (u : UStep) (e : Nat) : (chargeEnergy k u e).err = k.err := by
  simp only [chargeEnergy]
  split
  · rfl
  · refine foldl_fixes (g := Core.err) (fun k p => ?_) _ k
    split <;> simp

@[simp] theorem chargeEnergy_doms (k : Core) (u : UStep) (e : Nat) : (chargeEnergy k u e).doms = k.doms := by
  simp only [chargeEnergy]
  split
  · rfl
  · refine foldl_fixes (g := Core.doms) (fun k p => ?_) _ k
    split <;> simp

@[simp] theorem returnPages_last (k : Core) (d n : Nat) : (returnPages k d n).err.last = k.err.last := by
  refine foldl_fixes (g := fun k => k.err.last) (fun k p => ?_) _ k
  dsimp only
  split <;> simp

@[simp] theorem halveHot_last (k : Core) (d n : Nat) : (halveHot k d n).err.last = k.err.last := by unfold halveHot; split <;> simp

/-! ## Steps that are abandoned (R133, R511) -/

theorem stopTiles_rest (ts : List Nat) (k : Core) :
    (ts.foldl (fun k t => modTile k t Tile.stopped) k).err.last = k.err.last ∧
      (ts.foldl (fun k t => modTile k t Tile.stopped) k).doms = k.doms := by
  simpa using foldl_fixes (g := fun k => (k.err.last, k.doms)) (f := fun k t => modTile k t Tile.stopped) (fun k t => by simp) ts k

theorem dropPins_rest (l : List Nat) (k : Core) : (l.foldl dropPin k).err.last = k.err.last ∧ (l.foldl dropPin k).doms = k.doms := by
  simpa using foldl_fixes (g := fun k => (k.err.last, k.doms)) (f := dropPin) (fun k h => by simp [dropPin]) l k

theorem abandonStep_last (k : Core) (d : Nat) : (abandonStep k d).err.last = k.err.last := by
  unfold abandonStep
  split
  · rfl
  · simp [drawNat, stopTiles_rest, dropPins_rest]

theorem abandonStep_running (k : Core) (d e : Nat) :
    (dom (abandonStep k d) e).running = if e = d then none else (dom k e).running := by
  unfold abandonStep
  split
  · next idle =>
    split
    · next same => exact same ▸ idle
    · rfl
  · simp only [dom, drawNat, retryWants_memoryKept, halveHot_memoryKept, returnPages_memoryKept, modDom_fields, dropPins_rest,
      chargeEnergy_doms, abandonReads_memoryKept, stopTiles_rest, mget_mmod]
    split <;> rfl

theorem abandonAll_running (k : Core) {e : Nat} (small : e < 5) : (dom (abandonAll k) e).running = none := by
  have any : e ∈ [0, 1, 2, 3, 4] := by simp; omega
  refine foldl_establishes (P := fun k => (dom k e).running = none) (fun k => ?_) (fun k d idle => ?_) any k
  · simp [abandonStep_running]
  · simp [abandonStep_running, idle]

@[simp] theorem abandonAll_last (k : Core) : (abandonAll k).err.last = k.err.last :=
  foldl_fixes (g := fun k => k.err.last) abandonStep_last _ k

@[simp] theorem abandonAll_sec (k : Core) : (abandonAll k).sec = k.sec := foldl_fixes (g := Core.sec) (fun k d => by simp) _ k

/-! ## What a fail-stop reports (R430, R431, R543) -/

/-- Fault status, Security Core, step domains and what is in flight stay. -/
@[simp] abbrev FaultKept (k t : Core) : Prop := t.err.last = k.err.last ∧ t.sec = k.sec ∧ t.doms = k.doms ∧ t.flts = k.flts

theorem FaultKept.foldl {α : Type} {f : Core → α → Core} (hf : ∀ k x, FaultKept k (f k x)) (l : List α) (k : Core) :
    FaultKept k (l.foldl f k) := by
  simpa [FaultKept] using foldl_fixes (g := fun k => (k.err.last, k.sec, k.doms, k.flts)) (fun k x => by simp [hf k x]) l k

theorem endPort_faultKept (k : Core) (n : Nat) : FaultKept k (endPort k n) := by
  have recorded (l : List Ctl) (k : Core) :=
    FaultKept.foldl (f := fun k i => record k n i rWrongState DevState.halted.code []) (fun k i => by simp) l k
  simp only [endPort]
  split <;> simp [recorded]

@[simp] theorem endAll_rest (k : Core) :
    (endAll k).err.last = k.err.last ∧ (endAll k).sec = k.sec ∧ (endAll k).doms = k.doms ∧ (endAll k).flts = [] := by
  obtain ⟨last, sec, doms, -⟩ := FaultKept.foldl endPort_faultKept (k.ports.map Prod.fst) k
  exact ⟨last, sec, doms, rfl⟩

@[simp] theorem ownDown_faultKept (k : Core) (reason : Nat) : FaultKept k (ownDown k reason) :=
  FaultKept.foldl (fun k p => by simp [sendOn]) _ k

theorem entriesOf_faultKept {α : Type} (f : Core → Bool → α → List Byte) (l : List α) (k : Core) :
    FaultKept k (entriesOf f l k).2.2 := by
  have draw (k : Core) : FaultKept k (unreadable k).2 := by
    unfold unreadable; split <;> simp [drawBool]
  unfold entriesOf
  refine List.foldlRecOn l _ (motive := fun (r : List Byte × Bool × Core) => FaultKept k r.2.2) ⟨rfl, rfl, rfl, rfl⟩ (fun r kept x _ => ?_)
  have drawn := draw r.2.2
  simp_all

@[simp] theorem noteWrite_faultKept (k : Core) (h line n : Nat) : FaultKept k (noteWrite k h line n) := by
  unfold noteWrite; split <;> simp

@[simp] theorem failureRecord_faultKept (k : Core) (reason : Nat) : FaultKept k (failureRecord k reason) := by
  simp only [failureRecord]
  split
  · simp
  · split <;> simp [entriesOf_faultKept]

/-- A fail-stop of a device that runs. -/
theorem failStop_running {k : Core} (reason source inst arg : Nat) (off : k.glb.st ≠ .off) (halted : k.glb.st ≠ .halted) :
    let t := failStop k reason source inst arg
    t.glb.st = .halted ∧ t.glb.resetting = [] ∧ t.flts = [] ∧ (∀ e, e < 5 → (dom t e).running = none) ∧ t.sec = k.sec ∧
      t.err.last = some (k.err.last.getD (fatalRec reason source inst arg)) := by
  simp only [failStop, if_neg off, if_neg halted, abandonAll_last, dom]
  have idle := fun e small => abandonAll_running (e := e) k small
  cases last : k.err.last <;> simpa [last, dom] using idle

end Sys2Proof.Proofs.FaultRecord
end

section
/-! PROOFS. The debug port (R43, R64, R478, R493 to R495, R514). -/

namespace Sys2Proof.Proofs.DebugPort
open Sys2Proof.Machine Sys2Proof.Laws Sys2Proof.Proofs.Resets Sys2Proof.Proofs.Grants Sys2Proof.Proofs.Reads Sys2Proof.Proofs.FaultRecord
open Sys2Proof.Proofs.PowerStates

/-! ## Test commands and unlocks (R43, R494) -/

theorem dbgUnlock_taken {k : Core} {c : BitVec 256} (l : Nat) (pk sig : List Byte) (on : debugOn k = true)
    (challenge : k.sec.challenge = some c) (open_ : k.sec.lockout = false) :
    dbgUnlock k l pk sig = { k with
      pins := { k.pins with tapIns := 2 }
      sec := { k.sec with challenge := none, unlock := some { level := l, pk := pk, sig := sig, challenge := c } } } := by
  simp [dbgUnlock, on, challenge, open_, modSec, setTap]

theorem dbgUnlock_refused {k : Core} (l : Nat) (pk sig : List Byte) (on : debugOn k = true)
    (refused : k.sec.challenge = none ∨ k.sec.lockout = true) : dbgUnlock k l pk sig = setTap k 2 := by
  simp only [dbgUnlock, on, Bool.not_true, Bool.false_eq_true, if_false]
  split
  · rfl
  · next c challenge => simp [refused.resolve_left (by simp [challenge])]

theorem dbgUnlockVerified_cases {k : Core} {u : Unlock} (pending : k.sec.unlock = some u) :
    ∃ ctr, dbgUnlockVerified k = { k with ctr := ctr, sec := { k.sec with
        unlock := none
        level := if unlockOk k u then u.level else k.sec.level
        fails := if unlockOk k u then 0 else min 8 (k.sec.fails + 1)
        lockout := if unlockOk k u then k.sec.lockout else decide (8 ≤ k.sec.fails + 1) } } := by
  by_cases ok : unlockOk k u = true
  · exact ⟨_, by simp [dbgUnlockVerified, pending, ok, modSec]; rfl⟩
  · obtain ⟨ctr, counted⟩ := bump_cases k oDbgFail 1
    exact ⟨ctr, by simp [dbgUnlockVerified, pending, ok, modSec, counted]⟩

/-- Settles O15. -/
theorem debugPortCommands : Obligations.DebugPortCommands := by
  refine ⟨fun s n on long => ?_, fun s n short => ?_, fun s on => ⟨?_, ?_, ?_⟩, fun s r on => ?_, fun s locked => ?_,
    fun s l pk sig c on challenge open_ => ?_, fun s l pk sig on refused => ?_, fun s u pending => ?_⟩
  · exact onPlain_of_eq (f := (dbgTapReset · n)) (by simp [dbgTapReset, on, long, setTap])
  · exact onPlain_of_fixed (f := (dbgTapReset · n)) (by simp [dbgTapReset, show ¬ 5 ≤ n by omega])
  · exact onPlain_of_eq (by simp [dbgBypass, on, setTap])
  · exact onPlain_of_eq (by simp [dbgIdcode, on, setTap, emit])
  · exact onPlain_of_eq (by simp [dbgLock, on, setTap, modSec])
  · exact onPlain_of_eq (f := (dbgChallenge · r)) (by simp [dbgChallenge, on, setTap, modSec, emit])
  · exact onPlain_of_eq (by simp [dbgLockoutEnd, locked, modSec])
  · exact onPlain_of_eq (f := (dbgUnlock · l.toNat pk sig)) (dbgUnlock_taken l.toNat pk sig on challenge open_)
  · exact onPlain_of_eq (f := (dbgUnlock · l.toNat pk sig)) (dbgUnlock_refused l.toNat pk sig on refused)
  · obtain ⟨ctr, verified⟩ := dbgUnlockVerified_cases pending
    exact ⟨_, onPlain_of_eq verified, rfl, rfl⟩

/-! ## Levels (R478, R493, R495, R514) -/

theorem dbgRead_allowed {k : Core} {x : DbgTarget} (on : debugOn k = true) (level : dbgNeeds x ≤ debugLevel k) (wiped : dbgUnwiped k x = false) :
    ∃ n, dbgRead k x = { k with
        pins := { k.pins with tapIns := 2 }, fresh := n, out := .tdo (dbgData k x) :: k.out } ∧
      ((∀ st f, x ≠ .systemFrame st f) → n = k.fresh) := by
  have may : (debugLevel k < dbgNeeds x || dbgUnwiped k x) = false := by simp [level, wiped]
  simp only [dbgRead, on, may, Bool.not_true, Bool.false_eq_true, if_false]
  split
  · exact ⟨_, rfl, fun other => absurd rfl (other _ _)⟩
  · exact ⟨_, rfl, fun _ => rfl⟩

theorem dbgRead_refused {k : Core} {x : DbgTarget} (on : debugOn k = true) (refused : debugLevel k < dbgNeeds x ∨ dbgUnwiped k x = true) :
    dbgRead k x = setTap k 2 := by
  simp [dbgRead, on, refused]

/-- The boot ROM's frame: firmware slots, fuses and pins. -/
theorem stopStartup_frame (k : Core) (r : Bool) :
    (stopStartup k r).slotA = k.slotA ∧ (stopStartup k r).slotB = k.slotB ∧ (stopStartup k r).shadow = k.shadow ∧
      (stopStartup k r).pins = k.pins := ⟨rfl, rfl, rfl, rfl⟩

theorem lifeWipe_frame (k : Core) :
    (lifeWipe k).slotA = k.slotA ∧ (lifeWipe k).slotB = k.slotB ∧ (lifeWipe k).shadow = k.shadow ∧ (lifeWipe k).pins = k.pins := by
  have kept (f : Core → Nat → Fls → Fls) := foldl_fixes (g := fun k => (k.slotA, k.slotB, k.shadow, k.pins))
    (f := fun k s => modFls k s (f k s)) (fun k s => by simp) (upFrom 0 4) k
  simpa [lifeWipe] using kept fun _ _ f => (upFrom 0 57344).foldl (fun f l =>
    { f.setPunit (f.phys l) (fun p => { p with ecount := p.ecount + 1 }) with lunits := [] }) f

theorem bootRom_frame (k : Core) (b : BootReads) :
    (bootRom k b).slotA = k.slotA ∧ (bootRom k b).slotB = k.slotB ∧ (bootRom k b).shadow = k.shadow ∧ (bootRom k b).pins = k.pins := by
  have marked : ∀ k1, k1 = (if k.lifeMarker = k.sec.lc then k else lifeWipe k) →
      k1.slotA = k.slotA ∧ k1.slotB = k.slotB ∧ k1.shadow = k.shadow ∧ k1.pins = k.pins := by
    rintro k1 rfl
    split
    · exact ⟨rfl, rfl, rfl, rfl⟩
    · exact lifeWipe_frame k
  simp only [bootRom]
  generalize chosen : (if k.lifeMarker = k.sec.lc then k else lifeWipe k) = k1
  have kept := marked k1 chosen.symm
  split
  · exact stopStartup_frame k true
  · split
    · exact stopStartup_frame k false
    · split
      · exact stopStartup_frame k true
      · split
        · exact kept
        · next slot fb _ =>
          obtain ⟨m, measured⟩ := bootMeasure_measures k1 slot fb k1.sec.recovered
          rw [measured]
          exact kept

theorem dbgRecover_good {k : Core} {h img : List Byte} (on : debugOn k = true) (awaited : k.glb.recovery = true)
    (ok : slotOk k { header := padTo 16352 h, image := img, count := 1 } = true) (worn : (fls k 0).worn = false) :
    dbgRecover k h img = bootRom { k with
      pins := { k.pins with tapIns := 2 }, slotA := { header := padTo 16352 h, image := img, count := 1 }
      sec := { k.sec with recovered := true } } ⟨true, true⟩ := by
  simp [dbgRecover, on, awaited, ok, worn, setFwSlot, setTap, modSec]

theorem dbgRecover_bad {k : Core} {h img : List Byte} (on : debugOn k = true) (awaited : k.glb.recovery = true)
    (bad : (slotOk k { header := padTo 16352 h, image := img, count := 1 } && !(fls k 0).worn) = false) :
    dbgRecover k h img = setTap k 2 := by
  simp [dbgRecover, on, awaited, bad]

theorem finish_of_reset {s : State} {k : Core} (reset : k.glb.st = .reset) (held : k.pst.heldBar4 = []) :
    s.finish k = { s with fuse := k.burn.foldl Fuses.program s.fuse, core := { k with burn := [] } } := by
  simp [State.finish, followUps, tellTwin, alive, reset, held]

/-- Settles O16. -/
theorem debugLevelsOpenTheDevice : Obligations.DebugLevelsOpenTheDevice := by
  refine ⟨fun s x on level wiped => ?_, fun s x on refused => ?_, fun s t on level => ?_, fun s h img on awaited => ?_,
    fun s f on level => ⟨?_, fun reset burn held => ?_⟩, fun s on level reset halted => ?_⟩
  · obtain ⟨n, read, fresh⟩ := dbgRead_allowed on level wiped
    refine ⟨n, onPlain_of_eq (f := (dbgRead · x)) read, fresh, ?_, ?_, ?_, ?_, ?_⟩ <;> rintro _ <;> intros <;> subst x <;> rfl
  · exact onPlain_of_eq (f := (dbgRead · x)) (dbgRead_refused on refused)
  · refine ⟨_, onPlain_of_eq (f := (dbgTsHalt · t.toNat)) (show dbgTsHalt s.core t.toNat = modTile (setTap s.core 2) t.toNat _ by
      simp [dbgTsHalt, on, level]; rfl), rfl, ?_, fun u ne => ?_, rfl⟩
    · exact (tile_modTile _ _ _ _).trans (if_pos rfl)
    · exact (tile_modTile _ _ _ _).trans (if_neg ne)
  · refine ⟨fun ok worn => ?_, fun bad => onPlain_of_eq (f := (dbgRecover · h img)) (dbgRecover_bad on awaited bad)⟩
    obtain ⟨slotA, slotB, shadow, pins⟩ := bootRom_frame { s.core with
      pins := { s.core.pins with tapIns := 2 }, slotA := { header := padTo 16352 h, image := img, count := 1 }
      sec := { s.core.sec with recovered := true } } ⟨true, true⟩
    exact ⟨_, onPlain_of_eq (f := (dbgRecover · h img)) (dbgRecover_good on awaited ok worn), slotA, slotB, shadow, pins, rfl⟩
  · exact onCore_of_eq (show dbgFuseProgram s.core f = _ by simp [dbgFuseProgram, on, level, burnFuse, setTap])
  · simp [finish_of_reset, reset, burn, held]
  · have off : s.core.glb.st ≠ .off := by rintro off; simp [debugOn, off] at on
    have enters : bistEntry s.core = failStop (modSec (setTap s.core 2) (fun s => { s with bist := true })) rControlFault 0x0A 0 0x0A := by
      simp [bistEntry, on, level, reset]
    obtain ⟨st, -, -, -, sec, last⟩ := failStop_running (k := modSec (setTap s.core 2) (fun s => { s with bist := true }))
      rControlFault 0x0A 0 0x0A off halted
    exact ⟨_, onPlain_of_eq enters, st, sec ▸ rfl, last⟩

end Sys2Proof.Proofs.DebugPort
end

section
/-! PROOFS. The CLR bits (R19, R531): a write to a control register of counters stores its other bits and zeroes its block. -/

namespace Sys2Proof.Proofs.ClearBits
open Sys2Proof.Machine Sys2Proof.Laws Sys2Proof.Proofs.Resets

/-! ## Rows of the register map (R527 to R534) -/

theorem covers_iff {r : RegRow} {off : Nat} : r.covers off = true ↔
    r.base ≤ off ∧ (off - r.base) / r.s1 < r.n1 ∧ (off - r.base) % r.s1 % r.s2 = 0 ∧ (off - r.base) % r.s1 / r.s2 < r.n2 := by
  simp [RegRow.covers, and_assoc]

theorem covers_lt {r : RegRow} {off : Nat} (covers : r.covers off = true) (step : 0 < r.s1) : off < r.base + r.s1 * r.n1 := by
  obtain ⟨above, count, -, -⟩ := covers_iff.mp covers
  have := (Nat.div_lt_iff_lt_mul step).mp count
  rw [Nat.mul_comm] at this
  omega

/-- The tiles' registers have their rows at the end of the map. -/
theorem regRow_tile {off : Nat} (above : 0x200000 ≤ off) : regRow off = (regRowsF.drop 11).find? (fun r => r.covers off) := by
  have below : ∀ r ∈ regRowsA ++ regRowsB ++ regRowsC ++ regRowsD ++ regRowsE ++ regRowsF.take 11, 0 < r.s1 ∧ r.base + r.s1 * r.n1 ≤ 0x200000 := by
    decide
  have none : (regRowsA ++ regRowsB ++ regRowsC ++ regRowsD ++ regRowsE ++ regRowsF.take 11).find? (fun r => r.covers off) = none := by
    rw [List.find?_eq_none]
    intro r listed covers
    obtain ⟨step, ends⟩ := below r listed
    exact absurd (covers_lt covers step) (by omega)
  rw [regRow, show regRows = (regRowsA ++ regRowsB ++ regRowsC ++ regRowsD ++ regRowsE ++ regRowsF.take 11) ++ regRowsF.drop 11 from rfl,
    List.find?_append, none, Option.none_or]

/-- The row of one register in each tile's window. -/
def tileRow (a s2 : Nat) : RegRow := { base := 0x200000 + a, s1 := 0x2000, n1 := 256, s2 := s2, rw := 2 }

theorem tileRow_covers {t a s2 : Nat} (small : t < 256) : (tileRow a s2).covers (oTile t + a) = true := by
  have rel : oTile t + a - (0x200000 + a) = t * 0x2000 := by unfold oTile; omega
  refine covers_iff.mpr ⟨?_, ?_, ?_, ?_⟩ <;> dsimp only [tileRow]
  · unfold oTile; omega
  · rw [rel]; omega
  · rw [rel, Nat.mul_mod_left, Nat.zero_mod]
  · rw [rel, Nat.mul_mod_left, Nat.zero_div]; exact Nat.one_pos

theorem tileRow_other {t a b s2 : Nat} (ha : a < 0x2000) (hb : b < 0x2000) (ne : a ≠ b) (step : 0 < s2) :
    (tileRow a s2).covers (oTile t + b) = false := by
  refine Bool.eq_false_iff.mpr fun covers => ?_
  obtain ⟨above, -, multiple, short⟩ := covers_iff.mp covers
  dsimp only [tileRow] at above multiple short
  rw [Nat.mod_eq_of_lt (by simpa using (Nat.div_lt_iff_lt_mul step).mp short)] at multiple
  unfold oTile at multiple above
  omega

theorem regRow_tileAt {t a : Nat} (small : t < 256) (offset : a ∈ [0x100, 0x500, 0x600, 0x718, 0x830]) :
    ∃ s2, regRow (oTile t + a) = some (tileRow a s2) := by
  have rows : regRowsF.drop 11 = [tileRow 0x100 0x100, tileRow 0x500 0x2000, tileRow 0x600 0x2000, tileRow 0x718 0x2000, tileRow 0x830 0x2000] := rfl
  rw [regRow_tile (by unfold oTile; omega), rows]
  simp only [List.mem_cons, List.not_mem_nil, or_false] at offset
  rcases offset with rfl | rfl | rfl | rfl | rfl <;>
    simp [tileRow_covers small, tileRow_other]

/-! ## A write to a CLR register (R9, R531) -/

theorem merge_setBit {old v m b : W64} (apart : b &&& m = 0) : merge old (v ||| b) m = (old &&& ~~~m) ||| (v &&& m) := by
  rw [merge, BitVec.and_comm (v ||| b), BitVec.and_or_distrib_left, BitVec.and_comm m b, apart, BitVec.and_comm m v]
  simp

theorem and_m64 (x : W64) : x &&& m64 = x := BitVec.and_allOnes

theorem storeReg_row {k : Core} {off : Nat} {r : RegRow} (v : W64) (row : regRow off = some r) (free : regHeld k off = false)
    (timely : r.rwl = 0 ∨ k.glb.st ≠ .config ∨ k.glb.checking = false) :
    storeReg k off v m64 =
      wreg k off (merge (rreg k off) v (BitVec.ofNat 64 r.rw ||| if rwlOpen k then BitVec.ofNat 64 r.rwl else 0)) := by
  have noted : ¬ (k.glb.st = .config ∧ k.glb.checking = true ∧ BitVec.ofNat 64 r.rwl ≠ 0) := by
    rintro ⟨config, checking, some⟩
    rcases timely with none | later | before
    · exact some (by rw [none]; rfl)
    · exact later config
    · simp [before] at checking
  simp only [storeReg, row, free, and_m64, if_neg noted, Bool.false_eq_true, if_false]

theorem writes1_setBit (v : W64) {n : Nat} (small : n < 64) : writes1 (v ||| BitVec.ofNat 64 (2 ^ n)) m64 n = true := by
  have kept : m64.getLsbD n = true := by rw [m64, BitVec.getLsbD_allOnes, decide_eq_true small]
  rw [writes1, BitVec.getLsbD_or, BitVec.getLsbD_ofNat, Nat.testBit_two_pow_self, kept]
  simp [small]

theorem actWrite_none (k : Core) {off : Nat} (v mask : W64) (other : off ∉ [oGlbCtrl, 0x10, oPartReset, oObjStatus, oPstate])
    (stack : ¬ (0x80000 ≤ off ∧ off < 0x100000 ∧ (off % 0x10000 = 0x40 ∨ off % 0x10000 = 0x50))) : actWrite k off v mask = k := by
  simp only [List.mem_cons, List.not_mem_nil, or_false, not_or] at other
  obtain ⟨glb, status, part, obj, pst⟩ := other
  rw [actWrite, if_neg glb, if_neg status, if_neg part, if_neg obj, if_neg pst, if_neg (by tauto), if_neg (by tauto)]

/-- The other bits are stored, the block is zeroed, and what else a write at the offset does follows. -/
theorem clrRow_eq {k : Core} {off : Nat} {c : ClrReg} {r : RegRow} {mask : W64} (v : W64) (served : bar0Served k = true)
    (reg : clrReg off = some c) (row : regRow off = some r)
    (bits : (BitVec.ofNat 64 r.rw ||| if rwlOpen k then BitVec.ofNat 64 r.rwl else 0) = mask)
    (apart : c.bitNo < 64 ∧ BitVec.ofNat 64 (2 ^ c.bitNo) &&& mask = 0)
    (outside : (off < 0x18000 ∨ 0x21800 ≤ off) ∧ (off < 0x1E0100 ∨ 0x1E0180 ≤ off))
    (timely : r.rwl = 0 ∨ k.glb.st ≠ .config ∨ k.glb.checking = false) :
    clrRow k off v = actWrite (clrAlso (clrCtrs (wreg k off ((rreg k off &&& ~~~mask) ||| (v &&& mask))) c.lo c.hi) off) off
      (v ||| BitVec.ofNat 64 (2 ^ c.bitNo)) m64 := by
  obtain ⟨low, high⟩ := outside
  have free : regHeld k off = false := by
    rw [regHeld, if_neg (by omega), if_neg (by omega)]
  simp only [clrRow, reg]
  rw [bar0Write, served, Bool.not_true, if_neg (by decide), if_neg (by omega)]
  simp only [clrWrite, reg, writes1_setBit v apart.1, if_true, storeReg_row _ row free timely, bits, merge_setBit apart.2]
  rw [if_neg (by omega), if_neg (by omega), if_neg (by omega)]

/-- The register's row has RW bits alone, and no other write acts at its offset. -/
structure PlainClr (off : Nat) (rw : Nat) (c : ClrReg) : Prop where
  reg : clrReg off = some c
  row : ∃ r, regRow off = some r ∧ r.rw = rw ∧ r.rwl = 0
  apart : c.bitNo < 64 ∧ BitVec.ofNat 64 (2 ^ c.bitNo) &&& BitVec.ofNat 64 rw = 0
  outside : (off < 0x18000 ∨ 0x21800 ≤ off) ∧ (off < 0x1E0100 ∨ 0x1E0180 ≤ off)

theorem PlainClr.write {k : Core} {off rw : Nat} {c : ClrReg} (h : PlainClr off rw c) (v : W64) (served : bar0Served k = true) :
    clrRow k off v = actWrite (clrAlso (clrCtrs (wreg k off ((rreg k off &&& ~~~BitVec.ofNat 64 rw) ||| (v &&& BitVec.ofNat 64 rw))) c.lo c.hi)
      off) off (v ||| BitVec.ofNat 64 (2 ^ c.bitNo)) m64 := by
  obtain ⟨r, row, rfl, lock⟩ := h.row
  exact clrRow_eq v served h.reg row (by simp [lock]) h.apart h.outside (.inl lock)

/-- A register outside the stacks' windows clears its block and nothing more. -/
theorem PlainClr.write_only {k : Core} {off rw : Nat} {c : ClrReg} (h : PlainClr off rw c) (v : W64) (served : bar0Served k = true)
    (other : off ∉ [oGlbCtrl, 0x10, oPartReset, oObjStatus, oPstate]) (stack : off < 0x80000 ∨ 0x140000 ≤ off) :
    clrRow k off v = clrCtrs (wreg k off ((rreg k off &&& ~~~BitVec.ofNat 64 rw) ||| (v &&& BitVec.ofNat 64 rw))) c.lo c.hi := by
  rw [h.write v served, actWrite_none _ _ _ other (by omega), clrAlso, if_neg (by omega), if_neg (by omega)]

theorem lowBit_apart : 0 < 64 ∧ BitVec.ofNat 64 (2 ^ 0) &&& BitVec.ofNat 64 2 = 0 := by decide

theorem tile_plainClr {t a lo hi : Nat} (small : t < 256) (offset : a ∈ [0x100, 0x500, 0x600, 0x718, 0x830])
    (reg : clrReg (oTile t + a) = some ⟨0, oTile t + lo, oTile t + hi⟩) : PlainClr (oTile t + a) 2 ⟨0, oTile t + lo, oTile t + hi⟩ := by
  obtain ⟨s2, row⟩ := regRow_tileAt small offset
  exact ⟨reg, ⟨_, row, rfl, rfl⟩, lowBit_apart, by unfold oTile; omega⟩

/-- The control registers of the tile's window at `w`. -/
def tileClr (w : Nat) : Nat → Option ClrReg
  | 0x100 => some ⟨0, w + 0x200, w + 0x400⟩
  | 0x500 => some ⟨0, w + 0x400, w + 0x500⟩
  | 0x600 => some ⟨0, w + 0x608, w + 0x700⟩
  | 0x718 => some ⟨0, w + 0x708, w + 0x718⟩
  | 0x830 => some ⟨0, w + 0x808, w + 0x830⟩
  | _ => none

theorem clrReg_tile {t a : Nat} (small : t < 256) (ha : a < 0x2000) : clrReg (oTile t + a) = tileClr (oTile t) a := by
  have window : (oTile t + a) / 0x2000 * 0x2000 = oTile t := by unfold oTile; omega
  have rel : (oTile t + a) % 0x2000 = a := by unfold oTile; omega
  have low : 0x200000 ≤ oTile t + a ∧ oTile t + a < 0x400000 := by unfold oTile; omega
  have fixed : ∀ o ∈ [oGlbCtrl, oPciCtl, oSchdCtl, oObjCtl, oFabCtl, oPwrCtl, oSecCtl, oErrCtl], oTile t + a ≠ o := by
    have : ∀ o ∈ [oGlbCtrl, oPciCtl, oSchdCtl, oObjCtl, oFabCtl, oPwrCtl, oSecCtl, oErrCtl], o < 0x200000 := by decide
    intro o listed
    have := this o listed
    omega
  simp only [List.mem_cons, List.not_mem_nil, or_false, forall_eq_or_imp, forall_eq] at fixed
  obtain ⟨glb, pci, schd, obj, fab, pwr, sec, err⟩ := fixed
  rw [clrReg, if_neg glb, if_neg pci, if_neg schd, if_neg obj, if_neg fab, if_neg pwr, if_neg sec, if_neg err, if_neg (by omega),
    if_neg (by omega), if_neg (by omega), if_pos low]
  simp only [rel, window]
  rfl

theorem tile_clrRow {k : Core} {t a lo hi : Nat} (v : W64) (small : t < 256) (served : bar0Served k = true)
    (offset : a ∈ [0x100, 0x500, 0x600, 0x718, 0x830]) (reg : clrReg (oTile t + a) = some ⟨0, oTile t + lo, oTile t + hi⟩) :
    clrRow k (oTile t + a) v =
      clrCtrs (wreg k (oTile t + a) ((rreg k (oTile t + a) &&& ~~~2) ||| (v &&& 2))) (oTile t + lo) (oTile t + hi) :=
  (tile_plainClr small offset reg).write_only v served
    (by simp only [List.mem_cons, List.not_mem_nil, or_false, oTile, oGlbCtrl, oPartReset, oObjStatus, oPstate]; omega) (by unfold oTile; omega)

theorem pci_plainClr : PlainClr oPciCtl 1 ⟨1, 0x10018, 0x10020⟩ := ⟨rfl, ⟨_, rfl, rfl, rfl⟩, by decide, by decide⟩
theorem glb_plainClr : PlainClr oGlbCtrl 4 ⟨1, 0x60, 0x70⟩ := ⟨rfl, ⟨_, rfl, rfl, rfl⟩, by decide, by decide⟩
theorem schd_plainClr : PlainClr oSchdCtl 2 ⟨0, 0x40100, 0x40400⟩ := ⟨rfl, ⟨_, rfl, rfl, rfl⟩, by decide, by decide⟩
theorem obj_plainClr : PlainClr oObjCtl 0x2FFFF ⟨16, 0x40500, 0x40800⟩ := ⟨rfl, ⟨_, rfl, rfl, rfl⟩, by decide, by decide⟩
theorem fab_plainClr : PlainClr oFabCtl 2 ⟨0, 0x140000, 0x180000⟩ := ⟨rfl, ⟨_, rfl, rfl, rfl⟩, by decide, by decide⟩
theorem sec_plainClr : PlainClr oSecCtl 2 ⟨0, 0x1C0000, 0x1E0000⟩ := ⟨rfl, ⟨_, rfl, rfl, rfl⟩, by decide, by decide⟩
theorem err_plainClr : PlainClr oErrCtl 0x207FF07FF ⟨32, 0x1E0000, 0x200000⟩ := ⟨rfl, ⟨_, rfl, rfl, rfl⟩, by decide, by decide⟩

theorem mem_plainClr (t : BitVec 3) : PlainClr (oMemCtl t.toNat) 2 ⟨0, oMemCtl t.toNat, oMem t.toNat + 0xF000⟩ := by
  have row : regRow (oMemCtl t.toNat) = some { base := 0x80048, s1 := 0x10000, n1 := 8, s2 := 0x10000, rw := 2 } := by revert t; decide
  exact ⟨by revert t; decide, ⟨_, row, rfl, rfl⟩, lowBit_apart, by revert t; decide⟩
theorem fls_plainClr (t : BitVec 2) : PlainClr (oFlsCtl t.toNat) 2 ⟨0, oFlsCtl t.toNat, oFls t.toNat + 0xF000⟩ := by
  have row : regRow (oFlsCtl t.toNat) = some { base := 0x100008, s1 := 0x10000, n1 := 4, s2 := 0x10000, rw := 2 } := by revert t; decide
  exact ⟨by revert t; decide, ⟨_, row, rfl, rfl⟩, lowBit_apart, by revert t; decide⟩
theorem memPx_plainClr (t : BitVec 3) : PlainClr (oMem t.toNat + 0xF000) 2 ⟨0, oMem t.toNat + 0xF000, oMem t.toNat + 0x10000⟩ := by
  have row : regRow (oMem t.toNat + 0xF000) = some { base := 0x8F000, s1 := 0x10000, n1 := 8, s2 := 0x10000, rw := 2 } := by
    revert t; decide
  exact ⟨by revert t; decide, ⟨_, row, rfl, rfl⟩, lowBit_apart, by revert t; decide⟩
theorem flsPx_plainClr (t : BitVec 2) : PlainClr (oFls t.toNat + 0xF000) 2 ⟨0, oFls t.toNat + 0xF000, oFls t.toNat + 0x10000⟩ := by
  have row : regRow (oFls t.toNat + 0xF000) = some { base := 0x10F000, s1 := 0x10000, n1 := 4, s2 := 0x10000, rw := 2 } := by
    revert t; decide
  exact ⟨by revert t; decide, ⟨_, row, rfl, rfl⟩, lowBit_apart, by revert t; decide⟩

/-! ## The windows of a stack and of an expander also lose what they keep (R352, R376, R531) -/

theorem clrAlso_mem (k : Core) (t : BitVec 3) : clrAlso k (oMemCtl t.toNat) = modStk k t.toNat (fun q => { q with errAddr := 0 }) := by
  have small := t.isLt
  rw [clrAlso, if_pos (by unfold oMemCtl oMem; omega), if_pos (by unfold oMemCtl oMem; omega),
    show (oMemCtl t.toNat - 0x80000) / 0x10000 = t.toNat by unfold oMemCtl oMem; omega]

theorem clrAlso_memPx (k : Core) (t : BitVec 3) : clrAlso k (oMem t.toNat + 0xF000) = modStk k t.toNat (fun q => { q with pxLast := 0 }) := by
  have small := t.isLt
  rw [clrAlso, if_pos (by unfold oMem; omega), if_neg (by unfold oMem; omega), if_pos (by unfold oMem; omega),
    show (oMem t.toNat + 0xF000 - 0x80000) / 0x10000 = t.toNat by unfold oMem; omega]

theorem clrAlso_fls (k : Core) (t : BitVec 2) : clrAlso k (oFlsCtl t.toNat) = k := by
  rw [clrAlso, if_neg (by unfold oFlsCtl oFls; omega), if_neg (by unfold oFlsCtl oFls; omega)]

theorem clrAlso_flsPx (k : Core) (t : BitVec 2) : clrAlso k (oFls t.toNat + 0xF000) = modFls k t.toNat (fun q => { q with pxLast := 0 }) := by
  have small := t.isLt
  rw [clrAlso, if_neg (by unfold oFls; omega), if_pos (by unfold oFls; omega),
    show (oFls t.toNat + 0xF000 - 0x100000) / 0x10000 = t.toNat by unfold oFls; omega]

theorem actWrite_window (k : Core) {off : Nat} (v mask : W64) (window : 0x80000 ≤ off ∧ off < 0x140000)
    (rel : off % 0x10000 ≠ 0x40 ∧ off % 0x10000 ≠ 0x50) : actWrite k off v mask = k :=
  actWrite_none k v mask (by simp only [List.mem_cons, List.not_mem_nil, or_false, oGlbCtrl, oPartReset, oObjStatus, oPstate]; omega) (by tauto)

theorem glbEnable_off {k : Core} (h : k.glb.st ≠ .config) : glbEnable k = k := by simp [glbEnable, h]

theorem glb_clrRow {k : Core} {v : W64} (served : bar0Served k = true) (quiet : k.glb.st ≠ .config ∨ v.getLsbD 0 = false) :
    clrRow k oGlbCtrl v = clrCtrs (wreg k oGlbCtrl ((rreg k oGlbCtrl &&& ~~~4) ||| (v &&& 4))) 0x60 0x70 := by
  rw [glb_plainClr.write v served, clrAlso, if_neg (by decide), if_neg (by decide), actWrite, if_pos rfl]
  split
  · next set =>
    refine glbEnable_off (quiet.resolve_right fun clear => ?_)
    rw [writes1, BitVec.getLsbD_or, clear, show (BitVec.ofNat 64 (2 ^ 1)).getLsbD 0 = false by decide] at set
    exact absurd set (by simp)
  · rfl

theorem pwr_clrRow {k : Core} {mask : W64} (v : W64) (served : bar0Served k = true)
    (bits : ((2 : W64) ||| if rwlOpen k then 4 else 0) = mask) (apart : (1 : W64) &&& mask = 0)
    (timely : k.glb.st ≠ .config ∨ k.glb.checking = false) :
    clrRow k oPwrCtl v = clrCtrs (wreg k oPwrCtl ((rreg k oPwrCtl &&& ~~~mask) ||| (v &&& mask))) 0x180000 0x1C0000 := by
  rw [clrRow_eq v served (c := ⟨0, 0x180000, 0x1C0000⟩) (r := { base := 0x180060, rw := 2, rwl := 4 }) rfl rfl bits ⟨by decide, apart⟩
    (by decide) (.inr timely), clrAlso, if_neg (by decide), if_neg (by decide), actWrite_none _ _ _ (by decide) (by decide)]

/-- Settles O19: each CLR register is a row of the map, and `clrRow_eq` says what a write that sets its CLR bit does. -/
theorem clrZeroesItsCounters : Obligations.ClrZeroesItsCounters := by
  intro s v served
  have plain {off rw : Nat} {c : ClrReg} (h : PlainClr off rw c) (other : off ∉ [oGlbCtrl, 0x10, oPartReset, oObjStatus, oPstate])
      (stack : off < 0x80000 ∨ 0x140000 ≤ off) := onPlain_of_eq (s := s) (f := (clrRow · off v)) (h.write_only v served other stack)
  refine ⟨fun t => ?_, plain pci_plainClr (by decide) (by decide), fun quiet => onPlain_of_eq (f := (clrRow · oGlbCtrl v)) (glb_clrRow served quiet),
    plain schd_plainClr (by decide) (by decide), plain obj_plainClr (by decide) (by decide), fun t => ⟨?_, ?_⟩, fun t => ⟨?_, ?_⟩,
    plain fab_plainClr (by decide) (by decide), fun later => ?_, fun config open_ => ?_, plain sec_plainClr (by decide) (by decide),
    plain err_plainClr (by decide) (by decide)⟩
  · have tile {a lo hi : Nat} (offset : a ∈ [0x100, 0x500, 0x600, 0x718, 0x830])
        (reg : clrReg (oTile t.toNat + a) = some ⟨0, oTile t.toNat + lo, oTile t.toNat + hi⟩) :=
      onPlain_of_eq (s := s) (f := (clrRow · (oTile t.toNat + a) v)) (tile_clrRow v t.isLt served offset reg)
    have reg {a : Nat} (ha : a < 0x2000) := clrReg_tile t.isLt ha
    exact ⟨tile (by decide) (reg (a := 0x100) (by decide)), tile (by decide) (reg (a := 0x500) (by decide)),
      tile (by decide) (reg (a := 0x600) (by decide)), tile (by decide) (reg (a := 0x718) (by decide)),
      tile (by decide) (reg (a := 0x830) (by decide))⟩
  · refine onPlain_of_eq (f := (clrRow · (oMemCtl t.toNat) v)) ?_
    rw [(mem_plainClr t).write v served, clrAlso_mem,
      actWrite_window (off := oMemCtl t.toNat) _ _ _ (by revert t; decide) (by revert t; decide)]
    rfl
  · refine onPlain_of_eq (f := (pxClear · false t.toNat v)) ((PlainClr.write (memPx_plainClr t) v served).trans ?_)
    rw [clrAlso_memPx,
      actWrite_window (off := oMem t.toNat + 0xF000) _ _ _ (by revert t; decide) (by revert t; decide)]
    rfl
  · refine onPlain_of_eq (f := (clrRow · (oFlsCtl t.toNat) v)) ?_
    rw [(fls_plainClr t).write v served, clrAlso_fls,
      actWrite_window (off := oFlsCtl t.toNat) _ _ _ (by revert t; decide) (by revert t; decide)]
    rfl
  · have stack : oPx true ((t.zeroExtend 3).toNat % 4) = oFls t.toNat + 0xF000 := by revert t; decide
    refine onPlain_of_eq (f := (pxClear · true (t.zeroExtend 3).toNat v)) ?_
    simp only [pxClear, if_true, stack]
    rw [(flsPx_plainClr t).write v served, clrAlso_flsPx,
      actWrite_window (off := oFls t.toNat + 0xF000) _ _ _ (by revert t; decide) (by revert t; decide)]
    rfl
  · exact onPlain_of_eq (f := (clrRow · oPwrCtl v)) (pwr_clrRow v served (by simp [rwlOpen, later]) (by decide) (.inl later))
  · exact onPlain_of_eq (f := (clrRow · oPwrCtl v)) (pwr_clrRow v served (by simp [rwlOpen, config, open_]) (by decide) (.inr open_))

end Sys2Proof.Proofs.ClearBits
end

section
/-! PROOFS. Entry to ENABLED (R60, R61, R81 to R84). -/

namespace Sys2Proof.Proofs.Enabling
open Sys2Proof.Machine Sys2Proof.Laws Sys2Proof.Proofs.Resets Sys2Proof.Proofs.StartUp Sys2Proof.Proofs.PowerStates Sys2Proof.Proofs.Reads
open Sys2Proof.Proofs.PowerInForce Sys2Proof.Proofs.ClearBits

theorem trainPorts_cases (k : Core) : ∃ fab, trainPorts k = { k with fab := fab } := by
  have trained (l : List Nat) (k : Core) : ∃ fab, l.foldl portRetryTimer k = { k with fab := fab } := by
    induction l generalizing k with
    | nil => exact ⟨_, rfl⟩
    | cons p l ih =>
      obtain ⟨fab, one⟩ : ∃ fab, portRetryTimer k p = { k with fab := fab } := by
        unfold portRetryTimer; split <;> exact ⟨_, rfl⟩
      obtain ⟨fab', rest⟩ := ih (portRetryTimer k p)
      exact ⟨fab', by rw [List.foldl_cons, rest, one]⟩
  exact trained _ k

theorem softStart_modTile (k : Core) (t : Nat) (f : Tile → Tile) : softStart (modTile k t f) = softStart k := rfl

theorem softStartAll_soft (k : Core) {t : Nat} {l : List Nat} (listed : t ∈ l) : (tile (softStartAll k l) t).soft = softStart k := by
  have kept : softStart (softStartAll k l) = softStart k := foldl_fixes (g := softStart) (fun k t => softStart_modTile k t _) l k
  rw [← kept]
  refine foldl_establishes (P := fun k => (tile k t).soft = softStart k) (fun k => ?_) (fun k u h => ?_) listed k
  · rw [tile_modTile, if_pos rfl, softStart_modTile]
  · rw [tile_modTile, softStart_modTile]
    split
    · rfl
    · exact h

@[simp] theorem modERing_maintSeq (k : Core) (r : Nat) (f : ERing → ERing) : (modERing k r f).err.maintSeq = k.err.maintSeq := by
  unfold modERing; split <;> rfl

@[simp] theorem errToRing_maintSeq (k : Core) (r : Nat) (e : ErrRec) (n : Nat) : (errToRing k r e n).err.maintSeq = k.err.maintSeq := by
  simp only [errToRing]; split <;> [skip; split] <;> simp

@[simp] theorem errRecord_maintSeq (k : Core) (e : ErrRec) : (errRecord k e).err.maintSeq = k.err.maintSeq := by
  simp only [errRecord]; split <;> simp

/-- What entry to ENABLED puts to zero and draws before the power in force is formed anew (R61, R84). -/
def entryCore (k : Core) (inc : W32) : Core :=
  let k1 := extendMreg k 4 (sha256 (rwlBytes k))
  { k1 with
    glb := { k1.glb with checking := false, incarnation := inc, stepsRetired := 0 }
    sec := { k1.sec with partResets := 0 }
    maint := { k1.maint with count := 0 }
    err := { k1.err with maintSeq := 0 }
    doms := mmap (fun _ (q : Dom) => { q with stepNo := 0, ceil := 16 }) k1.doms }

theorem entryForce_change (k : Core) :
    ∃ pwr fab ctr out fresh, powerChange k (fun k => modPwr k (fun p => { p with force := entryForce k, from0 := entryForce k, periods := 0 })) =
      { k with pwr := pwr, fab := fab, ctr := ctr, out := out, fresh := fresh } ∧ pwr.force = entryForce k := by
  obtain ⟨cause, steady, fab, ctr, out, fresh, change⟩ := powerChange_cases k (fun k => modPwr k (fun p => { p with
    force := entryForce k, from0 := entryForce k, periods := 0 }))
  exact ⟨_, _, _, _, _, change, rfl⟩

theorem enterEnabled_cases (k : Core) (inc : W32) :
    ∃ pwr tiles fab ctr out fresh fab', enterEnabled k inc = { setState { entryCore k inc with
        pwr := pwr, tiles := tiles, fab := fab, ctr := ctr, out := out, fresh := fresh } .enabled with fab := fab' } ∧
      pwr.force = entryForce k ∧ ∀ n, n < 256 → (mget {} tiles n).soft = softStart k := by
  obtain ⟨pwr, fab, ctr, out, fresh, change, force⟩ := entryForce_change (entryCore k inc)
  obtain ⟨tiles, started⟩ := softStartAll_cases { entryCore k inc with pwr := pwr, fab := fab, ctr := ctr, out := out, fresh := fresh } (upFrom 0 256)
  have soft (n : Nat) (small : n < 256) := softStartAll_soft
    { entryCore k inc with pwr := pwr, fab := fab, ctr := ctr, out := out, fresh := fresh } (t := n) (l := upFrom 0 256) (by simp [small])
  obtain ⟨fab', trained⟩ := trainPorts_cases (setState { entryCore k inc with
    pwr := pwr, tiles := tiles, fab := fab, ctr := ctr, out := out, fresh := fresh } .enabled)
  have entered : enterEnabled k inc = trainPorts (setState (softStartAll (powerChange (entryCore k inc)
    (fun k => modPwr k (fun p => { p with force := entryForce k, from0 := entryForce k, periods := 0 }))) (upFrom 0 256)) .enabled) := by
    rw [enterEnabled, entryCore]
  rw [started] at soft
  rw [change, started, trained] at entered
  exact ⟨pwr, tiles, fab, ctr, out, fresh, fab', entered, force, soft⟩

theorem enterEnabled_facts {k : Core} (inc : W32) (config : k.glb.st = .config) :
    let t := enterEnabled k inc
    t.glb = { k.glb with st := .enabled, checking := false, incarnation := inc, stepsRetired := 0 } ∧ t.sec.partResets = 0 ∧
      t.maint.count = 0 ∧ t.err.maintSeq = 0 ∧ t.regs = k.regs ∧ t.pwr.force = entryForce k ∧
      (∀ n, n < 256 → (tile t n).soft = softStart k) ∧ t.dram = k.dram ∧ t.flash = k.flash := by
  obtain ⟨pwr, tiles, fab, ctr, out, fresh, fab', entered, force, soft⟩ := enterEnabled_cases k inc
  have left : (entryCore k inc).glb.st ≠ .enabled := fun same => DevState.noConfusion (config.symm.trans same)
  rw [entered, setState_ne (by exact left)]
  simpa [force, tile, entryCore, extendMreg] using soft

/-- Settles O21. -/
theorem enableChecksTheConfiguration : Obligations.EnableChecksTheConfiguration := by
  refine ⟨fun s config open_ => ?_, fun s other => ?_, fun s inc code arg config checking fault => ?_, fun s inc config checking none => ?_⟩
  · exact onPlain_of_eq (by simp [glbEnable, config, open_])
  · refine onPlain_of_fixed ?_
    rcases other with state | checking
    · exact glbEnable_off state
    · simp [glbEnable, checking]
  · exact onPlain_of_eq (f := (consistencyCheckDone · inc)) (by simp [consistencyCheckDone, config, checking, fault])
  · have enters : consistencyCheckDone s.core inc = enterEnabled s.core inc := by simp [consistencyCheckDone, config, checking, none]
    exact ⟨_, onPlain_of_eq (f := (consistencyCheckDone · inc)) enters, enterEnabled_facts inc config⟩

end Sys2Proof.Proofs.Enabling
end

section
/-! PROOFS. Feed ports as software drives them (R93 to R100, R103, R508, R534): words, opening and closing, heads, write-backs and vectors. -/

namespace Sys2Proof.Proofs.FeedPorts
open Sys2Proof.Machine Sys2Proof.Laws Sys2Proof.Proofs.Resets Sys2Proof.Proofs.StartUp Sys2Proof.Proofs.PowerStates Sys2Proof.Proofs.Reads
open Sys2Proof.Proofs.ClearBits Sys2Proof.Proofs.Grants Sys2Proof.Proofs.HostLink

section PortTables
variable (k : Core) (n j : Nat)

theorem port_modPort (f : Port → Port) : port (modPort k n f) j = if j = n then f (port k n) else port k j := mget_mmod ..
theorem dring_modRing (f : DRing → DRing) : dring (modRing k n f) j = if j = n then f (dring k n) else dring k j := mget_mmod ..

@[simp] theorem port_modPort_same (f : Port → Port) : port (modPort k n f) n = f (port k n) := by rw [port_modPort, if_pos rfl]

end PortTables

/-! ## Words (R93, R95) -/

/-- Bytes stored one after another lie where they were put, and every other byte is as it was. -/
theorem mget?_foldl_mput (b : List Byte) (m : SMap Byte) (base j a : Nat) :
    mget? ((b.zipIdx j).foldl (fun m x => mput m (base + x.2) x.1) m) a =
      if base + j ≤ a ∧ a < base + j + b.length then b[a - (base + j)]? else mget? m a := by
  induction b generalizing m j with
  | nil => simp
  | cons x b ih =>
    rw [List.zipIdx_cons, List.foldl_cons, ih]
    by_cases here : a = base + j
    · subst here
      rw [if_neg (by omega), if_pos (by simp), mget?_mput_same]
      simp
    · rw [mget?_mput_ne _ _ here]
      by_cases later : base + (j + 1) ≤ a ∧ a < base + (j + 1) + b.length
      · rw [if_pos later, if_pos (by simp only [List.length_cons]; omega), show a - (base + j) = (a - (base + (j + 1))) + 1 by omega,
          List.getElem?_cons_succ]
      · rw [if_neg later, if_neg (by simp only [List.length_cons]; omega)]

theorem slotWrites_whole {k : Core} {a : Nat} {b : List Byte} (f : Nat) (aligned : a % 16 = 0) (small : a < 2 ^ 22) (whole : b.length = 16) :
    slotWrites k (f + 2) a b = slotWrite k (a / 65536) (a / 16 % 4096) 0 b := by
  have some : b.isEmpty = false := by cases b <;> simp_all
  have all : b.take 16 = b := List.take_of_length_le (by omega)
  have none : b.drop 16 = [] := List.drop_of_length_le (by omega)
  have bound : a < 4194304 := small
  simp [slotWrites, some, aligned, bound, all, none]

theorem bar2FeedWrite_whole {k : Core} {a : Nat} {b : List Byte} (on : powered k = true) (served : ctlServed k = true)
    (whole : b.length = 16) (aligned : a % 16 = 0) (small : a < 2 ^ 22) :
    bar2FeedWrite k a b = slotWrite k (a / 65536) (a / 16 % 4096) 0 b := by
  simp only [bar2FeedWrite, on, served, whole, Bool.not_true, Bool.false_eq_true, if_false, Bool.true_or, if_true]
  exact slotWrites_whole 15 aligned small whole

/-- Settles O22. -/
theorem feedWordsFillSlots : Obligations.FeedWordsFillSlots := by
  refine ⟨fun s off data on served whole aligned opened empty => ?_, fun s off data on served whole aligned closed => ?_,
    fun s off data on unserved graze => ?_⟩
  · have fills : bar2FeedWrite s.core off.toNat data = modPort s.core (off.toNat / 65536) (fun q => { q with
        slots := data.zipIdx.foldl (fun m x => mput m (16 * (off.toNat / 16 % 4096) + 0 + x.2) x.1) q.slots
        stamps := mset 0 q.stamps (off.toNat / 16 % 4096) s.core.pst.apHeld }) := by
      rw [bar2FeedWrite_whole on served whole aligned off.isLt, slotWrite, if_neg (by simp [opened]), empty]
      rfl
    refine ⟨_, onPlain_of_eq (f := (bar2FeedWrite · off.toNat data)) fills, fun i small => ?_, fun a other => ?_, ?_, fun n ne => ?_, rfl⟩
    · rw [port_modPort_same]
      dsimp only
      rw [mget?_foldl_mput, if_pos (by omega)]
      congr 1
      omega
    · rw [port_modPort_same]
      dsimp only
      rw [mget?_foldl_mput, if_neg (by omega)]
    · rw [port_modPort_same]
    · rw [port_modPort, if_neg ne]
  · refine onPlain_of_eq (f := (bar2FeedWrite · off.toNat data)) ?_
    rw [bar2FeedWrite_whole on served whole aligned off.isLt, slotWrite, if_pos closed]
  · refine onPlain_of_eq (f := (bar2FeedWrite · off.toNat data)) ?_
    simp [bar2FeedWrite, on, unserved, graze]

/-! ## Heads of rings (R99, R100, R508, R534) -/

/-- A register without stored bits whose write clears no counters and only acts. -/
theorem bar0Write_acts {k : Core} {off : Nat} (v mask : W64) (served : bar0Served k = true) (row : regRow off = none)
    (clr : clrReg off = none) (msix : ¬ (0x18000 ≤ off ∧ off < 0x20000)) :
    bar0Write k off v mask =
      if 0x20000 ≤ off ∧ off < 0x21000 then feedWrite k off v mask
      else if 0x21000 ≤ off ∧ off < 0x21800 then drWrite k ((off - 0x21000) / 8) v mask
      else if 0x1E0100 ≤ off ∧ off < 0x1E0180 then errWrite k off v mask
      else actWrite k off v mask := by
  simp [bar0Write, served, msix, clrWrite, clr, storeReg, row]

theorem m32_lowBit : m32.getLsbD 0 = true := by decide
theorem m64_lowBit : m64.getLsbD 0 = true := by decide

/-- Only the rows that reach into a range of offsets can cover one in it. -/
theorem regRow_within {off lo hi : Nat} (above : lo ≤ off) (below : off < hi) :
    regRow off = (regRows.filter (fun r => decide (r.base < hi) && decide (lo < r.base + r.s1 * r.n1))).find? (fun r => r.covers off) := by
  have steps : ∀ r ∈ regRows, 0 < r.s1 := by decide
  rw [List.find?_filter, regRow]
  refine List.find?_congr fun r listed => ?_
  cases covers : r.covers off with
  | false => simp
  | true =>
    have ends := covers_lt covers (steps r listed)
    have begins := (covers_iff.mp covers).1
    simp only [Bool.and_eq_true, decide_eq_true_eq]
    simp
    omega

theorem feedRows : regRows.filter (fun r => decide (r.base < 0x21800) && decide (0x20000 < r.base + r.s1 * r.n1)) =
    [{ base := 0x20000, s1 := 0x40, n1 := 64, s2 := 0x40, rw := 0x00FFFFFF07FF000E, reset := 0x100000000 },
     { base := 0x20008, s1 := 0x40, n1 := 64, s2 := 8, n2 := 2, rw := 2 ^ 64 - 64 },
     { base := 0x20018, s1 := 0x40, n1 := 64, s2 := 0x40, rw := 0x1FFFF }] := by decide

theorem clrReg_feed {off : Nat} (above : 0x20000 ≤ off) (below : off < 0x21800) : clrReg off = none := by
  simp only [clrReg, oGlbCtrl, oPciCtl, oSchdCtl, oObjCtl, oFabCtl, oPwrCtl, oSecCtl, oErrCtl]
  rw [if_neg (by omega), if_neg (by omega), if_neg (by omega), if_neg (by omega), if_neg (by omega), if_neg (by omega), if_neg (by omega),
    if_neg (by omega), if_neg (by omega), if_neg (by omega), if_neg (by omega), if_neg (by omega)]

theorem truncate_zeroExtend (v : W32) : (v.zeroExtend 64).truncate 32 = v := by
  simp [BitVec.truncate, BitVec.zeroExtend]

theorem zeroExtend_highBit (v : W32) (mask : W64) : writes1 (v.zeroExtend 64) mask 32 = false := by
  rw [writes1, BitVec.zeroExtend, BitVec.getLsbD_setWidth, BitVec.getLsbD_of_ge v 32 (Nat.le_refl 32)]
  simp

theorem feedWrite_head {off n : Nat} (k : Core) (v : W32) (rel : (off - 0x20000) % 0x40 = 0x20) (which : (off - 0x20000) / 0x40 = n) :
    feedWrite k off (v.zeroExtend 64) m32 = cqHead k n v := by
  unfold feedWrite
  rw [which]
  dsimp only
  split
  · next ctl => exact absurd (rel.symm.trans ctl) (by decide)
  · rw [m32_lowBit, if_pos rfl, truncate_zeroExtend]
  · next status => exact absurd (rel.symm.trans status) (by decide)
  · next _ head _ => exact absurd rel head

theorem cqHead_write {k : Core} (n : BitVec 6) (v : W32) (served : bar0Served k = true) :
    bar0Write k (oCqHead n.toNat) (v.zeroExtend 64) m32 = cqHead k n.toNat v := by
  have small := n.isLt
  have rel : (oCqHead n.toNat - 0x20000) % 0x40 = 0x20 := by unfold oCqHead; omega
  have which : (oCqHead n.toNat - 0x20000) / 0x40 = n.toNat := by unfold oCqHead; omega
  have window : 0x20000 ≤ oCqHead n.toNat ∧ oCqHead n.toNat < 0x21000 := by unfold oCqHead; omega
  have row : regRow (oCqHead n.toNat) = none := by
    rw [regRow_within (lo := 0x20000) (hi := 0x21800) (by omega) (by omega), feedRows, List.find?_eq_none]
    simp only [List.mem_cons, List.not_mem_nil, or_false, forall_eq_or_imp, forall_eq, covers_iff]
    omega
  rw [bar0Write_acts _ _ served row (clrReg_feed window.1 (by omega)) (by omega), if_pos window, feedWrite_head k v rel which]

theorem drHead_write {k : Core} (r : BitVec 8) (v : W32) (served : bar0Served k = true) :
    bar0Write k (oDrHead r.toNat) (v.zeroExtend 64) m64 = drHead k r.toNat v := by
  have small := r.isLt
  have which : (oDrHead r.toNat - 0x21000) / 8 = r.toNat := by unfold oDrHead; omega
  have window : 0x21000 ≤ oDrHead r.toNat ∧ oDrHead r.toNat < 0x21800 := by unfold oDrHead; omega
  have row : regRow (oDrHead r.toNat) = none := by
    rw [regRow_within (lo := 0x20000) (hi := 0x21800) (by omega) (by omega), feedRows, List.find?_eq_none]
    simp only [List.mem_cons, List.not_mem_nil, or_false, forall_eq_or_imp, forall_eq, covers_iff]
    omega
  rw [bar0Write_acts _ _ served row (clrReg_feed (by omega) window.2) (by omega), if_neg (by omega), if_pos window, which]
  simp only [drWrite, zeroExtend_highBit, m64_lowBit, truncate_zeroExtend, Bool.false_eq_true, if_false, if_true]

theorem errWrite_head (k : Core) (o : Bool) (v : W32) : errWrite k (oErrHead (b2n o)) (v.zeroExtend 64) m64 = errHead k (b2n o) v := by
  have acts (x : W64) : errWrite k (oErrHead (b2n o)) x m64 =
      let k1 := if writes1 x m64 32 then modERing k (b2n o) (fun g => { g with badHead := false }) else k
      if m64.getLsbD 0 then errHead k1 (b2n o) (x.truncate 32) else k1 := by cases o <;> rfl
  rw [acts]
  simp only [zeroExtend_highBit, m64_lowBit, truncate_zeroExtend, Bool.false_eq_true, if_false, if_true]

theorem errWrite_ctl (k : Core) (o on : Bool) : errWrite k (oErrRingCtl (b2n o)) (if on then 1 else 0) m32 = errRingEn k (b2n o) on := by
  have quiet : writes1 (if on then 1 else 0) m32 1 = false := by revert on; decide
  have bit : (if on then 1 else 0 : W64).getLsbD 0 = on := by revert on; decide
  have acts (x : W64) : errWrite k (oErrRingCtl (b2n o)) x m32 =
      let k1 := if writes1 x m32 1 then modERing k (b2n o) (fun g => { g with openErr := false }) else k
      if m32.getLsbD 0 then errRingEn k1 (b2n o) (x.getLsbD 0) else k1 := by cases o <;> rfl
  rw [acts]
  simp only [quiet, m32_lowBit, bit, Bool.false_eq_true, if_false, if_true]

theorem errHead_write {k : Core} (o : Bool) (v : W32) (served : bar0Served k = true) :
    bar0Write k (oErrHead (b2n o)) (v.zeroExtend 64) m64 = errHead k (b2n o) v := by
  rw [bar0Write_acts _ _ served (by revert o; decide) (by revert o; decide) (by revert o; decide), if_neg (by revert o; decide),
    if_neg (by revert o; decide), if_pos (by revert o; decide)]
  exact errWrite_head k o v

theorem errRingCtl_write {k : Core} (o on : Bool) (served : bar0Served k = true) :
    bar0Write k (oErrRingCtl (b2n o)) (if on then 1 else 0) m32 = errRingEn k (b2n o) on := by
  rw [bar0Write_acts _ _ served (by revert o; decide) (by revert o; decide) (by revert o; decide), if_neg (by revert o; decide),
    if_neg (by revert o; decide), if_pos (by revert o; decide)]
  exact errWrite_ctl k o on

theorem ering_modERing_same (k : Core) (o : Bool) (f : ERing → ERing) : ering (modERing k (b2n o) f) (b2n o) = f (ering k (b2n o)) := by
  cases o <;> rfl

theorem ering_modERing_other (k : Core) (o : Bool) (f : ERing → ERing) : ering (modERing k (b2n o) f) (1 - b2n o) = ering k (1 - b2n o) := by
  cases o <;> rfl

theorem modERing_frame_err (k : Core) (o : Bool) (f : ERing → ERing) :
    modERing k (b2n o) f = { k with err := (modERing k (b2n o) f).err } := by
  cases o <;> rfl

/-- Settles O24: each write acts on its ring alone. -/
theorem headsFreeRecords : Obligations.HeadsFreeRecords := by
  refine ⟨fun s n v served => ?_, fun s r v served => ?_, fun s o v served => ?_, fun s o served off => ?_, fun s o served => ?_⟩
  · refine ⟨_, onPlain_of_eq (f := (bar0Write · (oCqHead n.toNat) (v.zeroExtend 64) m32)) (cqHead_write n v served), ?_, ?_⟩ <;> rw [cqHead] <;> split
    · rw [port_modPort_same]
    · rw [port_modPort_same]
    · rfl
    · rfl
  · refine ⟨_, onPlain_of_eq (f := (bar0Write · (oDrHead r.toNat) (v.zeroExtend 64) m64)) (drHead_write r v served), ?_, ?_⟩ <;> rw [drHead] <;> split
    · rw [dring_modRing, if_pos rfl]
    · rw [dring_modRing, if_pos rfl]
    · rfl
    · rfl
  · refine ⟨_, onPlain_of_eq (f := (bar0Write · (oErrHead (b2n o)) (v.zeroExtend 64) m64)) (errHead_write o v served), ?_, ?_, ?_⟩ <;> rw [errHead] <;> split
    · rw [ering_modERing_same]
    · rw [ering_modERing_same]
    · rw [ering_modERing_other]
    · rw [ering_modERing_other]
    · exact modERing_frame_err _ _ _
    · exact modERing_frame_err _ _ _
  · refine ⟨_, onPlain_of_eq (f := (bar0Write · (oErrRingCtl (b2n o)) 1 m32)) (errRingCtl_write o true served), ?_, ?_, ?_⟩ <;> simp only [errRingEn, off, Bool.not_true, Bool.false_eq_true, if_false] <;>
      split
    · rw [ering_modERing_same]
    · rw [ering_modERing_same, off]
    · rw [ering_modERing_other]
    · rw [ering_modERing_other]
    · exact modERing_frame_err _ _ _
    · exact modERing_frame_err _ _ _
  · have stops : errRingEn s.core (b2n o) false = modERing s.core (b2n o) (fun g => { g with en := false }) := rfl
    exact ⟨_, onPlain_of_eq (f := (bar0Write · (oErrRingCtl (b2n o)) 0 m32)) ((errRingCtl_write o false served).trans stops),
      ering_modERing_same _ _ _, ering_modERing_other _ _ _, modERing_frame_err _ _ _⟩

end Sys2Proof.Proofs.FeedPorts
end

section
/-! PROOFS. Feed ports open, take, close and report, and vectors go out (R96 to R99, R103). -/

namespace Sys2Proof.Proofs.FeedTaking
open Sys2Proof.Machine Sys2Proof.Laws Sys2Proof.Proofs.Resets Sys2Proof.Proofs.StartUp Sys2Proof.Proofs.PowerStates Sys2Proof.Proofs.Reads
open Sys2Proof.Proofs.Counters Sys2Proof.Proofs.ClearBits Sys2Proof.Proofs.Grants Sys2Proof.Proofs.HostLink Sys2Proof.Proofs.FeedPorts Sys2Proof.Proofs.StackRows

/-! ## Opening (R97) -/

theorem rreg_wreg_ne (k : Core) {off o : Nat} (v : W64) (ne : o ≠ off) : rreg (wreg k off v) o = rreg k o := by
  have same : mget? (wreg k off v).regs o = mget? k.regs o := by
    dsimp only [wreg]
    split
    · exact mget?_mdel_ne _ ne
    · exact mget?_mput_ne _ _ ne
  simp only [rreg, same]

theorem portRule_of_regs {k t : Core} {n : Nat} (wb : rreg t (oWbAddr n) = rreg k (oWbAddr n)) (base : rreg t (oCqBase n) = rreg k (oCqBase n))
    (size : rreg t (oCqSize n) = rreg k (oCqSize n)) : portRule t n = portRule k n := by
  simp only [portRule, rfld, wb, base, size]

theorem portRow (n : BitVec 6) : regRow (oPortCtl n.toNat) =
    some { base := 0x20000, s1 := 0x40, n1 := 64, s2 := 0x40, rw := 0x00FFFFFF07FF000E, reset := 0x100000000 } := by
  have small := n.isLt
  rw [regRow_within (lo := 0x20000) (hi := 0x21800) (by unfold oPortCtl; omega) (by unfold oPortCtl; omega), FeedPorts.feedRows,
    List.find?_cons_of_pos]
  rw [covers_iff]
  unfold oPortCtl
  dsimp only
  omega

theorem feedWrite_enable {k : Core} {off n : Nat} {v : W64} (rel : (off - 0x20000) % 0x40 = 0) (which : (off - 0x20000) / 0x40 = n)
    (on : v.getLsbD 0 = true) : feedWrite k off v m64 = portEnable k n := by
  unfold feedWrite
  rw [which]
  dsimp only
  split
  · rw [m64_lowBit, if_pos rfl, on, if_pos rfl]
  · next head => exact absurd (rel.symm.trans head) (by decide)
  · next status => exact absurd (rel.symm.trans status) (by decide)
  · next ctl _ _ => exact absurd rel ctl

/-- The write that opens a port stores its control register first. -/
theorem portCtl_write {k : Core} (n : BitVec 6) (ctl : W64) (served : bar0Served k = true) (closed : (port k n.toNat).st = .closed) :
    bar0Write k (oPortCtl n.toNat) (ctl ||| 1) m64 = portEnable (wreg k (oPortCtl n.toNat)
      ((rreg k (oPortCtl n.toNat) &&& ~~~0x00FFFFFF07FF000E#64) ||| (ctl &&& 0x00FFFFFF07FF000E#64))) n.toNat := by
  have small := n.isLt
  have window : 0x20000 ≤ oPortCtl n.toNat ∧ oPortCtl n.toNat < 0x21000 := by unfold oPortCtl; omega
  have which : (oPortCtl n.toNat - 0x20000) / 0x40 = n.toNat := by unfold oPortCtl; omega
  have rel : (oPortCtl n.toNat - 0x20000) % 0x40 = 0 := by unfold oPortCtl; omega
  have free : regHeld k (oPortCtl n.toNat) = false := by rw [regHeld, if_pos window, which, closed]; rfl
  have on : (ctl ||| 1).getLsbD 0 = true := by simp
  rw [bar0Write, served, Bool.not_true, if_neg (by decide), if_neg (by omega)]
  simp only [clrWrite, clrReg_feed window.1 (show oPortCtl n.toNat < 0x21800 by omega)]
  have mask : (BitVec.ofNat 64 0x00FFFFFF07FF000E ||| if rwlOpen k then BitVec.ofNat 64 0 else 0) = 0x00FFFFFF07FF000E#64 := by
    cases rwlOpen k <;> decide
  have stored := storeReg_row (k := k) (ctl ||| 1) (portRow n) free (.inl rfl)
  dsimp only at stored
  rw [mask, merge_setBit (by decide)] at stored
  rw [if_pos window, feedWrite_enable rel which on, stored]

theorem portEnable_opens {k : Core} {n : Nat} (state : k.glb.st = .config ∨ k.glb.st = .enabled) (closed : (port k n).st = .closed)
    (rule : portRule k n = true) :
    portEnable k n = modPort k n (fun p => { st := .opened, overflow := p.overflow, badHead := p.badHead, openErr := p.openErr }) := by
  rw [portEnable, closed]
  simp [state, portOpen, rule]

/-! ## Closing (R97, R98) -/

/-- A write-back line shows what is consumed and moves the port's vector and nothing else of it. -/
theorem writeLine_port (k : Core) (n : Nat) :
    ∃ covered unsignalled, port (writeLine k n) n =
      { port k n with shown := (port k n).consumed, wbDue := false, covered := covered, unsignalled := unsignalled } := by
  have signalled (k : Core) : ∃ covered unsignalled, port (portSignal k n false) n =
      { port k n with covered := covered, unsignalled := unsignalled } := by
    simp only [portSignal]
    split
    · refine ⟨0, (port k n).unsignalled - (port k n).covered, ?_⟩
      rw [show ∀ t v, port (msix t v) n = port t n from fun t v => by simp [port], port_modPort_same]
    · exact ⟨_, _, rfl⟩
  simp only [writeLine]
  obtain ⟨covered, unsignalled, eqn⟩ := signalled (modPort (hostWrite k (rreg k (oWbAddr n)).toNat
    (leBytes 8 (port k n).consumed ++ leBytes 4 (port k n).ordinal.toNat ++ leBytes 4 (port k n).produced.toNat)) n
    (fun q => { q with shown := q.consumed, wbDue := false, covered := q.unsignalled }))
  rw [eqn, port_modPort_same]
  exact ⟨covered, unsignalled, by simp [port]⟩

/-- What a write-back line changes: ports, the host's requests and what left the device. -/
theorem writeLine_eq (k : Core) (n : Nat) : writeLine k n = { k with
    ports := (writeLine k n).ports, pci := (writeLine k n).pci, host := (writeLine k n).host, held := (writeLine k n).held
    out := (writeLine k n).out } := by
  apply core_ext <;> simp

theorem portIdle_modPort (k : Core) (n : Nat) (f : Port → Port) (same : (f (port k n)).groups = (port k n).groups) :
    portIdle (modPort k n f) n = portIdle k n := by
  simp [portIdle, cancelsOf, same]

theorem portClose_waiting {k : Core} {n : Nat} (opened : (port k n).st = .opened) (collected : (port k n).bundle = [])
    (busy : portIdle k n = false) :
    portClose k n = modPort (modPort k n (fun q => { q with bundle := [] })) n
      (fun q => { q with slots := [], stamps := [], abortTail := none, st := .closing }) := by
  simp [portClose, opened, collected, bundleWaits, abortBundle, portDone, portIdle_modPort, busy]

theorem portShut_facts (k : Core) (n : Nat) :
    (port (portShut k n) n).st = .closed ∧ (port (portShut k n) n).shown = (port k n).consumed ∧
      portShut k n = { k with
        ports := (portShut k n).ports, pci := (portShut k n).pci, host := (portShut k n).host, held := (portShut k n).held
        out := (portShut k n).out } := by
  obtain ⟨covered, unsignalled, line⟩ := writeLine_port k n
  refine ⟨?_, ?_, ?_⟩
  · simp [portShut]
  · simp [portShut, line]
  · apply core_ext <;> simp [portShut]

/-! ## Taking (R96, R106, R122) -/

theorem joinBundle_goesOn {k : Core} {n : Nat} {i : Ctl} (tail : (port k n).abortTail = none) (last : i.isLast = false)
    (short : (port k n).bundle.length < 15) :
    joinBundle k n i = modPort k n (fun q => { q with
      bundle := (port k n).bundle ++ [i], fenced := q.fenced || (q.bundle.isEmpty && i.fence) }) := by
  have room : (port k n).bundle.length ≠ 15 := by omega
  simp [joinBundle, tail, last, room]

/-- Clearing the slots of the words taken leaves the rest of the port. -/
theorem foldl_clearSlot (p : Port) (c : Nat) (l : List Nat) :
    ∃ slots stamps, l.foldl (fun q j => clearSlot q (slotOf (c + j))) p = { p with slots := slots, stamps := stamps } := by
  induction l generalizing p with
  | nil => exact ⟨_, _, rfl⟩
  | cons j l ih =>
    obtain ⟨slots, stamps, rest⟩ := ih (clearSlot p (slotOf (c + j)))
    exact ⟨slots, stamps, rest⟩

/-- The words of the next instruction are consumed; a write-back line may follow. -/
theorem consume_cases (k : Core) (n : Nat) :
    ∃ t, consume k n = (insAt (port k n) n (port k n).consumed (port k n).ordinal, t) ∧
      (port t n).bundle = (port k n).bundle ∧ (port t n).ordinal = (port k n).ordinal + 1 ∧
      (port t n).consumed = (port k n).consumed + wordsAt (port k n) (port k n).consumed ∧ (port t n).fenced = (port k n).fenced ∧
      (port t n).abortTail = (port k n).abortTail ∧
      t = { k with ports := t.ports, pci := t.pci, host := t.host, held := t.held, out := t.out } := by
  obtain ⟨slots, stamps, cleared⟩ := foldl_clearSlot (port k n) (port k n).consumed (upFrom 0 (wordsAt (port k n) (port k n).consumed))
  simp only [consume, cleared]
  refine ⟨_, rfl, ?_⟩
  split
  · obtain ⟨covered, unsignalled, line⟩ := writeLine_port (modPort k n (fun _ => { port k n with
      slots := slots, stamps := stamps, consumed := (port k n).consumed + wordsAt (port k n) (port k n).consumed
      ordinal := (port k n).ordinal + 1 })) n
    rw [line, port_modPort_same]
    refine ⟨rfl, rfl, rfl, rfl, rfl, ?_⟩
    apply core_ext <;> simp
  · rw [port_modPort_same]
    exact ⟨rfl, rfl, rfl, rfl, rfl, rfl⟩

theorem feedTake_goesOn {k : Core} {n : Nat} (served : ctlServed k = true) (free : portWait k n = 0) (visible : behindBar4 k n = false)
    (tail : (port k n).abortTail = none) (last : (insAt (port k n) n (port k n).consumed (port k n).ordinal).isLast = false)
    (short : (port k n).bundle.length < 15) :
    let p := port k n
    let i := insAt p n p.consumed p.ordinal
    let t := feedTake k n
    (port t n).bundle = p.bundle ++ [i] ∧ (port t n).ordinal = p.ordinal + 1 ∧ (port t n).consumed = p.consumed + wordsAt p p.consumed ∧
      (port t n).fenced = (p.fenced || (p.bundle.isEmpty && i.fence)) ∧
      t = { k with ports := t.ports, pci := t.pci, host := t.host, held := t.held, out := t.out } := by
  obtain ⟨t, taken, bundle, ordinal, consumed, fenced, tail', frame⟩ := consume_cases k n
  have joins : feedTake k n = modPort t n (fun q => { q with
      bundle := (port t n).bundle ++ [insAt (port k n) n (port k n).consumed (port k n).ordinal]
      fenced := q.fenced || (q.bundle.isEmpty && (insAt (port k n) n (port k n).consumed (port k n).ordinal).fence) }) := by
    rw [feedTake, served, free, visible, if_pos (by decide), taken]
    exact joinBundle_goesOn (tail'.trans tail) last (by rw [bundle]; exact short)
  dsimp only
  rw [joins, port_modPort_same]
  refine ⟨by rw [← bundle], ordinal, consumed, by rw [← fenced, ← bundle], ?_⟩
  conv_lhs => rw [frame]
  rfl

/-- Settles O23. -/
theorem feedPortsTakeAndClose : Obligations.FeedPortsTakeAndClose := by
  refine ⟨fun s n ctl state closed rule => ?_, fun s n served opened collected busy => ?_, fun s n closing idle collected => ?_,
    fun s n served free visible => ?_, fun s n paced due => ?_, fun s n paced due => ?_⟩
  · have served : bar0Served s.core = true := by rcases state with h | h <;> simp [bar0Served, h]
    have small := n.isLt
    have rule' : portRule (wreg s.core (oPortCtl n.toNat) ((rreg s.core (oPortCtl n.toNat) &&& ~~~0x00FFFFFF07FF000E#64) |||
        (ctl &&& 0x00FFFFFF07FF000E#64))) n.toNat = true :=
      (portRule_of_regs (rreg_wreg_ne _ _ (by unfold oWbAddr oPortCtl; omega)) (rreg_wreg_ne _ _ (by unfold oCqBase oPortCtl; omega))
        (rreg_wreg_ne _ _ (by unfold oCqSize oPortCtl; omega))).trans rule
    refine ⟨_, onPlain_of_eq (f := (bar0Write · (oPortCtl n.toNat) (ctl ||| 1) m64))
      ((portCtl_write n ctl served closed).trans (portEnable_opens state closed rule')), ?_, fun m ne => ?_, rfl, rfl⟩
    · rw [port_modPort_same]
      rfl
    · rw [port_modPort, if_neg ne]
      rfl
  · refine ⟨_, onPlain_onlyIf_of_eq (f := (portClose · n.toNat)) served (portClose_waiting opened collected busy), ?_, fun m ne => ?_, rfl⟩
    · rw [port_modPort_same, port_modPort_same, ← collected]
    · rw [port_modPort, if_neg ne, port_modPort, if_neg ne]
  · have shuts : feedPortClosed s.core n.toNat = portShut s.core n.toNat := by
      simp [feedPortClosed, closing, portDone, idle, collected]
    exact ⟨_, onPlain_of_eq (f := (feedPortClosed · n.toNat)) shuts, portShut_facts s.core n.toNat⟩
  · intro p i tail last short
    obtain ⟨bundle, ordinal, consumed, fenced, frame⟩ := feedTake_goesOn served free visible tail last short
    exact ⟨feedTake s.core n.toNat, rfl, bundle, ordinal, consumed, fenced, rfl, frame⟩
  · exact onPlain_of_eq (f := (coalesceExpiry · n.toNat)) (by simp [coalesceExpiry, paced, due])
  · refine ⟨_, onPlain_of_eq (f := (coalesceExpiry · n.toNat)) (show coalesceExpiry s.core n.toNat = modPort s.core n.toNat _ by
      simp [coalesceExpiry, paced, due]; rfl), ?_, rfl⟩
    rw [port_modPort_same]

/-! ## Vectors (R103) -/

/-- The core whose table leaves vector `n` unmasked. -/
def unmasked (k : Core) (n : Nat) : Core := { k with pci := { k.pci with msixTab := mset 1 k.pci.msixTab (4 * n + 3) 0 } }

theorem msixUnmask_eq {k : Core} (v : BitVec 11) (served : bar0Served k = true) : msixUnmask k v.toNat = msixKick (unmasked k v.toNat) := by
  have small := v.isLt
  have dword : (0x18008 + 16 * v.toNat - 0x18000) / 4 + 1 = 4 * v.toNat + 3 := by omega
  rw [msixUnmask, bar0Write, served, Bool.not_true, if_neg (by decide), if_pos (by omega), msixWrites,
    show (~~~m32).getLsbD 0 = false by decide, show (~~~m32).getLsbD 32 = true by decide]
  simp only [Bool.false_eq_true, if_false, if_true, dword]
  rw [msixWrite, if_pos (by omega), if_pos (by omega), unmasked, show (0 : W64).extractLsb' 32 32 &&& 1 = 0 by decide]

theorem msixMasked_unmasked {k : Core} (n : Nat) (on : k.pci.msixOn = true) (all : k.pci.msixMaskAll = false) :
    msixMasked (unmasked k n) n = false := by
  have dword : msixDw (unmasked k n) (4 * n + 3) = 0 := by
    rw [msixDw, if_pos (by omega)]
    exact mget_mset_same (1 : W32) 0 k.pci.msixTab (4 * n + 3)
  have all' : (unmasked k n).pci.msixMaskAll = false := all
  have on' : (unmasked k n).pci.msixOn = true := on
  rw [msixMasked, dword, all', on']
  rfl

theorem msixKick_one {k : Core} {n : Nat} (pend : k.pci.msixPend = [n]) (open_ : msixMasked k n = false) (up : hostUp k = true)
    (clear : k.held = []) : msixKick k = { k with pci := { k.pci with msixPend := [] }, out := .msix n :: k.out } := by
  rw [msixKick, pend, List.foldl_cons, List.foldl_nil, open_, if_neg (by decide), hostReq_up (by exact up) (by exact clear), pend]
  simp [hostDo, emit, sdel]

/-- Settles O25. -/
theorem vectorsGoOut : Obligations.VectorsGoOut := by
  refine ⟨fun s v served on open_ pend up clear => ?_, fun s n timed covered => ?_, fun s r timed unsignalled => ?_, fun s n none => ?_⟩
  · have kicks := (msixUnmask_eq v served).trans (msixKick_one pend (msixMasked_unmasked v.toNat on open_) up clear)
    exact ⟨_, onPlain_of_eq (f := (msixUnmask · v.toNat)) kicks, msixMasked_unmasked (k := s.core) v.toNat on open_, rfl, rfl, rfl⟩
  · exact onPlain_of_eq (f := (msixTimeTrigger · (.completion n))) (by simp [msixTimeTrigger, timed, portSignal, covered])
  · exact onPlain_of_eq (f := (msixTimeTrigger · (.delivery r))) (by simp [msixTimeTrigger, timed, ringSignal, unsignalled])
  · exact onPlain_of_fixed (f := (msixTimeTrigger · (.completion n))) (by simp [msixTimeTrigger, none])

end Sys2Proof.Proofs.FeedTaking
end

section
/-! PROOFS. The BAR4 aperture (R85, R92, R322) and the SYS instructions (R102, R146 to R149). -/

namespace Sys2Proof.Proofs.ApertureSys
open Sys2Proof.Machine Sys2Proof.Laws Sys2Proof.Proofs.Resets Sys2Proof.Proofs.PowerStates Sys2Proof.Proofs.Reads
open Sys2Proof.Proofs.Acceptance

/-- A row of the table answers what follows from the core its function gives. -/
theorem onCore_of_row {s : State} {f : Core → Core} {k : Core} (e : f s.core = k) : onCore s f = .next (s.finish k) := by rw [onCore, e]

/-! ## The aperture -/

theorem alive_states {k : Core} (on : alive k = true) : k.glb.st ≠ .reset ∧ k.glb.st ≠ .config ∧ k.glb.st ≠ .halted := by
  simp only [alive, Bool.or_eq_true, beq_iff_eq] at on
  rcases on with h | h <;> simp [h]

/-- An access of a device that serves, which waits for nothing, is carried out. -/
theorem apAccess_serves {k : Core} {q : ApReq} (on : powered k = true) (serving : alive k = true) (waits : apWaits k q = false) :
    apAccess k q = apServe k q := by
  obtain ⟨reset, config, -⟩ := alive_states serving
  simp [apAccess, on, reset, config, waits]

theorem apServe_refuses {k : Core} {q : ApReq} (serving : alive k = true) (outside : apOutside k q.off q.len = true) :
    apServe k q = apRefuse k q := by
  obtain ⟨-, -, halted⟩ := alive_states serving
  simp [apServe, halted, outside]

theorem apRefuse_read (k : Core) (x n : Nat) :
    apRefuse k { off := x, data := none, len := n, poisoned := false } = { k with out := .unsupported :: k.out } := rfl

theorem apRefuse_write (k : Core) (x : Nat) (b : List Byte) (p r : Bool) :
    apRefuse k { off := x, data := some b, len := b.length, poisoned := p, relaxed := r } = { k with
      pci := { k.pci with aerHdr := some (k.pci.aerHdr.getD ⟨false, 4, x, b.length⟩) }, out := .aer :: k.out } := rfl

theorem apServe_reads {k : Core} {q : ApReq} (serving : alive k = true) (inside : apOutside k q.off q.len = false)
    (open_ : apConf k q.off q.len = false) (read : q.data = none) : apServe k q = apRead k q := by
  obtain ⟨-, -, halted⟩ := alive_states serving
  simp [apServe, halted, inside, open_, read]

theorem apServe_writes {k : Core} {q : ApReq} {b : List Byte} (serving : alive k = true) (inside : apOutside k q.off q.len = false)
    (open_ : apConf k q.off q.len = false) (write : q.data = some b) :
    apServe k q = (apLines (apAddr k q.off) q.len).foldl (apWriteLine q b) k := by
  obtain ⟨-, -, halted⟩ := alive_states serving
  simp [apServe, halted, inside, open_, write]

/-- Data that touch one line lie in it whole. -/
theorem lineData_of_apLines {a l : Nat} {b : List Byte} (one : apLines a b.length = [l]) :
    max a (64 * l) = a ∧ (b.drop (a - a)).take (64 * (l + 1) - a) = b := by
  unfold apLines at one
  split at one
  · simp at one
  · next some =>
    obtain ⟨n, count⟩ : ∃ n, (a + b.length - 1) / 64 - a / 64 + 1 = n + 1 := ⟨_, rfl⟩
    rw [count] at one
    simp only [upFrom, List.cons.injEq] at one
    obtain ⟨first, rest⟩ := one
    have zero : n = 0 := by cases n <;> simp_all [upFrom]
    refine ⟨by omega, ?_⟩
    rw [Nat.sub_self, List.drop_zero]
    exact List.take_of_length_le (by omega)

theorem noteWrite_line (k : Core) (h i : Nat) : noteWrite k h i 1 = modObj k h (fun o =>
    if o.home = 2 then { o with dirty := sput o.dirty (i / 1024), redirty := if o.cleaning = [] then o.redirty else sput o.redirty (i / 1024) }
    else if o.home = 0 then { o with bcast := none } else o) := by
  simp [noteWrite, upFrom]

/-- A write into a line of a complete copy stores its bytes there and notes the granule (R322, R325). -/
theorem apWriteLine_copy {k : Core} {q : ApReq} {b : List Byte} {l h i : Nat} (one : apLines (apAddr k q.off) b.length = [l])
    (held : lineObj k l = some (h, i)) (home : (obj k h).home ≠ 1) (complete : (obj k h).st = .complete) :
    apWriteLine q b k l = noteWrite { k with
      dram := apPoison (k.dram.putBytes 0 (apAddr k q.off) b) (apAddr k q.off) b.length q.poisoned } h i 1 := by
  obtain ⟨start, whole⟩ := lineData_of_apLines one
  simp only [apWriteLine, held, start, whole, home, complete, not_true, or_false, if_false, true_or]
  simp

theorem apWriteLine_drop {k : Core} {q : ApReq} {b : List Byte} {l : Nat} (none : lineObj k l = none) :
    apWriteLine q b k l = { k with sched := { k.sched with apDrop := true } } := by
  simp [apWriteLine, none]

/-- Settles O26. -/
theorem apertureServesCopies : Obligations.ApertureServesCopies := by
  refine ⟨fun s x n on state => ?_, fun s x n on serving waits inside open_ thawed => ?_, fun s x n on serving waits outside => ?_,
    fun s x b w l h i on serving waits inside open_ one held home complete => ?_,
    fun s x b w l on serving waits inside open_ one none => ?_, fun s x b w on serving waits outside => ?_⟩
  · exact onPlain_of_eq (f := (bar4Read · x n)) (by simp [bar4Read, apAccess, on, state, emit])
  · refine onPlain_of_eq (f := (bar4Read · x n)) ?_
    rw [bar4Read, apAccess_serves on serving waits, apServe_reads serving inside open_ rfl]
    simp only [apRead, thawed, emit, Bool.false_eq_true, if_false]
  · refine onPlain_of_eq (f := (bar4Read · x n)) ?_
    rw [bar4Read, apAccess_serves on serving waits, apServe_refuses serving outside, apRefuse_read]
  · have writes : bar4Write s.core x b w = noteWrite { s.core with
        dram := apPoison (s.core.dram.putBytes 0 (apAddr s.core x) b) (apAddr s.core x) b.length w.poisoned } h i 1 := by
      rw [bar4Write, apAccess_serves on serving waits, apServe_writes serving inside open_ rfl, one, List.foldl_cons, List.foldl_nil,
        apWriteLine_copy one held home complete]
    refine ⟨_, onCore_of_row (f := (bar4Write · x b w)) writes, by simp [noteWrite_line], fun host => ?_, by simp [noteWrite_line, modObj]⟩
    rw [noteWrite_line, obj_modObj, if_pos rfl]
    rw [if_pos (by exact host)]
    rfl
  · refine onCore_of_row (f := (bar4Write · x b w)) ?_
    rw [bar4Write, apAccess_serves on serving waits, apServe_writes serving inside open_ rfl, one, List.foldl_cons, List.foldl_nil,
      apWriteLine_drop none]
  · refine onCore_of_row (f := (bar4Write · x b w)) ?_
    rw [bar4Write, apAccess_serves on serving waits, apServe_refuses serving outside, apRefuse_write]

/-! ## The SYS instructions -/

theorem sysQueryPayload_items {k : Core} {part : Option Nat} {r : Nat} (all : part = none) (items : r = 1) :
    sysQueryPayload k part r = leBytes 4 (countOf k.ctxs (·.isOpen)) ++ leBytes 4 (countOf k.rings (·.isOpen)) ++
      leBytes 4 (liveSeqs k).length ++ leBytes 4 (handles k).length := by
  simp [sysQueryPayload, all, items]

/-- What a function keeps of the value that is not listed it does to every key. -/
theorem mget_mmap {α : Type} {d : α} {f : Nat → α → α} (unlisted : ∀ n, f n d = d) (m : SMap α) (j : Nat) :
    mget d (mmap f m) j = f j (mget d m j) := by
  induction m with
  | nil => exact (unlisted j).symm
  | cons e m ih =>
    obtain ⟨n, v⟩ := e
    by_cases same : j = n
    · subst same; simp [mmap, mget]
    · simp [mmap, mget, same, ih]

theorem forgetCtx_lastCtx (k : Core) (c d : Nat) :
    (dom (forgetCtx k c) d).lastCtx = if (dom k d).lastCtx = some c then some 4096 else (dom k d).lastCtx := by
  rw [dom, forgetCtx]
  dsimp only
  rw [mget_mmap (fun _ => by simp)]
  exact apply_ite Dom.lastCtx ..

/-- Settles O27. -/
theorem sysInstructionsComplete : Obligations.SysInstructionsComplete := by
  intro h a b c x s
  refine ⟨fun ok => onCore_done ok rfl, fun ok state => onCore_done ok ?_, fun ok items all => onCore_done ok ?_, fun ok => onCore_done ok rfl,
    fun ok => onCore_done ok rfl, fun ok => onCore_done ok rfl, fun ok => ?_⟩
  · exact congrArg (Res.done s.core) (if_pos state)
  · exact congrArg (Res.done s.core) (sysQueryPayload_items all items)
  · refine ⟨_, onCore_done ok rfl, ?_, fun m ne => ?_, fun d => ?_, rfl⟩
    · exact congrArg Ctx.isOpen (mget_mdel_same ..)
    · exact mget_mdel_ne _ _ ne
    · exact forgetCtx_lastCtx s.core (bits a.toNat 11 0) d

end Sys2Proof.Proofs.ApertureSys
end

section
/-! PROOFS. Sequences end and close (R269, R307, R310), pools and edits (R245, R265, R277 to R280) and accounts (R311). -/

namespace Sys2Proof.Proofs.SeqsPools
open Sys2Proof.Machine Sys2Proof.Laws Sys2Proof.Proofs.Resets Sys2Proof.Proofs.PowerStates Sys2Proof.Proofs.Reads
open Sys2Proof.Proofs.Acceptance Sys2Proof.Proofs.ResetFrames Sys2Proof.Proofs.ApertureSys

/-! ## What the end of a sequence leaves (R304 to R307) -/

/-- Pools, the Scheduler's shared state, accounts and step domains stay. -/
@[simp] abbrev DomainsKept (k t : Core) : Prop := t.pools = k.pools ∧ t.sched = k.sched ∧ t.accts = k.accts ∧ t.doms = k.doms

@[simp] theorem mirrorSend_domainsKept (k : Core) (kind : Nat) (tag : W64) (body : List Byte) (l : List Line) :
    DomainsKept k (mirrorSend k kind tag body l) := by
  simp only [mirrorSend, mirrorLines, sendOn]
  split <;> [split; skip] <;> simp

@[simp] theorem ringCommit_domainsKept (k : Core) (s r : Nat) (l : List Byte) : DomainsKept k (ringCommit k s r l) := by
  simp only [ringCommit]
  split <;> simp

@[simp] theorem endPause_domainsKept (k : Core) (s reason arg : Nat) :
    DomainsKept k (endPause k s reason arg) ∧
      (endPause k s reason arg).seqs = mmod {} k.seqs s (fun q => { q with pausePending := false }) := by
  simp only [endPause]
  split <;> simp

theorem commit_cancelled {k : Core} {s : Nat} {d : Deliv} (kind : d.kind = .cancelled) :
    DomainsKept k (commit k s d) ∧ (commit k s d).seqs = k.seqs := by
  simp only [commit, kind]
  split <;> simp

@[simp] theorem releasePrompt_domainsKept (k : Core) (s : Nat) :
    DomainsKept k (releasePrompt k s) ∧ (releasePrompt k s).seqs = mmod {} k.seqs s (fun q => { q with pPinned := false, pLeft := 0 }) := by
  simp only [releasePrompt, abandonPrompt]
  split <;> simp [dropPin]

/-- The CANCELLED record is written, or waits and is the only one that does. -/
theorem deliver_cancelled (k : Core) (s : Nat) (i : Option Ctl) :
    let t := deliver k s { kind := .cancelled, cancel := i }
    DomainsKept k t ∧ (t.seqs = k.seqs ∨ ∃ d : Deliv, d.kind = .cancelled ∧ t.seqs = mmod {} k.seqs s (fun q => { q with waiting := q.waiting ++ [d] })) := by
  simp only [deliver]
  split <;> split
  · obtain ⟨kept, seqs⟩ := commit_cancelled (k := mirrorSend k mRecord 0 (leBytes 4 s ++ leBytes 4 (seq k s).ring)
      (linesOf (recordOf (seq k s) { kind := .cancelled, cancel := i }) 1)) (s := s)
      (d := { kind := .cancelled, cancel := i, msn := some k.fab.twin.msn }) rfl
    exact ⟨by simpa using kept, .inl (by simpa using seqs)⟩
  · exact ⟨by simp, .inr ⟨_, rfl, by simp; rfl⟩⟩
  · obtain ⟨kept, seqs⟩ := commit_cancelled (k := k) (s := s) (d := { kind := .cancelled, cancel := i }) rfl
    exact ⟨kept, .inl seqs⟩
  · exact ⟨by simp, .inr ⟨{ kind := .cancelled, cancel := i }, rfl, by simp⟩⟩

theorem seq_of_seqs {t u : Core} (e : t.seqs = u.seqs) (m : Nat) : seq t m = seq u m := by rw [seq, seq, e]

theorem releasePrompt_seq (k : Core) (s m : Nat) :
    seq (releasePrompt k s) m = if m = s then { seq k s with pPinned := false, pLeft := 0 } else seq k m :=
  (seq_of_seqs (u := modSeq k s fun q => { q with pPinned := false, pLeft := 0 }) (releasePrompt_domainsKept k s).2 m).trans (seq_modSeq k s m _)

theorem endPause_seq (k : Core) (s reason arg m : Nat) :
    seq (endPause k s reason arg) m = if m = s then { seq k s with pausePending := false } else seq k m :=
  (seq_of_seqs (u := modSeq k s fun q => { q with pausePending := false }) (endPause_domainsKept k s reason arg).2 m).trans (seq_modSeq k s m _)

/-- What a sequence becomes before its CANCELLED record is queued. -/
theorem cancelSeq_before (k : Core) (n : Nat) (i : Option Ctl) :
    ∃ t, cancelSeq k n i = deliver t n { kind := .cancelled, cancel := i } ∧ DomainsKept k t ∧ (seq t n).st = .cancelled ∧
      (seq t n).waiting = [] ∧ ∀ m, m ≠ n → seq t m = seq k m := by
  simp only [cancelSeq]
  refine ⟨_, rfl, ?_⟩
  split
  · simp +contextual [endPause_seq, releasePrompt_seq, seq_modSeq]
  · simp +contextual [releasePrompt_seq, seq_modSeq]

/-- A sequence that is cancelled ends CANCELLED with no record waiting but its last; no other sequence changes (R307). -/
theorem cancelSeq_facts (k : Core) (n : Nat) (i : Option Ctl) :
    let t := cancelSeq k n i
    DomainsKept k t ∧ (seq t n).st = .cancelled ∧ (∀ m, m ≠ n → seq t m = seq k m) ∧ ∀ d ∈ (seq t n).waiting, d.kind = .cancelled := by
  obtain ⟨t, ends, kept, st, none, others⟩ := cancelSeq_before k n i
  obtain ⟨kept', seqs⟩ := deliver_cancelled t n i
  dsimp only
  rw [ends]
  refine ⟨by simp_all, ?_⟩
  rcases seqs with same | ⟨d, kind, waits⟩
  · simp only [seq_of_seqs same]
    exact ⟨st, others, by simp [none]⟩
  · have after (m : Nat) := (seq_of_seqs (u := modSeq t n (fun q => { q with waiting := q.waiting ++ [d] })) waits m).trans (seq_modSeq t n m _)
    refine ⟨by rw [after, if_pos rfl]; exact st, fun m ne => by rw [after, if_neg ne]; exact others m ne, ?_⟩
    rw [after, if_pos rfl]
    simp [none, kind]

/-! ## SEQ.CLOSE (R269, R310) -/

/-- What stays where model sets, references and pins of objects, and instructions in flight change. -/
@[simp] abbrev SeqsKept (k t : Core) : Prop := t.seqs = k.seqs ∧ t.pools = k.pools ∧ t.sched.edits = k.sched.edits

theorem dropRefs_seqsKept (l : List Nat) (k : Core) : SeqsKept k (l.foldl dropRef k) :=
  List.foldlRecOn (motive := SeqsKept k) l dropRef (by simp) fun t kept o _ => by simpa [dropRef] using kept

theorem dropPending_seqsKept (k : Core) (m arg : Nat) : SeqsKept k (dropPending k m arg) := by
  simp only [dropPending]
  exact List.foldlRecOn (motive := SeqsKept k) _ _ (by simp) fun t kept f _ => by simpa using kept

theorem freeFailed_seqsKept (k : Core) (m : Nat) : SeqsKept k (freeFailed k m) := by
  simp only [freeFailed, msetFree]
  split
  · split <;> split <;> simp [dropRefs_seqsKept, dropPending_seqsKept, sysGive]
  · simp

/-- The edit that returns all pages of a sequence that closes. -/
def closeEdit (k : Core) (n p : Nat) : Edit :=
  { seq := n, dom := seqDom k n, pool := p, share := false, b0 := 0, nblk := 4194304 / max 1 (pool k p).nl + 1, prepared := true }

/-- It names every entry a sequence can have. -/
theorem closeEdit_covers (k : Core) (n p e : Nat) (layers : 1 ≤ (pool k p).nl) (inside : e < 4194304) :
    e < (closeEdit k n p).nblk * (pool k p).nl := by
  simp only [closeEdit, Nat.max_eq_right layers]
  have := Nat.lt_mul_div_succ 4194304 layers
  calc e < 4194304 := inside
    _ < (pool k p).nl * (4194304 / (pool k p).nl + 1) := this
    _ = _ := Nat.mul_comm _ _

/-- What SEQ.CLOSE makes of the sequence before a failed model set that nothing binds any more is freed. -/
theorem seqClose_before (k : Core) (i : Ctl) :
    ∃ t, seqCloseSpec.run i k = .done (freeFailed t (seq k i.seq).mset) [] ∧ (seq t i.seq).st = .free ∧
      (∀ m, m ≠ i.seq → seq t m = seq k m) ∧ t.pools = k.pools ∧ (seq t i.seq).pages = (seq k i.seq).pages ∧
      t.sched.edits = k.sched.edits ++ ((seq k i.seq).pool.map (closeEdit k i.seq)).toList := by
  refine ⟨_, rfl, ?_⟩
  have after (m : Nat) := seq_modSeq (releasePrompt k i.seq) i.seq m fun q => { q with st := .free, waiting := [] }
  dsimp only
  cases pool : (seq k i.seq).pool with
  | none => simp +contextual [after, releasePrompt_seq]
  | some p =>
    refine ⟨?_, fun m ne => (after m).trans ?_, by simp, ?_, by simp [closeEdit]⟩
    · exact congrArg Seq.st ((after i.seq).trans (if_pos rfl))
    · rw [if_neg ne, releasePrompt_seq, if_neg ne]
    · exact congrArg Seq.pages ((after i.seq).trans (if_pos rfl)) |>.trans (by rw [releasePrompt_seq, if_pos rfl])

theorem seqClose_facts (k : Core) (i : Ctl) :
    ∃ t, seqCloseSpec.run i k = .done t [] ∧ (seq t i.seq).st = .free ∧ (∀ m, m ≠ i.seq → seq t m = seq k m) ∧ t.pools = k.pools ∧
      (seq t i.seq).pages = (seq k i.seq).pages ∧
      t.sched.edits = k.sched.edits ++ ((seq k i.seq).pool.map (closeEdit k i.seq)).toList := by
  obtain ⟨t, runs, st, others, pools, pages, edits⟩ := seqClose_before k i
  obtain ⟨seqs, pools', edits'⟩ := freeFailed_seqsKept t (seq k i.seq).mset
  exact ⟨_, runs, by rwa [seq_of_seqs seqs], fun m ne => (seq_of_seqs seqs m).trans (others m ne), pools'.trans pools,
    by rwa [seq_of_seqs seqs], edits'.trans edits⟩

/-- Settles O29. -/
theorem sequencesEndAndClose : Obligations.SequencesEndAndClose := by
  intro h a b c s
  refine ⟨fun ok live => ?_, fun ok => ?_⟩
  · have runs : seqCancelSpec.run (mkCtl h 1 4 a b c 0) s.core = .later (cancelSeq s.core (bits a.toNat 21 0) (some (mkCtl h 1 4 a b c 0))) :=
      if_pos live
    have cancels : ctlExec seqCancelSpec h a b c 0 s.core = cancelSeq s.core (bits a.toNat 21 0) (some (mkCtl h 1 4 a b c 0)) := by
      rw [ctlExec_of_accepted ok]
      exact congrArg (ctlEnd s.core _) runs
    obtain ⟨⟨pools, sched, accts, doms⟩, st, others, waiting⟩ := cancelSeq_facts s.core (bits a.toNat 21 0) (some (mkCtl h 1 4 a b c 0))
    exact ⟨_, onCore_of_row cancels, st, others, waiting, pools, sched, fun m => by rw [acct, acct, accts], fun m => by rw [dom, dom, doms]⟩
  · obtain ⟨t, runs, st, others, pools, pages, edits⟩ := seqClose_facts s.core (mkCtl h 1 5 a b c 0)
    refine ⟨t, onCore_done ok runs, st, others, pools, pages, ?_⟩
    change t.sched.edits = _ ++ ((seq s.core (bits a.toNat 21 0)).pool.map (closeEdit s.core (bits a.toNat 21 0))).toList at edits
    rw [edits]
    cases pool : (seq s.core (bits a.toNat 21 0)).pool with
    | none => exact List.append_nil _
    | some p => exact ⟨_, rfl, rfl, rfl, rfl, rfl, rfl, fun layers e => closeEdit_covers s.core _ p e layers⟩

/-! ## Pools and pages (R245, R277 to R280) -/

/-- A copy that is complete is not being fetched, so its pin is one of those that hold it. -/
theorem takePin_of_complete {k : Core} {h : Nat} (complete : (obj k h).complete = true) :
    takePin k h = modObj k h fun o => { o with otherPins := o.otherPins + 1 } := by
  have st : (mget {} k.objs h).st = .complete := by
    simp only [Obj.complete, Bool.and_eq_true, beq_iff_eq] at complete
    exact complete.2
  simp [takePin, modObj, mmod, st]

theorem ptPoolOpen_complete {h : CtlHdr} {a b c : W32} {k : Core} (ok : Accepted ptPoolOpenSpec h a b c 0 k) :
    (obj k (bits b.toNat 23 0)).complete = true := by
  obtain ⟨-, -, -, sound⟩ := ok
  have := sound (cState 32 (!(obj k (bits b.toNat 23 0)).complete) (obj k (bits b.toNat 23 0)).arg)
    (List.mem_append_right _ (by simp only [ptPoolOpenSpec]; exact List.mem_append_right _ (by simp [Ctl.fb, mkCtl])))
  simpa [cState] using this

theorem ptRead_run {i : Ctl} {k : Core} {p : Nat} (bound : (seq k i.seq).pool = some p) :
    ptReadSpec.run i k =
      let e := i.fb 13 0 * (pool k p).nl + i.fc 7 0
      let v := pubEntry (seq k i.seq) e
      .done k (leBytes 8 v.toNat ++ leBytes 2 (if entryMapped v then (pageHdr k p (entryPage v)).refs else 0) ++
        leBytes 1 (entryCode k (some p) (shadowEntry k i.seq e)) ++
        leBytes 1 (min 255 (k.sched.edits.filter (fun d => d.seq == i.seq)).length)) := by
  simp only [ptReadSpec, seqNl, bound]

/-- Settles O30. -/
theorem poolInstructionsComplete : Obligations.PoolInstructionsComplete := by
  intro h a b c s
  refine ⟨fun ok => onCore_done ok ?_, fun ok => onCore_done ok rfl, fun ok => onCore_done ok rfl, fun ok => onCore_done ok rfl,
    fun p ok bound => onCore_done ok ?_⟩
  · have pins := takePin_of_complete (ptPoolOpen_complete ok)
    simp only [ptPoolOpenSpec]
    exact congrArg (fun t => Res.done (modPool t _ _) _) pins
  · exact ptRead_run (i := mkCtl h 1 0x46 a b c 0) bound

/-! ## Edits of the shadow (R264, R265, R280) -/

theorem pageHdr_modHdr (k : Core) (p page g : Nat) (f : PageHdr → PageHdr) :
    pageHdr (modHdr k p page f) p g = if g = page then f (pageHdr k p page) else pageHdr k p g := by
  simp only [pageHdr, modHdr, pool, modPool, mget_mmod, if_pos]
  split
  · next same => rw [same, mget_mput_same]
  · next ne => exact mget_mput_ne _ _ _ ne

/-- A reference is taken for the page of each entry. -/
def takeRefs (k : Core) (p : Nat) (l : List (Nat × W64)) : Core :=
  l.foldl (fun k e => modHdr k p (entryPage e.2) fun h => { h with refs := h.refs + 1 }) k

theorem takeRefs_frame (k : Core) (p : Nat) (l : List (Nat × W64)) : takeRefs k p l = { k with pools := (takeRefs k p l).pools } :=
  List.foldlRecOn (motive := fun t : Core => t = { k with pools := t.pools }) l
    (fun k e => modHdr k p (entryPage e.2) fun h => { h with refs := h.refs + 1 }) rfl fun t frame e _ => by
    rw [frame]
    rfl

/-- Each page gains a reference for every entry that names it, and no other. -/
theorem takeRefs_counts (k : Core) (p g : Nat) (l : List (Nat × W64)) :
    (pageHdr (takeRefs k p l) p g).refs = (pageHdr k p g).refs + (l.filter fun e => decide (entryPage e.2 = g)).length := by
  induction l generalizing k with
  | nil => rfl
  | cons e r ih =>
    rw [takeRefs, List.foldl_cons, ← takeRefs, ih, pageHdr_modHdr]
    by_cases same : entryPage e.2 = g
    · simp [same]
      omega
    · simp [same, Ne.symm same]

/-- The entries a SHARE stages, the source's layer for layer; an UNMAP stages none of its own. -/
def sharedEntries (k : Core) (i : Ctl) : List (Nat × W64) :=
  if i.fa 23 22 == 0 then
    (sharePairs (seqNl k i.seq) (i.fb 13 0) (i.fx 45 32) (i.fc 14 0)).map fun e => (e.1, shadowEntry k (i.fx 21 0) e.2)
  else []

/-- The edit PT.EDIT stages. -/
def stagedEdit (k : Core) (i : Ctl) : Edit :=
  { seq := i.seq, dom := seqDom k i.seq, pool := (seq k i.seq).pool.getD 0,
    frames := shadowFrames (i.fb 13 0 * seqNl k i.seq) ((i.fb 13 0 + i.fc 14 0) * seqNl k i.seq),
    share := i.fa 23 22 == 0, b0 := i.fb 13 0, nblk := i.fc 14 0, set := sharedEntries k i, ins := some i }

/-- The state PT.EDIT leaves: references taken, shadow frames taken, the edit staged. -/
def editStaged (k : Core) (i : Ctl) : Core :=
  let t := sysTake (takeRefs k (stagedEdit k i).pool (sharedEntries k i)) (4096 * (stagedEdit k i).frames)
  { t with sched := { t.sched with edits := t.sched.edits ++ [stagedEdit k i] } }

theorem ptEdit_run (k : Core) (i : Ctl) : ptEditSpec.run i k = inFlight (editStaged k i) { ins := i, key := i.seq } := rfl

theorem sharedEntries_share {k : Core} {i : Ctl} (share : (i.fa 23 22 == 0) = true) :
    sharedEntries k i = (upFrom 0 (i.fc 14 0 * seqNl k i.seq)).map fun j =>
      (i.fb 13 0 * seqNl k i.seq + j, shadowEntry k (i.fx 21 0) (i.fx 45 32 * seqNl k i.seq + j)) := by
  rw [sharedEntries, if_pos share, sharePairs, List.map_map]
  rfl

theorem sharedEntries_unmap {k : Core} {i : Ctl} (unmap : (i.fa 23 22 == 0) = false) : sharedEntries k i = [] := by
  rw [sharedEntries, unmap]
  rfl

theorem editStaged_frame (k : Core) (i : Ctl) :
    editStaged k i = { k with pools := (editStaged k i).pools, sched := (editStaged k i).sched } ∧
      (editStaged k i).sched.edits = k.sched.edits ++ [stagedEdit k i] := by
  have frame := takeRefs_frame k (stagedEdit k i).pool (sharedEntries k i)
  simp only [editStaged, sysTake]
  rw [frame]
  exact ⟨rfl, rfl⟩

theorem editStaged_unmap {k : Core} {i : Ctl} (unmap : (i.fa 23 22 == 0) = false) : (editStaged k i).pools = k.pools := by
  simp only [editStaged, sharedEntries_unmap unmap, takeRefs, List.foldl_nil, sysTake]

/-- Settles O31. -/
theorem editsChangeOnlyTheShadow : Obligations.EditsChangeOnlyTheShadow := by
  refine ⟨fun h a b c x s ok => ?_, fun n s up => ?_⟩
  · obtain ⟨frame, edits⟩ := editStaged_frame s.core (mkCtl h 1 0xC5 a b c x)
    refine ⟨_, _, onCore_flight ok (ptEdit_run s.core _), ?_, edits, rfl, rfl, rfl, rfl, rfl, beq_iff_eq, fun share => ?_,
      fun _ g => takeRefs_counts s.core _ g _, editStaged_unmap, frame⟩
    · exact (congrArg Core.seqs frame).trans rfl
    · exact sharedEntries_share share
  · refine ⟨pageEditPrepared s.core n.toNat, onCore_of_row (if_pos up), rfl, List.length_map _, fun j d at' => ?_⟩
    simp [pageEditPrepared, at']

/-! ## Accounts (R288, R311) -/

/-- Settles O32: each accepted instruction does what its specification runs. -/
theorem accountInstructionsComplete : Obligations.AccountInstructionsComplete := by
  intro h a b c s
  exact ⟨fun ok => onCore_done ok rfl, fun ok => onCore_flight ok rfl, fun ok => onCore_done ok rfl, fun ok => onCore_done ok rfl,
    fun ok => onCore_done ok rfl⟩

end Sys2Proof.Proofs.SeqsPools
end

section
/-! PROOFS. What opening an object for a read leaves, and the MSET instructions (R292 to R295, R312). -/

namespace Sys2Proof.Proofs.SetLoading
open Sys2Proof.Machine Sys2Proof.Laws Sys2Proof.Proofs.Resets Sys2Proof.Proofs.Reads
open Sys2Proof.Proofs.Acceptance Sys2Proof.Proofs.ResetFrames Sys2Proof.Proofs.StackReads Sys2Proof.Proofs.DeviceFrames Sys2Proof.Proofs.ApertureSys

/-! ## Opening an object changes no set and ends no load (R319, R325, R327) -/

/-- What opening an object leaves: all but objects, their memories, the host's queues and the instructions that wait on objects. -/
@[simp] abbrev ReadKept (k t : Core) : Prop :=
  ServingKept k t ∧ t.tiles = k.tiles ∧ t.stg = k.stg ∧ t.pools = k.pools ∧ t.msets = k.msets ∧ t.shadow = k.shadow

/-- Loads go on, and what each object is packed as stays. -/
@[simp] abbrev LoadsKept (k t : Core) : Prop := (∀ m, loadFlt t m = loadFlt k m) ∧ ∀ h, (obj t h).pack = (obj k h).pack

theorem ReadKept.foldl {α : Type} {f : Core → α → Core} (hf : ∀ k x, ReadKept k (f k x) ∧ LoadsKept k (f k x)) (l : List α) (k : Core) :
    ReadKept k (l.foldl f k) ∧ LoadsKept k (l.foldl f k) :=
  List.foldlRecOn (motive := fun t => ReadKept k t ∧ LoadsKept k t) l f (by simp) fun t kept x _ => by
    have step := hf t x
    simp_all

theorem loadFlt_of_flts {k t : Core} (e : t.flts = k.flts) (m : Nat) : loadFlt t m = loadFlt k m := by rw [loadFlt, loadFlt, findFlt, findFlt, e]

theorem obj_of_objs {k t : Core} (e : t.objs = k.objs) (h : Nat) : obj t h = obj k h := by rw [obj, obj, e]

theorem loadsKept_of_eq {k t : Core} (flts : t.flts = k.flts) (objs : t.objs = k.objs) : LoadsKept k t :=
  ⟨loadFlt_of_flts flts, fun h => by rw [obj_of_objs objs]⟩

@[simp] theorem modObj_readKept (k : Core) (h : Nat) (f : Obj → Obj) : ReadKept k (modObj k h f) := by simp [modObj]

theorem modObj_loadsKept {k : Core} {f : Obj → Obj} (h : Nat) (packs : ∀ o, (f o).pack = o.pack) : LoadsKept k (modObj k h f) :=
  ⟨loadFlt_of_flts rfl, fun n => by rw [obj_modObj]; split <;> simp_all⟩

/-- Taking away an element that does not satisfy a predicate leaves the first that does. -/
theorem find?_erase_of_not {α : Type} [DecidableEq α] {p : α → Bool} {x : α} (l : List α) (no : p x = false) : (l.erase x).find? p = l.find? p := by
  induction l with
  | nil => rfl
  | cons y r ih =>
    by_cases same : y = x
    · simp [same, no]
    · rw [List.erase_cons_tail (by simpa using same), List.find?_cons, List.find?_cons, ih]

theorem retireFlt_loadsKept {k : Core} {f : Flt} (reason arg : Nat) (payload : List Byte) (cls : f.ins.cls ≠ 3) :
    LoadsKept k (retireFlt k f reason arg payload) := by
  refine ⟨fun m => ?_, fun h => by rw [obj_of_objs (k := k) (by simp)]⟩
  have flts : (retireFlt k f reason arg payload).flts = k.flts.erase f := by simp [retireFlt]
  rw [loadFlt, loadFlt, findFlt, findFlt, flts, find?_erase_of_not _ (by simp [cls])]

/-- Both: the sets that load still load, and what a load depends on is unchanged. -/
@[simp] abbrev OpenKept (k t : Core) : Prop := ReadKept k t ∧ LoadsKept k t

@[simp] theorem beginFetch_openKept (k : Core) (h a : Nat) : OpenKept k (beginFetch k h a) := by
  have packs := modObj_loadsKept (k := k) h (f := fun o => { o with
    st := .fetching, copy := a, wants := false, wantDrop := none, dirty := [], recov := [], from_ := [], fetched := 0 }) fun _ => rfl
  simp only [beginFetch]
  split
  · exact ⟨by simp, fun m => (loadFlt_of_flts (by simp) m).trans (packs.1 m), fun n => (congrArg Obj.pack (obj_of_objs (by simp) n)).trans (packs.2 n)⟩
  · exact ⟨by simp, packs⟩

@[simp] theorem evictUntil_openKept (k : Core) (d n : Nat) (limit skip : Option Nat) (fuel : Nat) :
    OpenKept k (evictUntil k d n limit skip fuel) := by
  induction fuel generalizing k with
  | zero => simp [evictUntil]
  | succ fuel ih =>
    unfold evictUntil
    split <;> [skip; split]
    · simp
    · simp
    · next h _ _ =>
      have packs := modObj_loadsKept (k := k) h (f := fun o => { o with st := .evicting }) fun _ => rfl
      simp [ih, packs]

@[simp] theorem takeSpace_openKept (k : Core) (h : Nat) (skip : Option Nat) : OpenKept k (takeSpace k h skip) := by
  simp only [takeSpace]
  split
  · simp
  · simp [modObj_loadsKept]

@[simp] theorem takeOrDrop_openKept (k : Core) (h : Nat) (limit skip : Option Nat) : OpenKept k (takeOrDrop k h limit skip) := by
  simp only [takeOrDrop]
  split <;> [skip; split]
  · simp
  · simp [modObj_loadsKept]
  · have packs := modObj_loadsKept (k := k) h (f := fun o => { o with wants := false, wantDrop := none }) fun _ => rfl
    exact ⟨by simp, fun m => (loadFlt_of_flts (by simp) m).trans (packs.1 m), fun n => (congrArg Obj.pack (obj_of_objs (by simp) n)).trans (packs.2 n)⟩

@[simp] theorem retrySpace_openKept (k : Core) (skip : Option Nat) : OpenKept k (retrySpace k skip) := by
  refine ReadKept.foldl (fun k h => ?_) _ k
  dsimp only
  split <;> [skip; split] <;> simp

@[simp] theorem endObj_openKept (k : Core) (op h reason arg : Nat) : OpenKept k (endObj k op h reason arg) := by
  simp only [endObj]
  refine List.foldlRecOn (motive := fun t => ReadKept k t ∧ LoadsKept k t) _ _ (by simp) fun t kept f mem => ?_
  have cls : f.ins.cls ≠ 3 := by
    simp only [List.mem_filter, Bool.and_eq_true, decide_eq_true_eq] at mem
    rw [mem.2.1.1]
    decide
  have packs := retireFlt_loadsKept (k := t) reason arg [] cls
  simp_all

@[simp] theorem writeGranule_openKept (k : Core) (h g : Nat) : OpenKept k (writeGranule k h g) := by
  simp only [writeGranule]
  split
  · exact ⟨by simp, loadsKept_of_eq (by simp) (by simp)⟩
  · exact ⟨by simp, loadsKept_of_eq (by simp) (by simp)⟩

@[simp] theorem stopEviction_openKept (k : Core) (h : Nat) : OpenKept k (stopEviction k h) := by
  simp only [stopEviction, drawNat]
  generalize (obj k h).dirty.take _ = done
  have granules := ReadKept.foldl (fun k g => writeGranule_openKept k h g) done { k with fresh := k.fresh + 1 }
  have packs := modObj_loadsKept (k := writeGranules { k with fresh := k.fresh + 1 } h done) h
    (f := fun o => { o with st := .complete, dirty := o.dirty.drop done.length }) fun _ => rfl
  rw [← writeGranules] at granules
  have same := loadsKept_of_eq (k := k) (t := { k with fresh := k.fresh + 1 }) rfl rfl
  simp_all

theorem fetchLines_openKept (h n : Nat) (k : Core) : OpenKept k (fetchLines k h n) := by
  induction n generalizing k with
  | zero => simp [fetchLines]
  | succ n ih =>
    unfold fetchLines
    dsimp only
    split
    · simp
    · have packs := modObj_loadsKept (k := putCopyLine k h (obj k h).fetched (k.flash.line 0xFF (flsLineOf k (obj k h).dom ((obj k h).haddr + (obj k h).fetched))) false) h
        (f := fun o => { o with fetched := o.fetched + 1 }) fun _ => rfl
      have same := loadsKept_of_eq (k := k) (t := putCopyLine k h (obj k h).fetched (k.flash.line 0xFF (flsLineOf k (obj k h).dom ((obj k h).haddr + (obj k h).fetched))) false) rfl rfl
      simp_all [putCopyLine]

@[simp] theorem fetchOn_openKept (k : Core) (h : Nat) : OpenKept k (fetchOn k h) := by
  simp only [fetchOn, drawNat]
  split
  · have := fetchLines_openKept h (Config.freeNat k.fresh % (cdiv (obj k h).stored 64 - (obj k h).fetched + 1)) { k with fresh := k.fresh + 1 }
    have same := loadsKept_of_eq (k := k) (t := { k with fresh := k.fresh + 1 }) rfl rfl
    simp_all
  · simp

@[simp] theorem stallFlash_openKept (k : Core) (w : Reader) (d : Nat) : OpenKept k (stallFlash k w d) := by
  simp only [stallFlash, drawNat]
  split
  · exact ⟨by simp, loadsKept_of_eq (by simp) (by simp)⟩
  · simp

/-- The object where a read has stopped its eviction and let its fetch go on. -/
def fetchSeen (k : Core) (h : Nat) : Core :=
  let k0 := if (obj k h).st = .evicting then stopEviction k h else k
  if (obj k0 h).st = .fetching then fetchOn k0 h else k0

theorem fetchSeen_openKept (k : Core) (h : Nat) : OpenKept k (fetchSeen k h) := by
  simp only [fetchSeen]
  split <;> split <;> simp

/-- A read that may go on has stopped an eviction, let a fetch go on, and at most counted its wait for the flash. -/
theorem openAt_go {k t : Core} {w : Reader} {d h : Nat} {ls : List Nat} {off len : Nat} (go : openAt k w d h ls off len = .go t) :
    t = fetchSeen k h ∨ t = stallFlash (fetchSeen k h) w d := by
  generalize seen : fetchSeen k h = k1
  unfold fetchSeen at seen
  unfold openAt at go
  dsimp only at seen go
  rw [seen] at go
  split at go <;> [skip; split at go]
  · cases go
  · cases go
  · split at go <;> repeat' split at go
    all_goals simp only [Way.go.injEq, reduceCtorEq] at go
    all_goals simp [go]

theorem openAt_openKept {k t : Core} {w : Reader} {d h : Nat} {ls : List Nat} {off len : Nat} (go : openAt k w d h ls off len = .go t) :
    OpenKept k t := by
  have seen := fetchSeen_openKept k h
  rcases openAt_go go with rfl | rfl <;> simp_all

/-- The lines of an object that is not packed are read with what opening it leaves, one free value later. -/
theorem readObj_lines {k t : Core} {w : Reader} {d h l n : Nat} {ls : List (Line × Bool)} (plain : (obj k h).pack = 0)
    (read : readObj k w d h l n = .lines t ls) : OpenKept k t := by
  simp only [readObj, openBoth, openRead] at read
  split at read
  · cases read
  · cases read
  next k1 go =>
  have opened : OpenKept k k1 := by
    split at go
    · next k2 first =>
      have kept := openAt_openKept first
      have pack : (obj k2 h).pack = 0 := (kept.2.2 h).trans plain
      rw [if_neg (by rw [pack]; decide)] at go
      cases go
      exact kept
    · exact openAt_openKept go
  have pack : (obj k1 h).pack = 0 := (opened.2.2 h).trans plain
  rw [holdRead, if_pos pack] at read
  simp only [takeLines, if_pos pack] at read
  cases read
  have same := loadsKept_of_eq (k := k1) (t := { k1 with fresh := k1.fresh + 1 }) rfl rfl
  simp_all

/-! ## MSET.LOAD (R292 to R294) -/

/-- The set and the context an MSET.LOAD names: a shared set has no context. -/
def loadCtx (i : Ctl) : Option Nat := if i.fa 28 28 = 1 then none else some (i.fa 27 16)
/-- The set as MSET.LOAD makes it before its manifest is read. -/
def newSet (k : Core) (i : Ctl) : MSet :=
  { st := .loading, ctx := loadCtx i, dom := if loadCtx i = none then domOfSrc k i.src else domOfCtx k (i.fa 27 16),
    lastReason := (mset' k (i.fa 5 0)).lastReason, lastBit := (mset' k (i.fa 5 0)).lastBit, lastArg := (mset' k (i.fa 5 0)).lastArg }
/-- The state in which the load starts: the set is LOADING and its instruction is in flight. -/
def loading (k : Core) (i : Ctl) (v : MSet) : Core :=
  { k with msets := mput k.msets (i.fa 5 0) v, flts := k.flts ++ [{ ins := i, key := i.fa 5 0 }] }

theorem msetLoad_run (k : Core) (i : Ctl) :
    msetLoadSpec.run i k = .later (loadStart (loading k i (newSet k i)) (i.fa 5 0) (i.fb 23 0)) := by
  by_cases shared : i.fa 28 28 = 1
  all_goals simp [msetLoadSpec, newSet, loadCtx, shared, loading, modMset, mmod]

theorem msetLoad_complete {h : CtlHdr} {a b c : W32} {k : Core} (ok : Accepted msetLoadSpec h a b c 0 k) :
    (obj k (bits b.toNat 23 0)).complete = true := by
  obtain ⟨-, -, -, sound⟩ := ok
  have := sound (cState 32 (!(obj k (bits b.toNat 23 0)).complete) (obj k (bits b.toNat 23 0)).arg)
    (List.mem_append_right _ (by simp only [msetLoadSpec]; exact List.mem_append_right _ (by simp [Ctl.fb, mkCtl])))
  simpa [cState] using this

/-- A manifest with a line that is being recovered is read later (R327). -/
theorem loadManifest_recovering {k : Core} {m h : Nat} (complete : (obj k h).complete = true) (waits : recovering k h 0 4096 = true) :
    loadManifest k m h = modMset k m fun s => { s with man := some h } := by
  rw [loadManifest, complete, waits]
  rfl

/-- A sound manifest fills the set, and each weight object gains a reference. -/
theorem loadManifest_sound {k : Core} {m h : Nat} (complete : (obj k h).complete = true) (there : recovering k h 0 4096 = false)
    (clean : firstBadLine k h 0 4096 = none) (sound : manifestFault k (mset' k m).ctx (knownBytes k h 0 4096).1 = none) :
    loadManifest k m h =
      let k1 := modMset k m fun s => { s.fromManifest (knownBytes k h 0 4096).1 with man := none }
      (mset' k1 m).objs.foldl addRef k1 := by
  simp only [loadManifest, complete, there, clean, sound]
  rfl

theorem mset_modMset (k : Core) (m n : Nat) (f : MSet → MSet) :
    mset' (modMset k m f) n = if n = m then f (mset' k m) else mset' k n := mget_mmod _ _ _ _ _

theorem addRefs_frame (l : List Nat) (k : Core) : l.foldl addRef k = { k with objs := (l.foldl addRef k).objs } :=
  List.foldlRecOn (motive := fun t : Core => t = { k with objs := t.objs }) l addRef rfl fun t frame o _ => by
    rw [frame]
    rfl

/-- What references do to the objects depends on the objects alone. -/
theorem addRefs_objs {k t : Core} (same : t.objs = k.objs) (l : List Nat) : (l.foldl addRef t).objs = (l.foldl addRef k).objs := by
  induction l generalizing k t with
  | nil => exact same
  | cons o r ih => exact ih (by simp [addRef, modObj, same])

/-- Each object gains a reference for every time it is named, and nothing else. -/
theorem obj_addRefs (l : List Nat) (k : Core) (o : Nat) : obj (l.foldl addRef k) o = { obj k o with refs := (obj k o).refs + l.count o } := by
  induction l generalizing k with
  | nil => rfl
  | cons p r ih =>
    rw [List.foldl_cons, ih, addRef, obj_modObj, List.count_cons]
    by_cases same : o = p
    · subst same
      simp
      omega
    · simp [same, Ne.symm same]

/-- A sound manifest names a program that is allocated and not packed, and allocated weight objects. -/
theorem manifestFault_none {k : Core} {who : Option Nat} {b : List Byte} (sound : manifestFault k who b = none) :
    (obj k (mf b 8 4)).alloc = true ∧ (obj k (mf b 8 4)).pack = 0 ∧
      ∀ o ∈ (upFrom 0 (mf b 44 4)).map (fun i => mf b (64 + 4 * i) 4), (obj k o).alloc = true := by
  simp only [manifestFault, Option.map_eq_none_iff, List.find?_eq_none] at sound
  have program := sound (8, decide (2 ^ 24 ≤ mf b 8 4) || !(obj k (mf b 8 4 % 2 ^ 24)).alloc || decide ((obj k (mf b 8 4 % 2 ^ 24)).pack ≠ 0) ||
    objForeign (obj k (mf b 8 4 % 2 ^ 24)) who ||
    decide ((obj k (mf b 8 4 % 2 ^ 24)).len * 4 < mf b 12 4 * 4 + 64 + mf b 4 4)) (by simp)
  have count := sound (44, decide (1008 < mf b 44 4)) (by simp)
  simp only [Bool.or_eq_true, Bool.not_eq_true', decide_eq_true_eq, not_or, Bool.not_eq_false, not_not] at program count
  obtain ⟨⟨⟨⟨inside, alloc⟩, plain⟩, -⟩, -⟩ := program
  rw [Nat.mod_eq_of_lt (by omega)] at alloc plain
  refine ⟨alloc, plain, fun o mem => ?_⟩
  obtain ⟨i, below, rfl⟩ := List.mem_map.mp mem
  have weight := sound (64 + 4 * i, decide (2 ^ 24 ≤ mf b (64 + 4 * i) 4) || !(obj k (mf b (64 + 4 * i) 4)).alloc ||
    objForeign (obj k (mf b (64 + 4 * i) 4)) who) (by
      rw [Nat.min_eq_left (by omega)]
      simp only [List.mem_append, List.mem_map]
      exact .inl (.inr ⟨i, below, rfl⟩))
  simp only [Bool.or_eq_true, Bool.not_eq_true', decide_eq_true_eq, not_or, Bool.not_eq_false] at weight
  exact weight.1.2

/-- The set a sound manifest makes. -/
def filledSet (k : Core) (i : Ctl) (man : List Byte) : MSet := (newSet k i).fromManifest man
/-- The set filled and its weight objects referenced. -/
def programFilled (k : Core) (i : Ctl) (man : List Byte) : Core :=
  { k with msets := mput k.msets (i.fa 5 0) (filledSet k i man), objs := ((filledSet k i man).objs.foldl addRef k).objs }
/-- The state in which the program of a sound load is read. -/
def programRead (k : Core) (i : Ctl) (man : List Byte) : Core :=
  { programFilled k i man with flts := k.flts ++ [{ ins := i, key := i.fa 5 0 }] }

/-- What makes a manifest sound for a load. -/
structure SoundLoad (k : Core) (i : Ctl) (man : List Byte) : Prop where
  bytes : (knownBytes k (i.fb 23 0) 0 4096).1 = man
  complete : (obj k (i.fb 23 0)).complete = true
  there : recovering k (i.fb 23 0) 0 4096 = false
  clean : firstBadLine k (i.fb 23 0) 0 4096 = none
  sound : manifestFault k (loadCtx i) man = none
  alone : loadFlt k (i.fa 5 0) = none
  kind : i.cls = 3 ∧ i.op = 1

section Sound
variable {k : Core} {i : Ctl} {man : List Byte} (ok : SoundLoad k i man)
include ok

theorem loadManifest_loading : loadManifest (loading k i (newSet k i)) (i.fa 5 0) (i.fb 23 0) = programRead k i man := by
  have set : mset' (loading k i (newSet k i)) (i.fa 5 0) = newSet k i := mget_mput_same _ _ _ _
  have bytes : (knownBytes (loading k i (newSet k i)) (i.fb 23 0) 0 4096).1 = man := ok.bytes
  have same := loadManifest_sound (k := loading k i (newSet k i)) (m := i.fa 5 0) ok.complete ok.there ok.clean
    (by rw [set, bytes]; exact ok.sound)
  rw [same]
  dsimp only
  rw [mset_modMset, if_pos rfl, set, bytes, addRefs_frame]
  have objs := addRefs_objs (k := k) (t := modMset (loading k i (newSet k i)) (i.fa 5 0) fun s =>
    { s.fromManifest man with man := none }) rfl
  rw [objs]
  simp only [modMset, loading, mmod, mget_mput_same, mput_mput_same]
  rfl

omit ok in
theorem mset_programRead : mset' (programRead k i man) (i.fa 5 0) = filledSet k i man :=
  mget_mput_same _ _ _ _

omit ok in
theorem obj_programFilled (o : Nat) : obj (programFilled k i man) o =
    { obj k o with refs := (obj k o).refs + (filledSet k i man).objs.count o } :=
  obj_addRefs _ _ _

omit ok in
theorem programFilled_frame : programFilled k i man = { k with msets := (programFilled k i man).msets, objs := (programFilled k i man).objs } := rfl

omit ok in
theorem refs_programFilled (o : Nat) : (obj (programFilled k i man) o).refs = (obj k o).refs + (filledSet k i man).objs.count o := by
  rw [obj_programFilled]

omit ok in
theorem obj_programRead (o : Nat) : obj (programRead k i man) o =
    { obj k o with refs := (obj k o).refs + (filledSet k i man).objs.count o } :=
  obj_addRefs _ _ _

theorem loadFlt_programRead : loadFlt (programRead k i man) (i.fa 5 0) = some { ins := i, key := i.fa 5 0 } := by
  have alone := ok.alone
  obtain ⟨cls, op⟩ := ok.kind
  rw [loadFlt, findFlt] at alone ⊢
  rw [show (programRead k i man).flts = k.flts ++ [{ ins := i, key := i.fa 5 0 }] from rfl, List.find?_append, alone]
  simp [cls, op]

end Sound

/-- The read of the program that a sound load comes to. -/
def programOf (k : Core) (i : Ctl) (man : List Byte) : Fetched :=
  readObj (programRead k i man) { ctl := some (i.src, i.ord) } (filledSet k i man).dom (filledSet k i man).prog (filledSet k i man).pline
    (16 + cdiv (filledSet k i man).pwords 4)

/-- A sound load reads its program next. -/
theorem loadStart_sound {k : Core} {i : Ctl} {man : List Byte} (ok : SoundLoad k i man) :
    loadStart (loading k i (newSet k i)) (i.fa 5 0) (i.fb 23 0) =
      match programOf k i man with
      | .lost h => loadFail (programRead k i man) (i.fa 5 0) rWeightUnavail h 0
      | .wait k1 => k1
      | .lines k1 ls => loadProgram (dropGot k1 { ctl := some (i.src, i.ord) }) (i.fa 5 0) ls := by
  have reader : loadReader (programRead k i man) (i.fa 5 0) = { ctl := some (i.src, i.ord) } := by
    rw [loadReader, loadFlt_programRead ok]
    rfl
  have alloc : (obj (programRead k i man) (filledSet k i man).prog).alloc = true := by
    rw [obj_programRead]
    exact (manifestFault_none ok.sound).1
  rw [loadStart, loadManifest_loading ok]
  simp only [loadRest, mset_programRead, reader, alloc]
  rw [if_neg (by simp [filledSet, MSet.fromManifest, newSet]), if_neg (by simp [filledSet, MSet.fromManifest, newSet]), if_neg (by simp)]
  rfl

/-! ## The program (R293, R294 steps 2 to 4) -/

/-- Weight objects that can be fetched make the set READY, and its load retires. -/
theorem loadReady_ready {k : Core} {m : Nat} {f : Flt} (load : loadFlt k m = some f)
    (there : ∀ o ∈ (mset' k m).objs, fetchable k o = true ∧ (obj k o).alloc = true) :
    ∃ u, loadReady k m = retireFlt u f 0 0 (leBytes 4 (mset' k m).pwords) ∧
      u = { modMset k m (fun s => { s with st := .ready }) with sec := u.sec } := by
  have none : (mset' k m).objs.find? (fun h => !(obj k h).alloc || (obj k h).lost) = none := by
    simp only [List.find?_eq_none, Bool.or_eq_true, Bool.not_eq_true', not_or, Bool.not_eq_false, Bool.not_eq_true]
    intro o mem
    obtain ⟨fetched, alloc⟩ := there o mem
    simp only [fetchable, Bool.and_eq_true, Bool.not_eq_true'] at fetched
    exact ⟨alloc, fetched.1⟩
  have all : (mset' k m).objs.all (fetchable k) = true := List.all_eq_true.mpr fun o mem => (there o mem).1
  simp only [loadReady, none, all, if_true]
  generalize (if (mset' k m).dom < 4 then 8 + (mset' k m).dom else 6) = n
  generalize sha256 _ = d
  rw [load]
  exact ⟨_, rfl, rfl⟩

/-- A well-formed program that fits makes its set READY where its weight objects can be fetched. -/
theorem loadProgram_ready {k : Core} {m : Nat} {f : Flt} {ls : List (Line × Bool)} (load : loadFlt k m = some f)
    (room : 1024 + 16 * (mset' k m).pwords ≤ sysFree k) (clean : ∀ l ∈ ls, l.2 = false)
    (words : programFault k.shadow.grade
      (wordsOf (((ls.flatMap fun l => leBytes 64 l.1.toNat).take (1024 + 16 * (mset' k m).pwords)).drop 1024) (mset' k m).pwords) = none)
    (table : tableFault k (mset' k m).dom (mset' k m).pwords
      (tableOf ((ls.flatMap fun l => leBytes 64 l.1.toNat).take (1024 + 16 * (mset' k m).pwords)) 256) = none)
    (there : ∀ o ∈ (mset' k m).objs, fetchable k o = true ∧ (obj k o).alloc = true) :
    let p := (ls.flatMap fun l => leBytes 64 l.1.toNat).take (1024 + 16 * (mset' k m).pwords)
    ∃ u, loadProgram k m ls = retireFlt u f 0 0 (leBytes 4 (mset' k m).pwords) ∧
      mset' u m = { mset' k m with st := .ready, words := wordsOf (p.drop 1024) (mset' k m).pwords, table := tableOf p 256 } ∧
      (∀ n, n ≠ m → mset' u n = mset' k n) ∧ u.sched.sysUsed = k.sched.sysUsed + (1024 + 16 * (mset' k m).pwords) ∧
      u = { k with msets := u.msets, sched := u.sched, sec := u.sec } := by
  have none : ls.findIdx? (·.2) = none := List.findIdx?_eq_none_iff.mpr clean
  simp only [loadProgram, if_neg (Nat.not_lt.mpr room), none, words, table]
  generalize (ls.flatMap fun l => leBytes 64 l.1.toNat).take (1024 + 16 * (mset' k m).pwords) = p at *
  have after (n : Nat) := mset_modMset (sysTake k (1024 + 16 * (mset' k m).pwords)) m n fun s =>
    { s with words := wordsOf (p.drop 1024) (mset' k m).pwords, table := tableOf p 256 }
  obtain ⟨u, ready, frame⟩ := loadReady_ready (k := modMset (sysTake k (1024 + 16 * (mset' k m).pwords)) m fun s =>
    { s with words := wordsOf (p.drop 1024) (mset' k m).pwords, table := tableOf p 256 }) (m := m) (f := f) load
    (by rw [after, if_pos rfl]; exact there)
  rw [after, if_pos rfl] at ready
  have sets (n : Nat) : mset' u n = if n = m then { mset' k m with
      st := .ready, words := wordsOf (p.drop 1024) (mset' k m).pwords, table := tableOf p 256 } else mset' k n := by
    have twice := mset_modMset (modMset (sysTake k (1024 + 16 * (mset' k m).pwords)) m fun s =>
      { s with words := wordsOf (p.drop 1024) (mset' k m).pwords, table := tableOf p 256 }) m n fun s => { s with st := .ready }
    rw [after, after, if_pos rfl] at twice
    rw [frame]
    refine twice.trans ?_
    split <;> rfl
  exact ⟨u, ready, by rw [sets, if_pos rfl], fun n ne => by rw [sets, if_neg ne], by rw [frame]; rfl, by rw [frame]; rfl⟩

/-! ## The program's lines (R319, R327) -/

section Lines
variable {k : Core} {i : Ctl} {man : List Byte}

theorem linesHeld_programRead (h : Nat) (ls : List Nat) : linesHeld (programRead k i man) h ls = linesHeld k h ls := by
  simp only [linesHeld, obj_programRead]
  rfl

theorem lineFetched_programRead (h l : Nat) : lineFetched (programRead k i man) h l = lineFetched k h l := by
  simp only [lineFetched, obj_programRead]
  rfl

theorem fetchable_programRead (h : Nat) : fetchable (programRead k i man) h = fetchable k h := by
  simp only [fetchable, obj_programRead]
  rfl

/-- What is known of an object does not depend on the instructions in flight. -/
theorem knownBytes_programRead (h off n : Nat) : knownBytes (programRead k i man) h off n = knownBytes (programFilled k i man) h off n := by
  have line : knownLine (programRead k i man) h = knownLine (programFilled k i man) h := by
    funext l
    simp only [knownLine, storedLine, copyLine, plainLine, objConf, objKey, obj_programRead, obj_programFilled]
    rfl
  rw [knownBytes, knownBytes, line]

theorem knownLine_programRead (h l : Nat) : knownLine (programRead k i man) h l = knownLine k h l := by
  simp only [knownLine, storedLine, copyLine, plainLine, objConf, objKey, obj_programRead]
  rfl

end Lines

/-- A read of an object that is not packed, some of whose lines its fetch has not written, waits and changes nothing. -/
theorem readObj_fetching {k : Core} {w : Reader} {d h l n : Nat} (fetching : (obj k h).st = .fetching) (home : (obj k h).home ≠ 1)
    (there : (obj k h).lost = false) (plain : (obj k h).pack = 0) (free : linesHeld k h (upFrom l n) = false)
    (reader : w.tile = none) (missing : ∃ x ∈ upFrom l n, lineFetched k h x = false) : readObj k w d h l n = .wait k := by
  have all : (upFrom l n).all (lineFetched k h) = false := by simpa using missing
  have on : fetchOn k h = k := if_neg home
  have stall (c : Nat) : stallObj k w d c = k := if_neg (by simp [reader])
  simp [readObj, openBoth, openRead, openAt, neededLines, fetching, there, plain, free, on, all, stall]

/-- A read of the complete copy of an object that is not packed gives its lines. -/
theorem readObj_complete {k : Core} {w : Reader} {d h l n : Nat} (complete : (obj k h).st = .complete)
    (there : (obj k h).lost = false) (plain : (obj k h).pack = 0) (free : linesHeld k h (upFrom l n) = false)
    (mended : ∀ x ∈ upFrom l n, mget? (obj k h).recov x = none) (own : heldRead k h (upFrom l n) = false) :
    readObj k w d h l n = .lines { k with fresh := k.fresh + 1 } ((upFrom l n).map (knownLine k h)) := by
  have none : ((upFrom l n).any fun x => (mget? (obj k h).recov x).isSome) = false := by simpa using mended
  have line (x : Nat) : knownLine k h x = (let (v, p) := storedLine k h (hostOf k w h l n) x; (plainLine k h x v, p)) := by
    simp [knownLine, storedLine, complete]
  simp [readObj, openBoth, openRead, openAt, neededLines, holdRead, takeLines, complete, there, plain, free, none, own, line]

theorem mget?_eq_none {α : Type} (m : SMap α) (x : Nat) (absent : ∀ e ∈ m, e.1 ≠ x) : mget? m x = none := by
  induction m with
  | nil => rfl
  | cons e r ih =>
    obtain ⟨first, rest⟩ := List.forall_mem_cons.mp absent
    simp [mget?, Ne.symm first, ih rest]

/-- No line of a range that holds no recovery is being recovered. -/
theorem mended_of_recovering {k : Core} {h l n : Nat} (there : recovering k h (64 * l) (1024 + 16 * n) = false) :
    ∀ x ∈ upFrom l (16 + cdiv n 4), mget? (obj k h).recov x = none := by
  intro x mem
  refine mget?_eq_none _ _ fun e held at' => List.any_eq_false.mp there e held (decide_eq_true ?_)
  simp only [mem_upFrom, cdiv] at mem ⊢
  omega

/-- The lines of a program, as bytes. -/
theorem knownBytes_lines (k : Core) (h l n : Nat) : (knownBytes k h (64 * l) (1024 + 16 * n)).1 =
    (((upFrom l (16 + cdiv n 4)).map (knownLine k h)).flatMap fun l => leBytes 64 l.1.toNat).take (1024 + 16 * n) := by
  have count : (64 * l + (1024 + 16 * n) - 1) / 64 - 64 * l / 64 + 1 = 16 + cdiv n 4 := by
    simp only [cdiv]
    omega
  have first : 64 * l / 64 = l := by omega
  have start : 64 * l % 64 = 0 := by omega
  rw [knownBytes, if_neg (by omega), count]
  simp [first, start]

theorem clean_of_firstBadLine {k : Core} {h l n : Nat} (clean : firstBadLine k h (64 * l) (1024 + 16 * n) = none) :
    ∀ x ∈ (upFrom l (16 + cdiv n 4)).map (knownLine k h), x.2 = false := by
  have count : cdiv (1024 + 16 * n) 64 = 16 + cdiv n 4 := by
    simp only [cdiv]
    omega
  have first : 64 * l / 64 = l := by omega
  simp only [firstBadLine, Option.map_eq_none_iff, List.find?_eq_none, count, first] at clean
  intro x mem
  obtain ⟨n, inside, rfl⟩ := List.mem_map.mp mem
  exact Bool.eq_false_iff.mpr (clean n inside)

/-- A manifest that waits for a recovery leaves the set LOADING. -/
theorem loadStart_recovering {k : Core} {i : Ctl} (complete : (obj k (i.fb 23 0)).complete = true)
    (waits : recovering k (i.fb 23 0) 0 4096 = true) :
    loadStart (loading k i (newSet k i)) (i.fa 5 0) (i.fb 23 0) = loading k i { newSet k i with man := some (i.fb 23 0) } := by
  have manifest := loadManifest_recovering (k := loading k i (newSet k i)) (m := i.fa 5 0) complete waits
  have set : mset' (loading k i (newSet k i)) (i.fa 5 0) = newSet k i := mget_mput_same _ _ _ _
  rw [loadStart, manifest, loadRest, mset_modMset, if_pos rfl, if_pos (by simp)]
  simp only [modMset, loading, mmod, mget_mput_same, mput_mput_same]

section Programs
variable {k : Core} {i : Ctl} {man : List Byte}

/-- Lines that the fetch of the program has not written are waited for. -/
theorem programOf_fetching (ok : SoundLoad k i man) (fetching : (obj k (filledSet k i man).prog).st = .fetching)
    (home : (obj k (filledSet k i man).prog).home ≠ 1) (there : (obj k (filledSet k i man).prog).lost = false)
    (free : linesHeld k (filledSet k i man).prog (upFrom (filledSet k i man).pline (16 + cdiv (filledSet k i man).pwords 4)) = false)
    (missing : ∃ x ∈ upFrom (filledSet k i man).pline (16 + cdiv (filledSet k i man).pwords 4), lineFetched k (filledSet k i man).prog x = false) :
    programOf k i man = .wait (programRead k i man) := by
  obtain ⟨-, plain, -⟩ := manifestFault_none ok.sound
  refine readObj_fetching ?_ ?_ ?_ ?_ ?_ rfl ?_
  · rwa [obj_programRead]
  · rwa [obj_programRead]
  · rwa [obj_programRead]
  · rwa [obj_programRead]
  · rwa [linesHeld_programRead]
  · simpa only [lineFetched_programRead] using missing

/-- The program's complete copy gives its lines at once. -/
theorem programOf_complete (ok : SoundLoad k i man) (complete : (obj k (filledSet k i man).prog).st = .complete)
    (there : (obj k (filledSet k i man).prog).lost = false)
    (mended : recovering k (filledSet k i man).prog (64 * (filledSet k i man).pline) (1024 + 16 * (filledSet k i man).pwords) = false)
    (free : linesHeld k (filledSet k i man).prog (upFrom (filledSet k i man).pline (16 + cdiv (filledSet k i man).pwords 4)) = false)
    (own : heldRead k (filledSet k i man).prog (upFrom (filledSet k i man).pline (16 + cdiv (filledSet k i man).pwords 4)) = false) :
    programOf k i man = .lines { programRead k i man with fresh := k.fresh + 1 }
      ((upFrom (filledSet k i man).pline (16 + cdiv (filledSet k i man).pwords 4)).map (knownLine (programRead k i man) (filledSet k i man).prog)) := by
  obtain ⟨-, plain, -⟩ := manifestFault_none ok.sound
  refine readObj_complete ?_ ?_ ?_ ?_ ?_ own
  · rwa [obj_programRead]
  · rwa [obj_programRead]
  · rwa [obj_programRead]
  · rwa [linesHeld_programRead]
  · rw [obj_programRead]
    exact mended_of_recovering mended

/-- What reading the program leaves of the load. -/
theorem programOf_lines {t : Core} {ls : List (Line × Bool)} (ok : SoundLoad k i man) (read : programOf k i man = .lines t ls) :
    loadFlt t (i.fa 5 0) = some { ins := i, key := i.fa 5 0 } ∧ t.msets = (programRead k i man).msets ∧ t.shadow = k.shadow ∧ t.regs = k.regs := by
  obtain ⟨-, plain, -⟩ := manifestFault_none ok.sound
  obtain ⟨⟨⟨⟨-, -, regs, -⟩, -⟩, -, -, -, sets, shadow⟩, loads, -⟩ :=
    readObj_lines (k := programRead k i man) (h := (filledSet k i man).prog) (by rwa [obj_programRead]) read
  exact ⟨(loads _).trans (loadFlt_programRead ok), sets, shadow, regs⟩

theorem tableFault_of_regs {k t : Core} (same : t.regs = k.regs) (d pw : Nat) (tab : List Nat) : tableFault t d pw tab = tableFault k d pw tab := by
  simp only [tableFault, domOfTile, isPart_of_regs same]

theorem mset_of_msets {k t : Core} (same : t.msets = k.msets) (n : Nat) : mset' t n = mset' k n := by rw [mset', mset', same]

/-- The instruction that loads is in flight once. -/
theorem erase_load (ok : SoundLoad k i man) :
    (k.flts ++ [({ ins := i, key := i.fa 5 0 } : Flt)]).erase { ins := i, key := i.fa 5 0 } = k.flts := by
  have fresh : ({ ins := i, key := i.fa 5 0 } : Flt) ∉ k.flts := fun mem => by
    have none := List.find?_eq_none.mp ok.alone _ mem
    obtain ⟨cls, op⟩ := ok.kind
    simp [cls, op] at none
  rw [List.erase_append_right _ fresh]
  exact (congrArg _ (List.erase_cons_head ..)).trans (List.append_nil _)

/-- The last part of a sound load whose program is read. -/
theorem loadStart_ready {t : Core} {ls : List (Line × Bool)} (ok : SoundLoad k i man) (read : programOf k i man = .lines t ls)
    (clean : ∀ l ∈ ls, l.2 = false) (room : 1024 + 16 * (filledSet k i man).pwords ≤ sysFree t) {p : List Byte}
    (bytes : p = (ls.flatMap fun l => leBytes 64 l.1.toNat).take (1024 + 16 * (filledSet k i man).pwords))
    (words : programFault k.shadow.grade (wordsOf (p.drop 1024) (filledSet k i man).pwords) = none)
    (table : tableFault k (filledSet k i man).dom (filledSet k i man).pwords (tableOf p 256) = none)
    (there : ∀ o ∈ (filledSet k i man).objs, fetchable t o = true ∧ (obj t o).alloc = true) :
    ∃ u, loadStart (loading k i (newSet k i)) (i.fa 5 0) (i.fb 23 0) =
        retireFlt u { ins := i, key := i.fa 5 0 } 0 0 (leBytes 4 (filledSet k i man).pwords) ∧
      mset' u (i.fa 5 0) = { filledSet k i man with st := .ready, words := wordsOf (p.drop 1024) (filledSet k i man).pwords, table := tableOf p 256 } ∧
      (∀ n, n ≠ i.fa 5 0 → mset' u n = mset' t n) ∧ u.sched.sysUsed = t.sched.sysUsed + (1024 + 16 * (filledSet k i man).pwords) ∧
      u = { t with msets := u.msets, sched := u.sched, sec := u.sec, pci := { t.pci with got := u.pci.got } } := by
  subst bytes
  obtain ⟨load, sets, shadow, regs⟩ := programOf_lines ok read
  have set : mset' (dropGot t { ctl := some (i.src, i.ord) }) (i.fa 5 0) = filledSet k i man :=
    (mset_of_msets (k := programRead k i man) sets _).trans mset_programRead
  obtain ⟨u, ready, at', others, used, frame⟩ := loadProgram_ready (k := dropGot t { ctl := some (i.src, i.ord) }) (m := i.fa 5 0)
    (f := { ins := i, key := i.fa 5 0 }) (ls := ls) load (by rw [set]; exact room) clean
    (by rw [set]; simpa only [dropGot, shadow] using words)
    (by rw [set, tableFault_of_regs (t := dropGot t { ctl := some (i.src, i.ord) }) regs]; exact table) (by rw [set]; exact there)
  rw [set] at ready at' used
  refine ⟨u, ?_, at', others, used, ?_⟩
  · rw [loadStart_sound ok, read]
    exact ready
  · rw [frame]
    rfl

end Programs

/-- Settles O33. -/
theorem modelSetInstructionsComplete : Obligations.ModelSetInstructionsComplete := by
  intro h a b c s
  dsimp only
  generalize bytes : (knownBytes s.core (bits b.toNat 23 0) 0 4096).1 = man
  let i := mkCtl h 3 1 a b c 0
  have load (ok : Accepted msetLoadSpec h a b c 0 s.core) : ctlExec msetLoadSpec h a b c 0 s.core =
      loadStart (loading s.core i (newSet s.core i)) (i.fa 5 0) (i.fb 23 0) := by
    rw [ctlExec_of_accepted ok]
    exact congrArg (ctlEnd s.core _) (msetLoad_run s.core i)
  refine ⟨fun ok waits => ?_, fun t ok ⟨mended, clean, fault, alone⟩ waits => ?_,
    fun ok ⟨mended, clean, fault, alone⟩ fetching home there free missing => ?_,
    fun t ls ok ⟨mended, clean, fault, alone⟩ read sound room ⟨words, table⟩ there => ?_,
    fun ok ⟨mended, clean, fault, alone⟩ complete there whole free own room sound ⟨words, table⟩ weights => ?_,
    fun ok => onCore_flight ok rfl, fun ok => onCore_flight ok rfl, fun ok => onCore_done ok rfl⟩
  · exact onCore_of_row ((load ok).trans (loadStart_recovering (msetLoad_complete ok) waits))
  · have loads : SoundLoad s.core i man := ⟨bytes, msetLoad_complete ok, mended, clean, fault, alone, rfl, rfl⟩
    exact onCore_of_row ((load ok).trans ((loadStart_sound loads).trans (by rw [show programOf s.core i man = .wait t from waits])))
  · have loads : SoundLoad s.core i man := ⟨bytes, msetLoad_complete ok, mended, clean, fault, alone, rfl, rfl⟩
    have waits := programOf_fetching loads fetching home there free missing
    refine ⟨programFilled s.core i man, onCore_of_row ((load ok).trans ((loadStart_sound loads).trans (by rw [waits]; rfl))), ?_⟩
    have set : mset' (programFilled s.core i man) (i.fa 5 0) = filledSet s.core i man := mset_programRead
    exact ⟨congrArg MSet.st set, congrArg MSet.ctx set, congrArg MSet.objs set, congrArg MSet.pwords set, congrArg MSet.prog set,
      congrArg MSet.words set, refs_programFilled, fun n ne => mget_mput_ne _ _ _ ne, programFilled_frame⟩
  · have loads : SoundLoad s.core i man := ⟨bytes, msetLoad_complete ok, mended, clean, fault, alone, rfl, rfl⟩
    obtain ⟨u, ready, set, others, used, frame⟩ := loadStart_ready loads read sound room rfl words table there
    refine ⟨u, onCore_of_row ((load ok).trans ready), congrArg MSet.st set, (congrArg MSet.words set :), (congrArg MSet.table set :), others, used, ?_⟩
    have pci : u.pci = { t.pci with got := u.pci.got } := congrArg Core.pci frame
    rw [pci]
    exact frame
  · have loads : SoundLoad s.core i man := ⟨bytes, msetLoad_complete ok, mended, clean, fault, alone, rfl, rfl⟩
    have read := programOf_complete loads complete there whole free own
    obtain ⟨-, -, alloc⟩ := manifestFault_none fault
    have lines := knownBytes_lines (programRead s.core i man) (filledSet s.core i man).prog (filledSet s.core i man).pline (filledSet s.core i man).pwords
    rw [knownBytes_programRead] at lines
    obtain ⟨u, ready, set, others, used, frame⟩ := loadStart_ready loads read
      (by rw [show knownLine (programRead s.core i man) = knownLine s.core from funext₂ knownLine_programRead]; exact clean_of_firstBadLine sound) room lines words table
      fun o mem => ⟨(fetchable_programRead o).trans (weights o mem), (congrArg Obj.alloc (obj_programRead o)).trans (alloc o mem)⟩
    refine ⟨{ u with flts := s.core.flts }, onCore_of_row ((load ok).trans (ready.trans ?_)), congrArg MSet.st set, (congrArg MSet.words set :),
        (congrArg MSet.table set :), congrArg MSet.objs set, fun o => ?_, fun n ne => (others n ne).trans (mget_mput_ne _ _ _ ne), used, ?_⟩
    · have flts : u.flts = s.core.flts ++ [{ ins := i, key := i.fa 5 0 }] := (congrArg Core.flts frame).trans rfl
      rw [retireFlt, flts, erase_load loads]
      rfl
    · have objs : u.objs = (programFilled s.core i man).objs := (congrArg Core.objs frame).trans rfl
      exact (congrArg Obj.refs (obj_of_objs (t := u) objs o)).trans (refs_programFilled o)
    · have pci : u.pci = { s.core.pci with got := u.pci.got } := (congrArg Core.pci frame).trans rfl
      rw [← pci, frame]
      rfl

end Sys2Proof.Proofs.SetLoading
end

section
/-! PROOFS. The lines of a memory after a line is written and after a range is wiped (R34, R36, R64). -/

namespace Sys2Proof.Proofs.MemoryLines
open Sys2Proof.Machine Sys2Proof.Laws Sys2Proof.Proofs.Counters Sys2Proof.Proofs.Reads Sys2Proof.Proofs.LineErrors
open Sys2Proof.Proofs.Grants

/-! ## Numbers as bytes -/

theorem ofLE_leBytes (n x : Nat) : ofLE (leBytes n x) = x % 256 ^ n := by
  induction n generalizing x with
  | zero => simp [leBytes, ofLE, Nat.mod_one]
  | succ n ih =>
    have byte : (BitVec.ofNat 8 x).toNat = x % 256 := by simp
    rw [leBytes, ofLE, ih, byte, Nat.pow_succ, Nat.mul_comm (256 ^ n) 256, Nat.mod_mul]

theorem line_of_bytes (v : Line) : BitVec.ofNat 512 (ofLE (leBytes 64 v.toNat)) = v := by
  rw [ofLE_leBytes]
  apply BitVec.eq_of_toNat_eq
  have := v.isLt
  rw [BitVec.toNat_ofNat, show (256 : Nat) ^ 64 = 2 ^ 512 by rw [show (256 : Nat) = 2 ^ 8 from rfl, ← pow_mul], Nat.mod_mod, Nat.mod_eq_of_lt this]

/-! ## Bytes -/

theorem bytes_congr {d : Byte} {m t : Mem} {a n : Nat} (same : ∀ i, a ≤ i → i < a + n → m.byte d i = t.byte d i) : m.bytes d a n = t.bytes d a n := by
  induction n generalizing a with
  | zero => rfl
  | succ n ih => rw [Mem.bytes, Mem.bytes, same a (by omega) (by omega), ih fun i low high => same i (by omega) (by omega)]

/-- Bytes written are read back. -/
theorem bytes_putBytes_same (d : Byte) (m : Mem) (a : Nat) (l : List Byte) : (m.putBytes d a l).bytes d a l.length = l := by
  induction l generalizing m a with
  | nil => rfl
  | cons b r ih =>
    rw [Mem.putBytes, List.length_cons, Mem.bytes, ih, byte_putBytes_ne d r _ (.inl (Nat.lt_succ_self a)), byte_putByte_same]

theorem byte_wipe_ne (d : Byte) (m : Mem) {lo hi a : Nat} (outside : a < 64 * lo ∨ 64 * hi ≤ a) : (m.wipe lo hi).byte d a = m.byte d a := by
  have key := mget_mfilter_key d (fun a => !decide (64 * lo ≤ a ∧ a < 64 * hi)) m.cells a
  have out : (!decide (64 * lo ≤ a ∧ a < 64 * hi)) = true := by simp; omega
  rw [if_pos out] at key
  exact key

/-! ## Poison -/

theorem mem_sdel {l : List Nat} {n x : Nat} : x ∈ sdel l n ↔ x ∈ l ∧ x ≠ n := by
  induction l with
  | nil => simp [sdel]
  | cons k r ih =>
    unfold sdel
    split
    · next same => subst same; simp only [ih, List.mem_cons]; grind
    · simp only [List.mem_cons, ih]; grind

theorem mem_setBads_clear {m : Mem} {w n x : Nat} : x ∈ (m.setBads false w n).bad ↔ x ∈ m.bad ∧ ¬(w ≤ x ∧ x < w + n) := by
  induction n generalizing m w with
  | zero => simp [Mem.setBads]
  | succ n ih =>
    rw [Mem.setBads, ih]
    simp only [Mem.setBad, Bool.false_eq_true, if_false, mem_sdel]
    rw [and_assoc]
    exact and_congr_right fun _ => by omega

/-! ## Lines -/

theorem line_congr {d : Byte} {m t : Mem} {n : Nat} (same : ∀ i, 64 * n ≤ i → i < 64 * n + 64 → m.byte d i = t.byte d i) :
    m.line d n = t.line d n := by
  rw [Mem.line, Mem.line, bytes_congr same]

/-- A line reads as it was last written. -/
@[simp] theorem line_putLine_same (d : Byte) (m : Mem) (n : Nat) (v : Line) (bad : Bool) : (m.putLine d n v bad).line d n = v := by
  have bytes : (m.putLine d n v bad).bytes d (64 * n) 64 = leBytes 64 v.toNat := by
    have written := bytes_putBytes_same d m (64 * n) (leBytes 64 v.toNat)
    rw [length_leBytes] at written
    rw [← written]
    exact bytes_congr fun i _ _ => byte_setBads d _ bad _ _ i
  rw [Mem.line, bytes, line_of_bytes]

/-- A line written leaves every other line alone. -/
theorem line_putLine_ne (d : Byte) (m : Mem) {n l : Nat} (v : Line) (bad : Bool) (ne : l ≠ n) : (m.putLine d n v bad).line d l = m.line d l :=
  line_congr fun i low high => by
    rw [Mem.putLine, byte_setBads, byte_putBytes_ne d _ _ (by rw [length_leBytes]; omega)]

/-- A line written holds the poison it was written with. -/
@[simp] theorem lineBad_putLine_same (d : Byte) (m : Mem) (n : Nat) (v : Line) (bad : Bool) : (m.putLine d n v bad).lineBad n = bad := by
  cases bad with
  | true => exact lineBad_iff.mpr ⟨8 * n, mem_setBads_bad.mpr (.inr (by omega)), by omega⟩
  | false =>
    refine Bool.eq_false_iff.mpr fun bad => ?_
    obtain ⟨w, mem, inside⟩ := lineBad_iff.mp bad
    exact (mem_setBads_clear.mp mem).2 (by omega)

theorem putBytes_bad (d : Byte) (l : List Byte) (m : Mem) (a : Nat) : (m.putBytes d a l).bad = m.bad := by
  induction l generalizing m a with
  | nil => rfl
  | cons b r ih => rw [Mem.putBytes, ih]; rfl

theorem lineBad_putLine_ne (d : Byte) (m : Mem) {n l : Nat} (v : Line) (bad : Bool) (ne : l ≠ n) :
    (m.putLine d n v bad).lineBad l = m.lineBad l := by
  rw [Bool.eq_iff_iff, lineBad_iff, lineBad_iff]
  refine exists_congr fun w => and_congr_left fun inside => ?_
  cases bad with
  | true => rw [Mem.putLine, mem_setBads_bad, putBytes_bad]; exact ⟨fun h => h.resolve_right (by omega), .inl⟩
  | false => rw [Mem.putLine, mem_setBads_clear, putBytes_bad]; exact ⟨And.left, fun h => ⟨h, by omega⟩⟩

/-- A wipe leaves every line outside its range alone. -/
theorem line_wipe_ne (m : Mem) {lo hi l : Nat} (outside : l < lo ∨ hi ≤ l) : (m.wipe lo hi).line 0 l = m.line 0 l :=
  line_congr fun i _ _ => byte_wipe_ne 0 m (by omega)

theorem lineBad_wipe_ne (m : Mem) {lo hi l : Nat} (outside : l < lo ∨ hi ≤ l) : (m.wipe lo hi).lineBad l = m.lineBad l := by
  rw [Bool.eq_iff_iff, lineBad_iff, lineBad_iff]
  refine exists_congr fun w => and_congr_left fun inside => ?_
  simp only [Mem.wipe, List.mem_filter, Bool.not_eq_true', decide_eq_false_iff_not]
  exact ⟨And.left, fun h => ⟨h, by omega⟩⟩

end Sys2Proof.Proofs.MemoryLines
end

section
/-! PROOFS. The instructions an entry handshake can hold back run as the others do while none is at its vote (R112, R462). -/

namespace Sys2Proof.Proofs.HeldInstructions
open Sys2Proof.Machine Sys2Proof.Proofs.Acceptance

section Outcomes
variable {sp : CtlSpec} {h : CtlHdr} {a b c : W32} {x : W128} {s : State}

/-- An accepted instruction of a class that a handshake holds back is not held back. -/
theorem heldExec_of_accepted {k : Core} (held : sp.cls ∈ [0x4, 0xC, 0xD, 0xE]) (ok : Accepted sp h a b c x k) :
    heldExec sp h a b c x k = ctlExec sp h a b c x k := by
  obtain ⟨-, -, free, -⟩ := ok
  rw [heldExec, unlessHeld, if_neg]
  simp [handshakeHolds, free held]

theorem onHeld_done {t : Core} {p : List Byte} (held : sp.cls ∈ [0x4, 0xC, 0xD, 0xE]) (ok : Accepted sp h a b c x s.core)
    (runs : sp.run (mkCtl h sp.cls sp.op a b c x) s.core = .done t p) :
    onCore s (heldExec sp h a b c x) = doneAt s (mkCtl h sp.cls sp.op a b c x) t p := by
  rw [onCore, heldExec_of_accepted held ok, ← onCore, onCore_done ok runs]

theorem onHeld_flight {t : Core} {f : Flt} (held : sp.cls ∈ [0x4, 0xC, 0xD, 0xE]) (ok : Accepted sp h a b c x s.core)
    (runs : sp.run (mkCtl h sp.cls sp.op a b c x) s.core = inFlight t f) : onCore s (heldExec sp h a b c x) = flightAt s t f := by
  rw [onCore, heldExec_of_accepted held ok, ← onCore, onCore_flight ok runs]

theorem onHeld_later {t : Core} (held : sp.cls ∈ [0x4, 0xC, 0xD, 0xE]) (ok : Accepted sp h a b c x s.core)
    (runs : sp.run (mkCtl h sp.cls sp.op a b c x) s.core = .later t) : onCore s (heldExec sp h a b c x) = .next (s.finish t) := by
  rw [onCore, heldExec_of_accepted held ok, ctlExec_of_accepted ok, runs, ctlEnd]

theorem onHeld_ends {t : Core} {reason arg : Nat} (held : sp.cls ∈ [0x4, 0xC, 0xD, 0xE]) (ok : Accepted sp h a b c x s.core)
    (runs : sp.run (mkCtl h sp.cls sp.op a b c x) s.core = .ends t reason arg) :
    onCore s (heldExec sp h a b c x) = .next (s.finish (retire t (mkCtl h sp.cls sp.op a b c x) reason arg [])) := by
  rw [onCore, heldExec_of_accepted held ok, ← onCore, onCore_ends ok runs]

end Outcomes

end Sys2Proof.Proofs.HeldInstructions
end

section
/-! PROOFS. OBJ.ALLOC (R315, R333), OBJ.SCHED (R329) and the flash instructions (R401 to R404). -/

namespace Sys2Proof.Proofs.ObjectEntry
open Sys2Proof.Machine Sys2Proof.Laws Sys2Proof.Proofs.Resets Sys2Proof.Proofs.Reads
open Sys2Proof.Proofs.Acceptance Sys2Proof.Proofs.ResetFrames Sys2Proof.Proofs.StackReads Sys2Proof.Proofs.DeviceFrames
open Sys2Proof.Proofs.ApertureSys Sys2Proof.Proofs.SetLoading Sys2Proof.Proofs.MemoryLines Sys2Proof.Proofs.HeldInstructions

/-! ## OBJ.ALLOC -/

/-- A line of a copy that is not stale is written where it lies, and nothing else changes. -/
theorem putObjLine_fresh {k : Core} {h : Nat} (fresh : (obj k h).stale = false) (l : Nat) (v : Line) (bad : Bool) :
    putObjLine k h l v bad = { k with dram := k.dram.putLine 0 ((obj k h).addr / 64 + l) (cipherLine k h l v) bad } := by
  rw [putObjLine, if_neg (by simp [fresh])]
  rfl

theorem dramFrame_trans {k t u : Core} (first : t = { k with dram := t.dram }) (then' : u = { t with dram := u.dram }) : u = { k with dram := u.dram } := by
  rw [first] at then'
  exact then'

/-- Zeros written to a copy leave what lies outside it. -/
theorem zeroLines_frame {k : Core} {h : Nat} (fresh : (obj k h).stale = false) (ls : List Nat) :
    let t := ls.foldl (fun k l => putObjLine k h l 0 false) k
    t = { k with dram := t.dram } ∧ ∀ n, (∀ l ∈ ls, n ≠ (obj k h).addr / 64 + l) →
      t.dram.line 0 n = k.dram.line 0 n ∧ t.dram.lineBad n = k.dram.lineBad n := by
  induction ls generalizing k with
  | nil => exact ⟨rfl, fun _ _ => ⟨rfl, rfl⟩⟩
  | cons l r ih =>
    have first := putObjLine_fresh fresh l 0 false
    obtain ⟨frame, others⟩ := ih (k := putObjLine k h l 0 false) (by rw [first]; exact fresh)
    refine ⟨dramFrame_trans (by rw [first]) frame, fun n outside => ?_⟩
    obtain ⟨ne, rest⟩ := List.forall_mem_cons.mp outside
    obtain ⟨line, bad⟩ := others n (by rw [first]; exact rest)
    refine ⟨line.trans ?_, bad.trans ?_⟩
    · rw [first]
      exact line_putLine_ne 0 _ _ _ ne
    · rw [first]
      exact lineBad_putLine_ne 0 _ _ _ ne

/-- A range that is freed by evicting at once leaves all that opening an object does. -/
theorem evictNow_openKept (k : Core) (h : Nat) : OpenKept k (evictNow k h) := by
  have granules := ReadKept.foldl (fun k g => writeGranule_openKept k h g) (obj k h).dirty k
  have packs := modObj_loadsKept (k := writeGranules k h (obj k h).dirty) h
    (f := fun o => { o with st := .absent, dirty := [], cleaning := [], redirty := [] }) fun _ => rfl
  rw [← writeGranules] at granules
  simp only [evictNow, retryWants]
  simp_all

theorem takeRange_openKept {k t : Core} {d n r : Nat} (takes : takeRange k d n = some (r, t)) : OpenKept k t := by
  simp only [takeRange] at takes
  split at takes
  · cases takes
    simp
  split at takes
  · cases takes
  split at takes
  · cases takes
    have evicts (l : List Nat) := ReadKept.foldl evictNow_openKept l (evictUntil k d n none none k.objs.length)
    have marks := evictUntil_openKept k d n none none k.objs.length
    simp_all
  · cases takes

/-- The object OBJ.ALLOC enters. -/
def newObj (k : Core) (i : Ctl) : Obj :=
  { alloc := true, ctx := if i.fb 17 17 == 1 then none else some (i.fb 11 0), home := i.fb 13 12, pack := i.fb 15 14,
    dom := if i.fb 17 17 == 1 then domOfSrc k i.src else domOfCtx k (i.fb 11 0), direct := i.fb 16 16 == 1, len := i.c.toNat,
    haddr := i.fx 63 0, base := i.fx 87 64 }
/-- A delta pack's reference to its base is taken first. -/
def baseReferenced (k : Core) (i : Ctl) : Core := if i.fb 15 14 = 2 then addRef k (newObj k i).base else k
/-- The object entered over a range that is wiped. -/
def rangeEntered (t : Core) (o : Obj) (h r : Nat) : Core :=
  modObj { t with dram := t.dram.wipe (r * 1024) ((r + o.units) * 1024) } h fun _ => { o with st := .complete, copy := r, zeroing := true }
/-- A confidential object is written with zeros. -/
def rangeZeroed (t : Core) (o : Obj) (h r : Nat) : Core :=
  let k := rangeEntered t o h r
  if objConf k h then (upFrom 0 o.len).foldl (fun k l => putObjLine k h l 0 false) k else k

theorem objAlloc_elsewhere {k : Core} {i : Ctl} (home : i.fb 13 12 ≠ 0) :
    objAllocSpec.run i k = .done (modObj (baseReferenced k i) i.handle fun _ => newObj k i) [] := if_neg home

theorem objAlloc_range {k t : Core} {i : Ctl} {r : Nat} (home : i.fb 13 12 = 0)
    (takes : takeRange (baseReferenced k i) (newObj k i).dom (newObj k i).units = some (r, t)) :
    objAllocSpec.run i k = inFlight (rangeZeroed t (newObj k i) i.handle r) { ins := i, key := i.handle } := by
  have here : objAllocSpec.run i k = match takeRange (baseReferenced k i) (newObj k i).dom (newObj k i).units with
      | none => .refuse rNoResource 0
      | some (r, t) => inFlight (rangeZeroed t (newObj k i) i.handle r) { ins := i, key := i.handle } := if_pos home
  rw [here, takes]

theorem rangeEntered_obj (t : Core) (o : Obj) (h r n : Nat) :
    obj (rangeEntered t o h r) n = if n = h then { o with st := .complete, copy := r, zeroing := true } else obj t n :=
  obj_modObj ..

/-- What the range holds: zeros where the object is not confidential; what lies outside it is as it was. -/
theorem rangeZeroed_facts {t : Core} {o : Obj} {h : Nat} (r : Nat) (fresh : o.stale = false)
    (plain : objConf (rangeEntered t o h r) h = true → o.pack = 0) :
    let u := rangeZeroed t o h r
    (∀ n, obj u n = if n = h then { o with st := .complete, copy := r, zeroing := true } else obj t n) ∧
      (objConf u h = false → ∀ l, r * 1024 ≤ l → l < (r + o.units) * 1024 → u.dram.line 0 l = 0 ∧ u.dram.lineBad l = false) ∧
      (∀ l, l < r * 1024 ∨ (r + o.units) * 1024 ≤ l → u.dram.line 0 l = t.dram.line 0 l ∧ u.dram.lineBad l = t.dram.lineBad l) ∧
      u = { t with objs := u.objs, dram := u.dram } := by
  have entered := rangeEntered_obj t o h r
  by_cases conf : objConf (rangeEntered t o h r) h = true
  · have at' : obj (rangeEntered t o h r) h = _ := (entered h).trans (if_pos rfl)
    obtain ⟨frame, others⟩ := zeroLines_frame (k := rangeEntered t o h r) (h := h) (by rw [at']; exact fresh) (upFrom 0 o.len)
    have same : rangeZeroed t o h r = (upFrom 0 o.len).foldl (fun k l => putObjLine k h l 0 false) (rangeEntered t o h r) := if_pos conf
    rw [← same] at frame others
    have table : (rangeZeroed t o h r).objs = (rangeEntered t o h r).objs := (congrArg Core.objs frame).trans rfl
    have objs (n : Nat) : obj (rangeZeroed t o h r) n = obj (rangeEntered t o h r) n := obj_of_objs table n
    refine ⟨fun n => (objs n).trans (entered n), fun open' => ?_, fun l outside => ?_, by rw [table]; exact frame.trans rfl⟩
    · have same' : objConf (rangeZeroed t o h r) h = objConf (rangeEntered t o h r) h := by
        have ctxs : (rangeZeroed t o h r).ctxs = (rangeEntered t o h r).ctxs := (congrArg Core.ctxs frame).trans rfl
        simp only [objConf, objs, ctxConf, ctx, ctxs]
      rw [same', conf] at open'
      cases open'
    · have size : o.len ≤ o.units * 1024 := by
        simp only [Obj.units, Obj.stored, plain conf, cdiv]
        simp
        omega
      obtain ⟨line, bad⟩ := others l fun x mem => by
        rw [at']
        simp only [mem_upFrom, Obj.addr] at mem ⊢
        omega
      exact ⟨line.trans (line_wipe_ne _ outside), bad.trans (lineBad_wipe_ne _ outside)⟩
  · have same : rangeZeroed t o h r = rangeEntered t o h r := if_neg conf
    dsimp only
    rw [same]
    exact ⟨entered, fun _ l low high => ⟨line_wipe _ ⟨low, high⟩, lineBad_wipe _ ⟨low, high⟩⟩,
      fun l outside => ⟨line_wipe_ne _ outside, lineBad_wipe_ne _ outside⟩, rfl⟩

/-- A confidential object is not packed (R315). -/
theorem objAlloc_plain {h : CtlHdr} {a b c : W32} {x : W128} {k t : Core} {r : Nat} (ok : Accepted objAllocSpec h a b c x k)
    (ctxs : t.ctxs = k.ctxs) (conf : objConf (rangeEntered t (newObj k (mkCtl h 4 0x81 a b c x)) (bits a.toNat 23 0) r) (bits a.toNat 23 0) = true) :
    (newObj k (mkCtl h 4 0x81 a b c x)).pack = 0 := by
  obtain ⟨-, -, -, sound⟩ := ok
  have packs := sound ⟨4, 46, ctxConf k (bits b.toNat 11 0) && decide (bits b.toNat 15 14 ≠ 0), rDeniedConf, bits b.toNat 11 0⟩
    (List.mem_append_right _ (List.mem_append_right _ List.mem_cons_self))
  rw [objConf, rangeEntered_obj, if_pos rfl] at conf
  by_cases shared : (bits b.toNat 17 17 == 1) = true
  · simp [newObj, Ctl.fb, mkCtl, shared] at conf
  · have own : ctxConf k (bits b.toNat 11 0) = true := by
      simpa [newObj, Ctl.fb, mkCtl, shared, ctxConf, ctx, rangeEntered, modObj, ctxs] using conf
    have none : bits b.toNat 15 14 = 0 := by simpa [own] using packs
    exact none

/-- Settles O34. -/
theorem objectsAreAllocated : Obligations.ObjectsAreAllocated := by
  intro h a b c x s
  refine ⟨fun ok home => onHeld_done (by decide) ok (objAlloc_elsewhere (i := mkCtl h 4 0x81 a b c x) home), fun r k2 ok home takes => ?_⟩
  have runs := objAlloc_range (k := s.core) (i := mkCtl h 4 0x81 a b c x) home takes
  have base : (baseReferenced s.core (mkCtl h 4 0x81 a b c x)).ctxs = s.core.ctxs := by
    simp only [baseReferenced]
    split <;> simp [addRef, modObj]
  have ctxs : k2.ctxs = s.core.ctxs := (takeRange_openKept takes).1.1.1.2.2.2.trans base
  obtain ⟨objs, zero, outside, frame⟩ := rangeZeroed_facts (t := k2) (o := newObj s.core (mkCtl h 4 0x81 a b c x))
    (h := bits a.toNat 23 0) r rfl fun conf => objAlloc_plain ok ctxs conf
  exact ⟨_, onHeld_flight (by decide) ok runs, (objs _).trans (if_pos rfl), fun m ne => (objs m).trans (if_neg ne), zero, outside, frame⟩

/-! ## OBJ.SCHED -/

/-- Each object loses a reference for every time it is named, and nothing else. -/
theorem refs_dropRefs (l : List Nat) (k : Core) (o : Nat) : (obj (l.foldl dropRef k) o).refs = (obj k o).refs - l.count o := by
  induction l generalizing k with
  | nil => rfl
  | cons p r ih =>
    rw [List.foldl_cons, ih, dropRef, obj_modObj, List.count_cons]
    by_cases same : o = p
    · subst same
      simp
      omega
    · simp [same, Ne.symm same]

theorem dropRefs_frame (l : List Nat) (k : Core) : l.foldl dropRef k = { k with objs := (l.foldl dropRef k).objs } :=
  List.foldlRecOn (motive := fun t : Core => t = { k with objs := t.objs }) l dropRef rfl fun t frame o _ => by
    rw [frame]
    rfl

/-! ## The flash instructions -/

/-- The activities that hold a stack are all an operation on it registers. -/
theorem hwBegin_frame (k : Core) (kind inst : Nat) : hwBegin k kind inst = { k with maint := (hwBegin k kind inst).maint } := by
  have acts (l : List (Nat × Act)) (t : Core) (g : Act → Act) :
      l.foldl (fun k e => modAct k e.1 g) t = { t with maint := (l.foldl (fun k e => modAct k e.1 g) t).maint } :=
    List.foldlRecOn (motive := fun u : Core => u = { t with maint := u.maint }) l _ rfl fun u frame e _ => by
      simp only [modAct, modMaint]
      split
      · exact frame
      · rw [frame]
  simp only [hwBegin]
  split
  · rfl
  split
  · rfl
  split
  · rfl
  · rw [register, modMaint, acts]

theorem mmod_mmod_same {α : Type} (d : α) (m : SMap α) (n : Nat) (f g : α → α) : mmod d (mmod d m n f) n g = mmod d m n (g ∘ f) := by
  simp [mmod]

theorem fls_modFls (k : Core) (s : Nat) (f : Fls → Fls) : fls (modFls k s f) s = f (fls k s) := mget_mput_same _ _ _ _

theorem modFls_modFls (k : Core) (s : Nat) (f g : Fls → Fls) : modFls (modFls k s f) s g = modFls k s (g ∘ f) := by
  simp only [modFls, mmod_mmod_same]

/-- Erases that may not begin wait. -/
theorem startErases_waits {k : Core} {s : Nat} (holds : hwMay k 6 s = false ∨ 2 ≤ (fls k s).erasing.length) (n : Nat) : startErases k s n = k := by
  cases n with
  | zero => rfl
  | succ n =>
    unfold startErases
    split
    · rfl
    · rw [if_neg fun may => holds.elim (fun no => by simp [no] at may) fun two => by omega]

/-- An erase that begins is journalled and under way. -/
theorem beginErase_plain {k : Core} {s l : Nat} (kept : ((fls k s).punit ((fls k s).phys l)).pend = false) (room : (fls k s).used < 4095)
    (worn : ∀ v, (fls k s).bestSpare = some v → ((fls k s).punit ((fls k s).phys l)).ecount < ((fls k s).punit v).ecount + 64) :
    beginErase k s l = modFls k s fun f => { f with
      journal := f.journal ++ [{ typ := 1, seq := f.jseq, lunit := l, punit := (fls k s).phys l }], jseq := f.jseq + 1, used := f.used + 1,
      erasing := f.erasing ++ [{ lunit := l, punit := (fls k s).phys l }] } := by
  have begins : eraseUnit k s l ((fls k s).phys l) = modFls k s fun f => { f with
      journal := f.journal ++ [{ typ := 1, seq := f.jseq, lunit := l, punit := (fls k s).phys l }], jseq := f.jseq + 1, used := f.used + 1,
      erasing := f.erasing ++ [{ lunit := l, punit := (fls k s).phys l }] } := by
    have few : ¬4096 ≤ (mget {} k.flss s).used + 1 := Nat.not_le.mpr (by rw [fls] at room; omega)
    simp [eraseUnit, journal, modFls, mmod, few, jEraseBegin]
  simp only [beginErase, kept]
  rw [if_neg (by simp)]
  split
  · next v best => rw [if_neg (Nat.not_le.mpr (worn v best))]; exact begins
  · exact begins

/-- The references a staged schedule holds are given back before the new one takes its own. -/
def schedDropped (k : Core) (m : Nat) : List Nat := match (mset' k m).schedNext with | some (some (_, l)) => schedRefs l | _ => []
/-- The references a new schedule takes. -/
def schedTaken (new : Option (Nat × List SchedEnt)) : List Nat := match new with | some (_, l) => schedRefs l | none => []

/-- The schedule the instruction names, or none where it clears. -/
def namedSched (k : Core) (i : Ctl) : Option (Nat × List SchedEnt) :=
  if i.fa 8 8 = 1 then none else some (schedLead k (i.fb 23 0), schedList k (i.fb 23 0))

/-- OBJ.SCHED stages the schedule and exchanges the references. -/
theorem objSched_run (k : Core) (i : Ctl) :
    objSchedSpec.run i k = .done (modMset ((schedTaken (namedSched k i)).foldl addRef ((schedDropped k (i.fa 5 0)).foldl dropRef k)) (i.fa 5 0)
      fun s => { s with schedNext := some (namedSched k i) }) [] := by
  have drops : (match (mset' k (i.fa 5 0)).schedNext with | some (some (_, l)) => (schedRefs l).foldl dropRef k | _ => k) =
      (schedDropped k (i.fa 5 0)).foldl dropRef k := by
    rcases next : (mset' k (i.fa 5 0)).schedNext with _ | _ | ⟨n, l⟩ <;> simp only [schedDropped, next] <;> rfl
  by_cases clear : i.fa 8 8 = 1
  · simp only [objSchedSpec, namedSched, if_pos clear, schedTaken]
    exact congrArg (fun t => Res.done (modMset t _ _) []) drops
  · simp only [objSchedSpec, namedSched, if_neg clear, schedTaken]
    exact congrArg (fun t => Res.done (modMset (List.foldl addRef t _) _ _) []) drops

/-- The references exchanged, object by object; the set keeps all but its staged schedule. -/
theorem schedExchanged_facts (k : Core) (m : Nat) (taken dropped : List Nat) (f : MSet → MSet) :
    let t := modMset (taken.foldl addRef (dropped.foldl dropRef k)) m f
    mset' t m = f (mset' k m) ∧ (∀ o, (obj t o).refs = (obj k o).refs - dropped.count o + taken.count o) ∧
      t = { k with msets := t.msets, objs := t.objs } := by
  have frame := addRefs_frame taken (dropped.foldl dropRef k)
  have sets : (taken.foldl addRef (dropped.foldl dropRef k)).msets = k.msets := by rw [frame, dropRefs_frame]
  refine ⟨?_, fun o => ?_, ?_⟩
  · rw [mset_modMset, if_pos rfl, mset_of_msets sets]
  · have same : obj (modMset (taken.foldl addRef (dropped.foldl dropRef k)) m f) o = obj (taken.foldl addRef (dropped.foldl dropRef k)) o := rfl
    rw [same, obj_addRefs, ← refs_dropRefs]
  · rw [modMset, frame, dropRefs_frame]

/-- The store's base is the delta pack's, unless the bytes are stored as they are. -/
theorem storeBase_eq (raw pack base : Nat) :
    (if raw = 1 then none else if pack = 2 then some base else none) = if (raw == 1) = false ∧ pack = 2 then some base else none := by
  by_cases r : raw = 1 <;> simp [r]

/-- The state in which OBJ.FL_ERASE has registered its erase of a stack. -/
def eraseAsked (k : Core) (i : Ctl) : Core :=
  hwBegin { k with flts := k.flts ++ [{ ins := i }],
                   flOps := k.flOps ++ [{ ins := i, erase := true, stack := i.flStack, units := upFrom i.flUnit (i.fb 15 0) }] } 6 i.flStack

theorem eraseAsked_flss (k : Core) (i : Ctl) : (eraseAsked k i).flss = k.flss := by rw [eraseAsked, hwBegin_frame]

theorem eraseAsked_fls (k : Core) (i : Ctl) (s : Nat) : fls (eraseAsked k i) s = fls k s := by rw [fls, fls, eraseAsked_flss]

theorem modFls_eraseAsked (k : Core) (i : Ctl) (f : Fls → Fls) :
    modFls (eraseAsked k i) i.flStack f = { eraseAsked k i with flss := mput k.flss i.flStack (f (fls k i.flStack)) } := by
  rw [modFls, mmod, eraseAsked_flss]
  rfl

/-- The erase leaves its units waiting where it may not begin. -/
theorem objFlErase_waits {k : Core} {i : Ctl} (holds : hwMay (eraseAsked k i) 6 i.flStack = false ∨ 2 ≤ (fls k i.flStack).erasing.length) :
    objFlEraseSpec.run i k = .later { eraseAsked k i with
      flss := mput k.flss i.flStack { fls k i.flStack with toErase := (fls k i.flStack).toErase ++ upFrom i.flUnit (i.fb 15 0) } } := by
  have runs : objFlEraseSpec.run i k = .later (startErases (modFls (eraseAsked k i) i.flStack fun f =>
    { f with toErase := f.toErase ++ upFrom i.flUnit (i.fb 15 0) }) i.flStack (upFrom i.flUnit (i.fb 15 0)).length) := rfl
  rw [runs, startErases_waits, modFls_eraseAsked]
  refine holds.imp id fun two => ?_
  rw [fls_modFls, eraseAsked_fls]
  exact two

/-- The erase of one unit begins where the stack may be written and nothing is under way there. -/
theorem objFlErase_begins {k : Core} {i : Ctl} (may : hwMay (eraseAsked k i) 6 i.flStack = true) (idle : (fls k i.flStack).erasing = [])
    (none : (fls k i.flStack).toErase = []) (one : i.fb 15 0 = 1)
    (kept : ((fls k i.flStack).punit ((fls k i.flStack).phys i.flUnit)).pend = false) (room : (fls k i.flStack).used < 4095)
    (worn : ∀ v, (fls k i.flStack).bestSpare = some v →
      ((fls k i.flStack).punit ((fls k i.flStack).phys i.flUnit)).ecount < ((fls k i.flStack).punit v).ecount + 64) :
    objFlEraseSpec.run i k = .later { eraseAsked k i with flss := mput k.flss i.flStack { fls k i.flStack with
      erasing := [{ lunit := i.flUnit, punit := (fls k i.flStack).phys i.flUnit }], jseq := (fls k i.flStack).jseq + 1,
      used := (fls k i.flStack).used + 1,
      journal := (fls k i.flStack).journal ++
        [{ typ := 1, seq := (fls k i.flStack).jseq, lunit := i.flUnit, punit := (fls k i.flStack).phys i.flUnit }] } } := by
  have runs : objFlEraseSpec.run i k = .later (startErases (modFls (eraseAsked k i) i.flStack fun f =>
    { f with toErase := f.toErase ++ upFrom i.flUnit (i.fb 15 0) }) i.flStack (upFrom i.flUnit (i.fb 15 0)).length) := rfl
  have same : { fls k i.flStack with toErase := [] } = fls k i.flStack := by rw [← none]
  have taken : modFls (modFls (eraseAsked k i) i.flStack fun f => { f with toErase := f.toErase ++ upFrom i.flUnit (i.fb 15 0) }) i.flStack
      (fun f => { f with toErase := [] }) = modFls (eraseAsked k i) i.flStack fun f => { f with toErase := [] } := by
    rw [modFls_modFls]
    rfl
  have at' : fls (modFls (eraseAsked k i) i.flStack fun f => { f with toErase := [] }) i.flStack = fls k i.flStack := by
    rw [fls_modFls, eraseAsked_fls, same]
  have begins := beginErase_plain (k := modFls (eraseAsked k i) i.flStack fun f => { f with toErase := [] }) (s := i.flStack) (l := i.flUnit)
    (by rw [at']; exact kept) (by rw [at']; exact room) (by rw [at']; exact worn)
  have first : fls (modFls (eraseAsked k i) i.flStack fun f => { f with toErase := f.toErase ++ upFrom i.flUnit 1 }) i.flStack =
      { fls k i.flStack with toErase := [i.flUnit] } := by
    rw [fls_modFls, eraseAsked_fls, none]
    rfl
  have may' : hwMay (modFls (eraseAsked k i) i.flStack fun f => { f with toErase := f.toErase ++ upFrom i.flUnit 1 }) 6 i.flStack = true := may
  rw [one] at runs taken
  rw [runs, show (upFrom i.flUnit 1).length = 1 from rfl, startErases, first]
  dsimp only
  rw [if_pos ⟨by rw [idle]; decide, may'⟩, taken, startErases, begins, modFls_modFls, modFls_eraseAsked, at']
  dsimp only [Function.comp]
  rw [idle, none]
  rfl

/-- Settles O36. -/
theorem scheduleAndFlashInstructionsComplete : Obligations.ScheduleAndFlashInstructionsComplete := by
  intro h a b c s
  refine ⟨fun ok => ?_, fun ok => ⟨fun holds => ?_, fun may idle none one kept room worn => ?_⟩, fun ok => onHeld_done (by decide) ok rfl, fun ok => ?_⟩
  · have ⟨set, refs, frame⟩ := schedExchanged_facts s.core (bits a.toNat 5 0) (schedTaken (namedSched s.core (mkCtl h 4 8 a b c 0)))
      (schedDropped s.core (bits a.toNat 5 0)) fun m => { m with schedNext := some (namedSched s.core (mkCtl h 4 8 a b c 0)) }
    refine ⟨_, onHeld_done (by decide) ok (objSched_run s.core (mkCtl h 4 8 a b c 0)), set, fun o => (refs o).trans ?_, frame⟩
    change _ = _ - _ + (match namedSched s.core (mkCtl h 4 8 a b c 0) with | some (_, l) => (schedRefs l).count o | none => 0)
    generalize namedSched s.core (mkCtl h 4 8 a b c 0) = new
    rcases next : (mset' s.core (bits a.toNat 5 0)).schedNext with _ | _ | ⟨n, l⟩ <;> rcases new with _ | ⟨n', l'⟩ <;>
      simp [schedDropped, schedTaken, next]
  · exact onHeld_later (by decide) ok (objFlErase_waits (i := mkCtl h 4 0x10 a b c 0) holds)
  · exact onHeld_later (by decide) ok (objFlErase_begins (i := mkCtl h 4 0x10 a b c 0) may idle none one kept room worn)
  · have base : (let d := obj s.core (bits a.toNat 23 0)
        if bits a.toNat 24 24 = 1 then none else if d.pack = 2 then some d.base else none) = _ := storeBase_eq _ _ _
    refine onHeld_later (by decide) ok ?_
    simp only [objFlStoreSpec]
    rw [← base]
    rfl

end Sys2Proof.Proofs.ObjectEntry
end

section
/-! PROOFS. The PWR instructions (R436 to R470) and the SEC instructions (R475 to R491). -/

namespace Sys2Proof.Proofs.PowerSecurity
open Sys2Proof.Machine Sys2Proof.Laws Sys2Proof.Proofs.Resets Sys2Proof.Proofs.Reads
open Sys2Proof.Proofs.Acceptance Sys2Proof.Proofs.StackReads Sys2Proof.Proofs.Grants Sys2Proof.Proofs.StackRows
open Sys2Proof.Proofs.ApertureSys Sys2Proof.Proofs.HeldInstructions

/-! ## The PWR instructions -/

/-- PWR.QUERY answers what its selector names. -/
theorem pwrQuery_run {k : Core} (i : Ctl) {r : Nat} (sel : i.fa 7 0 = r) :
    pwrQuerySpec.run i k = .done k (pwrQueryPayload k r (if r = 1 then i.fb 2 0 else if r = 2 then i.fb 15 0 else i.fb 5 0)) := by
  simp only [pwrQuerySpec, sel]

/-- Settles O37: each accepted instruction does what its specification runs. -/
theorem powerInstructionsComplete : Obligations.PowerInstructionsComplete := by
  intro h a b c s
  have query {r : Nat} (sel : bits a.toNat 7 0 = r) := pwrQuery_run (k := s.core) (mkCtl h 0xB 3 a b c 0) sel
  exact ⟨fun ok => onCore_flight ok rfl, fun ok => onCore_done ok rfl, fun ok sel => onCore_done ok (query sel),
    fun ok sel => onCore_done ok (query sel), fun ok sel => onCore_done ok (query sel),
    fun ok sel => onCore_done ok (query sel), fun ok => onCore_flight ok rfl, fun ok => onCore_done ok rfl⟩

/-! ## The SEC instructions -/

section Extents
variable {k : Core} {i : Ctl}

/-- EXTEND measures the bytes it reads (R480). -/
theorem secExtend_ok {t : Core} {e : List Byte} (read : readExtent k i = .ok t e) :
    secExtendSpec.run i k = .done (extendMreg t (i.fa 27 24) (sha256 e)) ((sha256 (mreg t (i.fa 27 24) ++ sha256 e)).take 16) := by
  simp [secExtendSpec, read, mreg, extendMreg]

theorem secExtend_wait {t : Core} (read : readExtent k i = .wait t) : secExtendSpec.run i k = inFlight t { ins := i } := by
  simp only [secExtendSpec, read]

theorem secFwStage_ok {t : Core} {e : List Byte} (read : readExtent { k with sec := { k.sec with fw := 1 } } i = .ok t e) :
    secFwStageSpec.run i k = inFlight (hwBegin (extendMreg t 5 (sha256 (e.take 16352))) 6 0) { ins := i } := by
  simp only [secFwStageSpec, modSec, read, measureImage]

theorem secFwStage_wait {t : Core} (read : readExtent { k with sec := { k.sec with fw := 1 } } i = .wait t) :
    secFwStageSpec.run i k = inFlight (hwBegin t 6 0) { ins := i, aux := 1 } := by
  simp only [secFwStageSpec, modSec, read]

/-- The lines of an extent. -/
theorem extent_lines (b c : Nat) : upFrom (64 * b / 64) (cdiv (64 * b + 64 * c) 64 - 64 * b / 64) = upFrom b c := by
  have first : 64 * b / 64 = b := by omega
  have count : cdiv (64 * b + 64 * c) 64 - 64 * b / 64 = c := by
    simp only [cdiv]
    omega
  rw [first] at count ⊢
  rw [count]

/-- An object that is not read over the link is read at once where its lines are at hand (R319, R327). -/
theorem readBytes_there {w : Reader} {o b c : Nat} (there : (obj k o).lost = false) (near : (obj k o).st ≠ .absent ∨ (obj k o).home ≠ 2)
    (mended : recovering k o (64 * b) (64 * c) = false) (free : linesHeld k o (upFrom b c) = false) :
    readBytes k w o (64 * b) (64 * c) = .ok k (knownBytes k o (64 * b) (64 * c)).1 := by
  have near' : ¬((obj k o).st = .absent ∧ (obj k o).home = 2) := by tauto
  simp only [readBytes, there, extent_lines, mended, free]
  simp [near']

theorem readBytes_waits {w : Reader} {o b c : Nat} (there : (obj k o).lost = false) (near : (obj k o).st ≠ .absent ∨ (obj k o).home ≠ 2)
    (waits : recovering k o (64 * b) (64 * c) = true ∨ linesHeld k o (upFrom b c) = true) :
    readBytes k w o (64 * b) (64 * c) = .wait k := by
  have near' : ¬((obj k o).st = .absent ∧ (obj k o).home = 2) := by tauto
  simp only [readBytes, there, extent_lines]
  simp [near', waits]

end Extents

/-- The bytes of an object do not depend on the Security Core's state. -/
theorem knownBytes_sec (k : Core) (v : Sec) (o off n : Nat) : knownBytes { k with sec := v } o off n = knownBytes k o off n := by
  have line : knownLine { k with sec := v } o = knownLine k o := by
    funext l
    simp only [knownLine, storedLine, copyLine, plainLine, objConf, objKey]
    rfl
  rw [knownBytes, knownBytes, line]

/-- LC_ADVANCE burns the life-cycle row, and the operator's key hash where the device goes to its operator (R484). -/
theorem secLcAdvance_run (k : Core) (i : Ctl) :
    let key : List FuseWrite :=
      if k.sec.lc = 1 ∧ i.fa 2 0 = 2 then [.operatorKeyHash (hashFuse (knownBytes k (i.fb 23 0) 0 48).1)] else []
    secLcAdvanceSpec.run i k = .done { k with
      burn := k.burn ++ .lifeCycle (BitVec.ofNat 3 (i.fa 2 0)) :: key,
      sec := { k.sec with pend := some (i.fa 2 0), level := 0, lcNext := max k.sec.lcNext (min (i.fa 2 0) 4) } } (leBytes 1 (i.fa 2 0)) := by
  have small : (BitVec.ofNat 3 (i.fa 2 0)).toNat = i.fa 2 0 := by
    rw [BitVec.toNat_ofNat]
    exact Nat.mod_eq_of_lt (Nat.mod_lt _ (by decide))
  by_cases own : k.sec.lc = 1 ∧ i.fa 2 0 = 2
  · simp only [secLcAdvanceSpec, if_pos own, burnFuse, nextLife, modSec, small, List.append_assoc]
    rfl
  · simp only [secLcAdvanceSpec, if_neg own, burnFuse, nextLife, modSec, small]

/-- FW_ACTIVATE gives the other slot the next count (R476). -/
theorem secFwActivate_run (k : Core) (i : Ctl) :
    let n := (fwSlot k k.glb.slotB).count + 1
    let t := extendMreg { k with sec := { k.sec with fw := 3 } } 5 (sha256 (leBytes 4 n))
    secFwActivateSpec.run i k = .done
      (if k.glb.slotB then { t with slotA := { k.slotA with count := n } } else { t with slotB := { k.slotB with count := n } })
      (leBytes 1 (b2n (!k.glb.slotB)) ++ leBytes 3 0 ++ leBytes 4 n) := by
  cases slot : k.glb.slotB <;> simp [secFwActivateSpec, slot, fwSlot, setFwSlot, extendMreg, modSec, mreg]

/-- The head of a quote: the device's identity and counts, and the registers it names (R487). -/
def quoteHead (k : Core) (i : Ctl) : List Byte :=
  leBytes 2 1 ++ leBytes 1 k.sec.lc ++ leBytes 1 k.shadow.grade ++ leBytes 1 ((srcPart k i.src).getD 4) ++ leBytes 1 k.shadow.svn ++
  leBytes 2 0 ++ leBytes 4 k.glb.version ++ leBytes 1 k.glb.svn ++ leBytes 1 (b2n k.glb.slotB) ++ leBytes 2 0 ++
  leBytes 4 k.glb.incarnation.toNat ++ leBytes 4 k.sec.partResets ++ leBytes 8 k.glb.stepsRetired ++ leBytes 2 (i.fb 15 0) ++ leBytes 30 0

theorem length_quoteHead (k : Core) (i : Ctl) : (quoteHead k i).length = 64 := by simp [quoteHead]

theorem quoteOf_eq (k : Core) (i : Ctl) :
    quoteOf k i = quoteHead k i ++ (leBytes 16 i.x.toNat ++ leBytes 16 0 ++ (padTo 48 k.sec.devKey ++ (maskRegs (i.fb 15 0)).flatMap (mreg k))) := by
  simp only [quoteOf, quoteHead, List.append_assoc]

theorem quoteOf_drops (k : Core) (i : Ctl) :
    (quoteOf k i).drop 144 = (maskRegs (i.fb 15 0)).flatMap (mreg k) ∧
      (quoteOf k i).drop 64 = leBytes 16 i.x.toNat ++ leBytes 16 0 ++ (quoteOf k i).drop 96 := by
  have at64 : (quoteOf k i).drop 64 = leBytes 16 i.x.toNat ++ leBytes 16 0 ++ (padTo 48 k.sec.devKey ++ (maskRegs (i.fb 15 0)).flatMap (mreg k)) := by
    rw [quoteOf_eq]
    exact List.drop_left' (length_quoteHead k i)
  have at96 : (quoteOf k i).drop 96 = padTo 48 k.sec.devKey ++ (maskRegs (i.fb 15 0)).flatMap (mreg k) := by
    rw [show 96 = 64 + 32 from rfl, ← List.drop_drop, at64]
    exact List.drop_left' (by simp)
  have at144 : (quoteOf k i).drop 144 = (maskRegs (i.fb 15 0)).flatMap (mreg k) := by
    rw [show 144 = 96 + 48 from rfl, ← List.drop_drop, at96]
    exact List.drop_left' (by simp [padTo])
  exact ⟨at144, by rw [at64, at96]⟩

/-- The registers named by the low 16 bits of an operand. -/
theorem maskRegs_eq (b : W32) : maskRegs (bits b.toNat 15 0) = (upFrom 0 16).filter fun r => b.getLsbD r := by
  refine List.filter_congr fun r mem => ?_
  have small : r < 16 := by simpa using mem
  rw [bit, bits, BitVec.getLsbD, show 15 - 0 + 1 = 16 from rfl, Nat.pow_zero, Nat.div_one, Nat.testBit_mod_two_pow]
  simp [small]

/-- The quote is signed, stored in its object where that is complete, and answered (R488). -/
theorem quoteSigned_named {k : Core} {h : CtlHdr} {f : Flt} (named : namedFlt k 0xC 0x81 h = some f) :
    let q := padTo (cdiv f.data.length 64 * 64) f.data ++
      padTo 35664 (Config.slhSign (devSeeds k (keyClass k.sec.lc)) f.data (Config.freeNat k.fresh))
    let k1 := { k with fresh := k.fresh + 1 }
    let k2 := if (obj k f.ins.handle).complete then writeBytes k1 f.ins.handle q else k1
    quoteSigned k h = retireFlt (bump k2 oQuotes 1) f 0 0 (leBytes 4 q.length) := by
  simp only [quoteSigned, named, drawNat]
  rfl

/-- Settles O38. -/
theorem securityInstructionsComplete : Obligations.SecurityInstructionsComplete := by
  intro h a b c x s
  have keyRead {f : Flt} (named : namedFlt s.core 0xC 0x82 h = some f) (ok : Bool) (key : BitVec 512) : ctxKeyReadDone s.core h ok key =
      let k1 := dropKeyRead s.core f.ins
      if !ok then retireFlt k1 f rUncorrectable 0 []
      else if key.toNat / 2 ^ 256 = key.toNat % 2 ^ 256 then retireFlt k1 f rOverrun 128 []
      else if (ctx k1 f.key).isOpen then retireFlt (modCtx k1 f.key (fun c => { c with key := some key })) f 0 0 []
      else retireFlt k1 f rWrongState 0 [] := by simp only [ctxKeyReadDone, named]
  refine ⟨fun t e ok read => onHeld_done (by decide) ok (secExtend_ok (i := mkCtl h 0xC 1 a b c 0) read),
    fun t ok read => onHeld_flight (by decide) ok (secExtend_wait (i := mkCtl h 0xC 1 a b c 0) read),
    fun t e ok read => onHeld_flight (by decide) ok (secFwStage_ok (i := mkCtl h 0xC 2 a b c 0) read),
    fun t ok read => onHeld_flight (by decide) ok (secFwStage_wait (i := mkCtl h 0xC 2 a b c 0) read),
    fun v there near mended free => ?_, fun v there near waits => readBytes_waits (k := { s.core with sec := v }) there near waits,
    fun ok => onHeld_done (by decide) ok (secFwActivate_run s.core (mkCtl h 0xC 3 a b c 0)), fun ok => onHeld_done (by decide) ok rfl,
    fun ok => onHeld_done (by decide) ok rfl, fun ok => onHeld_done (by decide) ok (secLcAdvance_run s.core (mkCtl h 0xC 6 a b c 0)),
    fun ok => ⟨onHeld_flight (by decide) ok rfl, ?_⟩, fun ok => onHeld_flight (by decide) ok rfl,
    fun f up named => (onCore_whenAlive (quoteSigned · h) up).trans ?_, fun f key up named keys open' => ?_, fun f key up named keys closed => ?_,
    fun f key up named => ⟨?_, fun same => ?_⟩⟩
  · rw [← knownBytes_sec s.core v]
    exact readBytes_there (k := { s.core with sec := v }) there near mended free
  · obtain ⟨regs, nonce⟩ := quoteOf_drops s.core (mkCtl h 0xC 0x81 a b c x)
    rw [← maskRegs_eq]
    exact ⟨regs, nonce⟩
  · rw [quoteSigned_named named]
  · refine ⟨modCtx (dropKeyRead s.core f.ins) f.key fun c => { c with key := some key }, (onCore_onlyIf (ctxKeyReadDone · h true key) up).trans ?_, ?_, ?_, rfl⟩
    · rw [keyRead named]
      simp only [Bool.not_true, Bool.false_eq_true, if_false, if_neg keys]
      rw [if_pos (by exact open')]
    · rw [ctx_modCtx, if_pos rfl]
    · intro n ne
      rw [ctx_modCtx, if_neg ne]
      rfl
  · refine (onCore_onlyIf (ctxKeyReadDone · h true key) up).trans ?_
    rw [keyRead named]
    simp only [Bool.not_true, Bool.false_eq_true, if_false, if_neg keys]
    rw [if_neg (by rw [show ctx (dropKeyRead s.core f.ins) f.key = ctx s.core f.key from rfl, closed]; decide)]
  · refine (onCore_onlyIf (ctxKeyReadDone · h false key) up).trans ?_
    rw [keyRead named]
    rfl
  · refine (onCore_onlyIf (ctxKeyReadDone · h true key) up).trans ?_
    rw [keyRead named]
    simp only [Bool.not_true, Bool.false_eq_true, if_false, if_pos same]

end Sys2Proof.Proofs.PowerSecurity
end

section
/-! PROOFS. The MAINT instructions and field tests (R515 to R525), and the FAB instructions (R420 to R432). -/

namespace Sys2Proof.Proofs.MaintFabric
open Sys2Proof.Machine Sys2Proof.Laws Sys2Proof.Proofs.Resets Sys2Proof.Proofs.Reads
open Sys2Proof.Proofs.Acceptance Sys2Proof.Proofs.ResetFrames Sys2Proof.Proofs.StackReads Sys2Proof.Proofs.StackRows
open Sys2Proof.Proofs.ApertureSys Sys2Proof.Proofs.HeldInstructions Sys2Proof.Proofs.SeqsPools

/-! ## The MAINT instructions -/

section Slots
variable {k : Core} {i : Ctl}

/-- The activity TEST registers. -/
def testAct (k : Core) (i : Ctl) : Act :=
  { id := actId 1 (i.fa 7 0 * 16 + i.fa 15 8) (k.maint.count + 1), st := 1, order := k.maint.count + 1, ins := some i }
/-- The activity SCRUB registers. -/
def scrubAct (k : Core) (i : Ctl) (kind : Nat) : Act :=
  { id := actId kind (i.fa 10 8) (k.maint.count + 1), st := 2, order := k.maint.count + 1, period := i.fb 15 0, passes := i.fc 15 0 }

/-- TEST takes the lowest free slot and waits for its authorisation (R516). -/
theorem maintTest_run {m : Nat} (free : freeSlotFrom k 0 = some m) :
    maintTestSpec.run i k = inFlight
      { k with maint := { slots := mput k.maint.slots m (testAct k i), count := k.maint.count + 1 } } { ins := i, key := m } := by
  simp only [maintTestSpec, free, register, modMaint]
  rfl

/-- SCRUB starts from its first frame or page (R520, R523). -/
theorem maintScrub_run {m : Nat} (free : freeSlotFrom k 0 = some m) :
    let kind := if i.fa 0 0 == 1 then 3 else 2
    let k1 := if i.fa 0 0 == 1 then modFls k (i.fa 10 8) fun f => { f with scrubUnit := 0, scrubPage := 0 }
      else modStk k (i.fa 10 8) fun q => { q with scrubbed := [] }
    maintScrubSpec.run i k = .done
      { k1 with maint := { slots := mput k.maint.slots m (scrubAct k i kind), count := k.maint.count + 1 } }
      (leBytes 4 (actId kind (i.fa 10 8) (k.maint.count + 1))) := by
  cases flash : (i.fa 0 0 == 1) <;> simp only [maintScrubSpec, free, register, modMaint, flash, modFls, modStk] <;> rfl

/-- STOP frees the slot and answers what the scrub counted. -/
theorem maintStop_run {m : Nat} {act : Act} (runs : slotOfAct k (i.fa 7 0) (i.fa 15 8) = some (m, act)) :
    maintStopSpec.run i k = .done (settle { k with maint := { k.maint with slots := mdel k.maint.slots m } })
      (leBytes 8 act.done ++ leBytes 4 act.good ++ leBytes 4 act.bad) := by
  simp only [maintStopSpec, runs]
  rfl

end Slots

section Tests
variable {k : Core} {m : Nat} {act : Act} {f : Flt}

/-- An authorisation that verifies isolates the block; another ends the test (R516). -/
theorem fieldTestVerified_waiting (slot : mget? k.maint.slots m = some act) (test : testFlt k m = some f) (kind : act.id % 256 = 1)
    (st : act.st = 1) :
    fieldTestVerified k m =
      if authOk k (f.ins.fb 23 0) (partyHash k k.sec.lc) (testMsg k f.ins.block f.ins.unit) then
        let k1 := { k with maint := { k.maint with slots := mput k.maint.slots m { act with st := 2 } },
                           err := { k.err with maintSeq := k.err.maintSeq + 1 } }
        if f.ins.block = 4 ∨ f.ins.block = 5 then portDown k1 f.ins.unit else k1
      else endTest k m rSignature 1 [] := by
  simp only [fieldTestVerified, slot, test, Act.kind, kind, st, modAct, modMaint, and_self, if_true]

end Tests

/-- Settles O39. -/
theorem maintenanceInstructionsComplete : Obligations.MaintenanceInstructionsComplete := by
  intro h a b c s
  refine ⟨fun m ok free => onHeld_flight (by decide) ok (maintTest_run (i := mkCtl h 0xD 1 a b c 0) free),
    fun m ok free => onHeld_done (by decide) ok (maintScrub_run (i := mkCtl h 0xD 2 a b c 0) free),
    fun m act ok runs => onHeld_done (by decide) ok (maintStop_run (i := mkCtl h 0xD 3 a b c 0) runs),
    fun ok => onHeld_done (by decide) ok rfl, fun m act f up slot test kind st => ?_, fun m act f detail up slot test kind st re passed => ?_⟩
  · refine (onCore_whenAlive (fieldTestVerified · m.toNat) up).trans ?_
    rw [fieldTestVerified_waiting slot test kind st]
    rfl
  · refine (onCore_whenAlive (fieldTestDone · m.toNat passed detail.toNat re) up).trans ?_
    simp only [fieldTestDone, slot, test, Act.kind, kind, st, modStk]
    rfl

/-! ## The end of a pairing (R425, R430) -/

/-- The fabric, objects, model sets and device memory stay. -/
@[simp] abbrev FabricKept (k t : Core) : Prop := t.fab = k.fab ∧ t.objs = k.objs ∧ t.msets = k.msets ∧ t.dram = k.dram

theorem FabricKept.foldl {α : Type} {f : Core → α → Core} (P : Core → Prop) (keeps : ∀ k t, FabricKept k t → P k → P t)
    (step : ∀ k x, P k → FabricKept k (f k x)) (l : List α) {k : Core} (first : P k) : FabricKept k (l.foldl f k) :=
  List.foldlRecOn (motive := FabricKept k) l f (by simp) fun t kept x _ => by
    have next := step t x (keeps k t kept first)
    simp_all

@[simp] theorem endPause_fabricKept (k : Core) (s reason arg : Nat) : FabricKept k (endPause k s reason arg) := by
  simp only [endPause]
  split <;> simp

/-- While no pair mirrors, a record that is committed is written to its ring alone. -/
theorem commit_fabricKept {k : Core} (quiet : mirroring k = false) (s : Nat) (d : Deliv) : FabricKept k (commit k s d) := by
  have ring (r : Nat) (l : List Byte) : ringCommit k s r l = ringWrite k r l := by
    have none : mirroring (ringWrite k r l) = false := by simpa [mirroring] using quiet
    rw [ringCommit, if_neg (by simp [seqMirrored, none])]
  simp only [commit, ring]
  split
  · split <;> [split; skip] <;> simp
  · split <;> simp
  · simp

theorem mirroring_of_fab {k t : Core} (same : FabricKept k t) (quiet : mirroring k = false) : mirroring t = false := by
  rw [mirroring] at quiet ⊢
  rwa [same.1]

theorem writeWaiting_fabricKept {k : Core} (quiet : mirroring k = false) (s : Nat) : FabricKept k (writeWaiting k s) := by
  unfold writeWaiting
  split
  · simp
  · split
    · simp
    · next d r _ _ =>
      have quiet' : mirroring (modSeq k s fun q => { q with waiting := r }) = false := quiet
      have commits := commit_fabricKept quiet' s d
      simpa using commits

theorem writeReady_fabricKept {k : Core} (quiet : mirroring k = false) : FabricKept k (writeReady k) :=
  FabricKept.foldl (fun k => mirroring k = false) (fun _ _ same no => mirroring_of_fab same no)
    (fun _ s no => FabricKept.foldl (f := fun k _ => writeWaiting k s) (fun k => mirroring k = false)
      (fun _ _ same no => mirroring_of_fab same no) (fun _ _ no => writeWaiting_fabricKept no s) _ no) _ quiet

theorem freeImages_fabricKept (k : Core) : FabricKept k (freeImages k) := by
  have drops := FabricKept.foldl (f := dropStandby) (fun _ => True) (fun _ _ _ h => h) (fun k s _ => by simp [dropStandby, sysGive])
    (standbySeqs k) (k := k) trivial
  simpa [freeImages] using drops

/-- The join under way ends with the pairing. -/
theorem endJoin_facts (k : Core) (reason arg : Nat) :
    let t := endJoin k reason arg
    t.fab = { k.fab with twin := { k.fab.twin with join := none } } ∧ t.objs = k.objs ∧ t.msets = k.msets ∧ t.dram = k.dram := by
  simp only [endJoin]
  split <;> simp [modTwin]

/-- A pairing that ends keeps no frame, record or join, and changes no channel, node, object, set or memory. -/
theorem endPairing_facts (k : Core) :
    let t := endPairing k
    t.fab = { k.fab with twin := { k.fab.twin with st := 3, unacked := [], early := [], records := [], syncEnd := none, syncDue := false, join := none } } ∧
      t.objs = k.objs ∧ t.msets = k.msets ∧ t.dram = k.dram := by
  obtain ⟨fab, objs, sets, dram⟩ := freeImages_fabricKept (modTwin k fun w => { w with
    st := 3, unacked := [], early := [], records := [], syncEnd := none, syncDue := false })
  obtain ⟨fab', objs', sets', dram'⟩ := endJoin_facts (freeImages (modTwin k fun w => { w with
    st := 3, unacked := [], early := [], records := [], syncEnd := none, syncDue := false })) rWrongState 3
  rw [fab] at fab'
  obtain ⟨fab'', objs'', sets'', dram''⟩ := writeReady_fabricKept (k := endJoin (freeImages (modTwin k fun w => { w with
    st := 3, unacked := [], early := [], records := [], syncEnd := none, syncDue := false })) rWrongState 3) (by rw [mirroring, fab']; rfl)
  exact ⟨fab''.trans fab', objs''.trans (objs'.trans objs), sets''.trans (sets'.trans sets), dram''.trans (dram'.trans dram)⟩

/-! ## The FAB instructions -/

theorem node_modNode (k : Core) (n m : Nat) (f : Node → Node) : node (modNode k n f) m = if m = n then f (node k n) else node k m :=
  mget_mmod _ _ _ _ _

/-- ROUTE sets the masks of a run of nodes and of no other. -/
theorem routes_facts (k : Core) (mask lo n : Nat) :
    let t := (upFrom lo n).foldl (fun k n => modNode k n fun q => { q with mask := mask }) k
    (∀ m, node t m = if lo ≤ m ∧ m < lo + n then { node k m with mask := mask } else node k m) ∧
      t = { k with fab := { k.fab with nodes := t.fab.nodes } } := by
  induction n generalizing k lo with
  | zero => exact ⟨fun m => by rw [if_neg (by omega)]; rfl, rfl⟩
  | succ n ih =>
    obtain ⟨nodes, frame⟩ := ih (modNode k lo fun q => { q with mask := mask }) (lo + 1)
    refine ⟨fun m => (nodes m).trans ?_, frame⟩
    rw [node_modNode]
    by_cases first : m = lo
    · subst first
      rw [if_neg (by omega), if_pos rfl, if_pos (by omega)]
    · rw [if_neg first]
      congr 1
      simp only [eq_iff_iff]
      omega

/-- Settles O40. -/
theorem fabricInstructionsComplete : Obligations.FabricInstructionsComplete := by
  intro h a b c x s
  refine ⟨fun ok => ?_, fun ok => ?_, fun ok => ?_, fun ok => onHeld_flight (by decide) ok rfl, fun ok => onHeld_flight (by decide) ok rfl,
    fun ok => onHeld_flight (by decide) ok rfl, fun ok => ?_, fun ok => onHeld_done (by decide) ok rfl, fun ok => onHeld_done (by decide) ok rfl⟩
  · obtain ⟨nodes, frame⟩ := routes_facts s.core (bits c.toNat 15 0) (bits a.toNat 11 0) (bits b.toNat 11 0)
    exact ⟨_, onHeld_done (by decide) ok rfl, nodes, frame⟩
  · have pinned : (if bits a.toNat 12 12 == 1 && !(bits a.toNat 13 13 == 1) then takePin s.core (bits c.toNat 23 0) else s.core).fab = s.core.fab := by
      split <;> rfl
    refine onHeld_done (by decide) ok ?_
    rw [← pinned]
    rfl
  · have pinned : (if (chan s.core (bits a.toNat 11 0)).st = 2 ∧ (chan s.core (bits a.toNat 11 0)).stg = false then
        dropPin s.core (chan s.core (bits a.toNat 11 0)).target else s.core).fab = s.core.fab := by
      split <;> rfl
    refine onHeld_done (by decide) ok ?_
    rw [← pinned]
    rfl
  · by_cases pairs : s.core.fab.twin.st = 1 ∨ s.core.fab.twin.st = 2
    · obtain ⟨fab, objs, sets, dram⟩ := endPairing_facts s.core
      refine ⟨endPairing s.core, onHeld_done (by decide) ok (congrArg (Res.done · []) (if_pos pairs)), fun no no' => by tauto, fun _ => ?_⟩
      rw [fab]
      exact ⟨rfl, rfl, rfl, rfl, rfl, rfl, objs, sets, dram⟩
    · exact ⟨s.core, onHeld_done (by decide) ok (congrArg (Res.done · []) (if_neg pairs)), fun _ _ => rfl, fun yes => absurd yes pairs⟩

end Sys2Proof.Proofs.MaintFabric
end

section
/-! PROOFS. An object that is LOST stays so, and the reads of host memory end (R105, R327, R328). -/

namespace Sys2Proof.Proofs.HostReads
open Sys2Proof.Machine Sys2Proof.Laws Sys2Proof.Proofs.Reads Sys2Proof.Proofs.ResetFrames Sys2Proof.Proofs.SetLoading
open Sys2Proof.Proofs.StackReach Sys2Proof.Proofs.StackRows Sys2Proof.Proofs.MemoryLines Sys2Proof.Proofs.LineErrors Sys2Proof.Proofs.ObjectEntry

/-! ## An object that is LOST stays so -/

/-- Every object that was LOST is LOST. -/
structure LostKept (k t : Core) : Prop where
  lost : ∀ n, (obj k n).lost = true → (obj t n).lost = true

theorem lostKept_of_objs {k t : Core} (same : t.objs = k.objs) : LostKept k t := ⟨fun n lost => by rwa [obj_of_objs same]⟩

theorem LostKept.after {k t u : Core} (last : LostKept t u) (first : LostKept k t) : LostKept k u := ⟨fun n lost => last.lost n (first.lost n lost)⟩

theorem LostKept.objs {k t u : Core} (first : LostKept k t) (same : u.objs = t.objs) : LostKept k u := (lostKept_of_objs same).after first

theorem LostKept.foldl {α : Type} {f : Core → α → Core} (hf : ∀ k x, LostKept k (f k x)) (l : List α) (k : Core) : LostKept k (l.foldl f k) :=
  List.foldlRecOn (motive := LostKept k) l f (lostKept_of_objs rfl) fun t kept x _ => (hf t x).after kept

theorem modObj_lostKept (k : Core) (h : Nat) {f : Obj → Obj} (keeps : ∀ o, o.lost = true → (f o).lost = true) : LostKept k (modObj k h f) :=
  ⟨fun n lost => by
    rw [obj_modObj]
    split
    · next same => exact keeps _ (same ▸ lost)
    · exact lost⟩

theorem LostKept.modObj {k t : Core} (first : LostKept k t) {h : Nat} {f : Obj → Obj} (keeps : ∀ o, o.lost = true → (f o).lost = true) :
    LostKept k (modObj t h f) := (modObj_lostKept t h keeps).after first

theorem beginFetch_lostKept (k : Core) (h a : Nat) : LostKept k (beginFetch k h a) := by
  simp only [beginFetch]
  split
  · exact (lostKept_of_objs (by simp)).after (modObj_lostKept k h (f := fun o => { o with
      st := .fetching, copy := a, wants := false, wantDrop := none, dirty := [], recov := [], from_ := [], fetched := 0 }) fun _ lost => lost)
  · exact modObj_lostKept _ _ fun _ lost => lost

theorem evictUntil_lostKept (k : Core) (d n : Nat) (limit skip : Option Nat) (fuel : Nat) : LostKept k (evictUntil k d n limit skip fuel) := by
  induction fuel generalizing k with
  | zero => exact lostKept_of_objs rfl
  | succ fuel ih =>
    unfold evictUntil
    split <;> [skip; split]
    · exact lostKept_of_objs rfl
    · exact lostKept_of_objs rfl
    · exact (ih _).after (modObj_lostKept _ _ fun _ lost => lost)

theorem takeSpace_lostKept (k : Core) (h : Nat) (skip : Option Nat) : LostKept k (takeSpace k h skip) := by
  simp only [takeSpace]
  split
  · exact beginFetch_lostKept ..
  · exact (evictUntil_lostKept ..).modObj fun _ lost => lost

theorem takeOrDrop_lostKept (k : Core) (h : Nat) (limit skip : Option Nat) : LostKept k (takeOrDrop k h limit skip) := by
  simp only [takeOrDrop]
  split <;> [skip; split]
  · exact beginFetch_lostKept ..
  · exact (evictUntil_lostKept ..).modObj fun _ lost => lost
  · exact (modObj_lostKept k h (f := fun o => { o with wants := false, wantDrop := none }) fun _ lost => lost).objs (by simp)

theorem retrySpace_lostKept (k : Core) (skip : Option Nat) : LostKept k (retrySpace k skip) := by
  refine LostKept.foldl (fun k h => ?_) _ k
  dsimp only
  split <;> [skip; split]
  · exact lostKept_of_objs rfl
  · exact takeSpace_lostKept ..
  · exact takeOrDrop_lostKept ..

@[simp] theorem writeGranules_objs (k : Core) (h : Nat) (l : List Nat) : (writeGranules k h l).objs = k.objs := by
  refine foldl_fixes (g := Core.objs) (fun k g => ?_) l k
  simp only [writeGranule]
  split <;> simp

theorem stopEviction_lostKept (k : Core) (h : Nat) : LostKept k (stopEviction k h) := by
  simp only [stopEviction, drawNat]
  refine ((retrySpace_lostKept _ _).after (lostKept_of_objs (endObj_memoryKept _ _ _ _ _).2)).after ?_
  exact LostKept.modObj (lostKept_of_objs (by simp)) fun _ lost => lost

theorem promote_lostKept (k : Core) (h : Nat) : LostKept k (promote k h) := by
  simp only [promote]
  split
  · exact lostKept_of_objs rfl
  · split
    · exact lostKept_of_objs rfl
    · exact lostKept_of_objs rfl
    · exact stopEviction_lostKept ..
    · split
      · exact lostKept_of_objs rfl
      · exact takeSpace_lostKept ..

theorem fetchLines_lostKept (h n : Nat) (k : Core) : LostKept k (fetchLines k h n) := by
  induction n generalizing k with
  | zero => exact lostKept_of_objs rfl
  | succ n ih =>
    unfold fetchLines
    dsimp only
    split
    · exact lostKept_of_objs rfl
    · exact (ih _).after (LostKept.modObj (lostKept_of_objs (by simp [putCopyLine])) fun _ lost => lost)

theorem fetchOn_lostKept (k : Core) (h : Nat) : LostKept k (fetchOn k h) := by
  simp only [fetchOn, drawNat]
  split
  · exact (fetchLines_lostKept h _ _).after (lostKept_of_objs rfl)
  · exact lostKept_of_objs rfl

theorem fetchSeen_lostKept (k : Core) (h : Nat) : LostKept k (fetchSeen k h) := by
  simp only [fetchSeen]
  split <;> split
  · exact (fetchOn_lostKept _ _).after (stopEviction_lostKept _ _)
  · exact stopEviction_lostKept _ _
  · exact fetchOn_lostKept _ _
  · exact lostKept_of_objs rfl

@[simp] theorem stallObj_objs (k : Core) (w : Reader) (d n : Nat) : (stallObj k w d n).objs = k.objs := by
  simp only [stallObj]
  split <;> simp

@[simp] theorem stallSpace_objs (k : Core) (w : Reader) (d h : Nat) : (stallSpace k w d h).objs = k.objs := by
  simp only [stallSpace]
  split <;> [skip; split] <;> simp

@[simp] theorem stallFlash_objs (k : Core) (w : Reader) (d : Nat) : (stallFlash k w d).objs = k.objs := by
  simp only [stallFlash, drawNat]
  split <;> simp

/-- A read that waits has shown the object's fetch, and may have asked for a read of the host or for the object's promotion. -/
theorem openAt_wait {k t : Core} {w : Reader} {d h : Nat} {ls : List Nat} {off len : Nat} (wait : openAt k w d h ls off len = .wait t) :
    t.objs = k.objs ∨ t.objs = (fetchSeen k h).objs ∨ t.objs = (promote (fetchSeen k h) h).objs := by
  generalize seen : fetchSeen k h = k1
  unfold fetchSeen at seen
  unfold openAt at wait
  dsimp only at seen wait
  rw [seen] at wait
  split at wait <;> [skip; split at wait]
  · cases wait
  · cases wait
    exact .inl rfl
  · split at wait <;> repeat' split at wait
    all_goals simp only [Way.wait.injEq, reduceCtorEq] at wait
    all_goals simp [← wait]

theorem openAt_lostKept {k t : Core} {w : Reader} {d h : Nat} {ls : List Nat} {off len : Nat}
    (opened : openAt k w d h ls off len = .go t ∨ openAt k w d h ls off len = .wait t) : LostKept k t := by
  have seen := fetchSeen_lostKept k h
  rcases opened with go | wait
  · rcases openAt_go go with rfl | rfl
    · exact seen
    · exact seen.objs (by simp)
  · rcases openAt_wait wait with same | same | same
    · exact lostKept_of_objs same
    · exact seen.objs same
    · exact ((promote_lostKept _ h).after seen).objs same

theorem startRecovery_lostKept (k : Core) (h : Nat) (ls : List Nat) : LostKept k (startRecovery k h ls) := by
  simp only [startRecovery]
  split
  · exact lostKept_of_objs rfl
  · have marked (f : Obj → SMap Nat) : LostKept k (modObj k h fun o => { o with recov := f o }) := modObj_lostKept _ _ fun _ lost => lost
    split
    · exact (marked _).objs (foldl_fixes (g := Core.objs) (fun k l => by simp) _ _)
    · exact marked _

theorem damagedBlock_lostKept (k : Core) (h n check : Nat) : LostKept k (damagedBlock k h n check).1 := by
  have reported : LostKept k (reportBlock k (servingPx k h n) h n check) := lostKept_of_objs (by simp)
  simp only [damagedBlock]
  split <;> [split; skip]
  · exact (promote_lostKept _ _).after reported
  · exact (startRecovery_lostKept _ _ _).after reported
  · exact reported

theorem holdBlocks_lostKept (h : Nat) (host hostB : Nat × List Byte) (m n : Nat) (k : Core) : LostKept k (holdBlocks k h host hostB n m).1 := by
  induction m generalizing k n with
  | zero => exact lostKept_of_objs rfl
  | succ m ih =>
    unfold holdBlocks
    split <;> [skip; split]
    · exact ih _ _
    · exact (ih _ _).after (damagedBlock_lostKept ..)
    · exact ih _ _

theorem readBlocks_lostKept (h : Nat) (host hostB : Nat × List Byte) (m n : Nat) (k : Core) : LostKept k (readBlocks k h host hostB n m).1 := by
  induction m generalizing k n with
  | zero => exact lostKept_of_objs rfl
  | succ m ih =>
    unfold readBlocks
    dsimp only
    split
    · exact (ih _ _).after (damagedBlock_lostKept ..)
    · refine (ih _ _).after (lostKept_of_objs ?_)
      split <;> simp

/-- Reading an object leaves LOST what was. -/
theorem readObj_lostKept {k : Core} {w : Reader} {d h l n : Nat} :
    match readObj k w d h l n with | .lost _ => True | .wait t => LostKept k t | .lines t _ => LostKept k t := by
  have both : match openBoth k w d h l n with | .lost _ => True | .wait t => LostKept k t | .go t => LostKept k t := by
    simp only [openBoth, openRead]
    generalize first : openAt k w d h _ _ _ = way
    cases way with
    | lost g => trivial
    | wait t => exact openAt_lostKept (.inr first)
    | go t =>
      have kept := openAt_lostKept (.inl first)
      dsimp only
      by_cases delta : (obj t h).pack = 2
      · rw [if_pos delta]
        generalize next : openAt t w d _ _ _ _ = way
        cases way with
        | lost g => trivial
        | wait u => exact (openAt_lostKept (.inr next)).after kept
        | go u => exact (openAt_lostKept (.inl next)).after kept
      · rw [if_neg delta]
        exact kept
  simp only [readObj]
  cases way : openBoth k w d h l n with
  | lost g => trivial
  | wait t => rw [way] at both; exact both
  | go t =>
    rw [way] at both
    have held : LostKept t (holdRead t w h l n).1 := by
      rw [holdRead]
      split
      · exact lostKept_of_objs rfl
      · exact holdBlocks_lostKept ..
    dsimp only
    rcases hold : holdRead t w h l n with ⟨u, waits⟩
    rw [hold] at held
    cases waits
    · refine LostKept.after ?_ (held.after both)
      simp only [takeLines]
      split
      · exact lostKept_of_objs rfl
      · exact readBlocks_lostKept ..
    · exact held.after both

/-! ## Sets that fail and loads that go on (R293 to R295) -/

theorem dropRef_lostKept (k : Core) (h : Nat) : LostKept k (dropRef k h) := modObj_lostKept _ _ fun _ lost => lost
theorem addRef_lostKept (k : Core) (h : Nat) : LostKept k (addRef k h) := modObj_lostKept _ _ fun _ lost => lost
theorem dropPin_lostKept (k : Core) (h : Nat) : LostKept k (dropPin k h) :=
  modObj_lostKept _ _ fun o lost => by split <;> exact lost

@[simp] theorem dropPending_objs (k : Core) (m arg : Nat) : (dropPending k m arg).objs = k.objs :=
  foldl_fixes (g := Core.objs) (fun k f => by simp) _ _

theorem msetFree_lostKept (k : Core) (m : Nat) : LostKept k (msetFree k m) := by
  have drops (l : List Nat) (k : Core) := LostKept.foldl dropRef_lostKept l k
  have weights : LostKept k ((mset' k m).objs.foldl dropRef (sysGive k (mset' k m).sysSize)) := (drops _ _).after (lostKept_of_objs rfl)
  simp only [msetFree]
  split <;> split
  · next later _ _ _ now _ => exact ((drops (schedRefs later) _).after ((drops (schedRefs now) _).after weights)).objs (by simp)
  · next later _ _ _ => exact ((drops (schedRefs later) _).after weights).objs (by simp)
  · next now _ => exact ((drops (schedRefs now) _).after weights).objs (by simp)
  · exact weights.objs (by simp)

theorem loadFail_lostKept (k : Core) (m reason arg bit : Nat) : LostKept k (loadFail k m reason arg bit) := by
  simp only [loadFail]
  split
  · exact (msetFree_lostKept k m).objs (by simp)
  · exact (msetFree_lostKept k m).objs (by simp)

theorem halveHot_lostKept (k : Core) (d n : Nat) : LostKept k (halveHot k d n) := by
  unfold halveHot
  split
  · refine ⟨fun n lost => ?_⟩
    rw [obj, mget_mmap_fixes Obj.lost {} fun _ o => by split <;> rfl]
    exact lost
  · exact lostKept_of_objs rfl

theorem LostKept.modDom {k t : Core} (first : LostKept k t) {d : Nat} {f : Dom → Dom} : LostKept k (modDom t d f) := first.objs rfl

theorem stopTiles_objs (ts : List Nat) (k : Core) : (ts.foldl (fun k t => modTile k t Tile.stopped) k).objs = k.objs :=
  foldl_fixes (g := Core.objs) (fun k t => by simp) ts k

theorem abandonStep_lostKept (k : Core) (d : Nat) : LostKept k (abandonStep k d) := by
  unfold abandonStep
  split
  · exact lostKept_of_objs rfl
  · dsimp only
    refine (retrySpace_lostKept _ none).after ((halveHot_lostKept _ _ _).after ?_)
    refine LostKept.objs ?_ (returnPages_objs _ _ _)
    refine LostKept.modDom ?_
    refine (LostKept.foldl dropPin_lostKept _ _).after ?_
    exact lostKept_of_objs (by simp [chargeEnergy_objs, drawNat, stopTiles_objs])

theorem releasePrompt_lostKept (k : Core) (s : Nat) : LostKept k (releasePrompt k s) := by
  simp only [releasePrompt, abandonPrompt]
  split
  · exact (dropPin_lostKept k (seq k s).pHandle).objs (by simp)
  · exact lostKept_of_objs (by simp)

theorem failSeq_lostKept (k : Core) (s reason : Nat) : LostKept k (failSeq k s reason) := by
  simp only [failSeq]
  split
  · exact lostKept_of_objs rfl
  · have released : LostKept k (releasePrompt (modSeq k s fun q =>
        { q with st := .failed, waiting := q.waiting.map fun d => { d with plain := true } }) s) :=
      (releasePrompt_lostKept _ _).after (lostKept_of_objs (by simp))
    split
    · exact released.objs (by simp)
    · exact released.objs (by simp)

theorem freeFailed_lostKept (k : Core) (m : Nat) : LostKept k (freeFailed k m) := by
  unfold freeFailed
  split
  · exact msetFree_lostKept k m
  · exact lostKept_of_objs rfl

theorem msetFail_lostKept (k : Core) (m reason : Nat) : LostKept k (msetFail k m reason) := by
  have rest (t : Core) (l : List Nat) (kept : LostKept k t) : LostKept k
      (freeFailed (l.foldl (fun k q => failSeq k q reason) (dropPending (modMset t m fun s => { s with st := .failed }) m 4)) m) :=
    (freeFailed_lostKept _ _).after ((LostKept.foldl (fun k q => failSeq_lostKept k q reason) l _).after (kept.objs (by simp)))
  simp only [msetFail]
  split
  · exact lostKept_of_objs rfl
  · refine rest _ _ ?_
    split
    · split
      · exact abandonStep_lostKept ..
      · exact lostKept_of_objs rfl
    · exact lostKept_of_objs rfl

theorem loadReady_lostKept (k : Core) (m : Nat) : LostKept k (loadReady k m) := by
  simp only [loadReady]
  split
  · exact loadFail_lostKept ..
  · split <;> [split; skip]
    · exact lostKept_of_objs (by simp [extendMreg])
    · exact lostKept_of_objs (by simp [extendMreg])
    · exact lostKept_of_objs rfl

theorem loadProgram_lostKept (k : Core) (m : Nat) (ls : List (Line × Bool)) : LostKept k (loadProgram k m ls) := by
  simp only [loadProgram]
  split <;> [skip; (split <;> [skip; (split <;> [skip; split])])]
  · exact loadFail_lostKept ..
  · exact loadFail_lostKept ..
  · exact loadFail_lostKept ..
  · exact loadFail_lostKept ..
  · exact (loadReady_lostKept _ _).after (lostKept_of_objs (by simp [sysTake]))

theorem loadRest_lostKept (k : Core) (m : Nat) : LostKept k (loadRest k m) := by
  have read := readObj_lostKept (k := k) (w := loadReader k m) (d := (mset' k m).dom) (h := (mset' k m).prog) (l := (mset' k m).pline)
    (n := 16 + cdiv (mset' k m).pwords 4)
  simp only [loadRest]
  split <;> [skip; (split <;> [skip; split])]
  · exact lostKept_of_objs rfl
  · exact loadReady_lostKept ..
  · exact loadFail_lostKept ..
  · split
    · exact loadFail_lostKept ..
    · next e => rw [e] at read; exact read
    · next e =>
      rw [e] at read
      exact (loadProgram_lostKept _ _ _).after (read.objs (by simp [dropGot]))

theorem loadManifest_lostKept (k : Core) (m h : Nat) : LostKept k (loadManifest k m h) := by
  simp only [loadManifest]
  split <;> [skip; (split <;> [skip; (split <;> [skip; split])])]
  · exact loadFail_lostKept ..
  · exact lostKept_of_objs (by simp)
  · exact loadFail_lostKept ..
  · exact loadFail_lostKept ..
  · exact (LostKept.foldl addRef_lostKept _ _).after (lostKept_of_objs (by simp))

theorem loadsGoOn_lostKept (k : Core) : LostKept k (loadsGoOn k) := by
  refine LostKept.foldl (fun k e => ?_) _ k
  simp only [loadGoOn]
  split <;> [split; skip]
  · exact (loadRest_lostKept _ _).after (loadManifest_lostKept ..)
  · exact lostKept_of_objs rfl
  · exact loadRest_lostKept ..

/-- An allocated object that has lost its last source is LOST. -/
theorem markLost_lost {k : Core} {h : Nat} (alloc : (obj k h).alloc = true) : (obj (markLost k h) h).lost = true := by
  refine (loadsGoOn_lostKept _).lost h ?_
  simp only [lostFor, alloc]
  split
  · next done => simpa using done
  · refine (retrySpace_lostKept _ none).lost h ((LostKept.foldl (fun k m => ?_) _ _).lost h ?_)
    · split
      · exact loadFail_lostKept ..
      · exact msetFail_lostKept ..
    · simp only [List.foldl_cons, List.foldl_nil, obj, endObj_memoryKept, errRecord_frame, modObj, mget_mmod]
      simp only [if_true]
      split <;> rfl

/-! ## Reads that fail (R105, R328) -/

theorem sources_of_eq {k t : Core} (fab : t.fab = k.fab) (o : Obj) : sources t o = sources k o := by rw [sources, sources, twinActive, twinActive, fab]

/-- A read in place that fails: its object is fetched from its next source, or is LOST. -/
theorem hostReadFails_place (k : Core) (r : HostRd) (h : Nat) (noObj : r.obj = none) (handle : r.handle = some h) :
    let k1 := hostReadError k (some h) ((r.addr - (obj k h).haddr) / 64)
    let read := readInPlace k h = true ∧ (r.tile.isSome = true ∨ r.ctl.isSome = true ∨ r.seq.isSome = true)
    let more := (sources k (obj k h)).any (fun x => decide (1 < x))
    (¬ read → hostReadFails k r = checkOrphans k1 h) ∧
    (read → more = true → hostReadFails k r = promote (checkOrphans k1 h) h) ∧
    (read → more = false → hostReadFails k r = markLost (checkOrphans k1 h) h) := by
  dsimp only
  have same : sources (hostReadError k (some h) ((r.addr - (obj k h).haddr) / 64))
      (obj (hostReadError k (some h) ((r.addr - (obj k h).haddr) / 64)) h) = sources k (obj k h) := by
    rw [sources_of_eq (k := k) (by simp [hostReadError]), obj_of_objs (k := k) (by simp [hostReadError])]
  have place : (!readInPlace k h || (r.tile.isNone && r.ctl.isNone && r.seq.isNone)) = true ↔
      ¬ (readInPlace k h = true ∧ (r.tile.isSome = true ∨ r.ctl.isSome = true ∨ r.seq.isSome = true)) := by
    simp only [← Option.not_isSome]
    cases readInPlace k h <;> cases r.tile.isSome <;> cases r.ctl.isSome <;> cases r.seq.isSome <;> decide
  simp only [hostReadFails, noObj, handle, place, same]
  refine ⟨fun no => if_pos no, fun read more => ?_, fun read more => ?_⟩
  · rw [if_neg (not_not_intro read), if_pos more]
  · rw [if_neg (not_not_intro read), if_neg (by simp [more])]

theorem retryWants_of_none {k : Core} (none : ∀ e ∈ k.objs, e.2.wants = false) : retryWants k = k := by
  rw [retryWants, retrySpace, List.filter_eq_nil_iff.mpr fun e mem => by simp [none e mem]]
  rfl

theorem loadsGoOn_of_none {k : Core} (none : ∀ e ∈ k.msets, e.2.st ≠ .loading) : loadsGoOn k = k := by
  rw [loadsGoOn, List.filter_eq_nil_iff.mpr fun e mem => by simp [none e mem]]
  rfl

theorem mem_mput {α : Type} {m : SMap α} {n : Nat} {v : α} {e : Nat × α} (mem : e ∈ mput m n v) : e.2 = v ∨ e ∈ m := by
  induction m with
  | nil => exact .inl (by simp_all [mput])
  | cons x r ih =>
    unfold mput at mem
    split at mem <;> [skip; split at mem]
    all_goals rcases List.mem_cons.mp mem with rfl | mem
    · exact .inl rfl
    · exact .inr (List.mem_cons_of_mem _ mem)
    · exact .inl rfl
    · exact .inr mem
    · exact .inr List.mem_cons_self
    · exact (ih mem).imp_right (List.mem_cons_of_mem _)

/-- What is true of every listed object and of an object that is not listed is true of every object. -/
theorem obj_of_all {k : Core} {p : Obj → Prop} (unlisted : p {}) (listed : ∀ e ∈ k.objs, p e.2) (h : Nat) : p (obj k h) := by
  by_cases none : obj k h = {}
  · exact none ▸ unlisted
  · exact listed _ (mem_of_mget_ne none)

/-- What is left of an object that is LOST. -/
def lostObj (o : Obj) : Obj :=
  if o.home = 0 then { o with lost := true, recov := [] }
  else { o.settled with
    lost := true, recov := [], st := .absent, dirty := [], cleaning := [], redirty := [], wants := false, wantDrop := none, from_ := [] }

/-- An object's loss told: its reads are dropped, one record is written, and the instructions that wait on it end. -/
def lossTold (k : Core) (h : Nat) : Core :=
  [0x01, 0x02, 0x05].foldl (fun k op => endObj k op h rWeightUnavail h) (errRecord (modObj (orphanReads k h) h lostObj)
    { reason := rWeightUnavail, cls := 2, source := 8, dom := (obj k h).dom, arg := h, ctx := (obj k h).ctx, obj := some h, conf := objConf k h })

theorem lostFor_found {k : Core} {h : Nat} (alloc : (obj k h).alloc = true) (found : (obj k h).lost = false) (reason : Nat) :
    lostFor k h reason = retryWants ((((lossTold k h).msets.filter fun e => e.2.objs.contains h).map Prod.fst).foldl
      (fun k m => if (mset' k m).st = .loading then loadFail k m reason h 0 else msetFail k m reason) (lossTold k h)) := by
  simp only [lostFor, alloc, found]
  rfl

section Alone
variable {k : Core} {h : Nat} (alloc : (obj k h).alloc = true) (found : (obj k h).lost = false)
  (sets : ∀ e ∈ k.msets, e.2.st ≠ .loading ∧ h ∉ e.2.objs) (wants : ∀ e ∈ k.objs, e.2.wants = false)
include alloc found sets wants

/-- An object no set names, with none waiting for space: it alone becomes LOST, with one record. -/
theorem markLost_alone : (markLost k h).objs = mput k.objs h (lostObj (obj k h)) ∧ (markLost k h).msets = k.msets ∧
    (markLost k h).err.serial = k.err.serial + 1 := by
  generalize ended : lossTold k h = k3
  have objs : k3.objs = mput k.objs h (lostObj (obj k h)) := by
    rw [← ended, lossTold, foldl_fixes (g := Core.objs) (fun k op => (endObj_memoryKept k op h _ h).2)]
    simp [modObj, mmod, orphanReads, obj]
  have msets : k3.msets = k.msets := by
    rw [← ended, lossTold, foldl_fixes (g := Core.msets) (fun k op => by simp [endObj_openKept])]
    simp [modObj, orphanReads]
  have serial : k3.err.serial = k.err.serial + 1 := by
    have ends (k : Core) (op : Nat) : (endObj k op h rWeightUnavail h).err = k.err := foldl_fixes (g := Core.err) (fun k f => by simp) _ _
    rw [← ended, lossTold, foldl_fixes (g := Core.err) fun k op => ends k op]
    simp [modObj, orphanReads]
  have own : (lostObj (obj k h)).wants = false := by
    unfold lostObj
    split
    · exact obj_of_all (p := fun o => o.wants = false) rfl wants h
    · rfl
  have waits : ∀ e ∈ k3.objs, e.2.wants = false := fun e mem => by
    rw [objs] at mem
    rcases mem_mput mem with same | mem
    · rw [same, own]
    · exact wants e mem
  have lost : lostFor k h rWeightUnavail = k3 := by
    rw [lostFor_found alloc found, ended, List.filter_eq_nil_iff.mpr fun e mem => by simpa using (sets e (msets ▸ mem)).2]
    exact retryWants_of_none waits
  rw [markLost, lost, loadsGoOn_of_none fun e mem => (sets e (msets ▸ mem)).1]
  exact ⟨objs, msets, serial⟩

end Alone

/-- A fetch from the host that fails, where there is no other source and nothing names the object: it alone is LOST, with two records. -/
theorem hostReadFails_fetch {k : Core} {r : HostRd} {h : Nat} (object : r.obj = some h) (alloc : (obj k h).alloc = true)
    (fetching : (obj k h).st = .fetching) (home : (obj k h).home = 2) (found : (obj k h).lost = false) (bcast : (obj k h).bcast = none)
    (twin : k.fab.twin.st ≠ 2) (sets : ∀ e ∈ k.msets, e.2.st ≠ .loading ∧ h ∉ e.2.objs) (wants : ∀ e ∈ k.objs, e.2.wants = false) :
    let t := hostReadFails k r
    (obj t h).lost = true ∧ (obj t h).st = .absent ∧ (∀ m, m ≠ h → obj t m = obj k m) ∧ t.msets = k.msets ∧ t.err.serial = k.err.serial + 2 := by
  generalize lines : upFrom r.line (cdiv r.len 64) = ls
  generalize told : hostReadError (ls.foldl (fun k l => putCopyLine k h l 0 true) k) (some h) r.line = k1
  have put (k : Core) (l : Nat) : (putCopyLine k h l 0 true).objs = k.objs ∧ (putCopyLine k h l 0 true).msets = k.msets ∧
      (putCopyLine k h l 0 true).fab = k.fab ∧ (putCopyLine k h l 0 true).err = k.err := by simp [putCopyLine]
  have objs : k1.objs = k.objs := by
    simp only [← told, hostReadError, errRecord_frame]
    exact foldl_fixes (g := Core.objs) (fun k l => (put k l).1) ls k
  have msets : k1.msets = k.msets := by
    simp only [← told, hostReadError, errRecord_frame]
    exact foldl_fixes (g := Core.msets) (fun k l => (put k l).2.1) ls k
  have fab : k1.fab = k.fab := by
    simp only [← told, hostReadError, errRecord_frame]
    exact foldl_fixes (g := Core.fab) (fun k l => (put k l).2.2.1) ls k
  have serial : k1.err.serial = k.err.serial + 1 := by
    rw [← told, hostReadError, errRecord_serial, foldl_fixes (g := Core.err) fun k l => (put k l).2.2.2]
  have same := obj_of_objs objs h
  have none : (sources k1 (obj k1 h)).find? (fun x => decide (1 < x)) = none := by
    rw [sources_of_eq fab, same, sources, twinActive, bcast, home]
    simp [twin]
  have fails : hostReadFails k r = markLost k1 h := by
    simp only [hostReadFails, object, fetching, if_true, lines, told, sourceFailed, none]
    rw [if_neg (by simp [same, found])]
  obtain ⟨left, kept, more⟩ := markLost_alone (k := k1) (h := h) (by rw [same, alloc]) (by rw [same, found])
    (by rw [msets]; exact sets) (by rw [objs]; exact wants)
  have own : obj (markLost k1 h) h = lostObj (obj k h) := by rw [obj, left, mget_mput_same, same]
  have lost : lostObj (obj k h) = { (obj k h).settled with
      lost := true, recov := [], st := .absent, dirty := [], cleaning := [], redirty := [], wants := false, wantDrop := Option.none, from_ := [] } :=
    if_neg (by rw [home]; decide)
  dsimp only
  rw [fails]
  refine ⟨by rw [own, lost], by rw [own, lost], fun m other => ?_, kept.trans msets, by rw [more, serial]⟩
  rw [obj, left, mget_mput_ne _ _ _ other, objs]
  rfl

/-! ## The obligation -/

theorem exec_hostReadCompletion {s : State} (up : portsServe s.core = true) (tag : Nat) (st : ReadStatus) (data : List Byte) :
    exec (.hostReadCompletion tag st data) s = .next (s.finish (hostReadCompletion s.core tag st data)) :=
  onCore_onlyIf _ up

theorem exec_completionTimeout {s : State} (up : portsServe s.core = true) (tag : Nat) :
    exec (.completionTimeout tag) s = .next (s.finish (completionTimeout s.core tag)) :=
  onCore_onlyIf _ up

theorem checkOrphans_unread {k : Core} {h : Nat} (unread : (k.pci.got.all fun g => !readsFor {} h g.rd) = true) : checkOrphans k h = k := by
  have none : (k.pci.got.any fun g => readsFor {} h g.rd) = false := by
    rw [List.any_eq_false]
    intro g mem
    simpa using List.all_eq_true.mp unread g mem
  simp only [checkOrphans, none]
  simp

theorem hostReadOk_fetch {k : Core} {r : HostRd} {h : Nat} {data : List Byte} (object : r.obj = some h) (fetching : (obj k h).st = .fetching)
    (fetched : ¬ (mget? (obj k h).recov r.line = some 1 ∧ r.len ≤ 64)) : hostReadOk k r data = { k with
      dram := (k.dram.putBytes 0 ((obj k h).addr + 64 * r.line) data).setBads false (((obj k h).addr + 64 * r.line) / 8) (cdiv r.len 8) } := by
  simp only [hostReadOk, object]
  rw [if_neg fetched, if_pos fetching]

/-- The bytes of a fetched copy are stored, not poisoned, and no other byte of device memory changes. -/
theorem dram_stored (m : Mem) (a : Nat) (data : List Byte) (w n : Nat) :
    ((m.putBytes 0 a data).setBads false w n).bytes 0 a data.length = data ∧
    ∀ b, b < a ∨ a + data.length ≤ b → ((m.putBytes 0 a data).setBads false w n).byte 0 b = m.byte 0 b :=
  ⟨(bytes_congr fun _ _ _ => byte_setBads ..).trans (bytes_putBytes_same ..), fun b outside => by rw [byte_setBads, byte_putBytes_ne _ _ _ outside]⟩

/-- Settles O42: each end of a read, from what its failure and its success do. -/
theorem hostReadsEnd : Obligations.HostReadsEnd := by
  unfold Obligations.HostReadsEnd
  intro s tag data up
  simp only [exec_hostReadCompletion up, exec_completionTimeout up]
  refine ⟨fun none st => ?_, fun r read => ⟨fun short => ?_, fun h full object fetching fetched => ?_, fun h full object waits short => ?_,
    fun full noObj noHandle ctl => ?_, fun h full noObj handle => ⟨?_, fun none => ?_⟩, fun st failed => ?_, fun noObj noHandle ctl => ?_,
    fun h noObj handle => ?_, fun h object alloc fetching home found bcast twin sets wants => ?_⟩⟩
  · simp [hostReadCompletion, completionTimeout, none]
  · simp [hostReadCompletion, read, short]
  · obtain ⟨stored, kept⟩ := dram_stored s.core.dram ((obj s.core h).addr + 64 * r.line) data (((obj s.core h).addr + 64 * r.line) / 8) (cdiv r.len 8)
    refine ⟨hostReadOk (dropRead s.core tag) r data, by simp [hostReadCompletion, read, full], ?_⟩
    have ok := hostReadOk_fetch (k := dropRead s.core tag) (data := data) object fetching fetched
    rw [full] at stored kept
    rw [ok]
    exact ⟨rfl, stored, kept⟩
  · have ok : hostReadOk (dropRead s.core tag) r data = lineSupplied (dropRead s.core tag) h r.line 1 (BitVec.ofNat 512 (ofLE data)) := by
      simp only [hostReadOk, object]
      exact if_pos ⟨waits, short⟩
    simp only [hostReadCompletion, read, full, if_true, ok]
    rfl
  · simp only [hostReadCompletion, read, full, if_true, hostReadOk, noObj, noHandle, ← Option.not_isSome, ctl]
    rfl
  · simp only [hostReadCompletion, read, full, if_true, hostReadOk, noObj, handle]
    rfl
  · exact checkOrphans_unread none
  · cases st
    · exact absurd rfl failed
    all_goals simp only [hostReadCompletion, completionTimeout, read]
  · simp only [completionTimeout, read, hostReadFails, noObj, noHandle, ctl, if_true]
    rfl
  · obtain ⟨idle, next, lost⟩ := hostReadFails_place (dropRead s.core tag) r h noObj handle
    simp only [completionTimeout, read]
    refine ⟨fun no => ?_, fun yes more => ?_, fun yes more => ⟨?_, markLost_lost ?_⟩⟩
    · rw [idle no]; rfl
    · rw [next yes more]; rfl
    · rw [lost yes more]; rfl
    · obtain ⟨place, -⟩ := yes
      simp only [readInPlace, Bool.and_eq_true] at place
      rw [obj_of_objs (k := s.core) (by simp)]
      exact place.1.1.1.1
  · refine ⟨hostReadFails (dropRead s.core tag) r, by simp [completionTimeout, read], ?_⟩
    exact hostReadFails_fetch (k := dropRead s.core tag) object alloc fetching home found bcast twin sets wants

end Sys2Proof.Proofs.HostReads
end

section
/-! PROOFS. What ends work on an object: zeroing, fetches, evictions, cleans and recovered lines (R318 to R334). -/

namespace Sys2Proof.Proofs.ObjectEnds
open Sys2Proof.Machine Sys2Proof.Laws Sys2Proof.Proofs.Reads Sys2Proof.Proofs.ResetFrames Sys2Proof.Proofs.SetLoading
open Sys2Proof.Proofs.StackRows Sys2Proof.Proofs.MemoryLines Sys2Proof.Proofs.StackReads Sys2Proof.Proofs.HostReads

/-! ## Lines of a copy -/

theorem obj_put (k : Core) (h : Nat) (v : Obj) (m : Nat) : obj { k with objs := mput k.objs h v } m = if m = h then v else obj k m := by
  by_cases same : m = h
  · subst same
    simp [obj]
  · rw [obj, mget_mput_ne _ _ _ same, if_neg same]
    rfl

theorem modObj_eq_put {k : Core} {h : Nat} {f : Obj → Obj} {v : Obj} (same : f (obj k h) = v) : modObj k h f = { k with objs := mput k.objs h v } := by
  rw [modObj, mmod, ← same, obj]

theorem copyLine_addr (o : Obj) (l : Nat) : o.addr / 64 + l = o.copy * 1024 + l := by
  rw [Obj.addr]
  omega

/-- A line written into a copy: the line, its poison, and nothing but device memory. -/
theorem putCopyLine_eq (k : Core) (h l : Nat) (v : Line) (bad : Bool) :
    putCopyLine k h l v bad = { k with dram := k.dram.putLine 0 ((obj k h).copy * 1024 + l) v bad } := by
  rw [putCopyLine, copyLine_addr]

/-! ## Fetches (R323, R349) -/

theorem upFrom_snoc (lo n : Nat) : upFrom lo (n + 1) = upFrom lo n ++ [lo + n] := by
  induction n generalizing lo with
  | zero => rfl
  | succ n ih => rw [upFrom, ih, upFrom, List.cons_append, show lo + 1 + n = lo + (n + 1) by omega]

/-- Where the flash holds line l of an object. -/
def heldLine (k : Core) (h l : Nat) : Nat := flsLineOf k (obj k h).dom ((obj k h).haddr + l)

/-- The first n lines of a FLASH object that its flash can supply are copied. -/
theorem copyFlash_lines (k : Core) (h n : Nat) (whole : ∀ l, l < n → k.flash.lineBad (heldLine k h l) = false) :
    let r := (upFrom 0 n).foldl (fun (r : Core × List Nat) l =>
      if k.flash.lineBad (heldLine k h l) then (r.1, r.2 ++ [l]) else (putCopyLine r.1 h l (k.flash.line 0xFF (heldLine k h l)) false, r.2)) (k, [])
    r.2 = [] ∧ r.1 = { k with dram := r.1.dram } ∧
      ∀ l, l < n → r.1.dram.line 0 ((obj k h).copy * 1024 + l) = k.flash.line 0xFF (heldLine k h l) := by
  induction n with
  | zero => exact ⟨rfl, rfl, fun l below => absurd below (Nat.not_lt_zero l)⟩
  | succ n ih =>
    obtain ⟨none, frame, lines⟩ := ih fun l below => whole l (by omega)
    rw [upFrom_snoc]
    simp only [List.foldl_append, List.foldl_cons, List.foldl_nil, Nat.zero_add, whole n (by omega), none, if_neg Bool.false_ne_true]
    generalize (List.foldl _ _ _ : Core × List Nat).1 = t at frame lines
    have same : obj t h = obj k h := obj_of_objs (by rw [frame]) h
    refine ⟨trivial, ?_, fun l below => ?_⟩
    · rw [putCopyLine_eq, frame]
    · rw [putCopyLine_eq, same]
      by_cases last : l = n
      · rw [last, line_putLine_same]
      · rw [line_putLine_ne _ _ _ _ (by omega), lines l (by omega)]

theorem copyFlash_whole {k : Core} {h : Nat} (whole : ∀ l, l < cdiv (obj k h).stored 64 → k.flash.lineBad (heldLine k h l) = false) :
    (copyFlash k h).2 = [] ∧ (copyFlash k h).1 = { k with dram := (copyFlash k h).1.dram } ∧
      ∀ l, l < cdiv (obj k h).stored 64 → (copyFlash k h).1.dram.line 0 ((obj k h).copy * 1024 + l) = k.flash.line 0xFF (heldLine k h l) :=
  copyFlash_lines k h _ whole

/-- Taking away every instruction of a kind, one after the other, leaves none of it. -/
theorem not_mem_eraseAll {α : Type} [DecidableEq α] (p : α → Bool) (l : List α) {x : α} (mem : x ∈ (l.filter p).foldl List.erase l) : p x = false := by
  rw [← List.diff_eq_foldl] at mem
  by_contra kind
  have count := List.count_diff x l (l.filter p)
  rw [List.count_filter (by simpa using kind), Nat.sub_self] at count
  exact (List.count_pos_iff.mpr mem).ne' count

/-- A promotion that waited retires, with its pin. -/
def promotionEnds (h : Nat) (k : Core) (f : Flt) : Core :=
  let k' := if f.ins.fa 24 24 = 1 then modObj k h (fun o => { o with hostPins := min 65535 (o.hostPins + 1) }) else k
  retireFlt k' f 0 0 (copyPayload (obj k' h))

theorem obj_retireFlt (k : Core) (f : Flt) (r a : Nat) (p : List Byte) (m : Nat) : obj (retireFlt k f r a p) m = obj k m := obj_of_objs (by simp) m

theorem promotionEnds_facts (h : Nat) (k : Core) (f : Flt) :
    let t := promotionEnds h k f
    (obj t h).st = (obj k h).st ∧ (obj t h).copy = (obj k h).copy ∧ (∀ m, m ≠ h → obj t m = obj k m) ∧ t.msets = k.msets ∧ t.dram = k.dram ∧
      t.flts = k.flts.erase f := by
  simp only [promotionEnds]
  split
  · next pins =>
    have objs (m : Nat) : obj (retireFlt (modObj k h fun o => { o with hostPins := min 65535 (o.hostPins + 1) }) f 0 0
        (copyPayload (obj (modObj k h fun o => { o with hostPins := min 65535 (o.hostPins + 1) }) h))) m =
        if m = h then { obj k h with hostPins := min 65535 ((obj k h).hostPins + 1) } else obj k m :=
      (obj_retireFlt ..).trans (obj_modObj ..)
    refine ⟨by rw [objs, if_pos rfl], by rw [objs, if_pos rfl], fun m other => by rw [objs, if_neg other], by simp, by simp, by simp [retireFlt]⟩
  · have objs (m : Nat) : obj (retireFlt k f 0 0 (copyPayload (obj k h))) m = obj k m := obj_retireFlt ..
    exact ⟨by rw [objs], by rw [objs], fun m _ => objs m, by simp, by simp, by simp [retireFlt]⟩

/-- A copy that is complete: its object alone changes, and every promotion of it has retired. -/
theorem finishFetch_facts {k : Core} {h : Nat} (sets : ∀ e ∈ k.msets, e.2.st ≠ .loading) :
    let t := finishFetch k h
    (obj t h).st = .complete ∧ (obj t h).copy = (obj k h).copy ∧ (∀ m, m ≠ h → obj t m = obj k m) ∧
      (∀ f ∈ t.flts, ¬ (f.ins.cls = 4 ∧ f.ins.op = 0x01 ∧ f.key = h)) ∧ t.dram = k.dram := by
  generalize start : modObj k h (fun o => { o.settled with st := .complete }) = k1
  generalize kind : (fun f : Flt => decide (f.ins.cls = 4) && decide (f.ins.op = 0x01) && f.key == h) = p
  have own : obj k1 h = { (obj k h).settled with st := .complete } := by rw [← start, obj_modObj, if_pos rfl]
  have others (m : Nat) (other : m ≠ h) : obj k1 m = obj k m := by rw [← start, obj_modObj, if_neg other]
  have same : k1.msets = k.msets ∧ k1.dram = k.dram ∧ k1.flts = k.flts := by rw [← start]; exact ⟨rfl, rfl, rfl⟩
  obtain ⟨sets1, dram1, flts1⟩ := same
  generalize ends : (k1.flts.filter p).foldl (promotionEnds h) k1 = t
  have facts : (obj t h).st = (obj k1 h).st ∧ (obj t h).copy = (obj k1 h).copy ∧ (∀ m, m ≠ h → obj t m = obj k1 m) ∧ t.msets = k1.msets ∧
      t.dram = k1.dram := by
    rw [← ends]
    refine List.foldlRecOn (motive := fun t : Core => (obj t h).st = (obj k1 h).st ∧ (obj t h).copy = (obj k1 h).copy ∧
      (∀ m, m ≠ h → obj t m = obj k1 m) ∧ t.msets = k1.msets ∧ t.dram = k1.dram) _ _ ⟨rfl, rfl, fun _ _ => rfl, rfl, rfl⟩ fun t kept f _ => ?_
    obtain ⟨st, copy, objs, sets, dram⟩ := kept
    obtain ⟨st', copy', objs', sets', dram', -⟩ := promotionEnds_facts h t f
    exact ⟨st'.trans st, copy'.trans copy, fun m other => (objs' m other).trans (objs m other), sets'.trans sets, dram'.trans dram⟩
  obtain ⟨st, copy, objs, sets', dram⟩ := facts
  have flts : t.flts = (k1.flts.filter p).foldl List.erase k1.flts := by
    rw [← ends]
    exact (List.foldl_hom Core.flts fun k f => (promotionEnds_facts h k f).2.2.2.2.2.symm).symm
  have whole : finishFetch k h = t := by
    have : finishFetch k h = loadsGoOn t := by rw [← ends, ← kind, ← start]; rfl
    rw [this, loadsGoOn_of_none (by rw [sets', sets1]; exact sets)]
  dsimp only
  rw [whole]
  refine ⟨by rw [st, own], by rw [copy, own]; rfl, fun m other => by rw [objs m other, others m other], fun f mem waits => ?_, dram.trans dram1⟩
  rw [flts] at mem
  have none := not_mem_eraseAll p k1.flts mem
  simp [← kind, waits] at none

/-- A fetch whose blocks pass the check stage is complete (R349). -/
theorem checkFetch_good {k : Core} {h : Nat} (good : (obj k h).pack = 0 ∨ badBlocks k h = []) : checkFetch k h = finishFetch k h := by
  have none : (if (obj k h).pack = 0 then [] else badBlocks k h) = [] := by
    rcases good with plain | checked
    · exact if_pos plain
    · rw [checked, ite_self]
  simp only [checkFetch, none]
  rfl

/-! ## Recovered lines (R326, R327) -/

/-- A line supplied is written over the damaged one; what waits goes on once none is left. -/
theorem lineSupplied_facts {k : Core} {h l src : Nat} {v : Line}
    (rest : mdel (obj k h).recov l ≠ [] ∨
      (obj k h).st = .complete ∧ (∀ e ∈ k.msets, e.2.st ≠ .loading) ∧ (∀ e ∈ k.objs, e.2.wants = false)) (still : (obj k h).wants = false) :
    let t := lineSupplied k h l src v
    t = { k with objs := t.objs, dram := t.dram } ∧
      obj t h = { obj k h with recov := mdel (obj k h).recov l, from_ := mset 1 (obj k h).from_ l src } ∧ (∀ m, m ≠ h → obj t m = obj k m) ∧
      t.dram.line 0 ((obj k h).copy * 1024 + l) = v ∧ t.dram.lineBad ((obj k h).copy * 1024 + l) = false := by
  generalize mended : ({ obj k h with recov := mdel (obj k h).recov l, from_ := mset 1 (obj k h).from_ l src } : Obj) = o
  generalize written : modObj (putCopyLine k h l v false) h (fun o => { o with recov := mdel o.recov l, from_ := mset 1 o.from_ l src }) = k1
  have eq : k1 = { k with dram := k.dram.putLine 0 ((obj k h).copy * 1024 + l) v false, objs := mput k.objs h o } := by
    rw [← written, putCopyLine_eq]
    exact modObj_eq_put mended
  have own : obj k1 h = o := by rw [eq]; exact (obj_put k h o h).trans (if_pos rfl)
  have none : lineSupplied k h l src v = k1 := by
    simp only [lineSupplied, written, own]
    rcases rest with more | ⟨complete, sets, wants⟩
    · rw [if_pos (by simpa [← mended] using more)]
    · split
      · rfl
      · rw [if_neg (by simp [← mended, complete]), loadsGoOn_of_none (by rw [eq]; exact sets), retryWants_of_none]
        intro e mem
        rw [eq] at mem
        rcases mem_mput mem with same | mem
        · rw [same, ← mended, still]
        · exact wants e mem
  dsimp only
  rw [none]
  refine ⟨by rw [eq], own, fun m other => ?_, by rw [eq, line_putLine_same], by rw [eq, lineBad_putLine_same]⟩
  rw [eq]
  exact (obj_put k h o m).trans (if_neg other)

/-- The granules written back: no object changes, and no instruction ends. -/
theorem writeGranules_flts (k : Core) (h : Nat) (l : List Nat) : (writeGranules k h l).flts = k.flts := by
  refine foldl_fixes (g := Core.flts) (fun k g => ?_) l k
  simp only [writeGranule]
  split <;> simp

theorem objFlt_of_flts {k t : Core} (same : t.flts = k.flts) (op h : Nat) : objFlt t op h = objFlt k op h := by
  rw [objFlt, objFlt, findFlt, findFlt, same]

/-! ## The obligation -/

theorem fetchComplete_idle {k : Core} {h : Nat} (idle : (obj k h).alloc = false ∨ (obj k h).st ≠ .fetching ∨ (obj k h).recov ≠ [] ∨
    (obj k h).home ≠ 1 ∧ readPending k (fun r => r.obj == some h) = true) : fetchComplete k h = k := by
  simp only [fetchComplete, fetchWritten]
  rcases idle with free | done | mends | ⟨home, asked⟩
  · simp [free]
  · simp [done]
  · simp [mends]
  · simp [home, asked]

/-- The state once the lines of a fetch are in the copy: a host home's came with its reads. -/
def fetchCopied (k : Core) (h : Nat) : Core :=
  if (obj k h).home = 1 then { (copyFlash k h).1 with objs := mput (copyFlash k h).1.objs h { obj k h with fetched := cdiv (obj k h).stored 64 } } else k

/-- Every line of a fetch can be stored. -/
def Supplied (k : Core) (h : Nat) : Prop :=
  (obj k h).home ≠ 1 ∧ readPending k (fun r => r.obj == some h) = false ∨
    (obj k h).home = 1 ∧ ∀ l, l < cdiv (obj k h).stored 64 → k.flash.lineBad (heldLine k h l) = false

/-- A fetch that has all its lines ends as its copy's check says (R323, R349). -/
theorem fetchComplete_whole {k : Core} {h : Nat} (alloc : (obj k h).alloc = true) (fetching : (obj k h).st = .fetching) (mended : (obj k h).recov = [])
    (there : Supplied k h) : fetchComplete k h = checkFetch (fetchCopied k h) h := by
  have goes : (!((obj k h).alloc && (obj k h).st == .fetching) || !(obj k h).recov.isEmpty) = false := by simp [alloc, fetching, mended]
  simp only [fetchComplete, goes, fetchCopied]
  rcases there with ⟨host, asked⟩ | ⟨flash, whole⟩
  · simp [host, asked, fetchWritten]
  · obtain ⟨none, frame, -⟩ := copyFlash_whole whole
    have same : obj (copyFlash k h).1 h = obj k h := obj_of_objs (by rw [frame]) h
    have put := modObj_eq_put (k := (copyFlash k h).1) (h := h) (f := fun o => { o with fetched := cdiv o.stored 64 })
      (v := { obj k h with fetched := cdiv (obj k h).stored 64 }) (by rw [same])
    rw [if_pos flash, if_pos flash, none, put]
    rfl

theorem fetchCopied_facts {k : Core} {h : Nat} (there : Supplied k h) :
    let t := fetchCopied k h
    (obj t h).pack = (obj k h).pack ∧ (obj t h).copy = (obj k h).copy ∧ (∀ m, m ≠ h → obj t m = obj k m) ∧ t.msets = k.msets ∧
      ((obj k h).home ≠ 1 → t.dram = k.dram) ∧ ((obj k h).home = 1 → ∀ l, l < cdiv (obj k h).stored 64 →
        t.dram.line 0 ((obj k h).copy * 1024 + l) = k.flash.line 0xFF (heldLine k h l)) := by
  rcases there with ⟨host, -⟩ | ⟨flash, whole⟩
  · simp [fetchCopied, host]
  · obtain ⟨-, frame, lines⟩ := copyFlash_whole whole
    have objs := obj_put (copyFlash k h).1 h { obj k h with fetched := cdiv (obj k h).stored 64 }
    have same (m : Nat) : obj (copyFlash k h).1 m = obj k m := obj_of_objs (by rw [frame]) m
    rw [fetchCopied, if_pos flash]
    refine ⟨by rw [objs, if_pos rfl], by rw [objs, if_pos rfl], fun m other => by rw [objs, if_neg other, same], ?_, fun host => absurd flash host, fun _ => lines⟩
    rw [frame]

/-- Settles O45: each end of work, from what it does to the object and to the lines of its copy. -/
theorem objectWorkEnds : Obligations.ObjectWorkEnds := by
  unfold Obligations.ObjectWorkEnds
  intro s n up
  have run (f : Core → Core) : onCore s (whenAlive f) = .next (s.finish (f s.core)) := onCore_whenAlive f up
  have zero : exec (.dramZeroComplete n) s = .next (s.finish (dramZeroComplete s.core n.toNat)) := run _
  have fetch : exec (.fetchComplete n) s = .next (s.finish (fetchComplete s.core n.toNat)) := run _
  have evict : exec (.evictionComplete n) s = .next (s.finish (evictionComplete s.core n.toNat)) := run _
  have clean : exec (.objCleanComplete n) s = .next (s.finish (objCleanComplete s.core n.toNat)) := run _
  have line (l : Nat) (v : Option Line) : exec (.recoveryLineDone n l v) s = .next (s.finish (recoveryLineDone s.core n.toNat l v)) := run _
  simp only [zero, fetch, evict, clean, line]
  generalize s.core = k
  generalize n.toNat = h
  refine ⟨fun idle => ?_, fun zeroing => ?_, fun idle => ?_, fun alloc fetching mended good sets there => ?_, fun idle => ?_,
    fun alloc evicting lands => ?_, fun idle => ?_, fun f waits lands => ?_, fun l data idle => ?_, fun l src v damaged from_ rest still => ?_,
    fun l src nxt damaged other found next => ?_, fun l src damaged other none alloc found sets wants => ?_⟩
  · simp [dramZeroComplete, idle]
  · simp only [dramZeroComplete, zeroing, if_true]
    rw [modObj_eq_put rfl]
  · rw [fetchComplete_idle idle]
  · have whole := fetchComplete_whole alloc fetching mended there
    obtain ⟨pack, copy, objs, sets1, host, flash⟩ := fetchCopied_facts there
    obtain ⟨st, copy', objs', none, dram⟩ := finishFetch_facts (k := fetchCopied k h) (h := h) (by rw [sets1]; exact sets)
    rw [checkFetch_good (by rw [pack]; exact good)] at whole
    exact ⟨_, by rw [whole], st, copy'.trans copy, fun m other => (objs' m other).trans (objs m other), none, fun home => dram.trans (host home),
      fun home l below => by rw [dram]; exact flash home l below⟩
  · simp only [evictionComplete]
    rcases idle with free | done | blocked
    · simp [free]
    · simp [done]
    · simp [blocked]
  · simp only [evictionComplete, evictNow]
    rw [if_pos (by simp [alloc, evicting, lands]), modObj_eq_put (k := writeGranules k h (obj k h).dirty) (h := h)
      (v := { obj k h with st := .absent, dirty := [], cleaning := [], redirty := [] }) (by rw [obj_of_objs (writeGranules_objs _ _ _)])]
  · simp only [objCleanComplete]
    rcases idle with none | blocked
    · simp [none]
    · simp only [blocked]
      split <;> rfl
  · have put := modObj_eq_put (k := writeGranules k h (obj k h).cleaning) (h := h) (f := fun o => { o with
        dirty := (o.dirty.filter (fun g => !o.cleaning.contains g || o.redirty.contains g)), cleaning := [], redirty := [] })
      (by rw [obj_of_objs (writeGranules_objs _ _ _)])
    simp only [objCleanComplete, waits, lands, if_true, put]
    rw [objFlt_of_flts (k := { k with flts := k.flts.erase f }) (by simp [retireFlt, writeGranules_flts])]
  · simp only [recoveryLineDone]
    rcases idle with none | ⟨host, home⟩
    · simp [none]
    · simp [host, home]
  · have supplied := lineSupplied_facts (src := src) (v := if src = 1 then k.flash.line 0xFF (heldLine k h l) else v) rest still
    refine ⟨_, ?_, supplied⟩
    simp only [recoveryLineDone, damaged]
    by_cases own : src = 1
    · obtain ⟨home, whole⟩ := from_ own
      have good : k.flash.lineBad (heldLine k h l) = false := whole
      rw [heldLine] at good ⊢
      simp [own, home, good]
    · simp [own]
  · have fails : sourceFailed k h src [l] = { k with objs := mput k.objs h { obj k h with recov := mput (obj k h).recov l nxt } } := by
      rw [sourceFailed, if_neg (by simp [found]), next]
      exact modObj_eq_put rfl
    refine ⟨?_, fun own bad v => ?_⟩
    · simp only [recoveryLineDone, damaged, if_neg other, fails]
    · simp only [recoveryLineDone, damaged, if_neg other]
      rw [if_neg (not_not_intro own), if_pos bad, fails]
  · obtain ⟨objs, -, serial⟩ := markLost_alone alloc found sets wants
    refine ⟨markLost k h, ?_, ?_, ?_, serial, fun m away => ?_⟩
    · simp only [recoveryLineDone, damaged, if_neg other, sourceFailed, found, none]
      rfl
    · rw [obj, objs, mget_mput_same, lostObj]
      split <;> rfl
    · rw [obj, objs, mget_mput_same, lostObj]
      split <;> rfl
    · rw [obj, objs, mget_mput_ne _ _ _ away]
      rfl

end Sys2Proof.Proofs.ObjectEnds
end

section
/-! PROOFS. The events of a step boundary (R262, R265, R288 to R291, R295, R300, R301). -/

namespace Sys2Proof.Proofs.StepBoundary
open Sys2Proof.Machine Sys2Proof.Laws Sys2Proof.Proofs.Reads Sys2Proof.Proofs.ResetFrames Sys2Proof.Proofs.StackReads
open Sys2Proof.Proofs.ObjectEnds Sys2Proof.Proofs.StackRows Sys2Proof.Proofs.SetLoading Sys2Proof.Proofs.PowerLaws

/-! ## What the first three events of a boundary leave -/

/-- The state of the device, the step each domain runs and its number stay, and no instruction begins to wait. -/
structure EventKept (k t : Core) : Prop where
  state : t.glb = k.glb ∧ t.pst = k.pst
  doms : ∀ e, (dom t e).running = (dom k e).running ∧ (dom t e).stepNo = (dom k e).stepNo
  flts : ∀ f ∈ t.flts, f ∈ k.flts

/-- What the domain of a waiting instruction is read from stays too. -/
structure WaitsKept (k t : Core) : Prop extends EventKept k t where
  ctxs : t.ctxs = k.ctxs
  accts : ∀ n, (acct t n).ctx = (acct k n).ctx
  seqs : ∀ n, (seq t n).acct = (seq k n).acct
  sets : ∀ n, (mset' t n).dom = (mset' k n).dom

theorem EventKept.after {k t u : Core} (last : EventKept t u) (first : EventKept k t) : EventKept k u where
  state := ⟨last.state.1.trans first.state.1, last.state.2.trans first.state.2⟩
  doms e := ⟨(last.doms e).1.trans (first.doms e).1, (last.doms e).2.trans (first.doms e).2⟩
  flts f mem := first.flts f (last.flts f mem)

theorem WaitsKept.after {k t u : Core} (last : WaitsKept t u) (first : WaitsKept k t) : WaitsKept k u where
  toEventKept := last.toEventKept.after first.toEventKept
  ctxs := last.ctxs.trans first.ctxs
  accts n := (last.accts n).trans (first.accts n)
  seqs n := (last.seqs n).trans (first.seqs n)
  sets n := (last.sets n).trans (first.sets n)

/-- The parts of the core that the events read. -/
@[simp] abbrev EventParts (k t : Core) : Prop :=
  t.glb = k.glb ∧ t.pst = k.pst ∧ t.doms = k.doms ∧ t.flts = k.flts ∧ t.ctxs = k.ctxs ∧ t.accts = k.accts ∧ t.seqs = k.seqs ∧ t.msets = k.msets

theorem waitsKept_of_parts {k t : Core} (same : EventParts k t) : WaitsKept k t := by
  obtain ⟨glb, pst, doms, flts, ctxs, accts, seqs, msets⟩ := same
  exact {
    state := ⟨glb, pst⟩
    doms := fun e => by simp [dom, doms]
    flts := fun f mem => flts ▸ mem
    ctxs, accts := fun n => by simp [acct, accts]
    seqs := fun n => by simp [seq, seqs]
    sets := fun n => by simp [mset', msets] }

theorem WaitsKept.refl (k : Core) : WaitsKept k k := waitsKept_of_parts (by simp)

theorem EventKept.foldl {α : Type} {f : Core → α → Core} (hf : ∀ k x, EventKept k (f k x)) (l : List α) (k : Core) : EventKept k (l.foldl f k) :=
  List.foldlRecOn (motive := EventKept k) l f (WaitsKept.refl k).toEventKept fun t kept x _ => (hf t x).after kept

theorem WaitsKept.foldl {α : Type} {f : Core → α → Core} (hf : ∀ k x, WaitsKept k (f k x)) (l : List α) (k : Core) : WaitsKept k (l.foldl f k) :=
  List.foldlRecOn (motive := WaitsKept k) l f (WaitsKept.refl k) fun t kept x _ => (hf t x).after kept

theorem WaitsKept.parts {k t u : Core} (first : WaitsKept k t) (same : EventParts t u) : WaitsKept k u := (waitsKept_of_parts same).after first

theorem modSeq_waitsKept (k : Core) (s : Nat) {f : Machine.Seq → Machine.Seq} (keeps : ∀ q, (f q).acct = q.acct) : WaitsKept k (modSeq k s f) := by
  refine { state := ⟨rfl, rfl⟩, doms := fun _ => ⟨rfl, rfl⟩, flts := fun f mem => mem, ctxs := rfl, accts := fun _ => rfl, seqs := fun n => ?_, sets := fun _ => rfl }
  rw [seq_modSeq]
  split
  · next same => rw [keeps, same]
  · rfl

theorem WaitsKept.modSeq {k t : Core} (first : WaitsKept k t) {s : Nat} {f : Machine.Seq → Machine.Seq} (keeps : ∀ q, (f q).acct = q.acct) :
    WaitsKept k (modSeq t s f) := (modSeq_waitsKept t s keeps).after first

theorem modMset_waitsKept (k : Core) (m : Nat) {f : MSet → MSet} (keeps : ∀ q, (f q).dom = q.dom) : WaitsKept k (modMset k m f) := by
  refine { state := ⟨rfl, rfl⟩, doms := fun _ => ⟨rfl, rfl⟩, flts := fun f mem => mem, ctxs := rfl, accts := fun _ => rfl, seqs := fun _ => rfl, sets := fun n => ?_ }
  rw [mset_modMset]
  split
  · next same => rw [keeps, same]
  · rfl

theorem modAcct_waitsKept (k : Core) (a : Nat) {f : Acct → Acct} (keeps : ∀ q, (f q).ctx = q.ctx) : WaitsKept k (modAcct k a f) := by
  refine { state := ⟨rfl, rfl⟩, doms := fun _ => ⟨rfl, rfl⟩, flts := fun f mem => mem, ctxs := rfl, accts := fun n => ?_, seqs := fun _ => rfl, sets := fun _ => rfl }
  rw [acct, modAcct, mget_mmod]
  split
  · next same => rw [keeps, same]; rfl
  · rfl

theorem retireFlt_waitsKept (k : Core) (f : Flt) (r a : Nat) (p : List Byte) : WaitsKept k (retireFlt k f r a p) := by
  refine { state := by simp, doms := fun e => by simp [dom], flts := fun g mem => ?_, ctxs := by simp, accts := fun n => by simp [acct],
           seqs := fun n => by simp [seq], sets := fun n => by simp [mset'] }
  have flts : (retireFlt k f r a p).flts = k.flts.erase f := by simp [retireFlt]
  exact List.mem_of_mem_erase (flts ▸ mem)

/-! ### Sequences that fail and records that are delivered -/

theorem endPause_waitsKept (k : Core) (s reason arg : Nat) : WaitsKept k (endPause k s reason arg) := by
  have ends : WaitsKept k (modSeq k s fun q => { q with pausePending := false }) := modSeq_waitsKept k s fun _ => rfl
  simp only [endPause]
  split
  · exact (retireFlt_waitsKept ..).after ends
  · exact ends

theorem mirrorSend_waitsKept (k : Core) (kind : Nat) (tag : W64) (body : List Byte) (l : List Line) : WaitsKept k (mirrorSend k kind tag body l) := by
  simp only [mirrorSend, mirrorLines, sendOn]
  refine waitsKept_of_parts ?_
  split <;> [split; skip] <;> simp

theorem ringCommit_waitsKept (k : Core) (s r : Nat) (l : List Byte) : WaitsKept k (ringCommit k s r l) := by
  simp only [ringCommit]
  split
  · exact (mirrorSend_waitsKept ..).after (waitsKept_of_parts (by simp))
  · exact waitsKept_of_parts (by simp)

theorem commit_waitsKept (k : Core) (s : Nat) (d : Deliv) : WaitsKept k (commit k s d) := by
  have written := ringCommit_waitsKept k s (seq k s).ring (recordOf (seq k s) d)
  simp only [commit]
  split
  · have counted := written.modSeq (s := s) (f := fun q => { q with delivered := q.delivered + 1, generated := q.generated + 1 }) fun _ => rfl
    split <;> [split; skip]
    · exact (endPause_waitsKept ..).after (counted.modSeq fun _ => rfl)
    · exact counted.modSeq fun _ => rfl
    · exact counted.modSeq fun _ => rfl
  · split
    · exact (waitsKept_of_parts (by simp)).after written
    · exact written
  · exact written

theorem deliver_waitsKept (k : Core) (s : Nat) (d : Deliv) : WaitsKept k (deliver k s d) := by
  simp only [deliver]
  generalize (if seqMirrored k s = true then { d with msn := some k.fab.twin.msn } else d : Deliv) = e
  generalize sent : (if seqMirrored k s = true then mirrorSend _ _ _ _ _ else k : Core) = k1
  have mirrored : WaitsKept k k1 := by
    rw [← sent]
    split
    · exact mirrorSend_waitsKept ..
    · exact .refl k
  split
  · exact (commit_waitsKept ..).after mirrored
  · exact mirrored.modSeq fun _ => rfl

theorem releasePrompt_waitsKept (k : Core) (s : Nat) : WaitsKept k (releasePrompt k s) := by
  simp only [releasePrompt, abandonPrompt]
  refine WaitsKept.modSeq (waitsKept_of_parts ?_) fun _ => rfl
  split <;> simp [dropPin, modObj]

theorem failSeq_waitsKept (k : Core) (s reason : Nat) : WaitsKept k (failSeq k s reason) := by
  simp only [failSeq]
  have released : WaitsKept k (releasePrompt (modSeq k s fun q =>
      { q with st := .failed, waiting := q.waiting.map fun d => { d with plain := true } }) s) :=
    (releasePrompt_waitsKept _ _).after (modSeq_waitsKept k s fun _ => rfl)
  split <;> [skip; split]
  · exact .refl k
  · exact (deliver_waitsKept ..).after ((endPause_waitsKept ..).after released)
  · exact (deliver_waitsKept ..).after released

theorem deliverStep_waitsKept (k : Core) (d : Nat) (u : UStep) : WaitsKept k (deliverStep k d u) := by
  simp only [deliverStep]
  refine (WaitsKept.foldl (fun k x => ?_) _ _).after ((WaitsKept.foldl (fun k p => ?_) _ _).after (WaitsKept.foldl (fun k p => ?_) _ _))
  · simp only [deliverEntry]
    split <;> [skip; (split <;> [skip; split])]
    · exact .refl k
    · exact failSeq_waitsKept ..
    · exact failSeq_waitsKept ..
    · exact deliver_waitsKept ..
  · simp only [advancePrompt]
    split
    · exact .refl k
    · exact modSeq_waitsKept _ _ fun _ => rfl
  · split
    · exact failSeq_waitsKept ..
    · exact .refl k

/-! ### Page lists that are published -/

theorem unref_waitsKept (k : Core) (d p page : Nat) : WaitsKept k (unref k d p page) := by
  simp only [unref, modHdr]
  refine waitsKept_of_parts ?_
  split <;> [skip; (split <;> [skip; split])] <;> simp [modPool]

theorem openIndex_waitsKept (k : Core) (s x : Nat) : WaitsKept k (openIndex k s x) := by
  simp only [openIndex, takeFrame, drawNat]
  split
  · exact .refl k
  · exact WaitsKept.modSeq (waitsKept_of_parts (by simp)) fun _ => rfl

theorem openSegment_waitsKept (k : Core) (s g : Nat) : WaitsKept k (Machine.openSegment k s g) := by
  have opened := openIndex_waitsKept k s (g / 1024)
  simp only [Machine.openSegment, takeFrame, drawNat]
  split
  · exact opened
  · exact (opened.parts (by simp)).modSeq fun _ => rfl

theorem putEntry_waitsKept (k : Core) (s e : Nat) (v : W64) : WaitsKept k (putEntry k s e v) := by
  simp only [putEntry]
  exact ((openSegment_waitsKept _ _ _).after (waitsKept_of_parts (by simp [sysTake]))).modSeq fun _ => rfl

theorem shadowSwitch_waitsKept (k : Core) (s lo hi : Nat) : WaitsKept k (shadowSwitch k s lo hi) := by
  simp only [shadowSwitch]
  refine (WaitsKept.foldl (fun k g => openSegment_waitsKept k s g) _ _).after ((WaitsKept.foldl (fun k x => openIndex_waitsKept k s x) _ _).after ?_)
  exact modSeq_waitsKept _ _ fun _ => rfl

theorem retireEdit_waitsKept (k : Core) (d : Edit) (reason arg : Nat) : WaitsKept k (retireEdit k d reason arg) := by
  unfold retireEdit
  split <;> [skip; split]
  · exact .refl k
  · exact retireFlt_waitsKept ..
  · exact .refl k

theorem publishEdit_waitsKept (k : Core) (d : Edit) : WaitsKept k (publishEdit k d) := by
  simp only [publishEdit]
  generalize start : (if d.ins.isSome = true then shadowSwitch _ _ _ _ else _ : Core) = k1
  have first : WaitsKept k k1 := by
    rw [← start]
    split
    · exact (shadowSwitch_waitsKept ..).after (waitsKept_of_parts (by simp [sysGive]))
    · exact waitsKept_of_parts (by simp)
  generalize switched : (if d.share = true then _ else _ : Core) = k2
  have second : WaitsKept k1 k2 := by
    rw [← switched]
    split
    · exact WaitsKept.foldl (fun k e => putEntry_waitsKept ..) _ _
    · refine WaitsKept.modSeq (WaitsKept.foldl (fun k e => ?_) _ _) fun _ => rfl
      split
      · exact unref_waitsKept ..
      · exact .refl k
  split
  · exact (retireEdit_waitsKept ..).after (second.after first)
  · simp only [freeLists]
    refine WaitsKept.modSeq ((WaitsKept.foldl (fun k c => unref_waitsKept ..) _ _).after ?_) fun _ => rfl
    exact (second.after first).parts (by simp [sysGive])

theorem remapCopies_waitsKept (k : Core) (d s : Nat) : WaitsKept k (remapCopies k d s) := by
  simp only [remapCopies]
  split
  · exact .refl k
  · refine WaitsKept.modSeq (WaitsKept.foldl (fun k c => ?_) _ _) fun _ => rfl
    split
    · exact (unref_waitsKept ..).after (putEntry_waitsKept ..)
    · exact unref_waitsKept ..

theorem returnPages_waitsKept (k : Core) (d n : Nat) : WaitsKept k (returnPages k d n) := by
  refine WaitsKept.foldl (fun k p => waitsKept_of_parts ?_) _ k
  dsimp only
  split <;> simp

theorem event2_waitsKept (k : Core) (d : Nat) : WaitsKept k (event2 k d) := by
  have published : WaitsKept k (publishAll ((domSeqs k d).foldl (fun k s => remapCopies k d s) k) d) :=
    (WaitsKept.foldl publishEdit_waitsKept _ _).after (WaitsKept.foldl (fun k s => remapCopies_waitsKept k d s) _ _)
  simp only [event2]
  split
  · exact (returnPages_waitsKept ..).after published
  · exact published

/-! ### Changes that take effect (R300) -/

theorem fltDom_of_waitsKept {k t : Core} (kept : WaitsKept k t) (f : Flt) : fltDom t f = fltDom k f := by
  simp only [fltDom, seqDom, seqCtx, domOfCtx, ctx, kept.ctxs, kept.accts, kept.seqs, kept.sets]

/-- What an event leaves, and that it takes away an instruction that waited. -/
structure Retires (k t : Core) (f : Flt) : Prop extends WaitsKept k t where
  retired : t.flts = k.flts.erase f

theorem retires_of_kept {k t : Core} (kept : WaitsKept k t) (same : t.flts = k.flts) (f : Flt) (r a : Nat) (p : List Byte) :
    Retires k (retireFlt t f r a p) f where
  toWaitsKept := (retireFlt_waitsKept ..).after kept
  retired := by simp [retireFlt, same]

theorem modDom_waitsKept (k : Core) (d : Nat) {f : Dom → Dom} (running : ∀ q, (f q).running = q.running ∧ (f q).stepNo = q.stepNo) :
    WaitsKept k (modDom k d f) := by
  refine { state := ⟨rfl, rfl⟩, doms := fun e => ?_, flts := fun f mem => mem, ctxs := rfl, accts := fun _ => rfl, seqs := fun _ => rfl, sets := fun _ => rfl }
  rw [dom_modDom]
  split
  · next same => rw [(running _).1, (running _).2, same]; exact ⟨rfl, rfl⟩
  · exact ⟨rfl, rfl⟩

/-- A SEQ.STOP, SEQ.PRIO, ACCT.SET or PWR.STEP_TARGET that waited retires; a change of a model set waits on. -/
theorem applyFlt_waits {k : Core} {f : Flt} {d : Nat} (waits : fltDom k f = some d) :
    (f.ins.cls ≠ 3 → Retires k (applyFlt k f) f) ∧ (f.ins.cls = 3 → applyFlt k f = k) := by
  have kinds : f.ins.cls = 1 ∨ f.ins.cls = 2 ∨ f.ins.cls = 3 ∨ f.ins.cls = 0xB := by
    by_contra none
    simp only [not_or] at none
    simp [fltDom, none] at waits
  refine ⟨fun change => ?_, fun set => by simp [applyFlt, set]⟩
  rcases kinds with seq | acct | set | target
  · rw [applyFlt, if_pos seq]
    simp only [seqApply]
    refine retires_of_kept ?_ (by split <;> rfl) ..
    split
    · exact modSeq_waitsKept _ _ fun _ => rfl
    · exact modSeq_waitsKept _ _ fun _ => rfl
  · have apply : applyFlt k f = acctApply k f := by simp [applyFlt, acct]
    rw [apply, acctApply]
    refine retires_of_kept ?_ (by rfl) ..
    exact modAcct_waitsKept _ _ fun _ => rfl
  · exact absurd set change
  · have apply : applyFlt k f = targetApply k f := by simp [applyFlt, target]
    rw [apply, targetApply]
    refine retires_of_kept ?_ (by rfl) ..
    exact modDom_waitsKept _ _ fun _ => ⟨rfl, rfl⟩

theorem swapApply_waits (k : Core) (f : Flt) : Retires k (swapApply k f) f := by
  rw [swapApply]
  refine retires_of_kept ?_ (by rfl) ..
  exact modMset_waitsKept _ _ fun _ => rfl

/-- Applying a list of changes takes each of them away. -/
theorem Retires.foldl {f : Core → Flt → Core} {p : Flt → Prop} (hf : ∀ k x, p x → Retires k (f k x) x) (l : List Flt) (k : Core) (all : ∀ x ∈ l, p x) :
    WaitsKept k (l.foldl f k) ∧ (l.foldl f k).flts = l.foldl List.erase k.flts := by
  induction l generalizing k with
  | nil => exact ⟨.refl k, rfl⟩
  | cons x r ih =>
    have first := hf k x (all x List.mem_cons_self)
    obtain ⟨rest, flts⟩ := ih (f k x) fun y mem => all y (List.mem_cons_of_mem _ mem)
    exact ⟨rest.after first.toWaitsKept, by rw [List.foldl_cons, flts, first.retired, List.foldl_cons]⟩

theorem schedApply_waitsKept (k : Core) (m : Nat) : WaitsKept k (schedApply k m) := by
  have drops (l : List Nat) : WaitsKept k (l.foldl dropRef k) := WaitsKept.foldl (fun k h => waitsKept_of_parts (by simp [dropRef, modObj])) l k
  simp only [schedApply]
  split
  · exact .refl k
  · refine WaitsKept.after (modMset_waitsKept _ _ fun _ => rfl) ?_
    split
    · exact drops _
    · exact .refl k

theorem msetFree_eventKept (k : Core) (m : Nat) : EventKept k (msetFree k m) := by
  have drops (l : List Nat) (k : Core) : WaitsKept k (l.foldl dropRef k) := WaitsKept.foldl (fun k h => waitsKept_of_parts (by simp [dropRef, modObj])) l k
  have pending (k : Core) : WaitsKept k (dropPending k m 0) := WaitsKept.foldl (fun k f => retireFlt_waitsKept ..) _ k
  have sets (t : Core) (s : SMap MSet) : EventKept t { t with msets := s } :=
    { state := ⟨rfl, rfl⟩, doms := fun _ => ⟨rfl, rfl⟩, flts := fun f mem => mem }
  have given : WaitsKept k ((mset' k m).objs.foldl dropRef (sysGive k (mset' k m).sysSize)) := (drops _ _).after (waitsKept_of_parts (by simp [sysGive]))
  simp only [msetFree, modMset]
  refine EventKept.after (pending _).toEventKept (EventKept.after (sets _ _) (EventKept.after (sets _ _) ?_))
  split <;> split
  · exact ((drops _ _).after ((drops _ _).after given)).toEventKept
  · exact ((drops _ _).after given).toEventKept
  · exact ((drops _ _).after given).toEventKept
  · exact given.toEventKept

/-- The changes of a domain but those of model sets are applied, and wait no longer. -/
theorem applyFlts {k t : Core} {d : Nat} (kept : WaitsKept k t) (l : List Flt) (all : ∀ x ∈ l, fltDom k x = some d) :
    WaitsKept k (l.foldl applyFlt t) ∧ (l.foldl applyFlt t).flts = (l.filter fun f => f.ins.cls != 3).foldl List.erase t.flts := by
  induction l generalizing t with
  | nil => exact ⟨kept, rfl⟩
  | cons x r ih =>
    have rest := fun y mem => all y (List.mem_cons_of_mem x mem)
    obtain ⟨change, set⟩ := applyFlt_waits ((fltDom_of_waitsKept kept x).trans (all x List.mem_cons_self))
    rw [List.foldl_cons, List.filter_cons]
    by_cases kind : x.ins.cls = 3
    · rw [set kind, if_neg (by simp [kind])]
      exact ih kept rest
    · have first := change kind
      obtain ⟨final, flts⟩ := ih (first.toWaitsKept.after kept) rest
      exact ⟨final, by rw [flts, if_pos (by simp [kind]), List.foldl_cons, first.retired]⟩

/-- The changes of model sets are applied, and wait no longer. -/
theorem swapFlts (k : Core) (l : List Flt) : WaitsKept k (l.foldl swapApply k) ∧ (l.foldl swapApply k).flts = l.foldl List.erase k.flts := by
  induction l generalizing k with
  | nil => exact ⟨.refl k, rfl⟩
  | cons x r ih =>
    have first := swapApply_waits k x
    obtain ⟨final, flts⟩ := ih (swapApply k x)
    exact ⟨final.after first.toWaitsKept, by rw [List.foldl_cons, flts, first.retired, List.foldl_cons]⟩

/-- The third event: every change that waited for the domain has retired. -/
theorem event3_facts (k : Core) (d : Nat) : EventKept k (event3 k d) ∧ ∀ f ∈ (event3 k d).flts, fltDom k f ≠ some d := by
  have waiting : ∀ f ∈ boundaryFlts k d, fltDom k f = some d := fun f mem => by simpa using (List.mem_filter.mp mem).2
  obtain ⟨kept1, flts1⟩ := applyFlts (.refl k) _ waiting
  generalize applied : (boundaryFlts k d).foldl applyFlt k = k1 at kept1 flts1
  have kept2 := WaitsKept.foldl schedApply_waitsKept (domSets k1 d) k1
  generalize scheduled : (domSets k1 d).foldl schedApply k1 = k2 at kept2
  have kept3 : WaitsKept k1 ((domAccts k2 d).foldl (fun k a => if ownedAcct k a then modAcct k a refill else k) k2) := by
    refine (WaitsKept.foldl (fun k a => ?_) _ _).after kept2
    split
    · refine modAcct_waitsKept _ _ fun a => ?_
      unfold refill
      split <;> rfl
    · exact .refl k
  generalize refilled : (domAccts k2 d).foldl (fun k a => if ownedAcct k a then modAcct k a refill else k) k2 = k3 at kept3
  obtain ⟨kept4, flts4⟩ := swapFlts k3 ((boundaryFlts k3 d).filter fun f => f.ins.cls == 3)
  generalize swapped : ((boundaryFlts k3 d).filter fun f => f.ins.cls == 3).foldl swapApply k3 = k4 at kept4 flts4
  have last : EventKept k4 (event3 k d) := by
    simp only [event3, applied, scheduled, refilled, swapped]
    refine EventKept.after (EventKept.foldl (fun k s => ?_) _ _) (EventKept.foldl (fun k m => ?_) _ _)
    · split
      · exact (failSeq_waitsKept ..).toEventKept
      · exact (WaitsKept.refl k).toEventKept
    · split
      · exact msetFree_eventKept ..
      · exact (WaitsKept.refl k).toEventKept
  refine ⟨last.after (kept4.after (kept3.after kept1)).toEventKept, fun f mem own => ?_⟩
  have mem4 := last.flts f mem
  have mem3 := kept4.flts f mem4
  have mem1 := kept3.flts f mem3
  have same := fltDom_of_waitsKept (kept3.after kept1) f
  by_cases kind : f.ins.cls = 3
  · rw [flts4, boundaryFlts, List.filter_filter] at mem4
    have none := not_mem_eraseAll _ _ mem4
    simp [kind, same, own] at none
  · rw [flts1, boundaryFlts, List.filter_filter] at mem1
    have none := not_mem_eraseAll _ _ mem1
    simp [kind, own] at none

/-! ## The first event and the boundary -/

theorem fltDom_modDom (k : Core) (d : Nat) (g : Dom → Dom) (f : Flt) : fltDom (modDom k d g) f = fltDom k f := rfl

/-- The first event takes the domain's running step, and nothing else an event leaves. -/
theorem event1_facts (k : Core) (d : Nat) :
    (event1 k d).glb = k.glb ∧ (event1 k d).pst = k.pst ∧ (∀ f ∈ (event1 k d).flts, f ∈ k.flts) ∧ (∀ f, fltDom (event1 k d) f = fltDom k f) ∧
      (dom (event1 k d) d).running = none ∧ (dom (event1 k d) d).stepNo = (dom k d).stepNo ∧
      ∀ e, e ≠ d → (dom (event1 k d) e).running = (dom k e).running := by
  unfold event1
  split
  · next none => exact ⟨rfl, rfl, fun f mem => mem, fun _ => rfl, none, rfl, fun _ _ => rfl⟩
  · next u _ =>
    have kept := deliverStep_waitsKept k d u
    refine ⟨kept.state.1, kept.state.2, kept.flts, fun f => (fltDom_modDom ..).trans (fltDom_of_waitsKept kept f), by rw [dom_modDom, if_pos rfl], ?_, fun e other => ?_⟩
    · rw [dom_modDom, if_pos rfl]
      exact (kept.doms d).2
    · rw [dom_modDom, if_neg other]
      exact (kept.doms e).1

/-- The state after the first three events of a boundary that begins. -/
def boundaryBegun (k : Core) (d : Nat) : Core :=
  if (dom k d).opened then modDom k d fun q => { q with opened := false }
  else event3 (event2 (event1 (modDom k d fun q => { q with timerDue := false }) d) d) d

/-- What the first three events leave: the state, the numbers, the other domains' steps; where they come now, no step runs and no change waits. -/
theorem boundaryBegun_facts (k : Core) (d : Nat) : let t := boundaryBegun k d
    t.glb = k.glb ∧ t.pst = k.pst ∧ (dom t d).stepNo = (dom k d).stepNo ∧ (∀ e, e ≠ d → (dom t e).running = (dom k e).running) ∧
      ((dom k d).opened = false → (dom t d).running = none ∧ ∀ f ∈ t.flts, fltDom k f ≠ some d) := by
  dsimp only
  rw [boundaryBegun]
  split
  · next again =>
    refine ⟨rfl, rfl, by rw [dom_modDom, if_pos rfl], fun e other => by rw [dom_modDom, if_neg other], fun new => ?_⟩
    rw [again] at new
    cases new
  · have begun := modDom_waitsKept k d (f := fun q => { q with timerDue := false }) fun _ => ⟨rfl, rfl⟩
    generalize modDom k d (fun q => { q with timerDue := false }) = k0 at begun
    obtain ⟨glb, pst, flts, doms, running, number, others⟩ := event1_facts k0 d
    have second := event2_waitsKept (event1 k0 d) d
    obtain ⟨third, none⟩ := event3_facts (event2 (event1 k0 d) d) d
    refine ⟨third.state.1.trans (second.state.1.trans (glb.trans begun.state.1)), third.state.2.trans (second.state.2.trans (pst.trans begun.state.2)), ?_,
      fun e other => ?_, fun _ => ⟨?_, fun f mem own => none f mem ?_⟩⟩
    · rw [(third.doms d).2, (second.doms d).2, number, (begun.doms d).2]
    · rw [(third.doms e).1, (second.doms e).1, others e other, (begun.doms e).1]
    · rw [(third.doms d).1, (second.doms d).1, running]
    · rw [fltDom_of_waitsKept second, doms, fltDom_of_waitsKept begun, own]

theorem stepBoundary_due {k : Core} {d : Nat} (due : boundaryDue k d = true) : stepBoundary k d =
    let k1 := boundaryBegun k d
    if k1.glb.st = .enabled ∧ k1.pst.handshake = 0 then
      if retireAwaited k1 d && !(dom k d).opened then modDom k1 d (fun q => { q with opened := true, phase := 1 }) else event4 k1 d
    else modDom k1 d (fun q => { q with phase := 0, lastBuilt := false }) := by
  rw [stepBoundary, if_pos due]
  rfl

/-- The shared domain's boundary sends the copy a new pair asked for. -/
theorem boundaryOf_due {k : Core} {d : Nat} (due : boundaryDue k d = true) :
    boundaryOf k d = if d = 4 then syncAtBoundary (stepBoundary k d) else stepBoundary k d := by
  rw [boundaryOf]
  by_cases shared : d = 4
  · rw [if_pos shared, if_pos (by simp [shared, ← due])]
  · rw [if_neg shared, if_neg (by simp [shared])]

theorem boundaryOf_early {k : Core} {d : Nat} (early : boundaryDue k d = false) : boundaryOf k d = k := by
  have none : stepBoundary k d = k := by rw [stepBoundary, if_neg (by simp [early])]
  rw [boundaryOf, none]
  by_cases shared : d = 4
  · rw [if_neg (by simp [← shared, early])]
  · rw [if_neg (by simp [shared])]

/-- The build of a boundary in the words of the statement. -/
theorem event4_cases (k : Core) (d : Nat) :
    let built := buildStep k d (allowance k d)
    let counted := countBuild built.k d (allowance k d) built
    let asked := openPrompts k d built.plan
    (built.plan = [] → event4 k d = modDom counted d fun q => { q with lastBuilt := false, phase := 0 }) ∧
    (built.plan ≠ [] → asked.2 = true → event4 k d = modDom asked.1 d fun q => { q with opened := true, phase := 1 }) ∧
    (∀ p r, built.plan = p :: r → asked.2 = false →
      let k4 := modDom (countLeft counted built.accts) d fun q => { q with lastBuilt := true }
      event4 k d = startStep k4 d (seq k4 p.seq).mset (allowance k d) built) := by
  dsimp only
  refine ⟨fun none => ?_, fun some waits => ?_, fun p r plan there => ?_⟩
  · simp only [event4, none]
    rfl
  · obtain ⟨p, r, plan⟩ := List.exists_cons_of_ne_nil some
    rw [plan] at waits
    simp only [event4, plan, waits, if_true]
  · rw [plan] at there
    simp only [event4, plan, there]
    rfl

/-- Settles O43, from what each of the first three events leaves and the build that follows them. -/
theorem boundariesHaveTheirEvents : Obligations.BoundariesHaveTheirEvents := by
  unfold Obligations.BoundariesHaveTheirEvents
  intro s d up
  have run (f : Core → Core) : onCore s (whenAlive f) = .next (s.finish (f s.core)) := onCore_whenAlive f up
  have boundary : exec (.stepBoundary d) s = .next (s.finish (boundaryOf s.core d.val)) := run _
  have timer : exec (.idleBoundaryTimer d) s = .next (s.finish (idleBoundaryTimer s.core d.val)) := run _
  refine ⟨fun early => ?_, fun due => ?_, timer⟩
  · rw [boundary, boundaryOf_early early]
  · obtain ⟨glb, pst, number, others, new⟩ := boundaryBegun_facts s.core d.val
    have step := stepBoundary_due due
    rw [boundary, boundaryOf_due due]
    refine ⟨fun held => ?_, fun enabled quiet awaited once => ?_, fun enabled quiet goes => ?_⟩
    · have idle : ¬ ((boundaryBegun s.core d.val).glb.st = .enabled ∧ (boundaryBegun s.core d.val).pst.handshake = 0) := by
        rw [glb, pst]
        rcases held with hold | shakes
        · simp [hold]
        · simp [shakes]
      have ended := step.trans (if_neg idle)
      refine ⟨stepBoundary s.core d.val, rfl, ?_⟩
      rw [ended]
      refine ⟨by rw [dom_modDom, if_pos rfl], ?_, fun e other => ?_, fun first => ?_⟩
      · rw [dom_modDom, if_pos rfl]
        exact number
      · rw [dom_modDom, if_neg other]
        exact others e other
      · obtain ⟨running, none⟩ := new first
        rw [dom_modDom, if_pos rfl]
        exact ⟨running, none⟩
    · have open_ := (step.trans (if_pos ⟨by rw [glb]; exact enabled, by rw [pst]; exact quiet⟩)).trans (if_pos (by
        have waits : retireAwaited (boundaryBegun s.core d.val) d.val = true := awaited
        rw [waits, once]
        rfl))
      rw [open_]
      rfl
    · have build := (step.trans (if_pos ⟨by rw [glb]; exact enabled, by rw [pst]; exact quiet⟩)).trans (if_neg (by
        have ready : retireAwaited (boundaryBegun s.core d.val) d.val = false ∨ (dom s.core d.val).opened = true := goes
        rcases ready with none | again
        · simp [none]
        · simp [again]))
      obtain ⟨none, waits, starts⟩ := event4_cases (boundaryBegun s.core d.val) d.val
      rw [build]
      refine ⟨fun empty => ?_, fun some asked => ?_, fun p r plan there => ?_⟩
      · rw [none empty]
        rfl
      · rw [waits some asked]
        rfl
      · rw [starts p r plan there]
        rfl

end Sys2Proof.Proofs.StepBoundary
end

section
/-! PROOFS. What serving does of itself: retirements, page copies, waiting records, the gate and the watchdog (R101, R266, R301, R445, R513). -/

namespace Sys2Proof.Proofs.ServingEvents
open Sys2Proof.Machine Sys2Proof.Laws Sys2Proof.Proofs.Reads Sys2Proof.Proofs.ResetFrames Sys2Proof.Proofs.StackReads
open Sys2Proof.Proofs.StackRows Sys2Proof.Proofs.SetLoading Sys2Proof.Proofs.PowerLaws Sys2Proof.Proofs.FaultRecord
open Sys2Proof.Proofs.ApertureSys Sys2Proof.Proofs.MemoryLines Sys2Proof.Proofs.ObjectEntry Sys2Proof.Proofs.ObjectEnds Sys2Proof.Proofs.SeqsPools

/-! ## Retirement (R301, R452, R453) -/

/-- Charging a step's energy leaves what each sequence is doing, and every model set. -/
theorem chargeEnergy_seqs (k : Core) (u : UStep) (e : Nat) : (∀ n, (seq (chargeEnergy k u e) n).st = (seq k n).st ∧
    (seq (chargeEnergy k u e) n).pausePending = (seq k n).pausePending) ∧ (chargeEnergy k u e).msets = k.msets := by
  simp only [chargeEnergy]
  split
  · exact ⟨fun _ => ⟨rfl, rfl⟩, rfl⟩
  · refine List.foldlRecOn (motive := fun t : Core => (∀ n, (seq t n).st = (seq k n).st ∧ (seq t n).pausePending = (seq k n).pausePending) ∧
      t.msets = k.msets) _ _ ⟨fun _ => ⟨rfl, rfl⟩, rfl⟩ fun t kept p _ => ?_
    obtain ⟨seqs, sets⟩ := kept
    split
    · exact ⟨seqs, sets⟩
    · refine ⟨fun n => ?_, sets⟩
      have charged (c : Nat) : (seq (modSeq t p.seq fun q => { q with energy := q.energy + c }) n).st = (seq t n).st ∧
          (seq (modSeq t p.seq fun q => { q with energy := q.energy + c }) n).pausePending = (seq t n).pausePending := by
        rw [seq_modSeq]
        split
        · next same => exact ⟨by rw [same], by rw [same]⟩
        · exact ⟨rfl, rfl⟩
      obtain ⟨st, pause⟩ := charged (e * p.energy / (u.est - u.fixed))
      exact ⟨st.trans (seqs n).1, pause.trans (seqs n).2⟩

theorem hotRead_kept (k : Core) (h : Nat) : (hotRead k h).glb = k.glb ∧ (hotRead k h).seqs = k.seqs ∧ (hotRead k h).doms = k.doms ∧ (hotRead k h).msets = k.msets := by
  simp only [hotRead, promoteOrDrop]
  split <;> [split; skip] <;> simp

theorem hotStep_kept (k : Core) (d : Nat) (u : UStep) :
    (hotStep k d u).glb = k.glb ∧ (hotStep k d u).seqs = k.seqs ∧ (hotStep k d u).doms = k.doms ∧ (hotStep k d u).msets = k.msets := by
  have reads (l : List Nat) (k : Core) := foldl_fixes (g := fun k : Core => (k.glb, k.seqs, k.doms, k.msets)) (f := hotRead) (fun k h => by simp [hotRead_kept]) l k
  have halved (k : Core) : (halveHot k d u.num).msets = k.msets := by unfold halveHot; split <;> rfl
  simp only [Prod.mk.injEq] at reads
  simp only [hotStep]
  split <;> simp [halved, reads]

/-- No step that runs or waits to retire takes from a sequence. -/
def stepless (doms : SMap Dom) (s : Nat) : Bool :=
  doms.all fun e => (e.2.running.toList ++ e.2.retiring).all fun u => u.plan.all fun p => p.seq != s

theorem unrun_waits {k : Core} {s : Nat} (waits : (seq k s).st ≠ .running) : unrun k s = k := by
  simp only [unrun]
  rw [if_pos (by simp [waits])]

theorem unrun_frame (k : Core) (s : Nat) : (unrun k s).glb = k.glb ∧ (unrun k s).doms = k.doms ∧ (unrun k s).msets = k.msets := by
  simp only [unrun]
  split <;> [skip; split] <;> simp

theorem unrun_others (k : Core) (s : Nat) {n : Nat} (other : n ≠ s) : seq (unrun k s) n = seq k n := by
  simp only [unrun]
  split <;> [skip; split]
  · rfl
  · rw [endPause_seq, if_neg other, seq_modSeq, if_neg other]
  · rw [seq_modSeq, if_neg other]

/-- A sequence whose step has retired and that no other step runs: QUEUED again, or PAUSED. -/
theorem unrun_moves {k : Core} {s : Nat} (runs : (seq k s).st = .running) (idle : stepless k.doms s = true) :
    (seq (unrun k s) s).st = if (seq k s).pausePending then .paused else .queued := by
  have none : (k.doms.any fun e => (e.2.running.toList ++ e.2.retiring).any fun u => u.plan.any fun p => p.seq == s) = false := by
    simpa [stepless] using idle
  simp only [unrun, runs, none]
  cases (seq k s).pausePending
  · simp [seq_modSeq]
  · simp [endPause_seq, seq_modSeq]

/-- A sequence that runs in no step stays as it is while others stop. -/
theorem unruns_idle (l : List PlanEnt) {k : Core} {n : Nat} (waits : (seq k n).st ≠ .running) :
    seq (l.foldl (fun k p => unrun k p.seq) k) n = seq k n :=
  List.foldlRecOn (motive := fun t : Core => seq t n = seq k n) l _ rfl fun t kept p _ => by
    by_cases same : p.seq = n
    · rw [unrun_waits (by rw [same, kept]; exact waits), kept]
    · rw [unrun_others t p.seq (Ne.symm same), kept]

/-- The members of a retired step: each that ran and runs no longer is moved once, and no other sequence is. -/
theorem unruns_facts (l : List PlanEnt) (k : Core) : let t := l.foldl (fun k p => unrun k p.seq) k
    (t.glb = k.glb ∧ t.doms = k.doms ∧ t.msets = k.msets) ∧ (∀ n, (∀ p ∈ l, p.seq ≠ n) → seq t n = seq k n) ∧
      ∀ p ∈ l, (seq k p.seq).st = .running → stepless k.doms p.seq = true →
        (seq t p.seq).st = if (seq k p.seq).pausePending then .paused else .queued := by
  dsimp only
  induction l generalizing k with
  | nil => exact ⟨⟨rfl, rfl, rfl⟩, fun _ _ => rfl, fun p mem => absurd mem List.not_mem_nil⟩
  | cons x r ih =>
    obtain ⟨⟨glb, doms, sets⟩, others, moves⟩ := ih (unrun k x.seq)
    obtain ⟨glb', doms', sets'⟩ := unrun_frame k x.seq
    refine ⟨⟨glb.trans glb', doms.trans doms', sets.trans sets'⟩, fun n away => ?_, fun p mem runs idle => ?_⟩
    · obtain ⟨first, rest⟩ := List.forall_mem_cons.mp away
      exact (others n rest).trans (unrun_others k x.seq (Ne.symm first))
    · rw [List.foldl_cons]
      by_cases same : p.seq = x.seq
      · have moved := unrun_moves (same ▸ runs) (same ▸ idle)
        have waits : (seq (unrun k x.seq) x.seq).st ≠ .running := by
          rw [moved]
          split <;> decide
        rw [same, unruns_idle r waits, moved]
      · have kept := unrun_others k x.seq same
        rcases List.mem_cons.mp mem with first | mem
        · exact absurd (congrArg PlanEnt.seq first) same
        · rw [moves p mem (by rw [kept]; exact runs) (by rw [doms']; exact idle), kept]

/-- What is left to do at a retirement once the step is off its domain: pages return, pins drop, and hot objects are promoted. -/
def retireRest (k : Core) (d : Nat) (u : UStep) : Core := hotStep (retryWants (u.pins.foldl dropPin (returnPages k d u.num))) d u

theorem retireRest_kept (k : Core) (d : Nat) (u : UStep) : (retireRest k d u).glb = k.glb ∧ (retireRest k d u).seqs = k.seqs ∧
    (retireRest k d u).doms = k.doms ∧ (retireRest k d u).msets = k.msets := by
  obtain ⟨glb, seqs, doms, sets⟩ := hotStep_kept (retryWants (u.pins.foldl dropPin (returnPages k d u.num))) d u
  have pins (k : Core) : (u.pins.foldl dropPin k).msets = k.msets := foldl_fixes (g := Core.msets) (fun k h => by simp [dropPin]) _ k
  have pages : (returnPages k d u.num).msets = k.msets := by
    refine foldl_fixes (g := Core.msets) (fun k p => ?_) _ k
    dsimp only
    split <;> simp
  have wants (k : Core) : (retryWants k).msets = k.msets := (retrySpace_openKept k none).1.2.2.2.2.1
  have dropped := dropPins_memoryKept u.pins (returnPages k d u.num)
  have returned := returnPages_memoryKept k d u.num
  have retried := retryWants_memoryKept (u.pins.foldl dropPin (returnPages k d u.num))
  simp only [retireRest]
  refine ⟨?_, ?_, ?_, ?_⟩
  · rw [glb]; simp_all
  · rw [seqs]; simp_all
  · rw [doms]; simp_all
  · rw [sets, wants, pins, pages]

/-- What a retirement does to the domain, the total, the set's factor and the members of its step. -/
theorem stepRetire_facts {k : Core} {d e : Nat} {u : UStep} {r : List UStep} (oldest : (dom k d).retiring = u :: r) (mirrored : stepMirrored k d u = true) :
    let t := stepRetire k d e
    let others := mput k.doms d { dom k d with retiring := r }
    (dom t d).retiring = r ∧ t.glb.stepsRetired = k.glb.stepsRetired + 1 ∧
      (∀ m, (mset' t m).factor =
        if m = u.mset ∧ (mset' k m).st ≠ .none then nextFactor (mset' k m).factor e u.est else (mset' k m).factor) ∧
      (∀ p ∈ u.plan, (seq k p.seq).st = .running → stepless others p.seq = true →
        (seq t p.seq).st = if (seq k p.seq).pausePending then .paused else .queued) ∧
      ∀ n, (∀ p ∈ u.plan, p.seq ≠ n) → (seq t n).st = (seq k n).st := by
  generalize factored : modMset (chargeEnergy k u e) u.mset (fun s => if s.st = .none then s else { s with factor := nextFactor s.factor e u.est }) = k2
  generalize settled : retireRest (modDom k2 d (fun q => { q with retiring := r })) d u = k5
  obtain ⟨charged, sets1⟩ := chargeEnergy_seqs k u e
  obtain ⟨glb5, seqs5, doms5, sets5⟩ := retireRest_kept (modDom k2 d (fun q => { q with retiring := r })) d u
  rw [settled] at glb5 seqs5 doms5 sets5
  have seqs : ∀ n, seq k5 n = seq (chargeEnergy k u e) n := fun n => by
    rw [seq_of_seqs seqs5, ← factored]
    rfl
  have doms : k5.doms = mput k.doms d { dom k d with retiring := r } := by
    rw [doms5, ← factored, modDom, mmod, dom]
    simp only [modMset_fields, chargeEnergy_doms]
  have sets (m : Nat) : (mset' k5 m).factor =
      if m = u.mset ∧ (mset' k m).st ≠ .none then nextFactor (mset' k m).factor e u.est else (mset' k m).factor := by
    rw [mset_of_msets sets5, ← factored]
    have same (m : Nat) : mset' (chargeEnergy k u e) m = mset' k m := mset_of_msets sets1 m
    have moved := mset_modMset (chargeEnergy k u e) u.mset m fun s => if s.st = .none then s else { s with factor := nextFactor s.factor e u.est }
    refine (congrArg MSet.factor moved :).trans ?_
    simp only [same]
    by_cases own : m = u.mset
    · subst own
      by_cases free : (mset' k u.mset).st = .none <;> simp [free]
    · simp [own]
  have glb : k5.glb = k.glb := by
    rw [glb5, ← factored]
    simp
  obtain ⟨⟨glb6, doms6, sets6⟩, others6, moves6⟩ := unruns_facts u.plan k5
  generalize left : u.plan.foldl (fun k p => unrun k p.seq) k5 = k6 at glb6 doms6 sets6 others6 moves6
  have whole : stepRetire k d e = { k6 with glb := { k6.glb with stepsRetired := k6.glb.stepsRetired + 1 } } := by
    simp only [stepRetire, oldest, mirrored]
    rw [← left, ← settled, ← factored]
    rfl
  dsimp only
  rw [whole]
  refine ⟨?_, ?_, fun m => ?_, fun p mem runs idle => ?_, fun n away => ?_⟩
  · show (dom k6 d).retiring = r
    rw [dom, doms6, doms, mget_mput_same]
  · show k6.glb.stepsRetired + 1 = k.glb.stepsRetired + 1
    rw [glb6, glb]
  · exact (congrArg MSet.factor (mset_of_msets sets6 m)).trans (sets m)
  · refine (moves6 p mem ?_ (by rw [doms]; exact idle)).trans ?_
    · rw [seqs, (charged p.seq).1, runs]
    · rw [seqs, (charged p.seq).2]
  · refine (congrArg Machine.Seq.st (others6 n away)).trans ?_
    rw [seqs, (charged n).1]

/-! ## Page copies (R266) -/

/-- One line of a page is copied to another. -/
def copyOne (h src dst : Nat) (k : Core) (l : Nat) : Core :=
  putObjLine k h (dst + l) (plainLine k h (src + l) (copyLine k h (src + l)).1) (copyLine k h (src + l)).2

theorem putObjLine_frame (k : Core) (h l : Nat) (v : Line) (bad : Bool) : putObjLine k h l v bad =
    { k with objs := (putObjLine k h l v bad).objs, dram := (putObjLine k h l v bad).dram } := by
  simp only [putObjLine]
  split <;> rfl

theorem objsDram_trans {k t u : Core} (first : t = { k with objs := t.objs, dram := t.dram }) (next : u = { t with objs := u.objs, dram := u.dram }) :
    u = { k with objs := u.objs, dram := u.dram } := by
  rw [first] at next
  exact next

theorem copyPage_frame (h src dst : Nat) (l : List Nat) (k : Core) : l.foldl (copyOne h src dst) k =
    { k with objs := (l.foldl (copyOne h src dst) k).objs, dram := (l.foldl (copyOne h src dst) k).dram } :=
  List.foldlRecOn (motive := fun t : Core => t = { k with objs := t.objs, dram := t.dram }) l _ rfl fun _ frame _ _ =>
    objsDram_trans frame (putObjLine_frame ..)

theorem copyLine_putLine (k : Core) (h a l : Nat) (v : Line) (bad : Bool) :
    copyLine { k with dram := k.dram.putLine 0 ((obj k h).addr / 64 + a) v bad } h l = if l = a then (v, bad) else copyLine k h l := by
  have same : obj { k with dram := k.dram.putLine 0 ((obj k h).addr / 64 + a) v bad } h = obj k h := rfl
  simp only [copyLine, same]
  split
  · next own => rw [own, line_putLine_same, lineBad_putLine_same]
  · rw [line_putLine_ne _ _ _ _ (by omega), lineBad_putLine_ne 0 _ _ _ (by omega)]

/-- A page of a plain object copied to another page: each line, and the source stays. -/
theorem copyPage_lines {k : Core} {h src dst n : Nat} (plain : objConf k h = false) (fresh : (obj k h).stale = false)
    (apart : src + n ≤ dst ∨ dst + n ≤ src) (m : Nat) (upto : m ≤ n) : let t := (upFrom 0 m).foldl (copyOne h src dst) k
    t.objs = k.objs ∧ t = { k with dram := t.dram } ∧ (∀ l, l < n → copyLine t h (src + l) = copyLine k h (src + l)) ∧
      ∀ l, l < m → copyLine t h (dst + l) = copyLine k h (src + l) := by
  induction m with
  | zero => exact ⟨rfl, rfl, fun _ _ => rfl, fun l below => absurd below (Nat.not_lt_zero l)⟩
  | succ m ih =>
    obtain ⟨objs, frame, source, copied⟩ := ih (by omega)
    rw [upFrom_snoc]
    simp only [List.foldl_append, List.foldl_cons, List.foldl_nil, Nat.zero_add]
    generalize (upFrom 0 m).foldl (copyOne h src dst) k = t at objs frame source copied
    have conf : objConf t h = false := by rw [frame]; exact plain
    have stale : (obj t h).stale = false := by rw [obj_of_objs objs]; exact fresh
    have wrote : copyOne h src dst t m =
        { t with dram := t.dram.putLine 0 ((obj t h).addr / 64 + (dst + m)) (copyLine t h (src + m)).1 (copyLine t h (src + m)).2 } := by
      rw [copyOne, putObjLine_fresh stale, cipherLine, plainLine, conf]
      rfl
    rw [wrote]
    refine ⟨objs, by rw [frame], fun l below => ?_, fun l below => ?_⟩
    · rw [copyLine_putLine, if_neg (by omega), source l below]
    · rw [copyLine_putLine]
      split
      · next last => rw [source m (by omega), show l = m by omega]
      · exact copied l (by omega)

/-- The pages of one waiting copy. -/
def copyPage (h pl : Nat) (k : Core) (c : PageCopy) : Core := (upFrom 0 pl).foldl (copyOne h (entryPage c.old * pl) (c.page * pl)) k

theorem copyPages_frame (h pl : Nat) (l : List PageCopy) (k : Core) : l.foldl (copyPage h pl) k =
    { k with objs := (l.foldl (copyPage h pl) k).objs, dram := (l.foldl (copyPage h pl) k).dram } :=
  List.foldlRecOn (motive := fun t : Core => t = { k with objs := t.objs, dram := t.dram }) l _ rfl fun _ frame _ _ =>
    objsDram_trans frame (copyPage_frame ..)

theorem pages_apart {p q n : Nat} (other : p ≠ q) : p * n + n ≤ q * n ∨ q * n + n ≤ p * n := by
  rcases Nat.lt_or_gt_of_ne other with below | above
  · exact .inl (by rw [← Nat.succ_mul]; exact Nat.mul_le_mul_right n below)
  · exact .inr (by rw [← Nat.succ_mul]; exact Nat.mul_le_mul_right n above)

theorem pageCopyDone_bound {k : Core} {s p : Nat} (bound : (seq k s).pool = some p) : pageCopyDone k s =
    modSeq ((seq k s).copying.foldl (copyPage (pool k p).obj (pool k p).pl) k) s (fun q => { q with copied := q.copied ++ q.copying, copying := [] }) := by
  simp only [pageCopyDone, bound]
  rfl

/-! ## The gate and the records that wait (R101, R445) -/

theorem modDom_congr {k : Core} {d : Nat} {f g : Dom → Dom} (same : f (dom k d) = g (dom k d)) : modDom k d f = modDom k d g := by
  rw [dom] at same
  rw [modDom, modDom, mmod, mmod, same]

theorem modDom_slew (k : Core) (d : Nat) (f : Dom → Dom) : modDom (slew k) d f = { slew k with doms := mput k.doms d (f (dom k d)) } := by
  have doms : (slew k).doms = k.doms := by simp [slew, drawNat]
  rw [modDom, mmod, doms, dom]

theorem gateGroupRelease_group {k : Core} {d : Nat} {g : Nat × Bool} {gs : List (Nat × Bool)} (waits : (dom k d).gates = g :: gs) :
    ∃ n, 1 ≤ n ∧ n ≤ max 1 (min 256 (rfld k oGateRamp 8 0)) ∧ (∀ x ∈ (g :: gs).take n, x.2 = g.2) ∧
      gateGroupRelease k d = ((g :: gs).take n).foldl releaseTile (modDom (slew k) d fun q => { q with gates := (g :: gs).drop n }) := by
  generalize bound : max 1 (min 256 (rfld k oGateRamp 8 0)) = b
  have positive : 1 ≤ b := by omega
  generalize same : (g :: gs).takeWhile (fun x => x.2 == g.2) = w
  have prefix_ : w = (g :: gs).take w.length := by
    rw [← same]
    exact List.prefix_iff_eq_take.mp (List.takeWhile_prefix _)
  have gates : (dom (slew k) d).gates = g :: gs := by
    simp only [slew, drawNat, dom, bump_fields]
    exact waits
  have group : gateGroup (slew k) d = w.take b := by
    have ramp : rfld (slew k) oGateRamp 8 0 = rfld k oGateRamp 8 0 := by simp [slew, drawNat, rfld, rreg]
    simp only [gateGroup, gates, ramp, bound, List.headD_cons, same]
  have first : 1 ≤ w.length := by
    rw [← same, List.takeWhile_cons, if_pos (by simp)]
    simp
  refine ⟨min b w.length, by omega, by omega, fun x mem => ?_, ?_⟩
  · have inside : x ∈ w := by
      rw [prefix_]
      exact List.take_subset_take_left _ (Nat.min_le_right _ _) mem
    rw [← same] at inside
    simpa using List.mem_takeWhile_imp inside
  · have taken : w.take b = (g :: gs).take (min b w.length) := by
      rw [prefix_, List.take_take]
      simp
    have fits : w.length ≤ (g :: gs).length := by
      rw [← same]
      exact (List.takeWhile_prefix _).length_le
    have length : ((g :: gs).take (min b w.length)).length = min b w.length := by
      rw [List.length_take]
      omega
    have dropped : modDom (slew k) d (fun q => { q with gates := q.gates.drop (min b w.length) }) =
        modDom (slew k) d fun q => { q with gates := (g :: gs).drop (min b w.length) } := modDom_congr (by simp only [gates])
    rw [gateGroupRelease, if_neg (by simp [waits])]
    simp only [releaseGroup, group, taken, length, dropped]

/-- The only sequence of a ring with a record that waits: it is written. -/
theorem waitingRecordWrite_one {k : Core} {r n : Nat} {v : Deliv} (space : ringFull k r = false) (live : liveSeqs k = [n]) (ring : (seq k n).ring = r)
    (waits : (seq k n).waiting = [v]) (ready : recordReady k v = true) :
    waitingRecordWrite k r = commit (modSeq k n fun q => { q with waiting := [] }) n v := by
  simp only [waitingRecordWrite, live, List.foldl_cons, List.foldl_nil, ring, if_true, waits, writeWaiting, space, ready]
  rfl

theorem writeWaiting_full {k : Core} {n : Nat} (full : ringFull k (seq k n).ring = true) : writeWaiting k n = k := by
  simp only [writeWaiting, full]
  split <;> rfl

theorem waitingRecordWrite_full {k : Core} {r : Nat} (full : ringFull k r = true) : waitingRecordWrite k r = k := by
  unfold waitingRecordWrite
  refine List.foldlRecOn (motive := fun t : Core => t = k) _ _ rfl fun t kept n _ => ?_
  subst kept
  split
  · next own =>
    exact List.foldlRecOn (motive := fun u : Core => u = t) _ _ rfl fun u same _ _ => by
      rw [same]
      exact writeWaiting_full (by rw [own]; exact full)
  · rfl

/-! ## The obligation -/

/-- Settles O44, from what a retirement, a page copy, the gate, a waiting record and a fail-stop do. -/
theorem servingEventsComplete : Obligations.ServingEventsComplete := by
  unfold Obligations.ServingEventsComplete
  intro s d up
  have run (f : Core → Core) : onCore s (whenAlive f) = .next (s.finish (f s.core)) := onCore_whenAlive f up
  have retire (e : Nat) : exec (.stepRetire d e) s = .next (s.finish (stepRetire s.core d.val e)) := run _
  have gate : exec (.gateGroupRelease d) s = .next (s.finish (gateGroupRelease s.core d.val)) := run _
  have copied (n : BitVec 22) : exec (.pageCopyDone n) s = .next (s.finish (pageCopyDone s.core n.toNat)) := run _
  have write (r : BitVec 8) : exec (.waitingRecordWrite r) s = .next (s.finish (waitingRecordWrite s.core r.toNat)) := run _
  have watchdog : exec (.stepWatchdog d) s = .next (s.finish (stepWatchdog s.core d.val)) := rfl
  obtain ⟨-, -, running⟩ := alive_states up
  simp only [retire, gate, copied, write, watchdog]
  generalize s.core = k at up running
  refine ⟨fun none e => ?_, fun u r e oldest waits => ?_, fun u r e oldest mirrored => ?_, fun none => ?_, fun g gs waits => ?_, fun n unbound => ?_,
    fun n p bound => ?_, fun r full => ?_, fun r n v space live ring waits ready => ?_, fun idle => ?_, fun phase runs untested => ?_⟩
  · simp [stepRetire, none]
  · simp [stepRetire, oldest, waits]
  · obtain ⟨left, total, factor, moved, kept⟩ := stepRetire_facts (e := e) oldest mirrored
    exact ⟨_, rfl, left, total, factor, moved, kept⟩
  · simp [gateGroupRelease, none]
  · obtain ⟨n, low, high, group, release⟩ := gateGroupRelease_group waits
    refine ⟨n, _, low, high, rfl, group, ?_⟩
    rw [release, modDom_slew]
    rfl
  · simp [pageCopyDone, unbound]
  · rw [pageCopyDone_bound bound]
    have frame := copyPages_frame (pool k p).obj (pool k p).pl (seq k n.toNat).copying k
    refine ⟨_, rfl, ?_, fun m => ?_, fun v l one plain fresh other below => ?_⟩
    · rw [frame]
      rfl
    · rw [seq_modSeq]
      have same (m : Nat) : seq ((seq k n.toNat).copying.foldl (copyPage (pool k p).obj (pool k p).pl) k) m = seq k m := seq_of_seqs (by rw [frame]) m
      simp only [same]
      split
      · next own => rw [own]
      · rfl
    · obtain ⟨-, -, -, lines⟩ := copyPage_lines (n := (pool k p).pl) plain fresh (pages_apart other) _ (Nat.le_refl _)
      rw [one]
      exact lines l below
  · rw [waitingRecordWrite_full full]
  · rw [waitingRecordWrite_one space live ring waits ready]
    rfl
  · simp only [stepWatchdog]
    rw [if_neg]
    rintro ⟨phase, runs, untested⟩
    rcases idle with other | none | tested
    · exact other phase
    · simp [none] at runs
    · rw [tested] at untested
      cases untested
  · have watched : stepWatchdog k d.val = failStop k rWatchdog 8 0 d.val := by
      simp only [stepWatchdog]
      exact if_pos ⟨phase, runs, untested⟩
    have on : k.glb.st ≠ .off := by
      intro off
      simp [alive, off] at up
    obtain ⟨state, resetting, flts, doms, -, last⟩ := failStop_running rWatchdog 8 0 d.val on running
    rw [watched]
    exact ⟨_, rfl, state, resetting, flts, doms, last⟩

end Sys2Proof.Proofs.ServingEvents
end

section
/-! PROOFS. The flash: reads, retries, the scrub and the Conductor's fetches (R385 to R387, R398, R523). -/

namespace Sys2Proof.Proofs.FlashReads
open Sys2Proof.Machine Sys2Proof.Laws Sys2Proof.Proofs.Reads Sys2Proof.Proofs.StackRows Sys2Proof.Proofs.ObjectEntry
open Sys2Proof.Proofs.HostReads Sys2Proof.Proofs.SetLoading Sys2Proof.Proofs.FaultRecord

/-- What a read of a codeword changes: the stack's own state, counters and free values. -/
@[simp] abbrev FetchKept (k t : Core) : Prop := t = { k with flss := t.flss, ctr := t.ctr, fresh := t.fresh }

theorem fetchKept_trans {k t u : Core} (first : FetchKept k t) (next : FetchKept t u) : FetchKept k u := by
  rw [FetchKept, first] at next
  exact next

theorem bump_frame (k : Core) (o n : Nat) : bump k o n = { k with ctr := (bump k o n).ctr } := by
  unfold bump
  split <;> rfl

theorem fls_of_flss {k t : Core} (same : t.flss = k.flss) (s : Nat) : fls t s = fls k s := by rw [fls, fls, same]

theorem fls_bump (k : Core) (o n s : Nat) : fls (bump k o n) s = fls k s := fls_of_flss (by simp) s

theorem suspendOp_facts (k : Core) (s : Nat) : FetchKept k (suspendOp k s) ∧ (fls (suspendOp k s) s).lunits = (fls k s).lunits := by
  simp only [suspendOp, drawNat]
  generalize (List.filter _ _ : List (Nat × Nat)) = ops
  split
  · exact ⟨rfl, rfl⟩
  · split
    · exact ⟨rfl, rfl⟩
    · split
      · exact ⟨rfl, rfl⟩
      · refine ⟨by rw [bump_frame]; rfl, ?_⟩
        rw [fls_bump, fls_modFls]
        rfl

/-- A codeword read for its bytes. -/
theorem flsFetch_facts (k : Core) (s n : Nat) : FetchKept k (flsFetch k s n) ∧ (fls (flsFetch k s n) s).lunits = (fls k s).lunits := by
  generalize levelled : modFls (bump { k with fresh := k.fresh + 1 } (oFls s + 0x18) (Config.freeNat k.fresh)) s (fun f => { f with levels := f.readLevels n }) = k1
  have first : FetchKept k k1 ∧ (fls k1 s).lunits = (fls k s).lunits := by
    rw [← levelled]
    refine ⟨by rw [bump_frame]; rfl, ?_⟩
    rw [fls_modFls, fls_bump]
    rfl
  obtain ⟨frame, units⟩ := suspendOp_facts k1 s
  have whole : flsFetch k s n = suspendOp k1 s := by rw [← levelled]; rfl
  rw [whole]
  exact ⟨fetchKept_trans first.1 frame, units.trans first.2⟩

@[simp] theorem flsFetch_flash (k : Core) (s n : Nat) : (flsFetch k s n).flash = k.flash := by rw [(flsFetch_facts k s n).1]

theorem flashRead_facts (k : Core) (s u page cw errs : Nat) : let t := flashRead k s u page cw errs
    t = { k with flash := t.flash, flss := t.flss, ctr := t.ctr, fresh := t.fresh } ∧
      t.flash = if userCw u page cw = true ∧ (errs ≤ 120 ∨ (fls k s).programmed u page = false) then
        k.flash.setBads false (8 * flsLine s u page (32 * cw)) 256 else k.flash := by
  obtain ⟨frame, -⟩ := flsFetch_facts k s 0
  simp only [flashRead]
  generalize flsFetch k s 0 = t at frame
  by_cases user : userCw u page cw = true
  · simp only [user, Bool.not_true, Bool.false_eq_true, if_false, true_and]
    by_cases good : errs ≤ 120 ∨ (fls k s).programmed u page = false
    · simp only [if_pos good, markCw]
      generalize 8 * flsLine s u page (32 * cw) = w
      generalize 256 = n
      rw [frame]
      exact ⟨rfl, rfl⟩
    · simp only [if_neg good]
      rw [frame]
      exact ⟨rfl, rfl⟩
  · simp [user]

/-- Retries that end with one that decodes. -/
theorem flashReadRetry_decodes {k : Core} {s u page cw n : Nat} {errs : List Nat} (user : userCw u page cw = true)
    (programmed : (fls k s).programmed u page = true) (decodes : (errs.take 3).findIdx? (fun e => decide (e ≤ 120)) = some n) :
    flashReadRetry k s u page cw errs = { bump (flsFetch k s (n + 1)) (oFls s + 0x20 + 8 * n) 1 with
      flash := k.flash.setBads false (8 * flsLine s u page (32 * cw)) 256 } := by
  obtain ⟨frame, -⟩ := flsFetch_facts k s (n + 1)
  obtain ⟨inside, -⟩ := List.findIdx?_eq_some_iff_findIdx_eq.mp decodes
  have early : n < 3 := lt_of_lt_of_le inside (List.length_take_le 3 errs)
  have some_ : errs ≠ [] := by
    rintro rfl
    simp at decodes
  simp only [flashReadRetry, retryOf, decodes, user, programmed]
  rw [if_neg (by simpa using some_)]
  simp only [markCw, countRetry, if_true, if_pos (by omega : n + 1 ≤ 3), Nat.add_sub_cancel, bump_fields, flsFetch_flash]

/-- Retries that all fail, where no object lies. -/
theorem flashReadRetry_fails {k : Core} {s u page cw : Nat} {errs : List Nat} (user : userCw u page cw = true)
    (programmed : (fls k s).programmed u page = true) (bad : ∀ e ∈ errs, 120 < e) (three : 3 ≤ errs.length)
    (alone : homesAt k s (cwLine k s u page cw) = []) :
    flashReadRetry k s u page cw errs =
      errRecord (bump { flsFetch k s 3 with flash := k.flash.setBads true (8 * flsLine s u page (32 * cw)) 256 } (oFls s + 0x38) 1)
        { reason := 0x0701, cls := 2, source := 3, inst := s, addr := cwLine k s u page cw } := by
  obtain ⟨frame, -⟩ := flsFetch_facts k s 3
  have none : (errs.take 3).findIdx? (fun e => decide (e ≤ 120)) = Option.none := by
    rw [List.findIdx?_eq_none_iff]
    intro e mem
    have := bad e (List.mem_of_mem_take mem)
    simp
    omega
  have some_ : errs.isEmpty = false := by
    cases errs with
    | nil => simp at three
    | cons _ _ => rfl
  have homes (t : Core) (regs : t.regs = k.regs) (objs : t.objs = k.objs) : homesAt t s (cwLine k s u page cw) = [] := by
    rw [← alone, homesAt, homesAt, isPart_of_regs regs, objs]
  generalize marked : markCw (flsFetch k s 3) s u page cw true = k1
  have regs : k1.regs = k.regs := by rw [← marked, markCw, frame]
  have objs : k1.objs = k.objs := by rw [← marked, markCw, frame]
  have record : cwRecord k1 s (cwLine k s u page cw) = errRecord (countRetry k1 s 4)
      { reason := 0x0701, cls := 2, source := 3, inst := s, addr := cwLine k s u page cw } := by
    simp only [cwRecord, homes k1 regs objs]
    rfl
  have left : homesAt (cwRecord k1 s (cwLine k s u page cw)) s (cwLine k s u page cw) = [] :=
    homes _ (by simp [record, countRetry, regs]) (by simp [record, countRetry, objs])
  simp only [flashReadRetry, retryOf, none, user, programmed, some_, Nat.min_eq_left three, marked, left]
  rw [if_neg (by simp), if_neg (by simp), if_neg (by omega), List.foldl_nil, record]
  simp only [← marked, markCw, flsFetch_flash, countRetry]
  rfl

/-! ## The scrub (R523) -/

theorem fls_modAct (k : Core) (n : Nat) (f : Act → Act) (s : Nat) : fls (modAct k n f) s = fls k s := fls_of_flss (by unfold modAct; split <;> rfl) s

/-- A page whose codewords all decode at once: the scrub counts it and goes on to the next. -/
theorem flashScrubPage_clean {k : Core} {s n l p l' p' : Nat} {a : Act} {rs : List Nat} (slot : slotOfAct k 3 s = some (n, a)) (runs : a.st = 2)
    (here : nextScrub (fls k s) (fls k s).scrubUnit (fls k s).scrubPage = some (l, p)) (next : nextScrub (fls k s) l (p + 1) = some (l', p'))
    (clean : ∀ r ∈ rs, r = 0) :
    flashScrubPage k s rs = modFls (modAct (flsFetch k s 0) n fun a => { a with done := a.done + 1 }) s
      fun f => { f with scrubUnit := l', scrubPage := p' } := by
  generalize listed : (if (fls k s).programmed l p then rs.take 8 else []).zipIdx = ws
  have zero : ∀ w ∈ ws, w.1 = 0 := fun w mem => by
    rw [← listed] at mem
    have inside := List.fst_mem_of_mem_zipIdx mem
    split at inside
    · exact clean _ (List.mem_of_mem_take inside)
    · exact absurd inside List.not_mem_nil
  have top : ws.foldl (fun m r => max m r.1) 0 = 0 :=
    List.foldlRecOn (motive := fun m : Nat => m = 0) ws _ rfl fun m kept w mem => by rw [kept, zero w mem]; rfl
  have good : (ws.filter fun r => decide (1 ≤ r.1 ∧ r.1 ≤ 3)) = [] := List.filter_eq_nil_iff.mpr fun w mem => by simp [zero w mem]
  have bad : (ws.filter fun r => decide (3 < r.1)) = [] := List.filter_eq_nil_iff.mpr fun w mem => by simp [zero w mem]
  have none (t : Core) : ws.foldl (fun k r => if r.1 = 0 then k else if r.1 ≤ 3 then countRetry k s r.1 else cwRecord k s (cwLine k s l p r.2)) t = t :=
    List.foldlRecOn (motive := fun u : Core => u = t) ws _ rfl fun u kept w mem => by rw [if_pos (zero w mem), kept]
  have units : nextScrub (fls (modAct (flsFetch k s 0) n fun a => { a with done := a.done + 1 }) s) l (p + 1) = some (l', p') := by
    rw [fls_modAct, ← next, nextScrub, nextScrub, (flsFetch_facts k s 0).2]
  simp only [flashScrubPage, slot, runs, here, listed, top, good, bad, none]
  rw [if_neg (by decide)]
  simp only [Nat.min_zero, List.length_nil, Nat.add_zero, units]

/-! ## The Conductor's fetches (R398) -/

theorem codeBytes_of_kept {k t : Core} (kept : FetchKept k t) (a n : Nat) : codeBytes t a n = codeBytes k a n := by
  rw [kept]
  rfl

theorem bump_fetchKept {k t : Core} (kept : FetchKept k t) (o n : Nat) : FetchKept k (bump t o n) :=
  fetchKept_trans kept (by rw [bump_frame])

section Fetches
variable {k : Core} {a : Nat} (booted : k.glb.startup.bootDone = true) (on : k.glb.st ≠ .off) (inside : a < 2 ^ 30)
include booted on inside

theorem codeRegionFetch_hit (hit : (k.code.buffer.any fun e => e.1 == a / 512) = true) (n : Nat) :
    codeRegionFetch k a false n = k ∧ ((k.code.targets.any fun e => e.1 == a) = true → codeRegionFetch k a true n = k) ∧
    ((k.code.targets.any fun e => e.1 == a) = false → k.code.targets.length < 64 →
      codeRegionFetch k a true n = { k with code := { k.code with targets := k.code.targets ++ [(a, codeBytes k a 64)] } }) := by
  have goes : (!k.glb.startup.bootDone || k.glb.st == .off || decide (2 ^ 30 ≤ a)) = false := by
    simp [booted, on]
    omega
  simp only [codeRegionFetch, goes, hit]
  refine ⟨rfl, fun kept => ?_, fun new room => ?_⟩
  · simp [kept]
  · simp [new, room]

/-- A miss that reads its lines fills the buffer from what the code region holds. -/
theorem codeRegionFetch_miss (miss : (k.code.buffer.any fun e => e.1 == a / 512) = false) {n : Nat} (early : n ≤ 3) {t : Core} (kept : FetchKept k t)
    (read : (if n = 0 then flsFetch k 0 n else countRetry (flsFetch k 0 n) 0 n) = t) :
    codeRegionFetch k a false n =
      { t with code := { k.code with buffer := (upFrom (a / 512) 8).map fun n => (n, codeBytes k (512 * n) 512) } } := by
  have goes : (!k.glb.startup.bootDone || k.glb.st == .off || decide (2 ^ 30 ≤ a)) = false := by
    simp [booted, on]
    omega
  have late : decide (3 < n) = false := by simpa using early
  have code : t.code = k.code := by rw [kept]
  simp only [codeRegionFetch, goes, miss, late, Nat.min_eq_right early, Bool.false_eq_true, if_false, read, codeBytes_of_kept kept, code]
  rfl

/-- A miss no retry reads halts the device. -/
theorem codeRegionFetch_fails (miss : (k.code.buffer.any fun e => e.1 == a / 512) = false) (running : k.glb.st ≠ .halted) {n : Nat} (late : 3 < n)
    (taken : Bool) : let t := codeRegionFetch k a taken n
    t.glb.st = .halted ∧ t.err.last = some (k.err.last.getD { reason := 0x0701, cls := 4, source := 3, inst := 0, arg := 32768 + a / 16384 }) := by
  have goes : (!k.glb.startup.bootDone || k.glb.st == .off || decide (2 ^ 30 ≤ a)) = false := by
    simp [booted, on]
    omega
  have kept := bump_fetchKept (flsFetch_facts k 0 3).1 (oFls 0 + 0x38) 1
  generalize counted : bump (flsFetch k 0 3) (oFls 0 + 0x38) 1 = t at kept
  have fails : codeRegionFetch k a taken n = failStop t rUncorrectable 3 0 (32768 + a / 16384) := by
    simp only [codeRegionFetch, goes, miss, Nat.min_eq_left (by omega : 3 ≤ n), countRetry]
    simp only [if_neg (by omega : ¬ n = 0), if_neg (by omega : ¬ n ≤ 3), counted]
    simp [late]
  have glb : t.glb = k.glb := by rw [kept]
  have err : t.err = k.err := by rw [kept]
  obtain ⟨state, -, -, -, -, last⟩ := failStop_running rUncorrectable 3 0 (32768 + a / 16384) (k := t) (by rw [glb]; exact on) (by rw [glb]; exact running)
  dsimp only
  rw [fails]
  exact ⟨state, by rw [last, err]; rfl⟩

end Fetches

end Sys2Proof.Proofs.FlashReads
end

section
/-! PROOFS. What reading an object leaves: all but objects, device memory, the host's queues, counters, errors, what waits on the object,
and the last block each stack has reported (R319, R325, R327, R351). -/

namespace Sys2Proof.Proofs.ReadFrames
open Sys2Proof.Machine Sys2Proof.Laws Sys2Proof.Proofs.Reads Sys2Proof.Proofs.SetLoading Sys2Proof.Proofs.ObjectEntry
open Sys2Proof.Proofs.HostReads Sys2Proof.Proofs.FlashReads

/-- The parts of the core that reading an object leaves. -/
@[simp] abbrev ReadParts (k t : Core) : Prop :=
  t.pins = k.pins ∧ t.shadow = k.shadow ∧ t.burn = k.burn ∧ t.glb = k.glb ∧ t.regs = k.regs ∧ t.ctxs = k.ctxs ∧ t.accts = k.accts ∧ t.seqs = k.seqs ∧ t.pools = k.pools ∧
  t.msets = k.msets ∧ t.doms = k.doms ∧ t.sched = k.sched ∧ t.stg = k.stg ∧ t.tiles = k.tiles ∧ t.ghcs = k.ghcs ∧ t.incs = k.incs ∧ t.fab = k.fab ∧ t.flOps = k.flOps ∧
  t.flash = k.flash ∧ t.slotA = k.slotA ∧ t.slotB = k.slotB ∧ t.lifeMarker = k.lifeMarker ∧ t.code = k.code ∧ t.pwr = k.pwr ∧ t.pst = k.pst ∧ t.sec = k.sec ∧ t.maint = k.maint

/-- Those parts, and each stack but for its last report. -/
structure ReadFrame (k t : Core) : Prop where
  parts : ReadParts k t
  stks : ∀ s, stk t s = { stk k s with pxLast := (stk t s).pxLast }
  flss : ∀ s, fls t s = { fls k s with pxLast := (fls t s).pxLast }

theorem readFrame_of_parts {k t : Core} (parts : ReadParts k t) (stks : t.stks = k.stks) (flss : t.flss = k.flss) : ReadFrame k t where
  parts := parts
  stks s := by rw [stk, stk, stks]
  flss s := by rw [fls, fls, flss]

theorem ReadFrame.refl (k : Core) : ReadFrame k k := readFrame_of_parts (by simp) rfl rfl

theorem ReadFrame.after {k t u : Core} (last : ReadFrame t u) (first : ReadFrame k t) : ReadFrame k u where
  parts := by
    have a := last.parts
    have b := first.parts
    simp only [ReadParts] at a b ⊢
    simp only [a, b, and_self]
  stks s := by
    have a := last.stks s
    rw [first.stks s] at a
    exact a
  flss s := by
    have a := last.flss s
    rw [first.flss s] at a
    exact a

theorem ReadFrame.foldl {α : Type} {f : Core → α → Core} (hf : ∀ k x, ReadFrame k (f k x)) (l : List α) (k : Core) : ReadFrame k (l.foldl f k) :=
  List.foldlRecOn (motive := ReadFrame k) l f (.refl k) fun t kept x _ => (hf t x).after kept

/-! ## Space, evictions and fetches -/

theorem modObj_readFrame (k : Core) (h : Nat) (f : Obj → Obj) : ReadFrame k (modObj k h f) := readFrame_of_parts (by simp) rfl rfl

theorem beginFetch_readFrame (k : Core) (h a : Nat) : ReadFrame k (beginFetch k h a) := by
  simp only [beginFetch]
  split
  · exact readFrame_of_parts (by simp) (by simp) (by simp)
  · exact modObj_readFrame ..

theorem evictUntil_readFrame (k : Core) (d n : Nat) (limit skip : Option Nat) (fuel : Nat) : ReadFrame k (evictUntil k d n limit skip fuel) := by
  induction fuel generalizing k with
  | zero => exact .refl k
  | succ fuel ih =>
    unfold evictUntil
    split <;> [skip; split]
    · exact .refl k
    · exact .refl k
    · exact (ih _).after (modObj_readFrame ..)

theorem takeSpace_readFrame (k : Core) (h : Nat) (skip : Option Nat) : ReadFrame k (takeSpace k h skip) := by
  simp only [takeSpace]
  split
  · exact beginFetch_readFrame ..
  · exact (modObj_readFrame ..).after (evictUntil_readFrame ..)

theorem takeOrDrop_readFrame (k : Core) (h : Nat) (limit skip : Option Nat) : ReadFrame k (takeOrDrop k h limit skip) := by
  simp only [takeOrDrop]
  split <;> [skip; split]
  · exact beginFetch_readFrame ..
  · exact (modObj_readFrame ..).after (evictUntil_readFrame ..)
  · exact readFrame_of_parts (by simp) (by simp) (by simp)

theorem retrySpace_readFrame (k : Core) (skip : Option Nat) : ReadFrame k (retrySpace k skip) := by
  refine ReadFrame.foldl (fun k h => ?_) _ k
  dsimp only
  split <;> [skip; split]
  · exact .refl k
  · exact takeSpace_readFrame ..
  · exact takeOrDrop_readFrame ..

theorem errRecord_readFrame (k : Core) (e : ErrRec) : ReadFrame k (errRecord k e) := readFrame_of_parts (by simp) (by simp) (by simp)
theorem hostRead_readFrame (k : Core) (r : HostRd) : ReadFrame k (hostRead k r) := readFrame_of_parts (by simp) (by simp) (by simp)
theorem bump_readFrame (k : Core) (o n : Nat) : ReadFrame k (bump k o n) := readFrame_of_parts (by simp) (by simp) (by simp)
theorem retireFlt_readFrame (k : Core) (f : Flt) (r a : Nat) (p : List Byte) : ReadFrame k (retireFlt k f r a p) :=
  readFrame_of_parts (by simp) (by simp) (by simp)

theorem writeGranules_readFrame (k : Core) (h : Nat) (l : List Nat) : ReadFrame k (writeGranules k h l) := by
  refine ReadFrame.foldl (fun k g => ?_) l k
  simp only [writeGranule]
  split
  · exact (errRecord_readFrame ..).after (readFrame_of_parts (by simp) (by simp) (by simp))
  · exact readFrame_of_parts (by simp) (by simp) (by simp)

theorem endObj_readFrame (k : Core) (op h reason arg : Nat) : ReadFrame k (endObj k op h reason arg) :=
  ReadFrame.foldl (fun _ _ => retireFlt_readFrame ..) _ k

theorem stopEviction_readFrame (k : Core) (h : Nat) : ReadFrame k (stopEviction k h) := by
  simp only [stopEviction, drawNat]
  refine (retrySpace_readFrame ..).after ((endObj_readFrame ..).after ((modObj_readFrame ..).after ((writeGranules_readFrame ..).after ?_)))
  exact readFrame_of_parts (by simp) rfl rfl

theorem promote_readFrame (k : Core) (h : Nat) : ReadFrame k (promote k h) := by
  simp only [promote]
  split
  · exact .refl k
  · split
    · exact .refl k
    · exact .refl k
    · exact stopEviction_readFrame ..
    · split
      · exact .refl k
      · exact takeSpace_readFrame ..

theorem fetchLines_readFrame (h n : Nat) (k : Core) : ReadFrame k (fetchLines k h n) := by
  induction n generalizing k with
  | zero => exact .refl k
  | succ n ih =>
    unfold fetchLines
    dsimp only
    split
    · exact .refl k
    · exact (ih _).after ((modObj_readFrame ..).after (readFrame_of_parts (by simp [putCopyLine]) rfl rfl))

theorem fetchOn_readFrame (k : Core) (h : Nat) : ReadFrame k (fetchOn k h) := by
  simp only [fetchOn, drawNat]
  split
  · exact (fetchLines_readFrame ..).after (readFrame_of_parts (by simp) rfl rfl)
  · exact .refl k

theorem fetchSeen_readFrame (k : Core) (h : Nat) : ReadFrame k (fetchSeen k h) := by
  simp only [fetchSeen]
  split <;> split
  · exact (fetchOn_readFrame ..).after (stopEviction_readFrame ..)
  · exact stopEviction_readFrame ..
  · exact fetchOn_readFrame ..
  · exact .refl k

/-! ## Opening and reading -/

theorem stallObj_readFrame (k : Core) (w : Reader) (d n : Nat) : ReadFrame k (stallObj k w d n) := by
  simp only [stallObj]
  split
  · exact bump_readFrame ..
  · exact .refl k

theorem stallSpace_readFrame (k : Core) (w : Reader) (d h : Nat) : ReadFrame k (stallSpace k w d h) := by
  simp only [stallSpace]
  split <;> [skip; split]
  · exact stallObj_readFrame ..
  · exact stallObj_readFrame ..
  · exact .refl k

theorem stallFlash_readFrame (k : Core) (w : Reader) (d : Nat) : ReadFrame k (stallFlash k w d) := by
  simp only [stallFlash, drawNat]
  split
  · exact (bump_readFrame ..).after (readFrame_of_parts (by simp) rfl rfl)
  · exact .refl k

/-- What a way of opening an object or a read of it leaves. -/
def Way.kept (k : Core) : Way → Prop
  | .lost _ => True
  | .wait t => ReadFrame k t
  | .go t => ReadFrame k t
def Fetched.kept (k : Core) : Fetched → Prop
  | .lost _ => True
  | .wait t => ReadFrame k t
  | .lines t _ => ReadFrame k t

theorem openAt_readFrame (k : Core) (w : Reader) (d h : Nat) (ls : List Nat) (off len : Nat) : Way.kept k (openAt k w d h ls off len) := by
  have seen := fetchSeen_readFrame k h
  generalize shown : fetchSeen k h = k1 at seen
  unfold fetchSeen at shown
  unfold openAt
  dsimp only at shown ⊢
  rw [shown]
  have waits (n : Nat) : ReadFrame k (stallObj k1 w d n) := (stallObj_readFrame ..).after seen
  split <;> [skip; split]
  · trivial
  · exact ReadFrame.refl k
  · split
    · split
      · exact seen
      · exact waits _
    · exact seen
    · split <;> [skip; split]
      · exact waits _
      · exact waits _
      · exact seen
    · split <;> [skip; (split <;> [skip; (split <;> [skip; (split <;> [skip; (split <;> [skip; split])])])])]
      · exact waits _
      · exact (stallSpace_readFrame ..).after ((promote_readFrame ..).after seen)
      · exact (stallSpace_readFrame ..).after seen
      · exact (stallFlash_readFrame ..).after seen
      · exact seen
      · exact waits _
      · exact (stallObj_readFrame ..).after ((hostRead_readFrame ..).after seen)

theorem Way.kept_after {k t : Core} (first : ReadFrame k t) {x : Way} (next : Way.kept t x) : Way.kept k x := by
  cases x with
  | lost h => trivial
  | wait u => exact ReadFrame.after next first
  | go u => exact ReadFrame.after next first

theorem openBoth_readFrame (k : Core) (w : Reader) (d h l n : Nat) : Way.kept k (openBoth k w d h l n) := by
  have first := openAt_readFrame k w d h (neededLines (obj k h) l n) (neededBytes (obj k h) l n).1 (neededBytes (obj k h) l n).2
  simp only [openBoth, openRead]
  generalize openAt k w d h _ _ _ = x at first
  cases x with
  | lost g => trivial
  | wait t => exact first
  | go t =>
    dsimp only
    split
    · exact Way.kept_after first (openAt_readFrame ..)
    · exact first

theorem loadPxLast_readFrame (k : Core) (px v : Nat) : ReadFrame k (loadPxLast k px v) := by
  simp only [loadPxLast]
  split
  · refine { parts := by simp, stks := fun s => ?_, flss := fun s => rfl }
    simp only [stk, mget_mmod]
    split
    · next same => rw [same]
    · rfl
  · refine { parts := by simp, stks := fun s => rfl, flss := fun s => ?_ }
    simp only [fls, mget_mmod]
    split
    · next same => rw [same]
    · rfl

theorem reportBlock_readFrame (k : Core) (px h n check : Nat) : ReadFrame k (reportBlock k px h n check) := by
  simp only [reportBlock]
  split
  · exact .refl k
  · exact (errRecord_readFrame ..).after ((loadPxLast_readFrame ..).after (bump_readFrame ..))

theorem startRecovery_readFrame (k : Core) (h : Nat) (ls : List Nat) : ReadFrame k (startRecovery k h ls) := by
  simp only [startRecovery]
  split
  · exact .refl k
  · split
    · exact (ReadFrame.foldl (fun _ _ => hostRead_readFrame ..) _ _).after (modObj_readFrame ..)
    · exact modObj_readFrame ..

theorem damagedBlock_readFrame (k : Core) (h n check : Nat) : ReadFrame k (damagedBlock k h n check).1 := by
  simp only [damagedBlock]
  split <;> [split; skip]
  · exact (promote_readFrame ..).after (reportBlock_readFrame ..)
  · exact (startRecovery_readFrame ..).after (reportBlock_readFrame ..)
  · exact reportBlock_readFrame ..

theorem holdBlocks_readFrame (h : Nat) (host hostB : Nat × List Byte) (m n : Nat) (k : Core) : ReadFrame k (holdBlocks k h host hostB n m).1 := by
  induction m generalizing k n with
  | zero => exact .refl k
  | succ m ih =>
    unfold holdBlocks
    split <;> [skip; split]
    · exact ih _ _
    · exact (ih _ _).after (damagedBlock_readFrame ..)
    · exact ih _ _

theorem readBlocks_readFrame (h : Nat) (host hostB : Nat × List Byte) (m n : Nat) (k : Core) : ReadFrame k (readBlocks k h host hostB n m).1 := by
  induction m generalizing k n with
  | zero => exact .refl k
  | succ m ih =>
    unfold readBlocks
    dsimp only
    split
    · exact (ih _ _).after (damagedBlock_readFrame ..)
    · refine (ih _ _).after ?_
      split
      · exact (bump_readFrame ..).after ((bump_readFrame ..).after (bump_readFrame ..))
      · exact (bump_readFrame ..).after (bump_readFrame ..)

theorem holdRead_readFrame (k : Core) (w : Reader) (h l n : Nat) : ReadFrame k (holdRead k w h l n).1 := by
  rw [holdRead]
  split
  · exact .refl k
  · exact holdBlocks_readFrame ..

theorem takeLines_readFrame (k : Core) (w : Reader) (h l n : Nat) : ReadFrame k (takeLines k w h l n).1 := by
  simp only [takeLines]
  split
  · exact readFrame_of_parts (by simp) rfl rfl
  · exact readBlocks_readFrame ..

/-- Reading an object leaves all of those parts. -/
theorem readObj_readFrame (k : Core) (w : Reader) (d h l n : Nat) : Fetched.kept k (readObj k w d h l n) := by
  have both := openBoth_readFrame k w d h l n
  simp only [readObj]
  generalize openBoth k w d h l n = x at both
  cases x with
  | lost g => trivial
  | wait t => exact both
  | go t =>
    have held := (holdRead_readFrame t w h l n).after both
    dsimp only
    rcases hold : holdRead t w h l n with ⟨u, waits⟩
    rw [hold] at held
    cases waits
    · exact (takeLines_readFrame ..).after held
    · exact held

end Sys2Proof.Proofs.ReadFrames
end

section
/-! PROOFS. Erases and page programs of the flash (R388 to R394, R401, R404). -/

namespace Sys2Proof.Proofs.FlashWrites
open Sys2Proof.Machine Sys2Proof.Laws Sys2Proof.Proofs.Reads Sys2Proof.Proofs.StackReach Sys2Proof.Proofs.StackRows Sys2Proof.Proofs.SetLoading
open Sys2Proof.Proofs.ObjectEntry Sys2Proof.Proofs.FlashReads Sys2Proof.Proofs.ReadFrames Sys2Proof.Proofs.MemoryLines

/-! ## What the end of an operation leaves -/

/-- The units of a stack: what each physical and logical unit is, the erases under way, whether it is worn; and none more to erase. -/
structure UnitsKept (f g : Fls) : Prop where
  units : g.punits = f.punits ∧ g.lunits = f.lunits ∧ g.cal = f.cal ∧ g.erasing = f.erasing ∧ g.worn = f.worn
  none : f.toErase = [] → g.toErase = []

/-- The flash and the units of every stack stay. -/
structure FlashKept (k t : Core) : Prop where
  flash : t.flash = k.flash
  units : ∀ s, UnitsKept (fls k s) (fls t s)

theorem UnitsKept.refl (f : Fls) : UnitsKept f f := ⟨⟨rfl, rfl, rfl, rfl, rfl⟩, id⟩

theorem UnitsKept.after {f g h : Fls} (last : UnitsKept g h) (first : UnitsKept f g) : UnitsKept f h where
  units := by
    have a := last.units
    have b := first.units
    simp only [a, b, and_self]
  none empty := last.none (first.none empty)

theorem flashKept_of_eq {k t : Core} (flash : t.flash = k.flash) (flss : t.flss = k.flss) : FlashKept k t where
  flash := flash
  units s := by rw [fls_of_flss flss]; exact .refl _

theorem FlashKept.refl (k : Core) : FlashKept k k := flashKept_of_eq rfl rfl

theorem FlashKept.after {k t u : Core} (last : FlashKept t u) (first : FlashKept k t) : FlashKept k u where
  flash := last.flash.trans first.flash
  units s := (last.units s).after (first.units s)

theorem FlashKept.foldl {α : Type} {f : Core → α → Core} (hf : ∀ k x, FlashKept k (f k x)) (l : List α) (k : Core) : FlashKept k (l.foldl f k) :=
  List.foldlRecOn (motive := FlashKept k) l f (.refl k) fun t kept x _ => (hf t x).after kept

theorem modFls_eq (k : Core) (s : Nat) (f : Fls → Fls) : modFls k s f = { k with flss := mput k.flss s (f (fls k s)) } := rfl

theorem flashKept_ite {k t u : Core} {p : Prop} [Decidable p] (yes : FlashKept k t) (no : FlashKept k u) : FlashKept k (if p then t else u) := by
  split
  · exact yes
  · exact no

theorem UnitsKept.punit {f g : Fls} (kept : UnitsKept f g) (u : Nat) : g.punit u = f.punit u := by
  obtain ⟨punits, -, cal, -⟩ := kept.units
  simp only [Fls.punit, Fls.born, Fls.badUnits, punits, cal]
  rfl

theorem fls_modFls_ne {k : Core} {s n : Nat} (f : Fls → Fls) (other : n ≠ s) : fls (modFls k s f) n = fls k n := mget_mput_ne _ _ _ other

theorem modFls_flashKept (k : Core) (s : Nat) {f : Fls → Fls} (keeps : ∀ g, UnitsKept g (f g)) : FlashKept k (modFls k s f) where
  flash := rfl
  units n := by
    by_cases own : n = s
    · subst own
      rw [fls_modFls]
      exact keeps _
    · rw [fls_modFls_ne _ own]
      exact .refl _

theorem journal_flashKept (k : Core) (s : Nat) (e : JEnt) : FlashKept k (journal k s e) :=
  modFls_flashKept k s fun g => by
    dsimp only
    split <;> exact ⟨⟨rfl, rfl, rfl, rfl, rfl⟩, id⟩

theorem closeUnits_flashKept (k : Core) (l : List OpenUnit) : FlashKept k (closeUnits k l) := FlashKept.foldl (fun _ _ => journal_flashKept ..) l k

theorem programEnds_flashKept (k : Core) (s : Nat) : FlashKept k (programEnds k s) := modFls_flashKept k s fun _ => ⟨⟨rfl, rfl, rfl, rfl, rfl⟩, id⟩

theorem setFlOp_flashKept (k : Core) (o o' : FlOp) : FlashKept k (setFlOp k o o') := flashKept_of_eq rfl rfl

theorem flsRest_frame (k : Core) (s : Nat) : flsRest k s = { k with maint := (flsRest k s).maint } := by
  unfold flsRest
  split
  · obtain ⟨m, e⟩ := hwEnd_maint k 6 s
    rw [e]
  · rfl

theorem flsRest_flashKept (k : Core) (s : Nat) : FlashKept k (flsRest k s) := flashKept_of_eq (by rw [flsRest_frame]) (by rw [flsRest_frame])

/-- The end of an operation: it alone leaves the list, and no unit changes. -/
theorem endFlOp_facts (k : Core) (o : FlOp) (reason arg : Nat) (payload : List Byte) :
    FlashKept k (endFlOp k o reason arg payload) ∧ (endFlOp k o reason arg payload).flOps = k.flOps.erase o := by
  generalize stopped : (o.stacks.filter fun s => (currentPage k s).map Prod.fst == some o).foldl programEnds k = k0
  have start : FlashKept k k0 ∧ k0.flOps = k.flOps := by
    rw [← stopped]
    exact ⟨FlashKept.foldl programEnds_flashKept _ _, foldl_fixes (g := Core.flOps) (fun k s => by simp only [programEnds, modFls]) _ _⟩
  have erased : FlashKept k0 { k0 with flOps := k0.flOps.erase o } := flashKept_of_eq rfl rfl
  have taken := erased.after start.1
  simp only [endFlOp, stopped]
  generalize given : (if o.erase = true then _ else _ : Core) = k2
  have gave : FlashKept k k2 ∧ k2.flOps = k.flOps.erase o := by
    rw [← given, ← start.2]
    split
    · refine ⟨FlashKept.after (modFls_flashKept _ _ fun g => ⟨⟨rfl, rfl, rfl, rfl, rfl⟩, fun none => ?_⟩) taken, rfl⟩
      simp [none]
    · have closed := (closeUnits_flashKept { k0 with flOps := k0.flOps.erase o } o.opened).after taken
      have ops (l : List OpenUnit) (k : Core) : (closeUnits k l).flOps = k.flOps := foldl_fixes (g := Core.flOps) (fun k e => by simp only [journal, modFls]) _ _
      have kept (t : Core) (flash : t.flash = (closeUnits { k0 with flOps := k0.flOps.erase o } o.opened).flash)
          (flss : t.flss = (closeUnits { k0 with flOps := k0.flOps.erase o } o.opened).flss) : FlashKept k t := (flashKept_of_eq flash flss).after closed
      split
      · exact ⟨kept _ rfl rfl, ops _ _⟩
      · exact ⟨kept _ rfl rfl, ops _ _⟩
  have rested : FlashKept k (o.stacks.foldl flsRest k2) ∧ (o.stacks.foldl flsRest k2).flOps = k.flOps.erase o :=
    ⟨(FlashKept.foldl flsRest_flashKept _ _).after gave.1,
      (foldl_fixes (g := Core.flOps) (fun k s => by rw [flsRest_frame]) _ _).trans gave.2⟩
  split
  · exact ⟨(flashKept_of_eq (by simp) (by simp)).after rested.1, by simpa using rested.2⟩
  · exact rested

theorem endFlOps_facts {f : Core → FlOp → Core} (ends : ∀ k o, FlashKept k (f k o) ∧ (f k o).flOps = k.flOps.erase o) (l : List FlOp) (k : Core) :
    FlashKept k (l.foldl f k) ∧ (l.foldl f k).flOps = l.foldl List.erase k.flOps :=
  ⟨FlashKept.foldl (fun k o => (ends k o).1) l k, (List.foldl_hom Core.flOps fun k o => (ends k o).2.symm).symm⟩

theorem finishErases_flashKept (k : Core) : FlashKept k (finishErases k) := (endFlOps_facts (fun _ _ => endFlOp_facts ..) _ k).1

/-! ## Erases (R389, R391) -/

theorem fls_errRecord (k : Core) (e : ErrRec) (s : Nat) : fls (errRecord k e) s = fls k s := fls_of_flss (by simp) s

/-- A stack that wears out: every operation there ends, and the flash stays. -/
theorem becomeWorn_facts (k : Core) (s : Nat) : let t := becomeWorn k s
    t.flash = k.flash ∧ (fls t s).worn = true ∧ (∀ o ∈ t.flOps, s ∉ o.stacks) ∧ ((fls k s).toErase = [] → (fls t s).toErase = []) := by
  generalize told : (if (fls k s).worn = true then k else errRecord (modFls k s fun f => { f with worn := true })
    { reason := rFlashWorn, cls := 3, source := 3, inst := s, arg := s }) = k1
  have start : k1.flash = k.flash ∧ (fls k1 s).worn = true ∧ (fls k1 s).toErase = (fls k s).toErase := by
    rw [← told]
    split
    · next worn => exact ⟨rfl, worn, rfl⟩
    · have same : fls (errRecord (modFls k s fun f => { f with worn := true }) { reason := rFlashWorn, cls := 3, source := 3, inst := s, arg := s }) s =
          { fls k s with worn := true } := (fls_errRecord ..).trans (fls_modFls ..)
      exact ⟨by simp [modFls], by rw [same], by rw [same]⟩
  obtain ⟨ended, ops⟩ := endFlOps_facts (f := fun k o => endFlOp k o rFlashWorn s []) (fun _ _ => endFlOp_facts ..)
    (k1.flOps.filter fun o => o.stacks.contains s) k1
  have whole : becomeWorn k s = (k1.flOps.filter fun o => o.stacks.contains s).foldl (fun k o => endFlOp k o rFlashWorn s []) k1 := by rw [← told]; rfl
  dsimp only
  rw [whole]
  refine ⟨ended.flash.trans start.1, (ended.units s).units.2.2.2.2.trans start.2.1, fun o mem inside => ?_, fun none => (ended.units s).none (start.2.2.trans none)⟩
  rw [ops] at mem
  have other := ObjectEnds.not_mem_eraseAll _ _ mem
  simp [inside] at other

theorem ofLE_ones (n : Nat) : ofLE (List.replicate n 0xFF) = 2 ^ (8 * n) - 1 := by
  induction n with
  | zero => rfl
  | succ n ih =>
    have positive := Nat.two_pow_pos (8 * n)
    have grow : 2 ^ (8 * (n + 1)) = 256 * 2 ^ (8 * n) := by rw [Nat.mul_succ, Nat.pow_add, Nat.mul_comm]
    have byte : (0xFF : Byte).toNat = 255 := rfl
    rw [List.replicate_succ, ofLE, ih, byte, grow]
    omega

theorem ones_line : BitVec.ofNat 512 (ofLE (List.replicate 64 0xFF)) = BitVec.allOnes 512 := by
  apply BitVec.eq_of_toNat_eq
  rw [BitVec.toNat_ofNat, BitVec.toNat_allOnes, ofLE_ones, show 8 * 64 = 512 from rfl,
    Nat.mod_eq_of_lt (Nat.sub_lt (Nat.two_pow_pos 512) Nat.one_pos)]

theorem wipedLine (m : Mem) {lo hi l : Nat} (inside : lo ≤ l ∧ l < hi) : (m.wipe lo hi).line 0xFF l = BitVec.allOnes 512 := by
  have bytes : (m.wipe lo hi).bytes 0xFF (64 * l) 64 = Mem.empty.bytes 0xFF (64 * l) 64 :=
    bytes_congr fun i low high => by
      rw [byte_wipe 0xFF m (by omega)]
      rfl
  have blank (a n : Nat) : Mem.empty.bytes 0xFF a n = List.replicate n 0xFF := by
    induction n generalizing a with
    | zero => rfl
    | succ n ih => rw [Mem.bytes, ih]; rfl
  rw [Mem.line, bytes, blank, ones_line]

section Erases
variable {k : Core} {s u pulses : Nat} {e : Erase} (mfail : Nat) (under : (fls k s).erasing.find? (fun e => e.punit == u) = some e)
  (goes : u ∉ (fls k s).suspended) (mapped : (fls k s).phys e.lunit = u) (empty : (fls k s).toErase = [])
include under goes mapped empty

/-- The state once the erase is off its stack's list. -/
def eraseTaken (k : Core) (s : Nat) (e : Erase) : Core := modFls k s fun f => { f with erasing := f.erasing.erase e }

/-- An erase that passes. -/
def erasePassed (k : Core) (s u pulses mfail : Nat) (e : Erase) : Core :=
  let n := ((fls k s).punit u).ecount + 1
  let k3 := journal (eraseTaken k s e) s { typ := jEraseEnd, seq := 0, lunit := e.lunit, punit := u, loops := pulses, mfail := mfail, ecount := n }
  let k4 := modFls k3 s (fun f => f.setPunit u (fun p => { p with ecount := n, loops := 0, mfail := 0, pend := false }))
  finishErases (unitErased (wipeUnit (modFls k4 s (fun f => f.setLun e.lunit (fun _ => {}))) s e.lunit) s e.lunit 0)

omit empty in
theorem flashEraseDone_passes (low : pulses ≤ 8) : flashEraseDone k s u pulses mfail =
    flsRest (startErases (erasePassed k s u pulses mfail e) s (fls (erasePassed k s u pulses mfail e) s).toErase.length) s := by
  simp only [flashEraseDone, under]
  rw [if_neg (by simpa using goes), if_pos low, if_pos (by simp [mapped])]
  rfl

omit under goes mapped in
/-- What an erase that passes leaves of its unit. -/
theorem erasePassed_facts : let t := erasePassed k s u pulses mfail e
    ((fls t s).punit u).ecount = ((fls k s).punit u).ecount + 1 ∧ ((fls t s).punit u).pend = false ∧ ((fls t s).lun e.lunit).frontier = 0 ∧
      (fls t s).erasing = (fls k s).erasing.erase e ∧ (fls t s).toErase = [] ∧
      ∀ l, l < 524288 → t.flash.line 0xFF (flsLine s e.lunit 0 l) = BitVec.allOnes 512 := by
  generalize count : ((fls k s).punit u).ecount + 1 = n
  generalize noted : journal (eraseTaken k s e) s { typ := jEraseEnd, seq := 0, lunit := e.lunit, punit := u, loops := pulses, mfail := mfail, ecount := n } = k3
  generalize unit : (fun p : Machine.PUnit => { p with ecount := n, loops := 0, mfail := 0, pend := false }) = g
  generalize wiped : unitErased (wipeUnit (modFls (modFls k3 s fun f => f.setPunit u g) s fun f => f.setLun e.lunit fun _ => {}) s e.lunit) s e.lunit 0 = k5
  have kept : FlashKept (eraseTaken k s e) k3 := noted ▸ journal_flashKept ..
  have own : fls k5 s = ((fls k3 s).setPunit u g).setLun e.lunit fun _ => {} := by
    rw [← wiped]
    refine (fls_of_flss (k := modFls (modFls k3 s fun f => f.setPunit u g) s fun f => f.setLun e.lunit fun _ => {}) rfl s).trans ?_
    rw [fls_modFls, fls_modFls]
  have flash : k5.flash = k.flash.wipe (flsLine s e.lunit 0 0) (flsLine s (e.lunit + 1) 0 0) := by
    have same : k3.flash = k.flash := kept.flash
    rw [← wiped, ← same]
    rfl
  have ended := finishErases_flashKept k5
  obtain ⟨⟨punits, lunits, cal, erasing, -⟩, none⟩ := ended.units s
  obtain ⟨⟨-, -, -, erasing3, -⟩, none3⟩ := kept.units s
  have taken : fls (eraseTaken k s e) s = { fls k s with erasing := (fls k s).erasing.erase e } := fls_modFls ..
  have whole : erasePassed k s u pulses mfail e = finishErases k5 := by rw [← wiped, ← unit, ← noted, ← count]; rfl
  have punit : (fls (finishErases k5) s).punit u = g ((fls k3 s).punit u) := by
    rw [Fls.punit, punits, own]
    simp [Fls.setLun, Fls.setPunit, mget?_mput_same]
  dsimp only
  rw [whole]
  refine ⟨by rw [punit, ← unit], by rw [punit, ← unit], ?_, ?_, ?_, fun l below => ?_⟩
  · rw [Fls.lun, lunits, own, Fls.setLun, mget_mmod, if_pos rfl]
  · rw [erasing, own]
    exact erasing3.trans (by rw [taken])
  · refine none ?_
    rw [own]
    exact none3 (by rw [taken]; exact empty)
  · rw [ended.flash, flash]
    exact wipedLine _ (by simp only [flsLine]; omega)

omit under goes mapped empty in
theorem startErases_none (k : Core) (s n : Nat) (none : (fls k s).toErase = []) : startErases k s n = k := by
  cases n with
  | zero => rfl
  | succ n => simp [startErases, none]

/-- An erase that passes counts and blanks its unit. -/
theorem flashEraseDone_blank (low : pulses ≤ 8) : let t := flashEraseDone k s u pulses mfail
    ((fls t s).punit u).ecount = ((fls k s).punit u).ecount + 1 ∧ ((fls t s).punit u).pend = false ∧ ((fls t s).lun e.lunit).frontier = 0 ∧
      (fls t s).erasing = (fls k s).erasing.erase e ∧ ∀ l, l < 524288 → t.flash.line 0xFF (flsLine s e.lunit 0 l) = BitVec.allOnes 512 := by
  obtain ⟨count, pend, frontier, erasing, none, lines⟩ := erasePassed_facts (u := u) (pulses := pulses) (e := e) mfail empty
  have rest : flashEraseDone k s u pulses mfail = flsRest (erasePassed k s u pulses mfail e) s := by
    rw [flashEraseDone_passes mfail under goes mapped low, startErases_none _ _ _ none]
  have kept := flsRest_flashKept (erasePassed k s u pulses mfail e) s
  obtain ⟨-, lunits, -, erases, -⟩ := (kept.units s).units
  dsimp only
  rw [rest, (kept.units s).punit, Fls.lun, lunits, erases, kept.flash]
  exact ⟨count, pend, frontier, erasing, lines⟩

/-- An erase that fails, no spare being left: the stack wears out. -/
theorem flashEraseDone_wears (high : 8 < pulses) (spares : Fls.bestSpare { fls k s with erasing := (fls k s).erasing.erase e } = none) :
    let t := flashEraseDone k s u pulses mfail
    (fls t s).worn = true ∧ (∀ o ∈ t.flOps, s ∉ o.stacks) ∧ t.flash = k.flash := by
  have taken : fls (eraseTaken k s e) s = { fls k s with erasing := (fls k s).erasing.erase e } := fls_modFls ..
  have noSpare : replaceUnit (eraseTaken k s e) s e.lunit = (false, eraseTaken k s e) := by
    simp only [replaceUnit, takeSpare]
    rw [taken, spares]
  obtain ⟨flash, worn, ops, none⟩ := becomeWorn_facts (eraseTaken k s e) s
  have still : (fls (becomeWorn (eraseTaken k s e) s) s).toErase = [] := none (by rw [taken]; exact empty)
  have whole : flashEraseDone k s u pulses mfail = flsRest (becomeWorn (eraseTaken k s e) s) s := by
    have step : flashEraseDone k s u pulses mfail = flsRest (startErases (becomeWorn (eraseTaken k s e) s) s
        (fls (becomeWorn (eraseTaken k s e) s) s).toErase.length) s := by
      simp only [flashEraseDone, under]
      rw [if_neg (by simpa using goes), if_neg (by omega), if_pos (by simp [mapped])]
      rw [← eraseTaken, noSpare]
    rw [step, startErases_none _ _ _ still]
  have kept := flsRest_flashKept (becomeWorn (eraseTaken k s e) s) s
  dsimp only
  rw [whole]
  refine ⟨(kept.units s).units.2.2.2.2.trans worn, ?_, kept.flash.trans flash⟩
  rw [flsRest_frame]
  exact ops

end Erases

/-! ## Page programs (R392 to R394) -/

/-- What a read for a store leaves, whichever way it ends. -/
def StoreData.keeps (k : Core) : StoreData → Prop
  | .ok t _ | .wait t => ReadFrame k t
  | .lost _ | .bad _ => True

theorem StoreData.keeps_after {k t : Core} (first : ReadFrame k t) {d : StoreData} (next : StoreData.keeps t d) : StoreData.keeps k d := by
  cases d with
  | ok _ _ => exact ReadFrame.after next first
  | wait _ => exact ReadFrame.after next first
  | lost _ => trivial
  | bad _ => trivial

theorem storeRead_keeps (k : Core) (o : FlOp) (h l n : Nat) : StoreData.keeps k (storeRead k o h l n) := by
  have read := readObj_readFrame k (flReader o) (obj k o.dest).dom h l n
  simp only [storeRead]
  split
  · next e => rw [e] at read; exact read
  · trivial
  · next e =>
    rw [e] at read
    split
    · trivial
    · exact read

theorem storeBlock_keeps (k : Core) (o : FlOp) (n : Nat) : StoreData.keeps k (storeBlock k o n) := by
  have first := storeRead_keeps k o o.src (o.off + 16 * n) 16
  simp only [storeBlock]
  split
  · next k1 b e =>
    rw [e] at first
    split
    · exact first
    · next g _ =>
      have second := storeRead_keeps k1 o g (16 * n) 16
      split
      · next e2 => rw [e2] at second; exact ReadFrame.after second first
      · exact StoreData.keeps_after first second
  · exact first

theorem storeBlocks_keeps (o : FlOp) (m n : Nat) (k : Core) : StoreData.keeps k (storeBlocks k o n m) := by
  induction m generalizing n k with
  | zero => exact ReadFrame.refl k
  | succ m ih =>
    have first := storeBlock_keeps k o n
    simp only [storeBlocks]
    split
    · next k1 b e =>
      rw [e] at first
      have second := ih (n + 1) k1
      split
      · next e2 => rw [e2] at second; exact ReadFrame.after second first
      · exact StoreData.keeps_after first second
    · exact first

theorem pageBytes_keeps (k : Core) (o : FlOp) (p : StPage) : StoreData.keeps k (pageBytes k o p) := by
  simp only [pageBytes]
  split
  · have read (n m : Nat) := storeBlocks_keeps o m n k
    split
    · next e => have kept := e ▸ read _ _; exact kept
    · exact read _ _
  · have read (l n : Nat) := storeRead_keeps k o o.src l n
    split
    · next e => have kept := e ▸ read _ _; exact kept
    · exact read _ _

theorem pageBytes_length {k k1 : Core} {o : FlOp} {p : StPage} {b : List Byte} (read : pageBytes k o p = .ok k1 b) : b.length = 16384 := by
  have whole (l : List Byte) : ((l ++ List.replicate 16384 (0 : Byte)).take 16384).length = 16384 := by
    rw [List.length_take, List.length_append, List.length_replicate]
    omega
  have filled {c : Core} {x : List Byte} {d : StoreData} (eq : d = .ok c x) (made : d = .ok k1 b) : x = b := by
    rw [eq] at made
    exact (StoreData.ok.inj made).2
  simp only [pageBytes] at read
  split at read <;> split at read
  · rw [← filled rfl read]; exact whole _
  · next other => exact absurd read (other _ _)
  · rw [← filled rfl read]; exact whole _
  · next other => exact absurd read (other _ _)

/-- A flash whose bytes stay and a stack whose logical units stay. -/
theorem kickStore_facts (k : Core) (s : Nat) : (kickStore k s).flash = k.flash ∧ (fls (kickStore k s) s).lunits = (fls k s).lunits := by
  simp only [kickStore]
  split
  · next o p _ =>
    have read := pageBytes_keeps k o p
    split
    · next e =>
      rw [e] at read
      obtain ⟨parts, -, flss⟩ := read
      refine ⟨by simp only [ReadParts] at parts; simp only [parts], ?_⟩
      rw [flss s]
    · exact ⟨rfl, rfl⟩
  · exact ⟨rfl, rfl⟩

/-- A page that is programmed holds its bytes, and the frontier is past it. -/
theorem pageVerified_facts (k : Core) (s : Nat) (o : FlOp) (p : StPage) (loops mfail : Nat) {b : List Byte} (whole : b.length = 16384) :
    let t := pageVerified k s o p loops mfail b
    t.flash.bytes 0xFF (64 * flsLine s p.unit p.page 0) 16384 = b ∧ ((fls t s).lun p.unit).frontier = p.page + 1 := by
  simp only [pageVerified]
  generalize written : modFls _ s _ = k1
  have start : k1.flash.bytes 0xFF (64 * flsLine s p.unit p.page 0) 16384 = b ∧ ((fls k1 s).lun p.unit).frontier = p.page + 1 := by
    rw [← written]
    constructor
    · simp only [modFls]
      refine Eq.trans (bytes_congr fun _ _ _ => LineErrors.byte_setBads ..) ?_
      rw [← whole]
      exact bytes_putBytes_same ..
    · rw [fls_modFls, Fls.lun, Fls.setLun, mget_mmod, if_pos rfl]
  generalize listed : setFlOp _ o _ = k3
  have kept3 : FlashKept k1 k3 := by
    rw [← listed]
    exact (setFlOp_flashKept ..).after (flashKept_ite (programEnds_flashKept ..) ((closeUnits_flashKept ..).after (programEnds_flashKept ..)))
  have keeps {t : Core} (flash : t.flash = k3.flash) (lunits : (fls t s).lunits = (fls k3 s).lunits) :
      t.flash.bytes 0xFF (64 * flsLine s p.unit p.page 0) 16384 = b ∧ ((fls t s).lun p.unit).frontier = p.page + 1 := by
    rw [flash, kept3.flash, Fls.lun, lunits, (kept3.units s).units.2.1]
    exact start
  split
  · have ended (o : FlOp) (l : List Byte) := (endFlOp_facts k3 o 0 0 l).1
    exact keeps (ended _ _).flash ((ended _ _).units s).units.2.1
  · have rested := flsRest_flashKept k3 s
    obtain ⟨flash, lunits⟩ := kickStore_facts (flsRest k3 s) s
    exact keeps (flash.trans rested.flash) (lunits.trans (rested.units s).units.2.1)

theorem flashPageProgrammed_programs {k k1 : Core} {s loops : Nat} {o : FlOp} {p : StPage} {b : List Byte} (mfail : Nat) (page : currentPage k s = some (o, p))
    (may : hwMay k 6 s = true) (goes : 65536 ∉ (fls k s).suspended) (read : pageBytes k o p = .ok k1 b) (long : (obj k o.dest).len ≠ 0) (low : loops ≤ 24) :
    flashPageProgrammed k s loops mfail = pageVerified (openUnit k1 o p).2 s (openUnit k1 o p).1 p loops mfail b := by
  simp only [flashPageProgrammed, page, read]
  rw [if_neg (by simp [may, goes]), if_neg long, if_pos low]

/-- Settles O46: an erase and a page program by what they leave of their unit; reads, retries, the scrub and the Conductor's fetches by their rules. -/
theorem flashEventsComplete : Obligations.FlashEventsComplete := by
  unfold Obligations.FlashEventsComplete
  intro s st k f withFls
  have idle {g : Core → Core} (alive : alive k = true) (same : g k = k) : onCore s (whenAlive g) = .next (s.finish k) :=
    (onCore_whenAlive g alive).trans (by rw [same])
  have served {g : Core → Core} (serves : stackServes true st.toNat k = true) : onCore s (onlyIf (stackServes true st.toNat) g) = .next (s.finish (g k)) :=
    onCore_onlyIf g serves
  have fetched {a : Nat} (taken : Bool) (n : Nat) {t : Core} (made : codeRegionFetch k a taken n = t) :
      exec (.codeRegionFetch a taken n) s = .next (s.finish t) := by rw [← made]; rfl
  refine ⟨fun u pulses mfail up none => ?_, fun u pulses mfail e up under goes mapped empty => ⟨fun low => ?_, fun high spares => ?_⟩,
    fun loops mfail up none => ?_, fun loops mfail o p k1 b up page may goes read long low => ?_, fun u page cw errs serves => ?_,
    fun u page cw errs serves none => ?_, fun u page cw errs n serves user programmed decodes => ?_,
    fun u page cw errs serves user programmed bad three alone => ?_, fun on => ?_, fun up none rs => ?_,
    fun n act l p l' p' rs up slot runs here next clean => ?_, fun a booted on inside => ⟨fun hit n => ?_, fun miss => ⟨?_, fun n one three => ?_,
      fun running n taken late => ?_⟩⟩⟩
  · refine idle up ?_
    rcases none with none | held
    · simp only [flashEraseDone, f] at none ⊢
      rw [none]
    · simp only [flashEraseDone]
      split
      · rfl
      · rw [if_pos (by simpa using held)]
  · exact ⟨_, onCore_whenAlive _ up, flashEraseDone_blank mfail under goes mapped empty low⟩
  · exact ⟨_, onCore_whenAlive _ up, flashEraseDone_wears mfail under goes mapped empty high spares⟩
  · refine idle up ?_
    simp only [flashPageProgrammed]
    split
    · rfl
    · next page =>
      refine if_pos ?_
      rcases none with none | held | held
      · rw [none] at page
        cases page
      · exact .inl held
      · exact .inr (by simpa using held)
  · refine ⟨_, onCore_whenAlive _ up, pageBytes_length read, ?_⟩
    have program := flashPageProgrammed_programs mfail page may goes read long low
    rw [show flashPageProgrammed s.core st.toNat loops mfail = _ from program]
    exact pageVerified_facts _ _ _ _ _ _ (pageBytes_length read)
  · exact ⟨_, served serves, flashRead_facts ..⟩
  · refine (served serves).trans ?_
    have same : flashReadRetry k st.toNat u.toNat page cw errs = k := by
      refine if_pos ?_
      rcases none with none | none | none
      · simp [none]
      · rw [show (fls k st.toNat).programmed u.toNat page = false from none]
        simp
      · simp [none]
    rw [same]
  · exact (served serves).trans (by rw [flashReadRetry_decodes user programmed decodes])
  · exact (served serves).trans (by rw [flashReadRetry_fails user programmed bad three alone])
  · exact onCore_onlyIf _ on
  · refine idle up ?_
    simp only [flashScrubPage, none]
  · exact (onCore_whenAlive _ up).trans (by rw [flashScrubPage_clean slot runs here next clean, modFls_eq, fls_modAct])
  · obtain ⟨stays, kept, added⟩ := codeRegionFetch_hit booted on inside hit n
    exact ⟨fetched false n stays, fun known => fetched true n (kept known), fun new room => fetched true n (added new room)⟩
  · exact fetched false 0 (codeRegionFetch_miss (t := flsFetch k 0 0) booted on inside miss (by decide) (flsFetch_facts k 0 0).1 (if_pos rfl))
  · refine fetched false n (codeRegionFetch_miss (t := bump (flsFetch k 0 n) (oFls 0 + 0x18 + 8 * n) 1) booted on inside miss three
      (bump_fetchKept (flsFetch_facts k 0 n).1 (oFls 0 + 0x18 + 8 * n) 1) ?_)
    have place : oFls 0 + 0x20 + 8 * (n - 1) = oFls 0 + 0x18 + 8 * n := by omega
    rw [if_neg (by omega), countRetry, if_pos three, place]
  · exact ⟨_, rfl, codeRegionFetch_fails booted on inside miss running late taken⟩

end Sys2Proof.Proofs.FlashWrites
end

section
/-! PROOFS. Control instructions that are refused, or whose source or device does not serve (R97, R111, R112). -/

namespace Sys2Proof.Proofs.Refusals
open Sys2Proof.Machine Sys2Proof.Laws

/-! ## The check that is reported (R111) -/

theorem firstBad_mem {l : List Chk} {d : Chk} (first : firstBad l = some d) : d ∈ l ∧ d.bad = true := by
  induction l generalizing d with
  | nil => cases first
  | cons c r ih =>
    simp only [firstBad] at first
    split at first
    · split at first
      · next bad =>
        cases first
        exact ⟨List.mem_cons_self, bad⟩
      · cases first
    · next e rest =>
      split at first
      · next both =>
        cases first
        exact ⟨List.mem_cons_self, (Bool.and_eq_true_iff.mp both).1⟩
      · cases first
        exact ⟨List.mem_cons_of_mem _ (ih rest).1, (ih rest).2⟩

theorem before_asymm {a b : Chk} (first : a.before b = true) : b.before a = false := by
  simp only [Chk.before, Bool.or_eq_true, Bool.and_eq_true, decide_eq_true_eq] at first
  simp only [Chk.before, Bool.or_eq_false_iff, Bool.and_eq_false_iff, decide_eq_false_iff_not]
  omega

/-- The failing check that comes before every other one is the one reported. -/
theorem firstBad_of_first {l : List Chk} {e : Chk} (mem : e ∈ l) (bad : e.bad = true)
    (least : ∀ d ∈ l, d.bad = true → d = e ∨ e.before d = true) : firstBad l = some e := by
  induction l with
  | nil => cases mem
  | cons c r ih =>
    have later : ∀ d ∈ r, d.bad = true → d = e ∨ e.before d = true := fun d inside => least d (List.mem_cons_of_mem _ inside)
    simp only [firstBad]
    by_cases inside : e ∈ r
    · simp only [ih inside later]
      split
      · next both =>
        obtain ⟨badC, notBefore⟩ := Bool.and_eq_true_iff.mp both
        rcases least c List.mem_cons_self badC with same | before
        · rw [same]
        · simp [before] at notBefore
      · rfl
    · obtain rfl : e = c := (List.mem_cons.mp mem).resolve_right inside
      split
      · rw [if_pos bad]
      · next d rest =>
        obtain ⟨insideD, badD⟩ := firstBad_mem rest
        have before : e.before d = true := (later d insideD badD).resolve_left fun same => inside (same ▸ insideD)
        rw [if_pos (by simp [bad, before_asymm before])]

/-! ## The row a control instruction runs (R112, R461) -/

/-- The classes whose instructions an entry handshake may hold back. -/
def mayHold (sp : CtlSpec) : Bool := [0x4, 0xC, 0xD, 0xE].contains sp.cls

theorem exec_of_row {i : Instr} {r : CtlRow} (row : ctlOf i = some r) (s : State) :
    exec i s = onCore s (if mayHold r.spec then heldExec r.spec r.hdr r.a r.b r.c r.x else ctlExec r.spec r.hdr r.a r.b r.c r.x) := by
  unfold ctlOf at row
  split at row <;> cases row <;> rfl

/-! ## A refused instruction, and one that has no effect -/

theorem noteRefusal_fields (k : Core) (i : Ctl) (r : Nat) : let t := noteRefusal k i r
    t.objs = k.objs ∧ t.fab = k.fab ∧ t.tiles = k.tiles ∧ t.flOps = k.flOps ∧ t.flss = k.flss ∧ t.stks = k.stks ∧ t.maint = k.maint ∧
      t.sec = k.sec ∧ t.flts = k.flts ∧ t.pst = k.pst := by
  unfold noteRefusal
  split <;> simp

/-- What a block answers in a handshake rests on what no refusal changes. -/
theorem blockAnswer_of_kept {k t : Core} (objs : t.objs = k.objs) (fab : t.fab = k.fab) (tiles : t.tiles = k.tiles) (flOps : t.flOps = k.flOps)
    (flss : t.flss = k.flss) (stks : t.stks = k.stks) (maint : t.maint = k.maint) (sec : t.sec = k.sec) (flts : t.flts = k.flts)
    {b : Nat} (block : b ∈ upFrom 2 6) : blockAnswer t b = blockAnswer k b := by
  have named : b = 2 ∨ b = 3 ∨ b = 4 ∨ b = 5 ∨ b = 6 ∨ b = 7 := by simpa [upFrom] using block
  rcases named with rfl | rfl | rfl | rfl | rfl | rfl
  · simp only [blockAnswer, objs]
  · simp only [blockAnswer, frameAwaited, fab, tiles]
    rfl
  · simp only [blockAnswer, flOps, flss]
  · simp only [blockAnswer, stks]
  · simp only [blockAnswer, maint]
  · simp only [blockAnswer, unsettled, findFlt, sec, flts]

theorem refusal_not_held (k : Core) (i : Ctl) (reason arg : Nat) : handshakeHolds k (retire (noteRefusal k i reason) i reason arg []) = false := by
  obtain ⟨objs, fab, tiles, flOps, flss, stks, maint, sec, flts, -⟩ := noteRefusal_fields k i reason
  have same {b : Nat} (block : b ∈ upFrom 2 6) : blockAnswer (retire (noteRefusal k i reason) i reason arg []) b = blockAnswer k b :=
    blockAnswer_of_kept (by simp [objs]) (by simp [fab]) (by simp [tiles]) (by simp [flOps]) (by simp [flss]) (by simp [stks]) (by simp [maint])
      (by simp [sec]) (by simp [flts]) block
  rw [handshakeHolds, List.any_eq_false.mpr, Bool.and_false]
  intro b block
  rw [same block]
  simp

section Rows
variable {sp : CtlSpec} {h : CtlHdr} {a b c : W32} {x : W128} {k : Core}

theorem ctlExec_refused {e : Chk} (served : ctlServed k = true) (live : srcLive k h.src = true)
    (first : firstBad (checks3 sp (mkCtl h sp.cls sp.op a b c x) false ++ sp.checks (mkCtl h sp.cls sp.op a b c x) k) = some e) :
    ctlExec sp h a b c x k = retire (noteRefusal k (mkCtl h sp.cls sp.op a b c x) e.reason) (mkCtl h sp.cls sp.op a b c x) e.reason e.arg [] := by
  simp [ctlExec, ctlRun, ctlEnd, served, live, first]

theorem ctlExec_idle (none : ctlServed k = false ∨ srcLive k h.src = false) : ctlExec sp h a b c x k = k :=
  if_neg (by rcases none with none | none <;> simp [none])

/-- A row runs as its instruction does where no handshake holds that back, or where it changes nothing. -/
theorem row_of_ctlExec {t : Core} (runs : ctlExec sp h a b c x k = t) (free : handshakeHolds k t = false ∨ t = k) :
    (if mayHold sp then heldExec sp h a b c x else ctlExec sp h a b c x) k = t := by
  split
  · rw [heldExec, unlessHeld, runs]
    rcases free with free | same
    · rw [if_neg (by simp [free])]
    · rw [same, ite_self]
  · exact runs

end Rows

/-- Nothing follows a command of itself where the device does not serve. -/
theorem finish_idle (s : State) {k : Core} (off : ctlServed k = false) (none : k.pst.heldBar4 = []) (burn : k.burn = []) :
    s.finish k = { s with core := k } := by
  have dead : alive k = false := off
  have follow : followUps k = k := by simp [followUps, dead, none]
  have tell : tellTwin s.core k = k := by simp [tellTwin, dead]
  rw [State.finish, follow, tell, burn]
  cases k
  cases burn
  rfl

/-- Settles O56: the check reported is the earliest that fails, and the record of the refusal is all it leaves. -/
theorem refusalsChangeNothing : Obligations.RefusalsChangeNothing := by
  unfold Obligations.RefusalsChangeNothing
  refine ⟨fun i s r e row served live mem bad least => ?_, fun i s r row none => ?_, fun s k => finish_idle s⟩
  · rw [exec_of_row row, onCore, row_of_ctlExec (ctlExec_refused served live (firstBad_of_first mem bad least)) (.inl (refusal_not_held ..))]
    rfl
  · rw [exec_of_row row, onCore, row_of_ctlExec (ctlExec_idle none) (.inr rfl)]

end Sys2Proof.Proofs.Refusals
end

section
/-! PROOFS. The Tile Sequencer's own instructions, program lines and the debug port's single step (R129 to R132, R141, R150, R493). -/

namespace Sys2Proof.Proofs.TileSequencer
open Sys2Proof.Machine Sys2Proof.Laws Sys2Proof.Proofs.Reads Sys2Proof.Proofs.SeqInstructions Sys2Proof.Proofs.PowerLaws Sys2Proof.Proofs.ObjectEntry

/-! ## A tile of the state -/

/-- The state with tile t as v. -/
def putTile (k : Core) (t : Nat) (v : Tile) : Core := { k with tiles := mput k.tiles t v }

theorem modTile_eq_put {k : Core} {t : Nat} {f : Tile → Tile} {v : Tile} (made : f (tile k t) = v) : modTile k t f = putTile k t v := by
  rw [← made]
  rfl

theorem modTile_twice (k : Core) (t : Nat) (f g : Tile → Tile) : modTile (modTile k t f) t g = modTile k t (g ∘ f) := by
  simp only [modTile, mmod_mmod_same]

theorem tile_modTile_same (k : Core) (t : Nat) (f : Tile → Tile) : tile (modTile k t f) t = f (tile k t) := mget_mput_same _ _ _ _

theorem tile_modTile_ne {k : Core} {t u : Nat} (f : Tile → Tile) (other : u ≠ t) : tile (modTile k t f) u = tile k u := mget_mput_ne _ _ _ other

/-! ## The effects (R141, R142, R150) -/

section Effects
variable (k : Core) (t : Nat) (i : TIns)

theorem setTsReg_setPc (d : Nat) (v : W32) (n : Nat) :
    setPc (setTsReg k t d v) t n = putTile k t { tile k t with regs := mset 0 (tile k t).regs d v, pc := n } :=
  (modTile_twice k t _ _).trans (modTile_eq_put rfl)

theorem setPc_put (n : Nat) : setPc k t n = putTile k t { tile k t with pc := n } := modTile_eq_put rfl

theorem loopEffect_zero (zero : tsReg k t (i.fa 3 0) = 0) : loopEffect t i k = putTile k t { tile k t with pc := i.widx + 1 } := by
  simp only [loopEffect, zero, if_true, setPc_put]

theorem sub_one_zero {x : W32} : x - 1 = 0 ↔ x = 1 := by
  constructor
  · intro h
    bv_omega
  · rintro rfl
    rfl

theorem loopEffect_counts (some_ : tsReg k t (i.fa 3 0) ≠ 0) : loopEffect t i k =
    putTile k t { tile k t with
      regs := mset 0 (tile k t).regs (i.fa 3 0) (tsReg k t (i.fa 3 0) - 1),
      pc := if tsReg k t (i.fa 3 0) = 1 then i.widx + 1 else i.c.toNat } := by
  simp only [loopEffect, some_, if_false, setTsReg_setPc, sub_one_zero]

/-- HX.END: the tile's phase is 3, and its domain's step has ended once the last tile's has. -/
theorem endEffect_facts : let m := endEffect t i k
    tile m t = { tile k t with phase := 3, pc := i.widx + 1, fenced := false } ∧ (∀ u, u ≠ t → tile m u = tile k u) ∧
      (∀ e, e ≠ domOfTile k t → dom m e = dom k e) ∧
      ((dom m (domOfTile k t)).running.map (·.num) = (dom k (domOfTile k t)).running.map (·.num)) ∧
      (stepEnded m (domOfTile k t) = true → ∀ u, (dom m (domOfTile k t)).running = some u → u.ended = true) ∧
      m = { k with tiles := m.tiles, doms := m.doms } := by
  simp only [endEffect]
  generalize ended : modTile k t (fun q => { q with phase := 3, pc := i.widx + 1, fenced := false }) = k1
  have own : tile k1 t = { tile k t with phase := 3, pc := i.widx + 1, fenced := false } := by rw [← ended, tile_modTile_same]
  have rest : ∀ u, u ≠ t → tile k1 u = tile k u := fun u other => by rw [← ended, tile_modTile_ne _ other]
  have frame : k1 = { k with tiles := k1.tiles } := by rw [← ended]; rfl
  have doms (e : Nat) : dom k1 e = dom k e := by rw [frame]; rfl
  split
  · refine ⟨own, rest, fun e other => ?_, ?_, fun _ u running => ?_, by rw [frame]; rfl⟩
    · rw [dom_modDom, if_neg other, doms]
    · rw [dom_modDom, if_pos rfl, doms, Option.map_map]
      rfl
    · rw [dom_modDom, if_pos rfl] at running
      obtain ⟨v, -, rfl⟩ := Option.map_eq_some_iff.mp running
      rfl
  · next open_ => exact ⟨own, rest, fun e _ => doms e, by rw [doms], fun ended => absurd ended open_, by rw [frame]⟩

end Effects

/-! ## Running at the head of the sequencer (R132) -/

theorem tsExec_ready {k : Core} {t : Nat} {i : TIns} (f : Core → Core) (ready : tsReady k t i = true) (free : (tile k t).dbgHalt = false) :
    tsExec k t i f = tsRun (f k) t := by
  simp [tsExec, ready, free, onTile]

/-- The word at a place of the program does not rest on the FENCE that holds the tile. -/
theorem tsReady_unfenced {k k0 : Core} {t : Nat} {i : TIns} (unfenced : tile k0 t = { tile k t with fenced := false }) (shadow : k0.shadow = k.shadow)
    (regs : k0.regs = k.regs) (doms : k0.doms = k.doms) (msets : k0.msets = k.msets) (ready : tsReady k t i = true) :
    tsReady k0 t i = true ∧ tsWord k0 t (tile k0 t).pc = some i := by
  have set : tileMset k0 t = tileMset k t := by simp only [tileMset, tileStep, dom, domOfTile, isPart_of_regs regs, doms]
  have program (n : Nat) : mset' k0 n = mset' k n := by rw [mset', mset', msets]
  have word (n : Nat) : tsWord k0 t n = tsWord k t n := by simp only [tsWord, unfenced, set, program]
  have idle : tileIdle k0 t = tileIdle k t := by simp only [tileIdle, unfenced]
  simp only [tsReady, Bool.and_eq_true, decide_eq_true_eq] at ready
  obtain ⟨⟨⟨⟨runs, -⟩, pc⟩, decoded⟩, fence⟩ := ready
  have runs0 : runsIns k0 t i = true := by
    simp only [runsIns, unfenced, set, program, shadow]
    exact runs
  refine ⟨?_, ?_⟩
  · simp only [tsReady, runs0, unfenced, pc, word, decoded, idle, fence]
    simp
  · rw [word, unfenced]
    exact (congrArg (tsWord k t) pc).trans decoded

/-- A single step of the debug port at an instruction of the sequencer. -/
theorem tsStep_ready {k : Core} {t : Nat} {i : TIns} (ready : tsReady k t i = true) (own : isTs i.cls i.op = true) :
    tsStep k t = tsEffect t i (modTile k t fun q => { q with fenced := false }) := by
  obtain ⟨again, word⟩ := tsReady_unfenced (tile_modTile_same k t fun q => { q with fenced := false }) rfl rfl rfl rfl ready
  have runs := ready
  simp only [tsReady, runsIns, Bool.and_eq_true, beq_iff_eq] at runs
  obtain ⟨⟨⟨⟨⟨phase, -⟩, unheld⟩, -⟩, -⟩, -⟩ := runs
  have pc : (tile (modTile k t fun q => { q with fenced := false }) t).pc = (tile k t).pc := by rw [tile_modTile_same]
  rw [pc] at word
  simp only [tsStep]
  rw [if_neg (by cases fenced : (tile k t).fenced <;> simp_all)]
  simp only [word, own, again, if_true]

/-- A program line that returns. -/
theorem programFetchReturn_runs (k : Core) (t : Nat) (phase : (tile k t).phase = 2) :
    let q := tile k t
    let n := if (tsWord k t q.pc).isSome ∨ q.buffer.contains (q.pc / 64) = true then q.pc / 64 + 1 else q.pc / 64
    let lines := if q.buffer.contains n then q.buffer else q.buffer ++ [n]
    programFetchReturn k t = tsRun (putTile k t { q with buffer := lines.drop (lines.length - 32) }) t := by
  simp only [programFetchReturn]
  rw [if_neg (by simpa using phase)]
  cases tsWord k t (tile k t).pc <;> simp only [Option.isSome, true_or, false_or, Bool.false_eq_true, if_true, onTile] <;> rfl

/-- Settles O47: an instruction at the head of its sequencer writes its tile alone, and the sequencer goes on. -/
theorem sequencerInstructionsComplete : Obligations.SequencerInstructionsComplete := by
  unfold Obligations.SequencerInstructionsComplete
  intro h a b c s k t q w i d x put now goes y z taken
  have head {op : Nat} {e : Core → Core} {v : Tile} (ready : now op) (effect : e k = putTile k t v) :
      onCore s (fun k => tsExec k t (i op) e) = .next (s.finish (tsRun (put v) t)) := by
    obtain ⟨stands, free⟩ := ready
    rw [onCore, tsExec_ready _ stands free, effect]
    rfl
  have pays : ∀ op, branchTaken k t (i op) = true ↔ taken := fun op => by
    change (match bits a.toNat 11 8 with | 0 => _ | 1 => _ | 2 => _ | _ => _) = true ↔ (match bits a.toNat 11 8 with | 0 => _ | 1 => _ | 2 => _ | _ => _)
    split <;> exact decide_eq_true_iff
  refine ⟨fun ready => head ready (setTsReg_setPc ..), fun ready => head ready (setTsReg_setPc ..), fun ready => head ready (setTsReg_setPc ..),
    fun ready => head ready (setPc_put ..), fun ready yes => head (e := branchEffect t (i 0x21)) ready ?_,
    fun ready no => head (e := branchEffect t (i 0x21)) ready ?_, fun ready zero => head ready (loopEffect_zero k t (i 0x22) zero),
    fun ready some_ => head ready (loopEffect_counts k t (i 0x22) some_), fun ready idle => ?_, fun phase => ?_, fun on level halted ready => ?_⟩
  · rw [branchEffect, if_pos ((pays _).mpr yes), setPc_put]
    rfl
  · rw [branchEffect, if_neg (mt (pays _).mp no), setPc_put]
    rfl
  · obtain ⟨stands, free⟩ := ready
    refine ⟨endEffect t (i 1) k, ?_, endEffect_facts k t (i 1)⟩
    change onCore s (fun k => hxEnd k t (i 1)) = _
    rw [onCore, hxEnd, if_pos idle, tsExec_ready _ stands free]
  · change onCore s (fun k => programFetchReturn k t) = _
    exact congrArg (fun m => Host.Outcome.next (s.finish m)) (programFetchReturn_runs k t phase)
  · have effect : dbgTsStep k t = tsetEffect t (i 0x10) (modTile (setTap k 2) t fun q => { q with fenced := false }) := by
      rw [dbgTsStep, if_pos (by simpa [on, level] using halted), tsStep_ready (k := setTap k 2) ready rfl]
      rfl
    refine ⟨dbgTsStep k t, rfl, ?_, fun u other => ?_⟩
    · rw [effect, tsetEffect, setTsReg_setPc, tile_modTile_same]
      exact mget_mput_same ..
    · rw [effect, tsetEffect, setTsReg_setPc]
      exact (mget_mput_ne _ _ _ other).trans (tile_modTile_ne _ other)

end Sys2Proof.Proofs.TileSequencer
end

section
/-! PROOFS. Hitch counters: the HX instructions of the DM queue, the mesh and barriers (R22, R134 to R140, R150). -/

namespace Sys2Proof.Proofs.HitchCounters
open Sys2Proof.Machine Sys2Proof.Laws Sys2Proof.Proofs.Reads Sys2Proof.Proofs.SeqInstructions Sys2Proof.Proofs.TileSequencer

/-! ## An instruction that nothing holds (R134) -/

theorem unitRun_starts {k : Core} {t u : Nat} {i : TIns} (f : Core → Core) (take : canTake k t u i = true) (free : stageFree k t u i = true)
    (ok : hitchOk k t u i = true) : unitRun k t u i f = f (takeIns k t u i) := by
  simp [unitRun, take, free, ok]

theorem stageFree_dm {k : Core} {t : Nat} (i : TIns) (free : (tile k t).dm = none) : stageFree k t uDm i = true := by
  simp [stageFree, uDm, uVe, uAp, uCf, free]

/-- An instruction that is taken changes its tile's queues and counters alone. -/
theorem takeIns_frame (k : Core) (t u : Nat) (i : TIns) : takeIns k t u i = { k with tiles := (takeIns k t u i).tiles } := by
  unfold takeIns
  split <;> (dsimp only; split) <;> rfl

theorem takeIns_tile (k : Core) (t u : Nat) (i : TIns) : let v := tile (takeIns k t u i) t
    v = { tile k t with queues := v.queues, ctrs := v.ctrs } := by
  simp only [takeIns]
  split <;> split <;> simp only [hitchSet, tile_modTile_same]

theorem takeIns_tile_ne {k : Core} {t v : Nat} (u : Nat) (i : TIns) (other : v ≠ t) : tile (takeIns k t u i) v = tile k v := by
  simp only [takeIns, hitchSet]
  split <;> split <;> simp only [tile_modTile_ne _ other]

theorem domOfTile_takeIns (k : Core) (t u : Nat) (i : TIns) (v : Nat) : domOfTile (takeIns k t u i) v = domOfTile k v := by
  rw [takeIns_frame]
  rfl

theorem physTile_takeIns (k : Core) (t u : Nat) (i : TIns) (l : Nat) : physTile (takeIns k t u i) l = physTile k l := by
  rw [takeIns_frame]
  rfl

theorem hitchAdd_fits {k : Core} {t c n : Nat} (by_ : Nat × Nat) (fits : hitch k t c + n ≤ 0xFFFF) : hitchAdd k t c n by_ = hitchSet k t c (hitch k t c + n) :=
  if_neg (Nat.not_lt.mpr fits)

/-! ## The mesh (R22, R138) -/

section Mesh
variable {k : Core} {t : Nat} {i : TIns} (take : canTake k t uDm i = true) (ok : hitchOk k t uDm i = true) (free : (tile k t).dm = none)
include take ok free

theorem hxSet_runs : hxSet k t i = tsRun (retireIns (hitchSet (takeIns k t uDm i) t (i.fa 5 0) (i.fb 15 0)) t i) t := by
  rw [hxSet, onTile, unitRun_starts _ take (stageFree_dm i free) ok]

theorem hxAdd_own (own : physTile k (i.fa 15 8) = t) :
    hxAdd k t i = tsRun (retireIns (hitchAdd (takeIns k t uDm i) t (i.fa 5 0) (i.fb 15 0) (t, i.widx)) t i) t := by
  rw [hxAdd, onTile, unitRun_starts _ take (stageFree_dm i free) ok, physTile_takeIns, own]
  simp [sameDomain]

theorem hxAdd_other (other : physTile k (i.fa 15 8) ≠ t) (near : domOfTile k (physTile k (i.fa 15 8)) = domOfTile k t) :
    let u := physTile k (i.fa 15 8)
    let sent : Core := { takeIns k t uDm i with
      incs := k.incs ++ [{ tile := u, ctr := i.fa 5 0, amount := i.fb 15 0, src := t, widx := i.widx, sender := some t }] }
    hxAdd k t i = tsRun (modTile (if dieOfTile u = dieOfTile t then sent else bridgeStall sent (dieOfTile t)) t
      fun q => { q with dm := some (.add i) }) t := by
  have incs : (takeIns k t uDm i).incs = k.incs := by rw [takeIns_frame]
  dsimp only
  rw [hxAdd, onTile, unitRun_starts _ take (stageFree_dm i free) ok, physTile_takeIns]
  simp [sameDomain, domOfTile_takeIns, near, other, remoteSignal, incs]

theorem hxAdd_denied (far : domOfTile k (physTile k (i.fa 15 8)) ≠ domOfTile k t) :
    hxAdd k t i = tsRun (tileFail (takeIns k t uDm i) t i.widx rDeniedPart (domOfTile k (physTile k (i.fa 15 8)))) t := by
  rw [hxAdd, onTile, unitRun_starts _ take (stageFree_dm i free) ok, physTile_takeIns]
  simp [sameDomain, domOfTile_takeIns, far.symm, domArg]

/-- A barrier of the tile's domain whose count of arrivals agrees. -/
theorem hxBarrier_arrives (own : ghcDom k (i.fa 9 0) = domOfTile k t)
    (agrees : (mget {} k.ghcs (i.fa 9 0)).n = 0 ∨ (mget {} k.ghcs (i.fa 9 0)).n = i.fb 15 0) :
    let c := mget {} k.ghcs (i.fa 9 0)
    let arr := sput (c.arrived.map Prod.fst) t
    let k1 := modTile (takeIns k t uDm i) t fun q => { q with dm := some (.barrier i (i.fa 9 0) (i.fa 21 16)) }
    hxBarrier k t i =
      if c.count + 1 < i.fb 15 0 then
        { k1 with ghcs := mput k.ghcs (i.fa 9 0) { count := c.count + 1, n := i.fb 15 0, arrived := arr.map fun u => (u, 0) } }
      else addGates { k1 with ghcs := mput k.ghcs (i.fa 9 0) { n := i.fb 15 0 } } (domOfTile k t) (arr.map fun u => (u, true)) := by
  have owner : ghcDom (takeIns k t uDm i) (i.fa 9 0) = ghcDom k (i.fa 9 0) := by
    rw [takeIns_frame]
    rfl
  have counts : (takeIns k t uDm i).ghcs = k.ghcs := by rw [takeIns_frame]
  dsimp only
  rw [hxBarrier, unitRun_starts _ take (stageFree_dm i free) ok]
  simp only [owner, own, domOfTile_takeIns, counts, modTile_fields, ne_eq, not_true_eq_false, if_false]
  rw [if_neg (by omega)]

end Mesh

/-! ## Increments that arrive (R22, R138) -/

section Arrivals
variable {k : Core} {t c n : Nat} {x : Inc} (next : k.incs.find? (fun x => x.tile == t && x.ctr == c && x.amount == n && inTurn k.incs x) = some x)
include next

theorem remoteIncrementArrive_early (phase : (tile k t).phase = 1) (none : x.sender = none) :
    remoteIncrementArrive k t c n = earlyAdd { k with incs := k.incs.erase x } t c n := by
  simp only [remoteIncrementArrive, next, phase, none, if_true]

theorem remoteIncrementArrive_added (phase : (tile k t).phase ≠ 1) (fits : hitch k t c + n ≤ 0xFFFF) (none : x.sender = none) :
    remoteIncrementArrive k t c n = hitchSet { k with incs := k.incs.erase x } t c (hitch k t c + n) := by
  have added := hitchAdd_fits (k := { k with incs := k.incs.erase x }) (x.src, x.widx) fits
  simp only [remoteIncrementArrive, next, if_neg phase, none, added]
  rfl

theorem remoteIncrementArrive_retires {u : Nat} {i : TIns} (phase : (tile k t).phase ≠ 1) (fits : hitch k t c + n ≤ 0xFFFF)
    (sender : x.sender = some u) (other : u ≠ t) (waits : (tile k u).dm = some (.add i)) :
    remoteIncrementArrive k t c n =
      let k1 := hitchSet { k with incs := k.incs.erase x } t c (hitch k t c + n)
      tsRun (retireIns { k1 with tiles := mput k1.tiles u { tile k u with dm := none } } u i) u := by
  have added := hitchAdd_fits (k := { k with incs := k.incs.erase x }) (x.src, x.widx) fits
  have same : tile (hitchSet { k with incs := k.incs.erase x } t c (hitch k t c + n)) u = tile k u := tile_modTile_ne _ other
  have count : hitch { k with incs := k.incs.erase x } t c = hitch k t c := rfl
  simp only [remoteIncrementArrive, next, if_neg phase, sender, added, count, same, waits, onTile]
  generalize hitchSet { k with incs := k.incs.erase x } t c (hitch k t c + n) = m at same ⊢
  rw [modTile_eq_put (v := { tile k u with dm := none }) (by rw [same])]
  rfl

end Arrivals

/-- Settles O48: an instruction that nothing holds takes its count and has its effect; an increment in turn is added. -/
theorem hitchInstructionsComplete : Obligations.HitchInstructionsComplete := by
  unfold Obligations.HitchInstructionsComplete
  constructor
  · intro h a b c s k t i ctr n u g now k1 held
    have set {m : Core} (made : hxSet k t (i 2) = m) : exec (.hxSet h a b c) s = .next (s.finish m) := by rw [← made]; rfl
    have add {m : Core} (made : hxAdd k t (i 3) = m) : exec (.hxAdd h a b c) s = .next (s.finish m) := by rw [← made]; rfl
    have barrier {m : Core} (made : hxBarrier k t (i 4) = m) : exec (.hxBarrier h a b c) s = .next (s.finish m) := by rw [← made]; rfl
    refine ⟨fun ⟨take, ok, free⟩ => set (hxSet_runs take ok free), fun ⟨take, ok, free⟩ own => add (hxAdd_own take ok free own),
      fun ⟨take, ok, free⟩ other near => add (hxAdd_other take ok free other near), fun ⟨take, ok, free⟩ far => add (hxAdd_denied take ok free far),
      fun ⟨take, ok, free⟩ own agrees early => barrier ?_, fun ⟨take, ok, free⟩ own agrees last => barrier ?_⟩
    · exact (hxBarrier_arrives take ok free own agrees).trans (if_pos early)
    · exact (hxBarrier_arrives take ok free own agrees).trans (if_neg (Nat.not_lt.mpr last))
  · intro tl ctr n s k t k0 next soon
    have runs {m : Core} (made : remoteIncrementArrive k t ctr.toNat n.toNat = m) : exec (.remoteIncrementArrive tl ctr n) s = .next (s.finish m) := by
      rw [← made]
      rfl
    refine ⟨fun x first phase none => runs (remoteIncrementArrive_early first phase none),
      fun x first phase fits none => runs (remoteIncrementArrive_added first phase fits none),
      fun x u i first phase fits sender other waits => runs (remoteIncrementArrive_retires first phase fits sender other waits), fun missing => runs ?_⟩
    simp only [remoteIncrementArrive]
    rw [show k.incs.find? _ = none from missing]

end Sys2Proof.Proofs.HitchCounters
end

section
/-! PROOFS. Fabric ports and links, frames that go on, and nodes that are asked and lost (R407, R408, R410, R412, R426, R430, R437). -/

namespace Sys2Proof.Proofs.PortsNodes
open Sys2Proof.Machine Sys2Proof.Laws Sys2Proof.Proofs.Reads Sys2Proof.Proofs.Resets Sys2Proof.Proofs.StackReach Sys2Proof.Proofs.StackRows
open Sys2Proof.Proofs.Grants Sys2Proof.Proofs.ApertureSys Sys2Proof.Proofs.MaintFabric Sys2Proof.Proofs.PowerInForce

/-! ## Ports (R407, R408) -/

section Ports
variable {k : Core} {p : Nat}

theorem linkWidth_full {g : BitVec 8} (lanes : laneCount g = 8) : linkWidth (laneCount g) = 8 := by simp [linkWidth, lanes]

theorem linkWidth_low {g : BitVec 8} (some_ : 2 ≤ laneCount g) (low : laneCount g < 8) : linkWidth (laneCount g) = if 4 ≤ laneCount g then 4 else 2 := by
  simp only [linkWidth]
  rw [if_neg (by omega), if_pos some_]

theorem linkWidth_none {g : BitVec 8} (few : laneCount g < 2) : linkWidth (laneCount g) = 0 := by
  simp only [linkWidth]
  rw [if_neg (by omega), if_neg (by omega), if_neg (by omega)]

theorem portTrainingDone_full {g : BitVec 8} (peer : Nat) (trains : (fport k p).link = 1) (lanes : laneCount g = 8) :
    portTrainingDone k p g peer = modFport k p fun q => { q with link := 2, width := 8, good := g.toNat, peer := peer } := by
  simp [portTrainingDone, trains, linkWidth_full lanes]

theorem portTrainingDone_low {g : BitVec 8} (peer : Nat) (trains : (fport k p).link = 1) (some_ : 2 ≤ laneCount g) (low : laneCount g < 8) :
    let w := if 4 ≤ laneCount g then 4 else 2
    portTrainingDone k p g peer = errRecord (modFport k p fun q => { q with link := 2, width := w, good := g.toNat, peer := peer })
      { reason := rLinkDegraded, cls := 3, source := 4, inst := p, arg := p + w * 256 } := by
  by_cases four : 4 ≤ laneCount g <;> simp [portTrainingDone, trains, linkWidth_low some_ low, four]

theorem portTrainingDone_none {g : BitVec 8} (peer : Nat) (trains : (fport k p).link = 1) (few : laneCount g < 2) :
    portTrainingDone k p g peer = modFport k p fun q => { q with link := 0, width := 0, good := g.toNat, peer := 0 } := by
  simp [portTrainingDone, trains, linkWidth_none few]

/-- Silence on a port that holds no frame and leaves no node cut off. -/
theorem linkSilence_alone (up : (fport k p).link = 2) (sent : (fport k p).sent = []) (single : isTwinPort k p = false)
    (routed : ∀ e ∈ k.fab.nodes, (node k e.1).mask.testBit p = false ∨ (node k e.1).lost = true) :
    linkSilence k p = modFport k p fun q => { q with link := 0, width := 0, sent := [], resends := 0 } := by
  generalize downed : modFport k p (fun q => { q with link := 0, width := 0, sent := [], resends := 0 }) = k1
  have single1 : isTwinPort k1 p = false := by
    rw [← downed]
    exact single
  have none : (k1.fab.nodes.map Prod.fst).filter (cutOff k1 p) = [] := by
    rw [List.filter_eq_nil_iff]
    intro n listed
    have nodes : k1.fab.nodes = k.fab.nodes := by rw [← downed]; rfl
    have same : node k1 n = node k n := by rw [node, node, nodes]
    obtain ⟨e, mem, rfl⟩ := List.mem_map.mp (nodes ▸ listed)
    rcases routed e mem with unrouted | lost
    · simp [cutOff, same, bit, unrouted]
    · simp [cutOff, same, lost]
  simp only [linkSilence, portLive, up, beq_self_eq_true, if_true, portDown, sent, List.isEmpty_nil, downAfter, List.drop_nil, List.filter_nil, List.foldl_nil,
    downed, afterDown, single1, Bool.false_eq_true, if_false, none, Bool.false_and]

/-- The one frame a link holds is sent again. -/
theorem linkResend_one {f : Frame} (up : (fport k p).link = 2) (sent : (fport k p).sent = [f]) (early : (fport k p).resends < 15)
    (plain : f.type.toNat ≠ tMirror) :
    linkResend k p = emit (bump { modFport k p (fun q => { q with resends := q.resends + 1 }) with fresh := k.fresh + 1 } (oFabLinkRetry p) 1)
      (.frame p f) := by
  have kept : modFport { k with fresh := k.fresh + 1 } p (fun q => { q with sent := [f], resends := (fport k p).resends + 1 }) =
      { modFport k p (fun q => { q with resends := q.resends + 1 }) with fresh := k.fresh + 1 } := by
    have same : ({ fport k p with sent := [f], resends := (fport k p).resends + 1 } : FPort) = { fport k p with resends := (fport k p).resends + 1 } := by
      rw [← sent]
    simp only [modFport, mmod]
    change ({ k with fab := { k.fab with ports := mput k.fab.ports p _ }, fresh := _ } : Core) = _
    rw [show mget {} k.fab.ports p = fport k p from rfl, same]
  simp only [linkResend, up, sent, drawNat, List.length_singleton, Nat.mod_one, List.drop_zero, if_true, kept, List.foldl_cons, List.foldl_nil]
  rw [if_neg (by simp), if_neg (by omega), if_neg (by simp [plain])]

end Ports

/-! ## Frames (R410, R412) -/

section Frames
variable {k : Core} {p : Nat} {f : Frame} (live : portLive k p = true) (lines : f.lines.length ≤ 16) (body : f.body.length ≤ 28) (awake : k.glb.st ≠ .graze)
include live lines body awake

theorem arrive_frameIn {ok : Bool} (row : ok = true) : arrive ok k p f = frameIn k p f := by
  simp [arrive, row, live, awake]
  omega

theorem arrive_mine {t : Nat} (known : knownType t = true) (type : f.type.toNat = t) (single : f.dest ≠ 4095#12) (mine : f.dest.toNat = ownNode k) :
    arrive (ofType f t) k p f = serveFrame k p f := by
  rw [arrive_frameIn live lines body awake (by simp [ofType, type])]
  simp [frameIn, type, known, single, mine]

theorem arrive_other (known : knownType f.type.toNat = true) (single : f.dest ≠ 4095#12) (other : f.dest.toNat ≠ ownNode k) :
    arrive (toForward k f) k p f = forwardFrame k f := by
  rw [arrive_frameIn live lines body awake (by simp [toForward, single, other])]
  simp [frameIn, known, single, other]

theorem arrive_unknown (unknown : knownType f.type.toNat = false) : arrive (toForward k f) k p f = bump k oFabDrop 1 := by
  rw [arrive_frameIn live lines body awake (by simp [toForward, unknown])]
  simp [frameIn, unknown]

end Frames

section Served
variable {k : Core} {p : Nat} {f : Frame}

theorem serveFrame_ping (type : f.type.toNat = tPing) : serveFrame k p f = takePing k f := by
  simp [serveFrame, strayFrame, type, tPing, tData, tAck, tNack, tCredit, tBcast, tCtl, tMirror, tMirrorAck, tGrant]

theorem serveFrame_pong (type : f.type.toNat = tPong) : serveFrame k p f = takePong k f := by
  simp [serveFrame, strayFrame, type, tPing, tPong, tData, tAck, tNack, tCredit, tBcast, tCtl, tMirror, tMirrorAck, tGrant]

theorem serveFrame_down (type : f.type.toNat = tDown) : serveFrame k p f = takeDown k p f := by
  simp [serveFrame, strayFrame, type, tPing, tPong, tDown, tData, tAck, tNack, tCredit, tBcast, tCtl, tMirror, tMirrorAck, tGrant]

theorem serveFrame_grant (type : f.type.toNat = tGrant) : serveFrame k p f = takeGrant k (f.body.take 24) (some f.src.toNat) := by
  simp [serveFrame, strayFrame, type, tData, tAck, tNack, tCredit, tBcast, tCtl, tMirror, tMirrorAck, tGrant]

end Served

/-! ## Nodes that are lost (R426, R427) -/

theorem tile_of_all {k : Core} {P : Tile → Prop} (unlisted : P {}) (listed : ∀ e ∈ k.tiles, P e.2) (t : Nat) : P (tile k t) := by
  by_cases none : tile k t = {}
  · exact none ▸ unlisted
  · exact listed _ (mem_of_mget_ne none)

theorem failPeers_idle {k : Core} (n : Nat) (idle : ∀ e ∈ k.tiles, e.2.dm = none) : failPeers k n = k :=
  List.foldlRecOn (motive := fun t : Core => t = k) _ _ rfl fun t same u _ => by
    have none : (tile t u).dm = none := by
      rw [same]
      exact tile_of_all (P := fun v => v.dm = Option.none) rfl idle u
    subst same
    simp only [none]

/-- A node's entry once it is lost. -/
def lostNode (q : Node) : Node := { q with lost := true, pinged := false }

theorem nodeLost_new {k : Core} {n : Nat} (there : (node k n).lost = false) : nodeLost k n =
    let k1 := errRecord (modNode k n lostNode) { reason := rPeerLost, cls := 3, source := 4, arg := n }
    let k2 := { k1 with fab := { k1.fab with
      chans := mmap (fun _ (c : Chan) => if c.st = 1 ∧ c.peer = n then { c with st := 3 } else c) k1.fab.chans } }
    let k3 := failSessions (failPeers k2 n) n
    if twinEn k3 && twinNode k3 == n && (k3.fab.twin.st == 1 || k3.fab.twin.st == 2) then takeover k3 else k3 := by
  rw [nodeLost, there]
  rfl

/-- A node lost, where no instruction waits on it, no session is open and no twin is configured. -/
theorem nodeLost_alone {k : Core} {n : Nat} (there : (node k n).lost = false) (single : twinEn k = false) (sessions : k.fab.sessions = [])
    (idle : ∀ e ∈ k.tiles, e.2.dm = none) :
    let t := nodeLost k n
    (node t n).lost = true ∧ (∀ m, m ≠ n → node t m = node k m) ∧
      (∀ c, (chan t c).st = if (chan k c).st = 1 ∧ (chan k c).peer = n then 3 else (chan k c).st) ∧ t.err.serial = k.err.serial + 1 := by
  generalize recorded : errRecord (modNode k n lostNode)
    { reason := rPeerLost, cls := 3, source := 4, arg := n } = k1
  have nodes (m : Nat) : node k1 m = if m = n then lostNode (node k n) else node k m := by
    rw [← node_modNode, node, node, ← recorded]
    simp
  have fab : k1.fab = { k.fab with nodes := k1.fab.nodes } := by
    rw [← recorded]
    simp [modNode]
  have sessions1 : k1.fab.sessions = [] := by rw [fab, ← sessions]
  have chans : k1.fab.chans = k.fab.chans := by rw [fab]
  have tiles : k1.tiles = k.tiles := by
    rw [← recorded]
    simp [modNode]
  have regs : k1.regs = k.regs := by
    rw [← recorded]
    simp [modNode]
  have serial : k1.err.serial = k.err.serial + 1 := by
    rw [← recorded]
    simp [modNode]
  generalize lost : ({ k1 with fab := { k1.fab with
    chans := mmap (fun _ (c : Chan) => if c.st = 1 ∧ c.peer = n then { c with st := 3 } else c) k1.fab.chans } } : Core) = k2
  have whole : nodeLost k n = k2 := by
    have twin : twinEn k2 = false := by
      rw [← single, ← lost, twinEn, twinEn, rfld, rfld, rreg, rreg]
      simp only [regs]
    have peers : failPeers k2 n = k2 := failPeers_idle n (by rw [← lost]; exact tiles ▸ idle)
    have open_ : k2.fab.sessions = [] := by rw [← lost]; exact sessions1
    simp only [nodeLost_new there, recorded, lost, peers, failSessions, open_, List.foldl_nil, twin, Bool.false_and, Bool.false_eq_true, if_false]
  have same (m : Nat) : node k2 m = node k1 m := by rw [← lost]; rfl
  dsimp only
  rw [whole]
  refine ⟨?_, fun m other => ?_, fun c => ?_, ?_⟩
  · rw [same, nodes, if_pos rfl]
    rfl
  · rw [same, nodes, if_neg other]
  · have listed : chan k2 c = if (chan k c).st = 1 ∧ (chan k c).peer = n then { chan k c with st := 3 } else chan k c := by
      rw [← lost, chan, chan, ← chans]
      exact mget_mmap (fun _ => rfl) _ _
    rw [listed]
    split <;> rfl
  · rw [← lost]
    exact serial

theorem modNode_twice (k : Core) (n : Nat) (f g : Node → Node) : modNode (modNode k n f) n g = modNode k n (g ∘ f) := by
  simp only [modNode, ObjectEntry.mmod_mmod_same]

/-! ## DEVICE_DOWN and the time-out (R426, R430) -/

/-- A frame's incarnation (log entry 14). -/
def incOf (f : Frame) : W32 := BitVec.ofNat 32 (ofLE ((f.body.drop 4).take 4))

/-- The node a DEVICE_DOWN names. -/
def downOf (f : Frame) : Nat := ofLE (f.body.take 2) % 4096

/-- The node's entry once the DEVICE_DOWN has been noted. -/
def downNode (f : Frame) (q : Node) : Node := { q with downs := incOf f :: q.downs, inc := incOf f }

section Downs
variable {k : Core} {p : Nat} {f : Frame}

theorem takeDown_known (known : downOf f = ownNode k ∨ incOf f ∈ (node k (downOf f)).downs) : takeDown k p f = k :=
  if_pos (known.imp id fun mem => List.contains_iff_mem.mpr mem)

theorem takeDown_last (other : downOf f ≠ ownNode k) (new : incOf f ∉ (node k (downOf f)).downs) (last : f.hops = 0) :
    takeDown k p f = nodeLost (bump (modNode k (downOf f) (downNode f)) oFabDrop 1) (downOf f) := by
  have fresh : ¬(downOf f = ownNode k ∨ (node k (downOf f)).downs.contains (incOf f) = true) :=
    not_or.mpr ⟨other, fun listed => new (List.contains_iff_mem.mp listed)⟩
  refine (if_neg fresh).trans ?_
  simp only [if_pos last]
  rfl

theorem node_bump (k : Core) (o m n : Nat) : node (bump k o m) n = node k n := by simp [node]

theorem chan_bump (k : Core) (o m c : Nat) : chan (bump k o m) c = chan k c := by simp [chan]

theorem twinEn_bump (k : Core) (o m : Nat) : twinEn (bump k o m) = twinEn k := by simp [twinEn, rfld, rreg]

/-- A DEVICE_DOWN that is new loses its node and no other. -/
theorem takeDown_loses (other : downOf f ≠ ownNode k) (new : incOf f ∉ (node k (downOf f)).downs) (last : f.hops = 0) (single : twinEn k = false)
    (sessions : k.fab.sessions = []) (idle : ∀ e ∈ k.tiles, e.2.dm = none) : let t := takeDown k p f
    (node t (downOf f)).lost = true ∧ (∀ m, m ≠ downOf f → node t m = node k m) ∧
      ∀ c, (chan t c).st = if (chan k c).st = 1 ∧ (chan k c).peer = downOf f ∧ (node k (downOf f)).lost = false then 3 else (chan k c).st := by
  generalize noted : bump (modNode k (downOf f) (downNode f)) oFabDrop 1 = k1
  have nodes (m : Nat) : node k1 m = if m = downOf f then downNode f (node k (downOf f)) else node k m := by
    rw [← noted, node_bump, node_modNode]
  have chans (c : Nat) : chan k1 c = chan k c := by
    rw [← noted, chan_bump]
    rfl
  have before : (node k1 (downOf f)).lost = (node k (downOf f)).lost := by
    rw [nodes, if_pos rfl]
    rfl
  dsimp only
  rw [takeDown_last other new last, noted]
  cases lost : (node k (downOf f)).lost with
  | true =>
    have stays : nodeLost k1 (downOf f) = k1 := if_pos (before.trans lost)
    rw [stays]
    refine ⟨before.trans lost, fun m other => by rw [nodes, if_neg other], fun c => by rw [chans, if_neg (by simp)]⟩
  | false =>
    obtain ⟨gone, rest, ended, -⟩ := nodeLost_alone (k := k1) (before.trans lost) (by rw [← noted, twinEn_bump]; exact single)
      (by rw [← noted, ← sessions]; simp [modNode]) (by rw [← noted]; simpa [modNode] using idle)
    exact ⟨gone, fun m other => (rest m other).trans (by rw [nodes, if_neg other]), fun c => by rw [ended, chans]; simp⟩

end Downs

/-- Settles O54: a port's training and silence, and each frame and node by the branch that serves it. -/
theorem portsAndNodes : Obligations.PortsAndNodes := by
  unfold Obligations.PortsAndNodes
  intro s pt k p q setPort setNode takes mine
  have plain {g : Core → Core} {t : Core} (serves : portsServe k = true) (made : g k = t) : onPlain s (onlyIf portsServe g) = .next { s with core := t } :=
    onPlain_onlyIf_of_eq serves made
  have served {g : Core → Core} {t : Core} (serves : portsServe k = true) (made : g k = t) : onCore s (onlyIf portsServe g) = .next (s.finish t) :=
    (onCore_onlyIf g serves).trans (by rw [← made])
  have arrives {t : Nat} (f : Frame) (known : knownType t = true) (type : f.type.toNat = t) (ok : mine f) :
      arrive (ofType f t) k p f = serveFrame k p f := by
    obtain ⟨⟨live, lines, body, awake⟩, single, own⟩ := ok
    exact arrive_mine live lines body awake known type single own
  have forwards (f : Frame) {t : Core} (made : arrive (toForward k f) k p f = t) : exec (.frameForward pt f) s = .next (s.finish t) := by
    rw [← made]
    rfl
  have runs (f : Frame) (n : Nat) {t : Core} (made : arrive (ofType f n) k p f = t) :
      onCore s (fun k => arrive (ofType f n) k pt.toNat f) = .next (s.finish t) := by rw [← made]; rfl
  refine ⟨fun g peer serves trains lanes => ?_, fun g peer serves trains some_ low => ?_, fun g peer serves trains few => ?_,
    fun serves down enabled free => ?_, fun serves up sent single routed => ?_, fun f serves up sent early plain => ?_,
    fun f ok known single other hops => ?_, fun f ok drops => ?_, fun f ok type => ?_, fun f ok type => ?_, fun f ok type => ⟨?_, ?_, ?_⟩,
    fun f ok type => ?_, fun f ok type good path new => ?_, fun n serves there new awaited => ?_, fun n serves there asked single sessions idle => ?_⟩
  · exact plain (g := (portTrainingDone · p g peer.toNat)) serves (portTrainingDone_full peer.toNat trains lanes)
  · exact plain (g := (portTrainingDone · p g peer.toNat)) serves (portTrainingDone_low peer.toNat trains some_ low)
  · exact plain (g := (portTrainingDone · p g peer.toNat)) serves (portTrainingDone_none peer.toNat trains few)
  · have retried : portRetryTimer k p = modFport k p fun q => { q with link := 1 } := if_pos (by simp [serves, enabled, free, q] at down ⊢; exact down)
    exact congrArg (fun t => Host.Outcome.next ({ s with core := t } : State)) retried
  · exact served (g := (linkSilence · p)) serves (linkSilence_alone up sent single routed)
  · exact served (g := (linkResend · p)) serves (linkResend_one up sent early plain)
  · obtain ⟨live, lines, body, awake⟩ := ok
    exact forwards f ((arrive_other live lines body awake known single other).trans (if_neg hops))
  · obtain ⟨live, lines, body, awake⟩ := ok
    refine forwards f ?_
    cases known : knownType f.type.toNat with
    | false => exact arrive_unknown live lines body awake known
    | true =>
      obtain ⟨single, other, last⟩ := drops.resolve_right (by simp [known])
      exact (arrive_other live lines body awake known single other).trans (if_pos last)
  · exact runs f tPing ((arrives f rfl type ok).trans (serveFrame_ping type))
  · refine runs f tPong ((arrives f rfl type ok).trans ((serveFrame_pong type).trans ?_))
    exact modNode_twice ..
  · exact fun known => runs f tDown ((arrives f rfl type ok).trans ((serveFrame_down type).trans (takeDown_known known)))
  · intro other new lost last
    refine runs f tDown ((arrives f rfl type ok).trans ((serveFrame_down type).trans ((takeDown_last other new last).trans (if_pos ?_))))
    rw [node_bump, node_modNode, if_pos rfl]
    exact lost
  · intro other new last single sessions idle
    exact ⟨_, runs f tDown ((arrives f rfl type ok).trans (serveFrame_down type)), takeDown_loses other new last single sessions idle⟩
  · exact runs f tGrant ((arrives f rfl type ok).trans (serveFrame_grant type))
  · rw [takeGrant_accepted good path new]
    obtain ⟨cause, steady, fab, ctr', out, fresh, change⟩ := powerChange_cases (bump k oGrants 1) (fun k => modPwr k (fun p => { p with
      grant := some (grantOf (f.body.take 24)), seen := some (grantOf (f.body.take 24)).mw, lastSeq := some (grantOf (f.body.take 24)).seq
      from0 := p.force, periods := 0, lapsed := false, fabSrc := some f.src.toNat
      force := if (grantOf (f.body.take 24)).mw < p.force ∨ (grantOf (f.body.take 24)).ramp = 0 then (grantOf (f.body.take 24)).mw else p.force }))
    rw [change]
    exact ⟨rfl, rfl⟩
  · refine served (g := (e2eTimeout · n.toNat)) serves ?_
    simp only [e2eTimeout]
    rw [if_neg (by simp [serves, there, awaited]), if_neg (by simp [new])]
    rfl
  · have lost : e2eTimeout k n.toNat = nodeLost k n.toNat := by
      simp only [e2eTimeout]
      rw [if_neg (by simp [serves, there, awaits, asked]), if_pos asked]
    obtain ⟨gone, -, -, serial⟩ := nodeLost_alone there single sessions idle
    exact ⟨_, served (g := (e2eTimeout · n.toNat)) serves lost, gone, by rw [serial]; exact Nat.lt_succ_self _⟩

end Sys2Proof.Proofs.PortsNodes
end

section
/-! PROOFS. Channels, broadcast sessions and mirroring take their frames (R414 to R418, R420 to R425). -/

namespace Sys2Proof.Proofs.ChannelFrames
open Sys2Proof.Machine Sys2Proof.Laws Sys2Proof.Proofs.Reads Sys2Proof.Proofs.StackRows Sys2Proof.Proofs.MemoryLines Sys2Proof.Proofs.ServingEvents
open Sys2Proof.Proofs.TileSequencer Sys2Proof.Proofs.PortsNodes

/-! ## A run of lines -/

section Runs
variable {α : Type} (d : Byte) (a : Nat) (v : α → Line) (bad : Nat → Bool)

/-- Lines written one behind the other lie there with their poison, and every other line stays. -/
theorem putRun_lines (vs : List α) (m : Mem) (s : Nat) : let t := (vs.zipIdx s).foldl (fun m x => m.putLine d (a + x.2) (v x.1) (bad x.2)) m
    (∀ n x, vs[n]? = some x → t.line d (a + (s + n)) = v x ∧ t.lineBad (a + (s + n)) = bad (s + n)) ∧
      ∀ l, l < a + s ∨ a + s + vs.length ≤ l → t.line d l = m.line d l ∧ t.lineBad l = m.lineBad l := by
  induction vs generalizing m s with
  | nil => exact ⟨fun n x none => by simp at none, fun l _ => ⟨rfl, rfl⟩⟩
  | cons x xs ih =>
    obtain ⟨written, kept⟩ := ih (m.putLine d (a + s) (v x) (bad s)) (s + 1)
    simp only [List.zipIdx_cons, List.foldl_cons]
    refine ⟨fun n y here => ?_, fun l outside => ?_⟩
    · cases n with
      | zero =>
        obtain rfl : x = y := by simpa using here
        obtain ⟨line, poison⟩ := kept (a + s) (.inl (by omega))
        exact ⟨line.trans (line_putLine_same ..), poison.trans (lineBad_putLine_same ..)⟩
      | succ n =>
        have next := written n y (by simpa using here)
        rwa [show s + 1 + n = s + (n + 1) by omega] at next
    · rw [List.length_cons] at outside
      obtain ⟨line, poison⟩ := kept l (by omega)
      have ne : l ≠ a + s := by omega
      exact ⟨by rw [line, line_putLine_ne d m _ _ ne], by rw [poison, lineBad_putLine_ne d m _ _ ne]⟩

end Runs

/-! ## Channels (R414 to R418) -/

/-- The staging memory once the lines of a DATA frame lie in the channel's slot. -/
def stagedLines (m : Mem) (ch : Chan) (f : Frame) : Mem :=
  f.lines.zipIdx.foldl (fun m x => m.putLine 0 (stgLine ch.target (ch.base + ch.slot * ch.lines + f.offset.toNat) + x.2) x.1 (frameBad f x.2)) m

theorem putData_staged {k : Core} {ch : Chan} (f : Frame) (stg : ch.stg = true) : putData k ch f = { k with stg := stagedLines k.stg ch f } := by
  have run (l : List (Line × Nat)) (k : Core) :
      l.foldl (fun k x => { k with stg := k.stg.putLine 0 (stgLine ch.target (ch.base + ch.slot * ch.lines + f.offset.toNat + x.2)) x.1 (frameBad f x.2) }) k =
        { k with stg := l.foldl (fun m x =>
            m.putLine 0 (stgLine ch.target (ch.base + ch.slot * ch.lines + f.offset.toNat) + x.2) x.1 (frameBad f x.2)) k.stg } := by
    induction l generalizing k with
    | nil => rfl
    | cons x l ih =>
      rw [List.foldl_cons, ih]
      simp only [List.foldl_cons, stgLine, Nat.add_assoc]
  rw [putData, if_pos stg, run]
  rfl

theorem writeObj_fab (k : Core) (h l : Nat) (vs : List (Line × Bool)) : (writeObj k h l vs).fab = k.fab := by
  have lines := foldl_fixes (g := Core.fab) (f := fun k (x : (Line × Bool) × Nat) => putObjLine k h (l + x.2) x.1.1 x.1.2)
    (fun k x => by rw [putObjLine_frame]) vs.zipIdx k
  simp only [writeObj, noteWrite]
  split
  · exact lines
  · simpa using lines

theorem putData_fab (k : Core) (ch : Chan) (f : Frame) : (putData k ch f).fab = k.fab := by
  cases stg : ch.stg with
  | true => rw [putData_staged f stg]
  | false =>
    rw [putData, stg]
    exact writeObj_fab ..

theorem modChan_twice (k : Core) (c : Nat) (f g : Chan → Chan) : modChan (modChan k c f) c g = modChan k c (g ∘ f) := by
  simp only [modChan, ObjectEntry.mmod_mmod_same]

theorem modChan_congr {k : Core} {c : Nat} {f g : Chan → Chan} (same : f (chan k c) = g (chan k c)) : modChan k c f = modChan k c g := by
  simp only [modChan, mmod]
  rw [show mget {} k.fab.chans c = chan k c from rfl, same]

theorem chan_modChan (k : Core) (c m : Nat) (f : Chan → Chan) : chan (modChan k c f) m = if m = c then f (chan k c) else chan k m := mget_mmod ..

section Data
variable {k : Core} {f : Frame}

/-- The answer to a DATA frame. -/
def dataAnswer (k : Core) (f : Frame) (type : Nat) (body : List Byte) : Core :=
  routeChan k f.chan.toNat (mkFrame k f.src.toNat type f.chan.toNat f.tag 0 0 body [])

theorem takeData_outside (outside : chanTakes (chan k f.chan.toNat) f = false) : takeData k f = dataAnswer k f tNack (leBytes 2 rOverrun) := by
  simp only [takeData, outside]
  rfl

theorem takeData_more (takes : chanTakes (chan k f.chan.toNat) f = true) (more : f.flags.getLsbD 0 = false) :
    takeData k f = modChan (putData k (chan k f.chan.toNat) f) f.chan.toNat fun q => { q with part := q.part + f.lines.length } := by
  simp only [takeData, takes, more]
  rfl

/-- The channel once a transaction has ended. -/
def endedChan (ch : Chan) (n : Nat) (q : Chan) : Chan :=
  { q with
    part := 0, trans := ch.trans + 1, slot := if ch.stg then (ch.slot + 1) % max 1 ch.slots else ch.slot
    filled := if ch.stg then mput ch.filled ch.slot (ch.part + n, 0) else ch.filled }

theorem takeData_end (takes : chanTakes (chan k f.chan.toNat) f = true) (last : f.flags.getLsbD 0 = true) :
    takeData k f = dataAnswer (signalArrival (modChan (putData k (chan k f.chan.toNat) f) f.chan.toNat
      (endedChan (chan k f.chan.toNat) f.lines.length)) (chan k f.chan.toNat)) f tAck [] := by
  have own : chan (putData k (chan k f.chan.toNat) f) f.chan.toNat = chan k f.chan.toNat := by rw [chan, putData_fab]; rfl
  simp only [takeData, takes, last, Bool.not_true, Bool.false_eq_true, if_false, if_true, modChan_twice]
  refine congrArg (fun t => dataAnswer (signalArrival t (chan k f.chan.toNat)) f tAck []) (modChan_congr ?_)
  rw [own]
  rfl

end Data

/-! ## Rows of frames -/

section Rows
variable {k : Core} {p : Nat} {f : Frame} (near : strayFrame k p f = false)
include near

theorem serveFrame_data (type : f.type.toNat = tData) : serveFrame k p f = takeData k f := by simp [serveFrame, near, type]

theorem serveFrame_ack (type : f.type.toNat = tAck) : serveFrame k p f = takeAck k f := by simp [serveFrame, near, type, tAck, tData]

theorem serveFrame_nack (type : f.type.toNat = tNack) : serveFrame k p f = takeNack k f := by simp [serveFrame, near, type, tNack, tAck, tData]

theorem serveFrame_credit (type : f.type.toNat = tCredit) : serveFrame k p f = takeCredit k f := by
  simp [serveFrame, near, type, tCredit, tNack, tAck, tData]

theorem serveFrame_bcast (type : f.type.toNat = tBcast) : serveFrame k p f = takeShard k f true := by
  simp [serveFrame, near, type, tBcast, tCredit, tNack, tAck, tData]

theorem serveFrame_ctl (type : f.type.toNat = tCtl) : serveFrame k p f =
    let sub := bits f.flags.toNat 15 8
    if sub = bJoin then takeJoin k f else if sub = bEnd then takeEnd k f else if sub = bBitmap then takeBitmap k f
    else if sub = bDone then takeDone k f else k := by
  simp [serveFrame, near, type, tCtl, tBcast, tCredit, tNack, tAck, tData]

theorem serveFrame_join (type : f.type.toNat = tCtl) (kind : bits f.flags.toNat 15 8 = bJoin) : serveFrame k p f = takeJoin k f := by
  simp [serveFrame_ctl near type, kind]

theorem serveFrame_end (type : f.type.toNat = tCtl) (kind : bits f.flags.toNat 15 8 = bEnd) : serveFrame k p f = takeEnd k f := by
  simp [serveFrame_ctl near type, kind, bEnd, bJoin]

theorem serveFrame_bitmap (type : f.type.toNat = tCtl) (kind : bits f.flags.toNat 15 8 = bBitmap) : serveFrame k p f = takeBitmap k f := by
  simp [serveFrame_ctl near type, kind, bBitmap, bEnd, bJoin]

theorem serveFrame_done (type : f.type.toNat = tCtl) (kind : bits f.flags.toNat 15 8 = bDone) : serveFrame k p f = takeDone k f := by
  simp [serveFrame_ctl near type, kind, bDone, bBitmap, bEnd, bJoin]

theorem serveFrame_mirror (type : f.type.toNat = tMirror) : serveFrame k p f = takeMirror k p f := by
  simp [serveFrame, near, type, tMirror, tCtl, tBcast, tCredit, tNack, tAck, tData]

theorem serveFrame_mirrorAck (type : f.type.toNat = tMirrorAck) : serveFrame k p f = takeMirrorAck k f := by
  simp [serveFrame, near, type, tMirrorAck, tMirror, tCtl, tBcast, tCredit, tNack, tAck, tData]

end Rows

section Answers
variable {k : Core} {f : Frame} {o : Nat} (channel : outChan k f.src.toNat f.chan.toNat = some o)
include channel

theorem takeAck_retires {t : Nat} {i : TIns} (waits : peerWaiter k o f.tag.toNat = some (t, i)) :
    takeAck k f = tsRun (dmRetire (modTile k t fun q => { q with dm := none }) t i) t := by
  simp only [takeAck, channel, waits, onTile]

theorem takeNack_fails {t : Nat} {i : TIns} (transaction : ofLE (f.body.take 2) ≠ rShardDigest) (waits : peerWaiter k o f.tag.toNat = some (t, i)) :
    takeNack k f = tileFail (modTile k t fun q => { q with dm := none }) t i.widx rOverrun 32 := by
  refine (if_neg transaction).trans ?_
  simp only [channel, waits]

theorem takeCredit_returns : takeCredit k f = modChan k o fun q => { q with credits := if q.stg then min q.slots (q.credits + 1) else q.credits } := by
  simp only [takeCredit, channel]

end Answers

/-! ## Broadcast sessions (R420 to R422) -/

section Sessions
variable {k : Core} {f : Frame} {v : Session} (opened : session k f.chan.toNat = some v)
include opened

theorem takeNack_shard (shard : ofLE (f.body.take 2) = rShardDigest) (reads : v.reader = true) :
    takeNack k f = askAgain k f.chan.toNat v f.src.toNat [f.tag.toNat] := by
  refine (if_pos shard).trans ?_
  simp only [opened, reads, if_true]

theorem takeShard_put {h : Shard} (receives : v.reader = false) (peer : v.peer = f.src.toNat) (new : f.tag.toNat ∉ v.verified)
    (shard : v.shards[f.tag.toNat]? = some h) (fits : f.offset.toNat + f.lines.length ≤ h.lines) (uni : Bool) :
    takeShard k f uni = if f.flags.getLsbD 0 then shardEnd (putShard k h f) f.chan.toNat f.tag.toNat v h uni else putShard k h f := by
  simp only [takeShard, opened]
  rw [if_neg (by simp [receives, peer, new])]
  simp only [shard]
  rw [if_neg (by omega)]

omit opened in
/-- A shard whose digest holds is verified; the session goes on while another is missing. -/
theorem shardEnd_verified {h : Shard} {i m : Nat} (digest : shardDigest k h = h.digest) (missing : m < v.shards.length) (other : m ≠ i)
    (unverified : m ∉ v.verified) (uni : Bool) :
    shardEnd k f.chan.toNat i v h uni = putSession k f.chan.toNat { v with resent := v.resent + b2n uni, verified := sput v.verified i } := by
  simp only [shardEnd, digest, if_true]
  refine if_neg fun none => ?_
  have listed : m ∈ ({ v with resent := v.resent + b2n uni, verified := sput v.verified i } : Session).missing :=
    List.mem_filter.mpr ⟨by simpa [upFrom] using missing, by simp [other, unverified]⟩
  rw [List.isEmpty_iff.mp none] at listed
  exact List.not_mem_nil listed

theorem takeJoin_joins (reads : v.reader = true) (early : v.started = false) :
    let x : Session := { v with joined := mput v.joined f.src.toNat {} }
    takeJoin k f = if v.count ≤ x.joined.length then bcastStart k f.chan.toNat x else putSession k f.chan.toNat x := by
  simp [takeJoin, opened, reads, early]

theorem takeEnd_names (receives : v.reader = false) (peer : v.peer = f.src.toNat) (missing : v.missing ≠ []) :
    takeEnd k f = sendBitmap k f.chan.toNat { v with gotEnd := true } := by
  simp [takeEnd, opened, receives, peer, missing]

omit opened in
/-- A receiver whose shards may all be sent again. -/
theorem askAgain_all {s n : Nat} {r : Recv} {is : List Nat} (joined : mget? v.joined n = some r) (open_ : r.done = false) (sound : r.failed = false)
    (few : ∀ i ∈ is, i < v.shards.length ∧ mget 0 r.resends i < 4) :
    let r1 : Recv := { r with resends := is.foldl (fun m i => mput m i (mget 0 m i + 1)) r.resends }
    let x : Session := { v with joined := mput v.joined n r1, resent := v.resent + is.length, todo := v.todo ++ is.map fun i => (n, i) }
    askAgain k s v n is = readerCheck (bcastGo (putSession k s x) s (x.todo.length + 1)) s := by
  have all : is.filter (fun i => decide (i < v.shards.length ∧ mget 0 r.resends i < 4)) = is := List.filter_eq_self.mpr fun i mem => by simpa using few i mem
  have none : is.any (fun i => decide (4 ≤ mget 0 r.resends i)) = false := List.any_eq_false.mpr fun i mem => by
    have := (few i mem).2
    simpa using this
  have same : ({ r with resends := is.foldl (fun m i => mput m i (mget 0 m i + 1)) r.resends, failed := false } : Recv) =
      { r with resends := is.foldl (fun m i => mput m i (mget 0 m i + 1)) r.resends } := by rw [← sound]
  simp only [askAgain, joined, all, none, same]
  rw [if_neg (by simp [open_, sound])]

theorem takeBitmap_asks (reads : v.reader = true) : takeBitmap k f = askAgain k f.chan.toNat v f.src.toNat (bitmapShards f) := by
  simp [takeBitmap, opened, reads]

theorem takeDone_done {r : Recv} (reads : v.reader = true) (joined : mget? v.joined f.src.toNat = some r) :
    takeDone k f = readerCheck (putSession k f.chan.toNat { v with joined := mput v.joined f.src.toNat { r with done := !r.failed } }) f.chan.toNat := by
  simp only [takeDone, opened, joined, reads, if_true]

end Sessions

/-! ## Mirroring (R425, R429) -/

section Mirroring
variable {k : Core} {f : Frame} (paired : twinEn k = true) (source : f.src.toNat = twinNode k)
include paired source

theorem takeMirror_kept (p : Nat) (idle : k.fab.twin.st = 0 ∨ k.fab.twin.st = 3) (later : k.fab.twin.applied < f.tag.toNat)
    (new : ∀ g ∈ k.fab.twin.early, g.tag ≠ f.tag) : takeMirror k p f = modTwin k fun w => { w with early := w.early ++ [f] } := by
  have absent : k.fab.twin.early.any (fun g => g.tag == f.tag) = false := List.any_eq_false.mpr fun g mem => by simpa using new g mem
  simp only [takeMirror]
  rw [if_neg (by rcases idle with idle | idle <;> simp [paired, source, idle]), if_neg (by omega), absent]
  simp [later]

/-- The next MIRROR frame, which changes nothing here: it is applied and acknowledged. -/
theorem takeMirror_next {p : Nat} (live : portLive k p = true) (active : k.fab.twin.st = 1 ∨ k.fab.twin.st = 2)
    (next : f.tag.toNat = k.fab.twin.applied + 1) (none : k.fab.twin.early = []) (stepEnd : bits f.flags.toNat 15 8 = mStepEnd) :
    let k2 := modTwin k fun w => { w with applied := w.applied + 1 }
    takeMirror k p f = sendOn k2 p (mkFrame k2 (twinNode k) tMirrorAck 0 (BitVec.ofNat 64 (k.fab.twin.applied + 1)) 0 0 [] []) := by
  have apply (t : Core) : applyMirror t f = some t := by
    simp [applyMirror, stepEnd, mStepEnd, mSeq, mAcct, mMap, mPage, mRecord, mCommit]
  have alone : (modTwin k fun w => { w with early := w.early ++ [f] }).fab.twin.early = [f] := by simp [modTwin, none]
  have turn : applyEarly (modTwin k fun w => { w with early := w.early ++ [f] }) 1 = modTwin k fun w => { w with applied := w.applied + 1 } := by
    have first : [f].find? (fun g => g.tag.toNat == k.fab.twin.applied + 1) = some f := by simp [next]
    have found : (modTwin k fun w => { w with early := w.early ++ [f] }).fab.twin.early.find?
        (fun g => g.tag.toNat == (modTwin k fun w => { w with early := w.early ++ [f] }).fab.twin.applied + 1) = some f := by rw [alone]; exact first
    simp only [applyEarly, found, apply]
    simp [modTwin, none]
  have new : (decide (k.fab.twin.applied < f.tag.toNat) && !k.fab.twin.early.any fun g => g.tag == f.tag) = true := by simp [next, none]
  simp only [takeMirror, new, if_true]
  rw [if_neg (by rcases active with active | active <;> simp [paired, source, active]), if_pos active, alone, List.length_singleton, turn]
  exact if_pos ⟨active, live⟩

theorem takeMirrorAck_releases (synced : k.fab.twin.syncEnd = none) (written : ∀ n, (seq k n).waiting = []) :
    takeMirrorAck k f = modTwin k fun w => { w with unacked := w.unacked.filter fun g => decide (f.tag.toNat < g.tag.toNat) } := by
  have ready (t : Core) (seqs : t.seqs = k.seqs) : writeReady t = t :=
    List.foldlRecOn (motive := fun u : Core => u = t) _ _ rfl fun u same s _ => by
      subst same
      have none : (seq u s).waiting = [] := by rw [seq, seqs]; exact written s
      rw [none]
      rfl
  simp only [takeMirrorAck]
  rw [if_neg (by simp [paired, source])]
  have sync : (modTwin k fun w => { w with unacked := w.unacked.filter fun g => decide (f.tag.toNat < g.tag.toNat) }).fab.twin.syncEnd = none := synced
  simp only [sync]
  exact ready _ rfl

end Mirroring

theorem bcastTimeout_starts {k : Core} {n : Nat} {v : Session} (opened : session k n = some v) (reads : v.reader = true) (early : v.started = false) :
    bcastTimeout k n = bcastStart k n v := by simp [bcastTimeout, opened, reads, early]

theorem bcastTimeout_names {k : Core} {n : Nat} {v : Session} (opened : session k n = some v) (receives : v.reader = false) (ended : v.gotEnd = true)
    (missing : v.missing ≠ []) : bcastTimeout k n = sendBitmap k n v := by simp [bcastTimeout, opened, receives, ended, missing]

/-- Settles O55: each frame by the branch that takes it. -/
theorem channelsSessionsAndMirroring : Obligations.ChannelsSessionsAndMirroring := by
  unfold Obligations.ChannelsSessionsAndMirroring
  intro s pt f k p c src ch sub here setChan twin w answer
  have runs {n : Nat} {t : Core} (ok : here n) (known : knownType n = true) (made : serveFrame k p f = t) :
      onCore s (fun k => arrive (ofType f n) k pt.toNat f) = .next (s.finish t) := by
    obtain ⟨live, lines, body, awake, single, mine, type, -⟩ := ok
    rw [onCore, ← made]
    exact congrArg (fun t => Host.Outcome.next (s.finish t)) (arrive_mine live lines body awake known type single mine)
  have near {n : Nat} (ok : here n) : strayFrame k p f = false := by
    obtain ⟨-, -, -, -, -, -, -, near⟩ := ok
    exact near
  have typed {n : Nat} (ok : here n) : f.type.toNat = n := by
    obtain ⟨-, -, -, -, -, -, type, -⟩ := ok
    exact type
  have controls {n : Nat} {t : Core} (ok : here tCtl) (kind : sub = n) (made : serveFrame k p f = t) :
      onCore s (fun k => arrive (ofSub f n) k pt.toNat f) = .next (s.finish t) := by
    have row : ofSub f n = ofType f tCtl := by
      rw [ofSub, show bits f.flags.toNat 15 8 = n from kind]
      simp
    rw [row]
    exact runs ok rfl made
  refine ⟨fun ok outside => ?_, fun ok takes stg more => ?_, fun ok takes last => ?_, fun o t i ok channel waits => ?_,
    fun o t i ok transaction channel waits => ?_, fun v ok shard opened reads => ?_, fun o ok channel => ?_,
    fun v h ok opened receives peer new shard fits more => ?_, fun v h ok opened receives peer new shard fits last digest m missing other unverified => ?_,
    fun live lines body awake all type => ?_, fun v ok kind opened reads early => ?_, fun v ok kind opened receives peer missing => ?_,
    fun v r ok kind opened reads joined open_ sound few => ?_, fun v r ok kind opened reads joined => ?_,
    fun n v up opened => ⟨fun reads early => ?_, fun receives ended missing => ?_⟩, fun ok paired source idle later new => ?_,
    fun ok paired source active next none stepEnd => ?_, fun ok paired source synced written => ?_⟩
  · exact runs ok rfl ((serveFrame_data (near ok) (typed ok)).trans (takeData_outside outside))
  · have made := (serveFrame_data (near ok) (typed ok)).trans (takeData_more takes more)
    rw [putData_staged f stg] at made
    obtain ⟨written, kept⟩ := putRun_lines 0 (stgLine ch.target (ch.base + ch.slot * ch.lines + f.offset.toNat)) id (frameBad f) f.lines k.stg 0
    refine ⟨_, runs ok rfl made, (chan_modChan ..).trans (if_pos rfl), fun n inside => ?_, fun l outside => (kept l (by omega)).1,
      fun m other => (chan_modChan ..).trans (if_neg other), rfl⟩
    have here := written n (f.lines.getD n 0) (by simp [List.getD, inside])
    rwa [Nat.zero_add] at here
  · exact runs ok rfl ((serveFrame_data (near ok) (typed ok)).trans (takeData_end takes last))
  · exact runs ok rfl ((serveFrame_ack (near ok) (typed ok)).trans (takeAck_retires channel waits))
  · exact runs ok rfl ((serveFrame_nack (near ok) (typed ok)).trans (takeNack_fails channel transaction waits))
  · exact runs ok rfl ((serveFrame_nack (near ok) (typed ok)).trans (takeNack_shard opened shard reads))
  · exact runs ok rfl ((serveFrame_credit (near ok) (typed ok)).trans (takeCredit_returns channel))
  · refine runs ok rfl ((serveFrame_bcast (near ok) (typed ok)).trans ((takeShard_put opened receives peer new shard fits true).trans (if_neg ?_)))
    rw [more]
    exact Bool.false_ne_true
  · exact runs ok rfl ((serveFrame_bcast (near ok) (typed ok)).trans ((takeShard_put opened receives peer new shard fits true).trans
      ((if_pos last).trans (shardEnd_verified digest missing other unverified true))))
  · have made : arrive (ofType f tBcast) k p f = takeShard (forwardBcast k p f) f false := by
      rw [arrive_frameIn live lines body awake (by simp [ofType, type])]
      simp only [frameIn, type, show knownType tBcast = true from rfl]
      rw [if_neg (by decide), if_pos all]
      rfl
    rw [← made]
    rfl
  · exact controls ok kind ((serveFrame_join (near ok) (typed ok) kind).trans (takeJoin_joins opened reads early))
  · exact controls ok kind ((serveFrame_end (near ok) (typed ok) kind).trans (takeEnd_names opened receives peer missing))
  · exact controls ok kind ((serveFrame_bitmap (near ok) (typed ok) kind).trans ((takeBitmap_asks opened reads).trans (askAgain_all joined open_ sound few)))
  · exact controls ok kind ((serveFrame_done (near ok) (typed ok) kind).trans (takeDone_done opened reads joined))
  · exact (onCore_whenAlive _ up).trans (by rw [bcastTimeout_starts opened reads early])
  · exact (onCore_whenAlive _ up).trans (by rw [bcastTimeout_names opened receives ended missing])
  · exact runs ok rfl ((serveFrame_mirror (near ok) (typed ok)).trans (takeMirror_kept paired source p idle later new))
  · exact runs ok rfl ((serveFrame_mirror (near ok) (typed ok)).trans (takeMirror_next paired source ok.1 active next none stepEnd))
  · exact runs ok rfl ((serveFrame_mirrorAck (near ok) (typed ok)).trans (takeMirrorAck_releases paired source synced written))

end Sys2Proof.Proofs.ChannelFrames
end

section
/-! PROOFS. Moves of the Data Mover: the rows of a destination, the elements of a transposed row, and the DM instructions (R144, R145, R151 to R156). -/

namespace Sys2Proof.Proofs.Moves
open Sys2Proof.Machine Sys2Proof.Laws Sys2Proof.Proofs.Reads Sys2Proof.Proofs.MemoryLines Sys2Proof.Proofs.TileSequencer Sys2Proof.Proofs.HitchCounters
open Sys2Proof.Proofs.Acceptance Sys2Proof.Proofs.Retraining

/-! ## One line of a place in tile or staging memory -/

/-- One line of a place, written. -/
def putPlaceLine (k : Core) (p l : Nat) (x : Line × Bool) : Core :=
  if plSpace p = 1 then tmPut k (physTile k (plIndex p % 256)) l x.1 x.2
  else { k with stg := k.stg.putLine 0 (stgLine (plIndex p % 2) l) x.1 x.2 }

/-- m is k with other lines at place p at most. -/
structure PlaceKept (p : Nat) (k m : Core) : Prop where
  frame : m = { k with tiles := m.tiles, stg := m.stg }
  tiles : ∀ u, tile m u = { tile k u with mem := (tile m u).mem }
  mem : ∀ u, plSpace p = 2 ∨ u ≠ physTile k (plIndex p % 256) → (tile m u).mem = (tile k u).mem
  stg : plSpace p = 1 → m.stg = k.stg

theorem PlaceKept.refl (p : Nat) (k : Core) : PlaceKept p k k := ⟨rfl, fun _ => rfl, fun _ _ => rfl, fun _ => rfl⟩

theorem PlaceKept.physTile {p : Nat} {k m : Core} (kept : PlaceKept p k m) (l : Nat) : physTile m l = Machine.physTile k l := by
  rw [kept.frame]
  rfl

theorem PlaceKept.trans {p : Nat} {k m n : Core} (first : PlaceKept p k m) (second : PlaceKept p m n) : PlaceKept p k n where
  frame := by
    rw [second.frame, first.frame]
  tiles u := by
    rw [second.tiles u, first.tiles u]
  mem u other := (second.mem u (by rwa [first.physTile])).trans (first.mem u other)
  stg space := (second.stg space).trans (first.stg space)

section Lines
variable {p : Nat} (near : plSpace p = 1 ∨ plSpace p = 2)
include near

theorem putPlaceLine_kept (k : Core) (l : Nat) (x : Line × Bool) : PlaceKept p k (putPlaceLine k p l x) := by
  rcases near with one | two
  · rw [putPlaceLine, if_pos one]
    refine ⟨rfl, fun u => ?_, fun u other => ?_, fun _ => rfl⟩
    · rw [tmPut, tile_modTile]
      split
      · next same => rw [same]
      · rfl
    · rw [tmPut, tile_modTile_ne _ (other.resolve_left (by omega))]
  · rw [putPlaceLine, if_neg (by omega)]
    exact ⟨rfl, fun _ => rfl, fun _ _ => rfl, fun one => absurd one (by omega)⟩

/-- A line written at a place is the one read there, and every other line is as before. -/
theorem placeLine_putPlaceLine (k : Core) (n l : Nat) (x : Line × Bool) :
    placeLine (putPlaceLine k p n x) p l = if l = n then x else placeLine k p l := by
  have phys := (putPlaceLine_kept near k n x).physTile (plIndex p % 256)
  rcases near with one | two
  · simp only [placeLine, if_pos one, phys, tmLine, tmBad]
    simp only [putPlaceLine, if_pos one, tmPut, tile_modTile_same]
    split
    · next same => rw [same, line_putLine_same, lineBad_putLine_same]
    · next other => rw [line_putLine_ne _ _ _ _ other, lineBad_putLine_ne _ _ _ _ other]
  · have space : ¬ plSpace p = 1 := by omega
    simp only [placeLine, if_neg space, putPlaceLine]
    split
    · next same => rw [same, line_putLine_same, lineBad_putLine_same]
    · next other =>
      have ne : stgLine (plIndex p % 2) l ≠ stgLine (plIndex p % 2) n := by
        unfold stgLine
        omega
      rw [line_putLine_ne _ _ _ _ ne, lineBad_putLine_ne _ _ _ _ ne]

/-! ## A row, and the rows of an extent -/

theorem putPlaceRow_eq (k : Core) (line : Nat) (vs : List (Line × Bool)) :
    putPlaceRow k p line vs = vs.zipIdx.foldl (fun k x => putPlaceLine k p (line + x.2) x.1) k := by
  rcases near with one | two
  · simp only [putPlaceRow, one, putPlaceLine, if_true]
  · simp only [putPlaceRow, two, putPlaceLine]
    rfl

/-- A row written lies behind its first line, and the other lines stay. -/
theorem putPlaceRow_lines (k : Core) (line : Nat) (vs : List (Line × Bool)) : let m := putPlaceRow k p line vs
    PlaceKept p k m ∧ (∀ n x, vs[n]? = some x → placeLine m p (line + n) = x) ∧
      ∀ l, l < line ∨ line + vs.length ≤ l → placeLine m p l = placeLine k p l := by
  dsimp only
  rw [putPlaceRow_eq near]
  suffices run : ∀ s k, let m := (vs.zipIdx s).foldl (fun k x => putPlaceLine k p (line + x.2) x.1) k
      PlaceKept p k m ∧ (∀ n x, vs[n]? = some x → placeLine m p (line + (s + n)) = x) ∧
        ∀ l, l < line + s ∨ line + s + vs.length ≤ l → placeLine m p l = placeLine k p l by
    simpa using run 0 k
  intro s k
  induction vs generalizing s k with
  | nil => exact ⟨.refl p k, fun n x none => by simp at none, fun _ _ => rfl⟩
  | cons x xs ih =>
    obtain ⟨kept, written, same⟩ := ih (s + 1) (putPlaceLine k p (line + s) x)
    simp only [List.zipIdx_cons, List.foldl_cons]
    refine ⟨(putPlaceLine_kept near k _ x).trans kept, fun n y here => ?_, fun l outside => ?_⟩
    · cases n with
      | zero =>
        obtain rfl : x = y := by simpa using here
        rw [same _ (.inl (by omega)), Nat.add_zero, placeLine_putPlaceLine near, if_pos rfl]
      | succ n =>
        have next := written n y (by simpa using here)
        rwa [show s + 1 + n = s + (n + 1) by omega] at next
    · rw [List.length_cons] at outside
      rw [same l (by omega), placeLine_putPlaceLine near, if_neg (by omega)]

/-- The rows written at a pitch that keeps them apart lie in their places, and the lines outside them stay. -/
theorem putRows_lines (k : Core) (e : Ext) (rows : List (List (Line × Bool))) (count : rows.length = e.rows)
    (len : ∀ row ∈ rows, row.length = e.len) (apart : e.rows ≤ 1 ∨ e.len ≤ e.pitch) : let m := putRows k p e rows
    PlaceKept p k m ∧
      (∀ r row, rows[r]? = some row → ∀ l x, row[l]? = some x → placeLine m p (e.start + r * e.pitch + l) = x) ∧
      ∀ l, (∀ r, r < e.rows → l < e.start + r * e.pitch ∨ e.start + r * e.pitch + e.len ≤ l) → placeLine m p l = placeLine k p l := by
  dsimp only [putRows, Ext.starts]
  rw [← count] at apart ⊢
  suffices run : ∀ s k, let m := (((upFrom s rows.length).map fun r => e.start + r * e.pitch).zip rows).foldl (fun k x => putPlaceRow k p x.1 x.2) k
      PlaceKept p k m ∧
        (∀ r row, rows[r]? = some row → ∀ l x, row[l]? = some x → placeLine m p (e.start + (s + r) * e.pitch + l) = x) ∧
        ∀ l, (∀ r, r < rows.length → l < e.start + (s + r) * e.pitch ∨ e.start + (s + r) * e.pitch + e.len ≤ l) →
          placeLine m p l = placeLine k p l by
    simpa using run 0 k
  clear count
  intro s k
  induction rows generalizing s k with
  | nil => exact ⟨.refl p k, fun r row none => by simp at none, fun _ _ => rfl⟩
  | cons row rows ih =>
    have size : row.length = e.len := len row List.mem_cons_self
    obtain ⟨keptRow, writtenRow, sameRow⟩ := putPlaceRow_lines near k (e.start + s * e.pitch) row
    obtain ⟨kept, written, same⟩ := ih (fun r inside => len r (List.mem_cons_of_mem _ inside)) (apart.imp_left fun one => by
      rw [List.length_cons] at one
      omega) (s + 1) (putPlaceRow k p (e.start + s * e.pitch) row)
    simp only [List.length_cons, upFrom, List.map_cons, List.zip_cons_cons, List.foldl_cons]
    refine ⟨keptRow.trans kept, fun r v here l x inside => ?_, fun l outside => ?_⟩
    · cases r with
      | zero =>
        obtain rfl : row = v := by simpa using here
        have within : l < e.len := by
          rw [← size]
          exact (List.getElem?_eq_some_iff.mp inside).1
        refine (same _ fun r inRows => .inl ?_).trans (by simpa using writtenRow l x inside)
        have pitch : e.len ≤ e.pitch := apart.resolve_left (by rw [List.length_cons]; omega)
        have steps : (s + 1 + r) * e.pitch = s * e.pitch + e.pitch + r * e.pitch := by ring
        rw [steps, Nat.add_zero]
        omega
      | succ r =>
        have next := written r v (by simpa using here) l x inside
        rwa [show s + 1 + r = s + (r + 1) by omega] at next
    · rw [same l fun r inRows => by
        have := outside (r + 1) (by omega)
        rwa [show s + (r + 1) = s + 1 + r by omega] at this]
      refine sameRow l ?_
      rw [size]
      simpa using outside 0 (by omega)

end Lines

/-! ## Elements of a row of lines (R154) -/

theorem packBits_lt {w : Nat} {l : List Nat} (small : ∀ e ∈ l, e < 2 ^ w) : packBits w l < 2 ^ (w * l.length) := by
  induction l with
  | nil => simp [packBits]
  | cons e r ih =>
    have head := small e List.mem_cons_self
    have rest := ih fun x inside => small x (List.mem_cons_of_mem _ inside)
    calc packBits w (e :: r) < 2 ^ w + 2 ^ w * packBits w r := by
          rw [packBits]
          omega
      _ = 2 ^ w * (packBits w r + 1) := by ring
      _ ≤ 2 ^ w * 2 ^ (w * r.length) := Nat.mul_le_mul_left _ rest
      _ = 2 ^ (w * (e :: r).length) := by rw [← pow_add, List.length_cons]; congr 1; ring

/-- Element n of elements packed from bit 0. -/
theorem elemAt_packBits {w n : Nat} {l : List Nat} (small : ∀ e ∈ l, e < 2 ^ w) (inside : n < l.length) : elemAt (packBits w l) w n = l[n] := by
  induction l generalizing n with
  | nil => cases inside
  | cons e r ih =>
    have head := small e List.mem_cons_self
    cases n with
    | zero => simp [elemAt, packBits, Nat.mod_eq_of_lt head]
    | succ n =>
      have next := ih (fun x mem => small x (List.mem_cons_of_mem _ mem)) (n := n) (by simpa using inside)
      have shift : packBits w (e :: r) / 2 ^ (w * (n + 1)) = packBits w r / 2 ^ (w * n) := by
        rw [packBits, Nat.mul_succ, Nat.add_comm (w * n), pow_add, ← Nat.div_div_eq_div_mul, Nat.add_mul_div_left _ _ (Nat.two_pow_pos w),
          Nat.div_eq_of_lt head, Nat.zero_add]
      rw [elemAt, shift]
      exact next

/-- Element r of a row of lines is the element of the line it lies in. -/
theorem elemAt_rowNumber {w per : Nat} (whole : w * per = 512) (rows : List (Line × Bool)) {m n : Nat} (small : n < per) (inside : m < rows.length) :
    elemAt (rowNumber rows) w (m * per + n) = elemAt (rows[m]).1.toNat w n := by
  induction rows generalizing m with
  | nil => cases inside
  | cons l r ih =>
    have lt : l.1.toNat < 2 ^ 512 := l.1.isLt
    cases m with
    | zero =>
      have upper : w * n + w ≤ 512 := by
        rw [← whole, ← Nat.mul_succ]
        exact Nat.mul_le_mul_left _ small
      have split : (2 : Nat) ^ 512 = 2 ^ (w * n) * (2 ^ w * 2 ^ (512 - (w * n + w))) := by
        rw [← pow_add, ← pow_add]
        congr 1
        omega
      simp only [elemAt, rowNumber, Nat.zero_mul, Nat.zero_add, List.getElem_cons_zero]
      rw [split, Nat.mul_assoc, Nat.add_mul_div_left _ _ (Nat.two_pow_pos _), Nat.mul_assoc, Nat.add_mul_mod_self_left]
    | succ m =>
      have next := ih (m := m) (by simpa using inside)
      have shift : rowNumber (l :: r) / 2 ^ (w * ((m + 1) * per + n)) = rowNumber r / 2 ^ (w * (m * per + n)) := by
        rw [rowNumber, show w * ((m + 1) * per + n) = w * per + w * (m * per + n) by ring, whole, pow_add, ← Nat.div_div_eq_div_mul,
          Nat.add_mul_div_left _ _ (Nat.two_pow_pos _), Nat.div_eq_of_lt lt, Nat.zero_add]
      rw [elemAt, shift]
      exact next

theorem upFrom_eq_range' (lo n : Nat) : upFrom lo n = List.range' lo n := by
  induction n generalizing lo with
  | zero => rfl
  | succ n ih => rw [upFrom, ih, List.range'_succ]

@[simp] theorem length_upFrom (lo n : Nat) : (upFrom lo n).length = n := by rw [upFrom_eq_range', List.length_range']

theorem getElem?_upFrom (lo : Nat) {n i : Nat} (inside : i < n) : (upFrom lo n)[i]? = some (lo + i) := by
  rw [upFrom_eq_range', List.getElem?_range' inside, Nat.one_mul]

/-! ## Transposition (R154) -/

section Transposed
variable {w per : Nat} (rows : List (List (Line × Bool))) (whole : w * per = 512)
include whole

theorem transLine_elem {j m n : Nat} (small : n < per) :
    elemAt (transLine rows (rows.map rowNumber) w j m).1.toNat w n = elemAt ((rows.map rowNumber).getD (m * per + n) 0) w j := by
  have pos : 0 < w := Nat.pos_of_ne_zero fun zero => by simp [zero] at whole
  have lines : 512 / w = per := by rw [← whole, Nat.mul_div_cancel_left _ pos]
  let elems := (upFrom (m * per) per).map (transElem (rows.map rowNumber) w j)
  have bounded : ∀ e ∈ elems, e < 2 ^ w := by
    intro e mem
    obtain ⟨r, -, rfl⟩ := List.mem_map.mp mem
    exact Nat.mod_lt _ (Nat.two_pow_pos w)
  have size : elems.length = per := by simp [elems]
  have fits : packBits w elems < 2 ^ 512 := by
    have := packBits_lt bounded
    rwa [size, whole] at this
  have packed : (transLine rows (rows.map rowNumber) w j m).1.toNat = packBits w elems := by
    simp only [transLine, lines, BitVec.toNat_ofNat]
    exact Nat.mod_eq_of_lt fits
  rw [packed, elemAt_packBits bounded (by omega)]
  have number : (upFrom (m * per) per)[n]'(by simpa using small) = m * per + n := by
    rw [← Option.some.injEq, ← List.getElem?_eq_getElem, getElem?_upFrom _ small]
  simp only [elems, List.getElem_map, transElem, transElem.elemOf, elemAt, number]

/-- Element r of transposed row n is element n of row r. -/
theorem transposed {lines r n : Nat} (inside : r < lines * per) :
    elemAt (rowNumber ((upFrom 0 lines).map fun m => transLine rows (rows.map rowNumber) w n m)) w r =
      elemAt ((rows.map rowNumber).getD r 0) w n := by
  have pos : 0 < per := Nat.pos_of_ne_zero fun zero => by simp [zero] at whole
  have line : r / per < lines := (Nat.div_lt_iff_lt_mul pos).mpr inside
  have split : r = r / per * per + r % per := by
    rw [Nat.mul_comm]
    exact (Nat.div_add_mod r per).symm
  have number : (upFrom 0 lines)[r / per]'(by simpa using line) = r / per := by
    rw [← Option.some.injEq, ← List.getElem?_eq_getElem, getElem?_upFrom _ line, Nat.zero_add]
  conv_lhs => rw [split]
  rw [elemAt_rowNumber whole _ (Nat.mod_lt _ pos) (by simpa using line), List.getElem_map, number, transLine_elem rows whole (Nat.mod_lt _ pos), ← split]

end Transposed

/-! ## The instruction a unit holds (R133) -/

section Held
variable {k : Core} {t u : Nat} {i : TIns}

theorem heldIns_plain (take : canTake k t u i = true) (plain : i.plain = i) : (heldIns k t u i).plain = i := by
  simp only [canTake, Bool.and_eq_true] at take
  obtain ⟨-, head⟩ := take
  simp only [heldIns]
  split at head
  · next empty =>
    simp only [empty, dispatched]
    split <;> exact plain
  · next q r queue =>
    simp only [queue]
    exact beq_iff_eq.mp head

theorem eq_of_plain {i j : TIns} (plain : j.plain = i) : j = { i with tval := j.tval } := by
  rw [← plain]
  rfl

theorem ok_of_firstBad {l : List Chk} (none : firstBad l = none) : ∀ e ∈ l, e.bad = false := by
  induction l with
  | nil => exact fun e mem => nomatch mem
  | cons c r ih =>
    simp only [firstBad] at none
    split at none
    · next rest =>
      split at none
      · cases none
      · next ok => exact List.forall_mem_cons.mpr ⟨Bool.eq_false_iff.mpr ok, ih rest⟩
    · split at none <;> cases none

/-- An instruction of a program has passed the checks of its word. -/
theorem limits_of_canTake (take : canTake k t u i = true) : ∀ e ∈ tileLimits i k.shadow.grade (mset' k (tileMset k t)).pwords, e.bad = false := by
  simp only [canTake, runsIns, wordLegal, Bool.and_eq_true, Option.isNone_iff_eq_none] at take
  obtain ⟨⟨-, -, legal⟩, -⟩ := take
  exact fun e mem => ok_of_firstBad legal e (by simp only [tileChks, List.mem_append]; exact .inr mem)

end Held

section Extents
variable {k : Core} {t : Nat} {i : TIns} (take : canTake k t uDm i = true) (cls : i.cls = 5)
include take cls

theorem pitch_of_canTake (op : i.op = 0x82 ∨ i.op = 0x83) : dmRowLines i ≤ i.fx 127 112 := by
  have ok := limits_of_canTake take (cRange 240 (i.op != 0x81 && decide (i.fx 127 112 < dmRowLines i))) (by
    rcases op with op | op <;> simp [tileLimits, cls, dmChks, op])
  rcases op with op | op <;> simpa [cRange, op] using ok

theorem align_of_canTake (op : i.op = 0x83) : i.fc 15 0 * esize (i.fx 87 86) % 512 = 0 := by
  have ok := limits_of_canTake take (cAlign 0 (i.op == 0x83 && decide (i.fc 15 0 * esize (i.fx 87 86) % 512 ≠ 0))) (by
    simp [tileLimits, cls, dmChks, op])
  simpa [cAlign, op] using ok

end Extents

/-- An element width divides a line. -/
theorem esize_whole (x : Nat) (hi lo : Nat) (two : hi = lo + 1) : ∃ per, esize (bits x hi lo) * per = 512 := by
  have small : bits x hi lo < 4 := by
    rw [bits, two, show lo + 1 - lo + 1 = 2 by omega]
    exact Nat.mod_lt _ (by norm_num)
  generalize bits x hi lo = n at small
  exact ⟨128 / 2 ^ n, by interval_cases n <;> rfl⟩

/-! ## The state in which the rows are written -/

/-- m is k but for counters, free values and the host data that were read. -/
structure Waited (k m : Core) : Prop where
  frame : m = { k with tiles := m.tiles, pci := { k.pci with got := m.pci.got }, ctr := m.ctr, fresh := m.fresh }
  tiles : ∀ u, tile m u = tile k u

theorem Waited.refl (k : Core) : Waited k k := ⟨rfl, fun _ => rfl⟩

theorem Waited.trans {k m n : Core} (first : Waited k m) (second : Waited m n) : Waited k n where
  frame := by rw [second.frame, first.frame]
  tiles u := (second.tiles u).trans (first.tiles u)

theorem Waited.ite {k m : Core} (c : Prop) [Decidable c] {f : Core → Core} (before : Waited k m) (step : ∀ m, Waited m (f m)) :
    Waited k (if c then f m else m) := by
  split
  · exact before.trans (step m)
  · exact before

theorem bump_waited (k : Core) (off n : Nat) : Waited k (bump k off n) := by
  unfold bump
  split
  · exact .refl k
  · exact ⟨rfl, fun _ => rfl⟩

theorem tbump_waited (k : Core) (t off n : Nat) : Waited k (tbump k t off n) := by
  unfold tbump
  split
  · exact .refl k
  · exact bump_waited ..

theorem unitStall_waited (k : Core) (t n : Nat) : Waited k (unitStall k t n) :=
  Waited.trans (m := { k with fresh := k.fresh + 1 }) ⟨rfl, fun _ => rfl⟩ (tbump_waited ..)

theorem bridgeStall_waited (k : Core) (d : Nat) : Waited k (bridgeStall k d) :=
  Waited.trans (m := { k with fresh := k.fresh + 1 }) ⟨rfl, fun _ => rfl⟩ (bump_waited ..)

theorem dropGot_waited (k : Core) (w : Reader) : Waited k (dropGot k w) := ⟨rfl, fun _ => rfl⟩

theorem dmWaits_waited (k : Core) (t : Nat) (i : TIns) : Waited k (dmWaits k t i) :=
  Waited.ite (f := fun m => bridgeStall m (1 - dieOfTile t)) _
    (Waited.ite (f := fun m => bridgeStall m (dieOfTile t)) _
      (Waited.ite (f := fun m => unitStall m t 23) _ (unitStall_waited k t 22) fun m => unitStall_waited m t 23) fun m => bridgeStall_waited m _)
    fun m => bridgeStall_waited m _

theorem dmFree_waited {k : Core} {t : Nat} (free : (tile k t).dm = none) : Waited k (dmFree k t) := by
  have idle : { tile k t with dm := none } = tile k t := by rw [← free]
  refine ⟨rfl, fun u => ?_⟩
  rw [dmFree, tile_modTile]
  split
  · next same => rw [same, idle]
  · rfl

/-- m is k but for counters, free values, the host data that were read and the channels' slots that were read. -/
structure Readied (k m : Core) : Prop where
  frame : m = { k with tiles := m.tiles, pci := { k.pci with got := m.pci.got }, fab := m.fab, out := m.out, ctr := m.ctr, fresh := m.fresh }
  tiles : ∀ u, tile m u = tile k u

theorem Readied.refl (k : Core) : Readied k k := ⟨rfl, fun _ => rfl⟩

theorem Waited.readied {k m : Core} (waited : Waited k m) : Readied k m where
  frame := by rw [waited.frame]
  tiles := waited.tiles

theorem Readied.trans {k m n : Core} (first : Readied k m) (second : Readied m n) : Readied k n where
  frame := by rw [second.frame, first.frame]
  tiles u := (second.tiles u).trans (first.tiles u)

theorem Readied.foldl {α : Type} {f : Core → α → Core} (step : ∀ k x, Readied k (f k x)) (l : List α) (k : Core) : Readied k (l.foldl f k) := by
  induction l generalizing k with
  | nil => exact .refl k
  | cons x l ih => exact (step k x).trans (ih (f k x))

theorem Readied.placeLine {k m : Core} (readied : Readied k m) (p l : Nat) : placeLine m p l = Machine.placeLine k p l := by
  have stg : m.stg = k.stg := by rw [readied.frame]
  have phys : physTile m (plIndex p % 256) = physTile k (plIndex p % 256) := by
    rw [readied.frame]
    rfl
  simp only [Machine.placeLine, tmLine, tmBad, readied.tiles, stg, phys]

theorem modChan_readied (k : Core) (c : Nat) (f : Chan → Chan) : Readied k (modChan k c f) := ⟨rfl, fun _ => rfl⟩

theorem routeChan_readied (k : Core) (c : Nat) (f : Frame) : Readied k (routeChan k c f) := by
  simp only [routeChan, routeVia]
  split
  · exact ⟨rfl, fun _ => rfl⟩
  · exact (bump_waited ..).readied

theorem freeSlot_readied (k : Core) (c s : Nat) : Readied k (freeSlot k c s) := by
  simp only [freeSlot]
  split
  · split
    · exact (modChan_readied ..).trans (routeChan_readied ..)
    · exact .refl k
  · exact .refl k

theorem noteStgReads_readied (k : Core) (die line n : Nat) : Readied k (noteStgReads k die line n) := by
  refine Readied.foldl (fun k c => ?_) _ k
  refine Readied.foldl (fun k s => ?_) _ k
  split
  · exact (modChan_readied ..).trans (freeSlot_readied ..)
  · exact .refl k

/-- The rows of a source in tile or staging memory. -/
theorem dmRead_near (k : Core) (w : Reader) (i : TIns) (near : plSpace i.a.toNat = 1 ∨ plSpace i.a.toNat = 2) : let r := dmRead k w i
    Readied k r.1 ∧ (plSpace i.a.toNat = 1 → r.1 = k) ∧ r.2 = i.srcExt.starts.map fun s => (upFrom s i.srcExt.len).map (placeLine k i.a.toNat) := by
  dsimp only
  rcases near with one | two
  · have read : dmRead k w i = (k, i.srcExt.starts.map fun s => (upFrom s i.srcExt.len).map fun l =>
        (tmLine k (physTile k (plIndex i.a.toNat % 256)) l, tmBad k (physTile k (plIndex i.a.toNat % 256)) l)) := by simp only [dmRead, one]
    rw [read]
    exact ⟨.refl k, fun _ => rfl, List.map_congr_left fun s _ => List.map_congr_left fun l _ => (if_pos one).symm⟩
  · have read : dmRead k w i = (i.srcExt.starts.foldl (fun k s => noteStgReads k (plIndex i.a.toNat % 2) s i.srcExt.len) k,
        i.srcExt.starts.map fun s => (upFrom s i.srcExt.len).map fun l =>
          (k.stg.line 0 (stgLine (plIndex i.a.toNat % 2) l), k.stg.lineBad (stgLine (plIndex i.a.toNat % 2) l))) := by simp only [dmRead, two]
    rw [read]
    exact ⟨Readied.foldl (fun k s => noteStgReads_readied ..) _ k, fun one => absurd one (by omega),
      List.map_congr_left fun s _ => List.map_congr_left fun l _ => (if_neg (by omega)).symm⟩

/-! ## What a move between tile and staging memory leaves alone -/

/-- What a move to extent e of place p leaves alone: k is the state it was taken in, k0 the one with the instruction taken. -/
def MoveKept (k k0 : Core) (p : Nat) (e : Ext) (own : Prop) (m : Core) : Prop :=
  (∀ l, (∀ r, r < e.rows → l < e.start + r * e.pitch ∨ e.start + r * e.pitch + e.len ≤ l) → placeLine m p l = placeLine k p l) ∧
  (∀ u, plSpace p = 2 ∨ u ≠ physTile k (plIndex p % 256) → (tile m u).mem = (tile k u).mem) ∧
  (∀ u, tile m u = { tile k0 u with mem := (tile m u).mem }) ∧ (plSpace p = 1 → m.stg = k.stg) ∧
  (own → m.fab = k.fab ∧ m.out = k.out) ∧
  m = { k with tiles := m.tiles, stg := m.stg, pci := { k.pci with got := m.pci.got }, fab := m.fab, out := m.out, ctr := m.ctr, fresh := m.fresh }

theorem takeIns_mem (k : Core) (t u : Nat) (i : TIns) (v : Nat) : (tile (takeIns k t u i) v).mem = (tile k v).mem := by
  by_cases own : v = t
  · rw [own]
    rw [(takeIns_tile k t u i : tile _ t = _)]
  · rw [takeIns_tile_ne u i own]

theorem takeIns_dm (k : Core) (t u : Nat) (i : TIns) (v : Nat) : (tile (takeIns k t u i) v).dm = (tile k v).dm := by
  by_cases own : v = t
  · rw [own]
    rw [(takeIns_tile k t u i : tile _ t = _)]
  · rw [takeIns_tile_ne u i own]

theorem takeIns_stg (k : Core) (t u : Nat) (i : TIns) : (takeIns k t u i).stg = k.stg := by rw [takeIns_frame]

theorem takeIns_fab (k : Core) (t u : Nat) (i : TIns) : (takeIns k t u i).fab = k.fab := by rw [takeIns_frame]

theorem takeIns_out (k : Core) (t u : Nat) (i : TIns) : (takeIns k t u i).out = k.out := by rw [takeIns_frame]

theorem placeLine_takeIns (k : Core) (t u : Nat) (i : TIns) (p l : Nat) : placeLine (takeIns k t u i) p l = placeLine k p l := by
  simp only [placeLine, tmLine, tmBad, physTile_takeIns, takeIns_mem, takeIns_stg]

theorem moveKept {k r m : Core} {t : Nat} {i : TIns} {p : Nat} {e : Ext} {own : Prop} (readied : Readied (takeIns k t uDm i) r)
    (quiet : own → r.fab = k.fab ∧ r.out = k.out) (kept : PlaceKept p r m)
    (lines : ∀ l, (∀ n, n < e.rows → l < e.start + n * e.pitch ∨ e.start + n * e.pitch + e.len ≤ l) → placeLine m p l = placeLine r p l) :
    MoveKept k (takeIns k t uDm i) p e own m := by
  have phys (l : Nat) : physTile r l = physTile k l := by
    rw [← physTile_takeIns k t uDm i, readied.frame]
    rfl
  refine ⟨fun l outside => ?_, fun u other => ?_, fun u => ?_, fun one => ?_, fun alone => ?_, ?_⟩
  · rw [lines l outside, readied.placeLine, placeLine_takeIns]
  · rw [kept.mem u (by rwa [phys]), readied.tiles, takeIns_mem]
  · rw [kept.tiles u, readied.tiles]
  · rw [kept.stg one, readied.frame]
    exact takeIns_stg ..
  · obtain ⟨fab, out⟩ := quiet alone
    rw [kept.frame]
    exact ⟨fab, out⟩
  · rw [kept.frame, readied.frame, takeIns_frame]

/-! ## A move that has started (R145, R152 to R156) -/

section Run
variable {k : Core} {t : Nat} {j : TIns}

/-- The reader a tile's Data Mover is. -/
def dmReader (t : Nat) : Reader := { tile := some t }

/-- The state in which a move's rows are written. -/
def dmReadied (k : Core) (t : Nat) (j : TIns) : Core := dmWaits (dmFree (dropGot (dmRead k (dmReader t) j).1 (dmReader t)) t) t j

theorem dmOpenSrc_near (w : Reader) (near : j.op = 0x84 ∨ plSpace j.a.toNat = 1 ∨ plSpace j.a.toNat = 2) : dmOpenSrc k w t j = .go k :=
  if_neg (by omega)

theorem dmOpenDest_near (w : Reader) (near : plSpace (dmDstPlace j) = 1 ∨ plSpace (dmDstPlace j) = 2) : dmOpenDest k w t j = .go k := by
  rcases near with one | two
  · simp only [dmOpenDest, one]
  · simp only [dmOpenDest, two]

theorem dmMove_go {k1 k2 : Core} (moves : j.op ≠ 0x84) (source : dmOpenSrc k (dmReader t) t j = .go k1)
    (dest : dmOpenDest k1 (dmReader t) t j = .go k2) : dmMove k t j =
      if plSpace (j.fx 31 0) = 4 then dmSend (dmReadied k2 t j) t j (dmRows j (dmRead k2 (dmReader t) j).2)
      else dmRetire (putRows (dmReadied k2 t j) (j.fx 31 0) j.dstExt (dmRows j (dmRead k2 (dmReader t) j).2)) t j := by
  simp only [dmReader] at source dest
  simp only [dmMove, source, dest, if_neg moves]
  rfl

theorem dmMove_fill {k1 k2 : Core} (fill : j.op = 0x84) (source : dmOpenSrc k (dmReader t) t j = .go k1)
    (dest : dmOpenDest k1 (dmReader t) t j = .go k2) : dmMove k t j =
      dmRetire (putRows (dmWaits (dmFree k2 t) t j) j.a.toNat j.dstExt
        [List.replicate j.c.toNat (BitVec.ofNat 512 (j.x.toNat * (1 + 2 ^ 128 + 2 ^ 256 + 2 ^ 384)), false)]) t j := by
  have value (v : Nat) : v + v * 2 ^ 128 + v * 2 ^ 256 + v * 2 ^ 384 = v * (1 + 2 ^ 128 + 2 ^ 256 + 2 ^ 384) := by ring
  simp only [dmReader] at source dest
  simp only [dmMove, source, dest, if_pos fill, value]

theorem dmMove_srcWait {k1 : Core} (source : dmOpenSrc k (dmReader t) t j = .wait k1) : dmMove k t j = dmHold k1 t j := by
  simp only [dmReader] at source
  simp only [dmMove, source]

theorem dmMove_srcLost {g : Nat} (source : dmOpenSrc k (dmReader t) t j = .lost g) :
    dmMove k t j = tileFail (dmFree k t) t j.widx rWeightUnavail g := by
  simp only [dmReader] at source
  simp only [dmMove, source]

theorem dmMove_destWait {k1 k2 : Core} (source : dmOpenSrc k (dmReader t) t j = .go k1) (dest : dmOpenDest k1 (dmReader t) t j = .wait k2) :
    dmMove k t j = dmHold k2 t j := by
  simp only [dmReader] at source dest
  simp only [dmMove, source, dest]

theorem dmMove_destLost {k1 : Core} {g : Nat} (source : dmOpenSrc k (dmReader t) t j = .go k1)
    (dest : dmOpenDest k1 (dmReader t) t j = .lost g) : dmMove k t j = tileFail (dmFree k1 t) t j.widx rWeightUnavail g := by
  simp only [dmReader] at source dest
  simp only [dmMove, source, dest]

theorem dmReadied_facts (free : (tile k t).dm = none) (near : plSpace j.a.toNat = 1 ∨ plSpace j.a.toNat = 2) : Readied k (dmReadied k t j) ∧
    (plSpace j.a.toNat = 1 → (dmReadied k t j).fab = k.fab ∧ (dmReadied k t j).out = k.out) := by
  obtain ⟨read, one, -⟩ := dmRead_near k (dmReader t) j near
  have dropped := dropGot_waited (dmRead k (dmReader t) j).1 (dmReader t)
  have waited : Waited (dmRead k (dmReader t) j).1 (dmReadied k t j) :=
    (dropped.trans (dmFree_waited (by rw [dropped.tiles, read.tiles, free]))).trans (dmWaits_waited ..)
  refine ⟨read.trans waited.readied, fun space => ?_⟩
  rw [waited.frame, one space]
  exact ⟨rfl, rfl⟩

end Run

/-! ## An instruction of the DM queue starts (R133, R134) -/

section Start
variable {k : Core} {t : Nat} {i : TIns}

theorem dmRunChks_takeIns (j : TIns) : dmRunChks (takeIns k t uDm i) t j = dmRunChks k t j := by
  rw [takeIns_frame]
  rfl

theorem dmStart_runs (take : canTake k t uDm i = true) (ok : hitchOk k t uDm i = true) (free : (tile k t).dm = none)
    (checks : ∀ e ∈ dmRunChks k t (heldIns k t uDm i), e.bad = false) : dmStart k t i = dmMove (takeIns k t uDm i) t (heldIns k t uDm i) := by
  have sound : firstBad (dmRunChks (takeIns k t uDm i) t (heldIns k t uDm i)) = none := by
    rw [dmRunChks_takeIns]
    exact firstBad_eq_none checks
  simp only [dmStart, free]
  rw [unitRun_starts _ take (stageFree_dm i free) ok]
  simp only [sound]

theorem dmStart_held {v : TIns} (held : (tile k t).dm = some (.move v)) (runs : runsIns k t i = true) (plain : v.plain = i) :
    dmStart k t i = dmMove k t v := by
  simp [dmStart, held, runs, plain]

end Start

/-! ## The rows a move writes (R152 to R154) -/

section Rows
variable {k : Core} {t : Nat} {j : TIns}

theorem getElem?_extRows {α : Type} (e : Ext) (f : Nat → α) {r : Nat} (inside : r < e.rows) :
    (e.starts.map f)[r]? = some (f (e.start + r * e.pitch)) := by
  simp [Ext.starts, getElem?_upFrom 0 inside]

theorem getElem?_run {α : Type} (s : Nat) (f : Nat → α) {n l : Nat} (inside : l < n) : ((upFrom s n).map f)[l]? = some (f (s + l)) := by
  simp [getElem?_upFrom s inside]

/-- A row's lines read back are the row. -/
theorem map_placeLine {m : Core} {p s : Nat} {row : List (Line × Bool)} (written : ∀ l x, row[l]? = some x → placeLine m p (s + l) = x) :
    (upFrom s row.length).map (placeLine m p) = row := by
  refine List.ext_getElem (by simp) fun l inside _ => ?_
  have within : l < row.length := by simpa using inside
  rw [← Option.some.injEq, ← List.getElem?_eq_getElem, getElem?_run s _ within, written l row[l] (List.getElem?_eq_getElem within)]

/-- The rows of a transposed move. -/
theorem dmRows_trans (trans : j.op = 0x83) (rows : List (List (Line × Bool))) : dmRows j rows = (upFrom 0 j.dstExt.rows).map fun n =>
    (upFrom 0 (dmRowLines j)).map fun m => transLine rows (rows.map rowNumber) (esize (j.fx 87 86)) n m := if_pos trans

theorem dmRows_plain (plain : j.op ≠ 0x83) (rows : List (List (Line × Bool))) : dmRows j rows = rows := if_neg plain

theorem srcExt_stride (op : j.op = 0x82 ∨ j.op = 0x83) : j.srcExt = ⟨j.b.toNat, j.fx 111 96, j.fc 15 0, j.fc 31 16⟩ := by
  rcases op with op | op <;> simp [TIns.srcExt, dmSrc, op]

theorem dstExt_apart (moves : j.op = 0x81 ∨ j.op = 0x82 ∨ j.op = 0x83)
    (pitch : j.op = 0x82 ∨ j.op = 0x83 → dmRowLines j ≤ j.fx 127 112) : j.dstExt.rows ≤ 1 ∨ j.dstExt.len ≤ j.dstExt.pitch := by
  rcases moves with op | op | op
  · exact .inl (by simp [TIns.dstExt, dmDst, op])
  · exact .inr (by simpa [TIns.dstExt, dmDst, op, dmRowLines] using pitch (.inl op))
  · exact .inr (by simpa [TIns.dstExt, dmDst, op] using pitch (.inr op))

/-- A copy's extents are as long as each other. -/
theorem dstExt_copies (copies : j.op = 0x81 ∨ j.op = 0x82) : j.srcExt.rows = j.dstExt.rows ∧ j.srcExt.len = j.dstExt.len := by
  rcases copies with op | op <;> simp [TIns.srcExt, TIns.dstExt, dmSrc, dmDst, op]

/-- The state in which a move's rows are written. -/
def dmMoved (k : Core) (t : Nat) (j : TIns) : Core :=
  putRows (dmReadied k t j) (j.fx 31 0) j.dstExt (dmRows j (dmRead k (dmReader t) j).2)

variable (source : plSpace j.a.toNat = 1 ∨ plSpace j.a.toNat = 2) (dest : plSpace (j.fx 31 0) = 1 ∨ plSpace (j.fx 31 0) = 2)
include source dest

theorem dmMove_near (moves : j.op ≠ 0x84) : dmMove k t j = dmRetire (dmMoved k t j) t j := by
  have place : dmDstPlace j = j.fx 31 0 := if_neg moves
  rw [dmMove_go moves (dmOpenSrc_near _ (.inr source)) (dmOpenDest_near _ (by rwa [place])), if_neg (by omega)]
  rfl

variable (pitch : j.op = 0x82 ∨ j.op = 0x83 → dmRowLines j ≤ j.fx 127 112)
include pitch

/-- Every line of a copy's destination is the source's. -/
theorem dmMoved_copies (copies : j.op = 0x81 ∨ j.op = 0x82) : let m := dmMoved k t j
    PlaceKept (j.fx 31 0) (dmReadied k t j) m ∧
      (∀ l, (∀ r, r < j.dstExt.rows → l < j.dstExt.start + r * j.dstExt.pitch ∨ j.dstExt.start + r * j.dstExt.pitch + j.dstExt.len ≤ l) →
        placeLine m (j.fx 31 0) l = placeLine (dmReadied k t j) (j.fx 31 0) l) ∧
      ∀ r l, r < j.dstExt.rows → l < j.dstExt.len → placeLine m (j.fx 31 0) (j.dstExt.start + r * j.dstExt.pitch + l) =
        placeLine k j.a.toNat (j.srcExt.start + r * j.srcExt.pitch + l) := by
  obtain ⟨-, -, read⟩ := dmRead_near k (dmReader t) j source
  obtain ⟨rows, len⟩ := dstExt_copies copies
  dsimp only [dmMoved]
  rw [dmRows_plain (by omega), read]
  obtain ⟨kept, written, same⟩ := putRows_lines dest (dmReadied k t j) j.dstExt
    (j.srcExt.starts.map fun s => (upFrom s j.srcExt.len).map (placeLine k j.a.toNat)) (by simp [Ext.starts, rows]) (by simp [← len])
    (dstExt_apart (by omega) pitch)
  exact ⟨kept, same, fun r l inRows inLen => written r _ (getElem?_extRows _ _ (by omega)) l _ (getElem?_run _ _ (by omega))⟩

/-- Element r of row n of a transposed destination is element n of row r of the source. -/
theorem dmMoved_trans (trans : j.op = 0x83) (whole : j.fc 15 0 * esize (j.fx 87 86) % 512 = 0) : let m := dmMoved k t j
    let w := esize (j.fx 87 86)
    let num (m : Core) (p n l : Nat) := rowNumber ((upFrom n l).map (placeLine m p))
    PlaceKept (j.fx 31 0) (dmReadied k t j) m ∧
      (∀ l, (∀ r, r < j.dstExt.rows → l < j.dstExt.start + r * j.dstExt.pitch ∨ j.dstExt.start + r * j.dstExt.pitch + j.dstExt.len ≤ l) →
        placeLine m (j.fx 31 0) l = placeLine (dmReadied k t j) (j.fx 31 0) l) ∧
      ∀ r n, r < j.srcExt.rows → n < j.dstExt.rows →
        elemAt (num m (j.fx 31 0) (j.dstExt.start + n * j.dstExt.pitch) j.dstExt.len) w r =
          elemAt (num k j.a.toNat (j.srcExt.start + r * j.srcExt.pitch) j.srcExt.len) w n := by
  obtain ⟨-, -, read⟩ := dmRead_near k (dmReader t) j source
  obtain ⟨per, line⟩ : ∃ per, esize (j.fx 87 86) * per = 512 := esize_whole _ _ _ rfl
  have len : j.dstExt.len = dmRowLines j := by simp [TIns.dstExt, dmDst, trans]
  dsimp only [dmMoved]
  rw [dmRows_trans trans, read]
  generalize made : j.srcExt.starts.map (fun s => (upFrom s j.srcExt.len).map (placeLine k j.a.toNat)) = rows
  obtain ⟨kept, written, same⟩ := putRows_lines dest (dmReadied k t j) j.dstExt ((upFrom 0 j.dstExt.rows).map fun n =>
    (upFrom 0 (dmRowLines j)).map fun m => transLine rows (rows.map rowNumber) (esize (j.fx 87 86)) n m) (by simp) (by simp [len])
    (dstExt_apart (by omega) pitch)
  generalize putRows (dmReadied k t j) (j.fx 31 0) j.dstExt _ = m at kept written same ⊢
  refine ⟨kept, same, fun r n inSource inDest => ?_⟩
  have elements : dmRowLines j * per = j.srcExt.rows := by
    have lines : dmRowLines j = j.fc 15 0 * esize (j.fx 87 86) / 512 := if_pos trans
    have counts : dmRowLines j * 512 = j.fc 15 0 * esize (j.fx 87 86) := by omega
    have pos : 0 < esize (j.fx 87 86) := Nat.pos_of_ne_zero fun zero => by simp [zero] at line
    have rows : j.srcExt.rows = j.fc 15 0 := by simp [srcExt_stride (.inr trans)]
    refine Nat.eq_of_mul_eq_mul_right pos ?_
    rw [rows, ← counts, ← line]
    ring
  have lines := map_placeLine (written n _ (getElem?_run 0 _ inDest))
  rw [List.length_map, length_upFrom, ← len, Nat.zero_add] at lines
  rw [lines, len, transposed rows line (by omega), ← made]
  simp [List.getD, getElem?_extRows _ _ inSource]

end Rows

/-! ## DM.FILL (R155) -/

/-- A line that holds 16 bytes four times. -/
theorem fillLine_part (x : W128) {n : Nat} (small : n < 4) :
    (BitVec.ofNat 512 (x.toNat * (1 + 2 ^ 128 + 2 ^ 256 + 2 ^ 384))).extractLsb' (128 * n) 128 = x := by
  have parts : ∀ e ∈ List.replicate 4 x.toNat, e < 2 ^ 128 := fun e mem => by
    rw [List.eq_of_mem_replicate mem]
    exact x.isLt
  have packed : x.toNat * (1 + 2 ^ 128 + 2 ^ 256 + 2 ^ 384) = packBits 128 (List.replicate 4 x.toNat) := by
    have double : (2 : Nat) ^ 256 = 2 ^ 128 * 2 ^ 128 := by rw [← pow_add]
    have triple : (2 : Nat) ^ 384 = 2 ^ 128 * 2 ^ 128 * 2 ^ 128 := by rw [← pow_add, ← pow_add]
    simp only [List.replicate, packBits]
    rw [double, triple]
    generalize (2 : Nat) ^ 128 = q
    ring
  have fits : packBits 128 (List.replicate 4 x.toNat) < 2 ^ 512 := packBits_lt parts
  have part := elemAt_packBits (n := n) parts (by simpa using small)
  rw [packed]
  generalize packBits 128 (List.replicate 4 x.toNat) = v at fits part
  apply BitVec.eq_of_toNat_eq
  rw [BitVec.extractLsb'_toNat, BitVec.toNat_ofNat, Nat.mod_eq_of_lt fits, Nat.shiftRight_eq_div_pow]
  exact part.trans (List.getElem_replicate ..)

section Fill
variable {k : Core} {t : Nat} {j : TIns} (fill : j.op = 0x84) (place : plSpace j.a.toNat = 1 ∨ plSpace j.a.toNat = 2)
include fill

theorem dstExt_fill : j.dstExt = ⟨j.b.toNat, 0, 1, j.c.toNat⟩ := if_pos fill

/-- The row DM.FILL writes. -/
def fillRow (j : TIns) : List (Line × Bool) := List.replicate j.c.toNat (BitVec.ofNat 512 (j.x.toNat * (1 + 2 ^ 128 + 2 ^ 256 + 2 ^ 384)), false)

theorem dmMove_fillNear (near : plSpace j.a.toNat = 1 ∨ plSpace j.a.toNat = 2) :
    dmMove k t j = dmRetire (putRows (dmWaits (dmFree k t) t j) j.a.toNat j.dstExt [fillRow j]) t j := by
  have dest : dmDstPlace j = j.a.toNat := if_pos fill
  exact dmMove_fill fill (dmOpenSrc_near _ (.inl fill)) (dmOpenDest_near _ (by rwa [dest]))

include place

theorem fill_lines (k : Core) : let m := putRows k j.a.toNat j.dstExt [fillRow j]
    PlaceKept j.a.toNat k m ∧
      (∀ l, (∀ r, r < j.dstExt.rows → l < j.dstExt.start + r * j.dstExt.pitch ∨ j.dstExt.start + r * j.dstExt.pitch + j.dstExt.len ≤ l) →
        placeLine m j.a.toNat l = placeLine k j.a.toNat l) ∧
      ∀ l, l < j.c.toNat → ∀ n, n < 4 → (placeLine m j.a.toNat (j.b.toNat + l)).1.extractLsb' (128 * n) 128 = j.x ∧
        (placeLine m j.a.toNat (j.b.toNat + l)).2 = false := by
  rw [dstExt_fill fill]
  obtain ⟨kept, written, same⟩ := putRows_lines place k ⟨j.b.toNat, 0, 1, j.c.toNat⟩ [fillRow j] rfl (by simp [fillRow]) (.inl (Nat.le_refl 1))
  refine ⟨kept, same, fun l inside n part => ?_⟩
  have line := written 0 _ rfl l (BitVec.ofNat 512 (j.x.toNat * (1 + 2 ^ 128 + 2 ^ 256 + 2 ^ 384)), false) (by simp [fillRow, inside])
  rw [Nat.zero_mul, Nat.add_zero] at line
  rw [line]
  exact ⟨fillLine_part j.x part, rfl⟩

end Fill

/-! ## The DM instructions -/

theorem heldIns_fields {k : Core} {t : Nat} (h : TileHdr) (op : Nat) (a b c : W32) (x : W128)
    (take : canTake k t uDm (mkTIns h 5 op a b c x) = true) : let j := heldIns k t uDm (mkTIns h 5 op a b c x)
    j.op = op ∧ j.widx = h.widx.toNat ∧ j.a = a ∧ j.b = b ∧ j.c = c ∧ j.x = x := by
  have plain := heldIns_plain take rfl
  exact ⟨congrArg TIns.op plain, congrArg TIns.widx plain, congrArg TIns.a plain, congrArg TIns.b plain, congrArg TIns.c plain,
    congrArg TIns.x plain⟩

/-- A DM instruction by its operation. -/
def dmInstr (h : TileHdr) (a b c : W32) (x : W128) (op : Nat) : Instr :=
  if op = 0x81 then .dmCopy h a b c x else if op = 0x82 then .dmStride h a b c x else if op = 0x83 then .dmTrans h a b c x else .dmFill h a b c x

theorem exec_dmInstr {h : TileHdr} {a b c : W32} {x : W128} {s : State} {op : Nat} {m : Core}
    (moves : op = 0x81 ∨ op = 0x82 ∨ op = 0x83 ∨ op = 0x84) (free : s.core.pst.handshake ≠ 1)
    (made : dmStart s.core h.tile.toNat (mkTIns h 5 op a b c x) = m) :
    exec (dmInstr h a b c x op) s = .next (s.finish (tsRun m h.tile.toNat)) := by
  have row : exec (dmInstr h a b c x op) s = .next (s.finish (dmRow s.core h.tile.toNat (mkTIns h 5 op a b c x))) := by
    rcases moves with rfl | rfl | rfl | rfl <;> rfl
  rw [row, dmRow, toUnit, onTile, unlessHeld_of_no_handshake free, made]

/-- Settles O49: the rows written lie in their places; each other row follows the move's own equation. -/
theorem movesComplete : Obligations.MovesComplete := by
  unfold Obligations.MovesComplete
  intro h a b c x s k t i j src dst now near num kept moves
  have fields (op : Nat) (ready : now op) := heldIns_fields h op a b c x ready.1
  have starts (op : Nat) (moves : op = 0x81 ∨ op = 0x82 ∨ op = 0x83 ∨ op = 0x84) (ready : now op) {m : Core}
      (made : dmMove (takeIns k t uDm (i op)) t (j op) = m) : exec (dmInstr h a b c x op) s = .next (s.finish (tsRun m t)) := by
    obtain ⟨take, ok, free, alone, checks⟩ := ready
    exact exec_dmInstr moves alone ((dmStart_runs take ok free checks).trans made)
  have pitch (op : Nat) (ready : now op) (wide : (j op).op = 0x82 ∨ (j op).op = 0x83) : dmRowLines (j op) ≤ (j op).fx 127 112 := by
    have plain := heldIns_plain ready.1 rfl
    have own := pitch_of_canTake ready.1 rfl (by rwa [← plain])
    rwa [← plain] at own
  have idle (op : Nat) (ready : now op) : (tile (takeIns k t uDm (i op)) t).dm = none := by
    rw [takeIns_dm]
    exact ready.2.2.1
  have copies (op : Nat) (copy : op = 0x81 ∨ op = 0x82) (ready : now op) (source : near src) (dest : near dst) :
      moves (exec (dmInstr h a b c x op) s) op := by
    obtain ⟨jop, -, ja, -, -, jx⟩ := fields op ready
    have place : (j op).fx 31 0 = dst := by rw [TIns.fx, jx]
    have from_ : (j op).a.toNat = src := by rw [ja]
    obtain ⟨readied, quiet⟩ := dmReadied_facts (j := j op) (idle op ready) (by rwa [from_])
    obtain ⟨keptPlace, same, lines⟩ := dmMoved_copies (k := takeIns k t uDm (i op)) (t := t) (j := j op) (by rwa [from_]) (by rwa [place])
      (pitch op ready) (by rwa [jop])
    rw [place] at keptPlace same lines
    rw [from_] at quiet lines
    refine ⟨dmMoved (takeIns k t uDm (i op)) t (j op), starts op (by omega) ready (dmMove_near (by rwa [from_]) (by rwa [place]) (by rw [jop]; omega)),
      moveKept readied (fun alone => ?_) keptPlace same, fun r l inRows inLen => ?_⟩
    · obtain ⟨fab, out⟩ := quiet (by omega)
      exact ⟨fab.trans (takeIns_fab ..), out.trans (takeIns_out ..)⟩
    · rw [lines r l inRows inLen, placeLine_takeIns]
  refine ⟨copies 0x81 (.inl rfl), copies 0x82 (.inr rfl), fun ready source dest => ?_, fun ready source => ?_, ?_⟩
  · obtain ⟨jop, -, ja, -, -, jx⟩ := fields 0x83 ready
    have place : (j 0x83).fx 31 0 = dst := by rw [TIns.fx, jx]
    have width : (j 0x83).fx 87 86 = bits x.toNat 87 86 := by rw [TIns.fx, jx]
    have from_ : (j 0x83).a.toNat = src := by rw [ja]
    have whole : (j 0x83).fc 15 0 * esize ((j 0x83).fx 87 86) % 512 = 0 := by
      have plain := heldIns_plain ready.1 rfl
      have own := align_of_canTake ready.1 rfl rfl
      rwa [← plain] at own
    obtain ⟨readied, quiet⟩ := dmReadied_facts (j := j 0x83) (idle 0x83 ready) (by rwa [from_])
    obtain ⟨keptPlace, same, elems⟩ := dmMoved_trans (k := takeIns k t uDm (i 0x83)) (t := t) (j := j 0x83) (by rwa [from_]) (by rwa [place])
      (pitch 0x83 ready) jop whole
    rw [place] at keptPlace same elems
    rw [from_] at quiet elems
    rw [width] at elems
    refine ⟨dmMoved (takeIns k t uDm (i 0x83)) t (j 0x83),
      starts 0x83 (by omega) ready (dmMove_near (by rwa [from_]) (by rwa [place]) (by rw [jop]; omega)),
      moveKept readied (fun alone => ?_) keptPlace same, fun r n inSource inDest => ?_⟩
    · obtain ⟨fab, out⟩ := quiet (by omega)
      exact ⟨fab.trans (takeIns_fab ..), out.trans (takeIns_out ..)⟩
    · refine (elems r n inSource inDest).trans ?_
      have read : placeLine (takeIns k t uDm (i 0x83)) src = placeLine k src := funext fun l => placeLine_takeIns ..
      dsimp only [num]
      rw [read]
  · obtain ⟨jop, -, ja, jb, jc, jx⟩ := fields 0x84 ready
    have from_ : (j 0x84).a.toNat = src := by rw [ja]
    have waited : Waited (takeIns k t uDm (i 0x84)) (dmWaits (dmFree (takeIns k t uDm (i 0x84)) t) t (j 0x84)) :=
      (dmFree_waited (idle 0x84 ready)).trans (dmWaits_waited ..)
    obtain ⟨keptPlace, same, lines⟩ := fill_lines (j := j 0x84) jop (by rwa [from_])
      (dmWaits (dmFree (takeIns k t uDm (i 0x84)) t) t (j 0x84))
    have made := dmMove_fillNear (k := takeIns k t uDm (i 0x84)) (t := t) (j := j 0x84) jop (by rwa [from_])
    rw [from_] at keptPlace same lines made
    rw [jb, jc, jx] at lines
    refine ⟨_, starts 0x84 (by omega) ready made,
      moveKept waited.readied (fun _ => ?_) keptPlace same, lines⟩
    rw [waited.frame]
    exact ⟨takeIns_fab .., takeIns_out ..⟩
  · intro row w k0 ends
    have fill (op : Nat) (moves : op = 0x81 ∨ op = 0x82 ∨ op = 0x83) (ready : now op) : (j op).op ≠ 0x84 := by
      rw [(fields op ready).1]
      omega
    refine ⟨fun op k1 k2 moves ready source dest => ?_, fun op k1 moves ready source => starts op (by omega) ready (dmMove_srcWait source),
      fun op g moves ready source => ?_, fun op k1 k2 moves ready source dest => starts op moves ready (dmMove_destWait source dest),
      fun op k1 g moves ready source dest => ?_, fun k2 ready dest => ?_, fun op v moves held runs plain alone => ?_⟩
    · have place : (j op).fx 31 0 = dst := by rw [TIns.fx, (fields op ready).2.2.2.2.2]
      refine starts op (by omega) ready ((dmMove_go (fill op moves ready) source dest).trans ?_)
      rw [place]
      rfl
    · have index : (j op).widx = h.widx.toNat := (fields op ready).2.1
      refine starts op (by omega) ready ((dmMove_srcLost source).trans ?_)
      rw [index]
    · have index : (j op).widx = h.widx.toNat := (fields op ready).2.1
      refine starts op moves ready ((dmMove_destLost source dest).trans ?_)
      rw [index]
    · obtain ⟨jop, -, ja, -, jc, jx⟩ := fields 0x84 ready
      refine starts 0x84 (by omega) ready ((dmMove_fill jop (dmOpenSrc_near _ (.inl jop)) dest).trans ?_)
      rw [ja, jc, jx]
    · exact exec_dmInstr moves alone (dmStart_held held runs plain)

end Sys2Proof.Proofs.Moves
end

section
/-! PROOFS. Elements of a row of tile memory: a row of lines as one number, and what writing packed elements there gives (R12, R159, R170). -/

namespace Sys2Proof.Proofs.TileRows
open Sys2Proof.Machine Sys2Proof.Laws Sys2Proof.Proofs.Reads Sys2Proof.Proofs.MemoryLines Sys2Proof.Proofs.TileSequencer Sys2Proof.Proofs.Moves

/-! ## Bytes as numbers -/

theorem ofLE_append (x y : List Byte) : ofLE (x ++ y) = ofLE x + 256 ^ x.length * ofLE y := by
  induction x with
  | nil => simp [ofLE]
  | cons b r ih =>
    rw [List.cons_append, ofLE, ih, ofLE, List.length_cons, pow_succ]
    ring

theorem ofLE_lt (l : List Byte) : ofLE l < 256 ^ l.length := by
  induction l with
  | nil => simp [ofLE]
  | cons b r ih =>
    have byte : b.toNat < 256 := b.isLt
    rw [ofLE, List.length_cons, pow_succ]
    omega

section Bytes
variable (d : Byte) (m : Mem)

theorem bytes_length (a n : Nat) : (m.bytes d a n).length = n := by
  induction n generalizing a with
  | zero => rfl
  | succ n ih => rw [Mem.bytes, List.length_cons, ih]

theorem bytes_add (a x y : Nat) : m.bytes d a (x + y) = m.bytes d a x ++ m.bytes d (a + x) y := by
  induction x generalizing a with
  | zero => simp [Mem.bytes]
  | succ x ih => rw [Nat.succ_add, Mem.bytes, Mem.bytes, ih, List.cons_append, show a + 1 + x = a + (x + 1) by omega]

/-- Bytes of a run are digits of the number the run holds. -/
theorem ofLE_bytes_part {a q len n : Nat} (inside : q + len ≤ n) : ofLE (m.bytes d (a + q) len) = ofLE (m.bytes d a n) / 256 ^ q % 256 ^ len := by
  obtain ⟨r, rfl⟩ := Nat.exists_eq_add_of_le inside
  have low := ofLE_lt (m.bytes d a q)
  have mid := ofLE_lt (m.bytes d (a + q) len)
  rw [bytes_length] at low mid
  rw [bytes_add, bytes_add, ofLE_append, ofLE_append, List.length_append, bytes_length, bytes_length, pow_add, Nat.mul_assoc, Nat.add_assoc,
    ← Nat.mul_add, Nat.add_mul_div_left _ _ (Nat.pow_pos (by norm_num)), Nat.div_eq_of_lt low, Nat.zero_add, Nat.add_mul_mod_self_left,
    Nat.mod_eq_of_lt mid]

theorem line_toNat (n : Nat) : (m.line d n).toNat = ofLE (m.bytes d (64 * n) 64) := by
  have small := ofLE_lt (m.bytes d (64 * n) 64)
  rw [bytes_length, show (256 : Nat) ^ 64 = 2 ^ 512 by rw [show (256 : Nat) = 2 ^ 8 from rfl, ← pow_mul]] at small
  rw [Mem.line, BitVec.toNat_ofNat, Nat.mod_eq_of_lt small]

theorem ofLE_bytes_lines (n l : Nat) : ofLE (m.bytes d (64 * n) (64 * l)) = joinLines ((upFrom n l).map (m.line d)) := by
  induction l generalizing n with
  | zero => rfl
  | succ l ih =>
    rw [Nat.mul_succ, Nat.add_comm (64 * l), bytes_add, ofLE_append, bytes_length, ← line_toNat, show 64 * n + 64 = 64 * (n + 1) by omega, ih,
      upFrom, List.map_cons, joinLines, show (256 : Nat) ^ 64 = 2 ^ 512 by rw [show (256 : Nat) = 2 ^ 8 from rfl, ← pow_mul]]

end Bytes

/-! ## Elements of a row -/

theorem elemAt_mod {x w i n : Nat} (inside : w * i + w ≤ n) : elemAt (x % 2 ^ n) w i = elemAt x w i := by
  obtain ⟨r, rfl⟩ := Nat.exists_eq_add_of_le inside
  rw [elemAt, elemAt, Nat.add_assoc, pow_add, Nat.mod_mul_right_div_self, pow_add, Nat.mod_mul_right_mod]

/-- An element of whole bytes, or one that lies in one byte, is the element of its row's number. -/
theorem tmElem_row {k : Core} {t n w i l : Nat} (inside : w * i + w ≤ 512 * l) (fits : i * w % 8 + w ≤ 8 * cdiv w 8) (small : cdiv w 8 * 8 < w + 8) :
    tmElem k t n w i = elemAt (joinLines ((upFrom n l).map (tmLine k t))) w i := by
  have bytes : i * w / 8 + cdiv w 8 ≤ 64 * l := by
    rw [Nat.mul_comm w i] at inside
    omega
  have row : (upFrom n l).map (tmLine k t) = (upFrom n l).map ((tile k t).mem.line 0) := rfl
  rw [tmElem, ofLE_bytes_part 0 _ bytes, row, ← ofLE_bytes_lines]
  generalize ofLE ((tile k t).mem.bytes 0 (64 * n) (64 * l)) = x
  have byte : (256 : Nat) = 2 ^ 8 := rfl
  obtain ⟨r, room⟩ := Nat.exists_eq_add_of_le fits
  rw [byte, ← pow_mul, ← pow_mul, room, Nat.add_assoc, pow_add, Nat.mod_mul_right_div_self, pow_add, Nat.mod_mul_right_mod,
    Nat.div_div_eq_div_mul, ← pow_add, Nat.div_add_mod, elemAt, Nat.mul_comm i w]

theorem map_upFrom_add (f : Nat → α) (a n : Nat) : (upFrom a n).map f = (upFrom 0 n).map fun m => f (a + m) := by
  have shift : List.range' a n = (List.range' 0 n).map (a + ·) := by rw [List.map_add_range', Nat.add_zero]
  rw [upFrom_eq_range', upFrom_eq_range', shift, List.map_map]
  rfl

theorem joinLines_lineOf (x s l : Nat) : joinLines ((upFrom s l).map (lineOf x)) = x / 2 ^ (512 * s) % 2 ^ (512 * l) := by
  induction l generalizing s with
  | zero => simp [upFrom, joinLines, Nat.mod_one]
  | succ l ih =>
    rw [upFrom, List.map_cons, joinLines, ih, lineOf, BitVec.toNat_ofNat, Nat.mul_succ, pow_add, ← Nat.div_div_eq_div_mul, Nat.mul_succ,
      Nat.add_comm (512 * l), pow_add, Nat.mod_mul]

/-! ## Rows written -/

/-- m is k but for tile t's memory. -/
structure MemKept (t : Nat) (k m : Core) : Prop where
  frame : m = { k with tiles := m.tiles }
  own : tile m t = { tile k t with mem := (tile m t).mem }
  others : ∀ u, u ≠ t → tile m u = tile k u

theorem MemKept.refl (t : Nat) (k : Core) : MemKept t k k := ⟨rfl, rfl, fun _ _ => rfl⟩

theorem MemKept.trans {t : Nat} {k m n : Core} (first : MemKept t k m) (second : MemKept t m n) : MemKept t k n where
  frame := by rw [second.frame, first.frame]
  own := by rw [second.own, first.own]
  others u other := (second.others u other).trans (first.others u other)

theorem tmPut_kept (k : Core) (t n : Nat) (v : Line) (p : Bool) : MemKept t k (tmPut k t n v p) where
  frame := rfl
  own := by rw [tmPut, tile_modTile_same]
  others u other := tile_modTile_ne _ other

theorem tmPutRow_facts (k : Core) (t a n x : Nat) (p : Bool) : let m := tmPutRow k t a n x p
    MemKept t k m ∧ (∀ l, l < n → tmLine m t (a + l) = lineOf x l ∧ tmBad m t (a + l) = p) ∧
      ∀ l, l < a ∨ a + n ≤ l → tmLine m t l = tmLine k t l ∧ tmBad m t l = tmBad k t l := by
  dsimp only [tmPutRow]
  suffices run : ∀ s k, let m := (upFrom s n).foldl (fun k m => tmPut k t (a + m) (lineOf x m) p) k
      MemKept t k m ∧ (∀ l, l < n → tmLine m t (a + (s + l)) = lineOf x (s + l) ∧ tmBad m t (a + (s + l)) = p) ∧
        ∀ l, l < a + s ∨ a + s + n ≤ l → tmLine m t l = tmLine k t l ∧ tmBad m t l = tmBad k t l by
    simpa using run 0 k
  induction n with
  | zero => exact fun s k => ⟨.refl t k, fun l none => by omega, fun _ _ => ⟨rfl, rfl⟩⟩
  | succ n ih =>
    intro s k
    obtain ⟨kept, written, same⟩ := ih (s + 1) (tmPut k t (a + s) (lineOf x s) p)
    simp only [upFrom, List.foldl_cons]
    refine ⟨(tmPut_kept ..).trans kept, fun l inside => ?_, fun l outside => ?_⟩
    · cases l with
      | zero =>
        obtain ⟨line, bad⟩ := same (a + s) (.inl (by omega))
        rw [Nat.add_zero s, line, bad]
        simp only [tmLine, tmBad, tmPut, tile_modTile_same, line_putLine_same, lineBad_putLine_same, and_self]
      | succ l =>
        have next := written l (by omega)
        rwa [show s + 1 + l = s + (l + 1) by omega] at next
    · obtain ⟨line, bad⟩ := same l (by omega)
      have ne : l ≠ a + s := by omega
      rw [line, bad]
      simp only [tmLine, tmBad, tmPut, tile_modTile_same, line_putLine_ne _ _ _ _ ne, lineBad_putLine_ne _ _ _ _ ne, and_self]

theorem packElems_eq (w : Nat) (l : List Nat) : packElems w l = packBits w (l.map (· % 2 ^ w)) := by
  induction l with
  | nil => rfl
  | cons e r ih => rw [packElems, ih, List.map_cons, packBits]

/-- Element i of a row whose lines hold packed elements. -/
theorem tmElem_packed {m : Core} {t a w n i : Nat} {out : List Nat} (inside : w * i + w ≤ 512 * n) (fits : i * w % 8 + w ≤ 8 * cdiv w 8)
    (small : cdiv w 8 * 8 < w + 8) (listed : i < out.length) (written : ∀ l, l < n → tmLine m t (a + l) = lineOf (packElems w out) l) :
    tmElem m t a w i = out[i] % 2 ^ w := by
  have lines : (upFrom a n).map (tmLine m t) = (upFrom 0 n).map (lineOf (packElems w out)) := by
    rw [map_upFrom_add]
    exact List.map_congr_left fun l mem => written l (by simpa using mem)
  have bounded : ∀ e ∈ out.map (· % 2 ^ w), e < 2 ^ w := by
    intro e mem
    obtain ⟨x, -, rfl⟩ := List.mem_map.mp mem
    exact Nat.mod_lt _ (Nat.two_pow_pos w)
  rw [tmElem_row inside fits small, lines, joinLines_lineOf, Nat.mul_zero, pow_zero, Nat.div_one, elemAt_mod inside, packElems_eq,
    elemAt_packBits bounded (by simpa using listed), List.getElem_map]

end Sys2Proof.Proofs.TileRows
end

section
/-! PROOFS. The matrix engine: loads, passes, waves, the Output Accumulator Buffer and drains (R157 to R186). -/

namespace Sys2Proof.Proofs.MatrixEngines
open Sys2Proof.Machine Sys2Proof.Laws Sys2Proof.Proofs.Reads Sys2Proof.Proofs.MemoryLines Sys2Proof.Proofs.TileSequencer Sys2Proof.Proofs.HitchCounters
open Sys2Proof.Proofs.ObjectEntry Sys2Proof.Proofs.Moves Sys2Proof.Proofs.TileRows

/-! ## An engine of a tile -/

theorem eng_modEng_same (k : Core) (t e : Nat) (f : Engine → Engine) : eng (modEng k t e f) t e = f (eng k t e) := by
  rw [eng, modEng, tile_modTile_same]
  exact (mget_mmod ..).trans (if_pos rfl)

theorem eng_modEng_ne {k : Core} {t e o : Nat} (f : Engine → Engine) (other : o ≠ e) : eng (modEng k t e f) t o = eng k t o := by
  rw [eng, modEng, tile_modTile_same]
  exact (mget_mmod ..).trans (if_neg other)

theorem modEng_congr {k : Core} {t e : Nat} {f g : Engine → Engine} (same : f (eng k t e) = g (eng k t e)) : modEng k t e f = modEng k t e g := by
  have made : mmod {} (tile k t).engines e f = mmod {} (tile k t).engines e g := by
    rw [mmod, mmod]
    exact congrArg (mput (tile k t).engines e) same
  rw [modEng, modEng, modTile_eq_put rfl, modTile_eq_put rfl, made]

theorem modEng_const (k : Core) (t e : Nat) (f : Engine → Engine) : modEng k t e f = modEng k t e fun _ => f (eng k t e) := modEng_congr rfl

theorem modEng_twice (k : Core) (t e : Nat) (f g : Engine → Engine) : modEng (modEng k t e f) t e g = modEng k t e (g ∘ f) := by
  rw [modEng, modEng, modTile_twice, modEng]
  simp only [Function.comp_def, mmod_mmod_same]

/-- m is k but for engine e and memory of tile t, counters and free values. -/
structure EngineWork (t e : Nat) (k m : Core) : Prop where
  frame : m = { k with tiles := m.tiles, ctr := m.ctr, fresh := m.fresh }
  tiles : ∀ u, u ≠ t → tile m u = tile k u
  engs : ∀ o, o ≠ e → eng m t o = eng k t o
  own : tile m t = { tile k t with engines := (tile m t).engines, mem := (tile m t).mem }

theorem EngineWork.refl (t e : Nat) (k : Core) : EngineWork t e k k := ⟨rfl, fun _ _ => rfl, fun _ _ => rfl, rfl⟩

theorem EngineWork.trans {t e : Nat} {k m n : Core} (first : EngineWork t e k m) (second : EngineWork t e m n) : EngineWork t e k n where
  frame := by rw [second.frame, first.frame]
  tiles u other := (second.tiles u other).trans (first.tiles u other)
  engs o other := (second.engs o other).trans (first.engs o other)
  own := by rw [second.own, first.own]

theorem modEng_work (k : Core) (t e : Nat) (f : Engine → Engine) : EngineWork t e k (modEng k t e f) where
  frame := rfl
  tiles u other := tile_modTile_ne _ other
  engs o other := eng_modEng_ne f other
  own := by rw [modEng, tile_modTile_same]


/-- m is k but for counters. -/
def Counted (k m : Core) : Prop := m = { k with ctr := m.ctr }

theorem Counted.refl (k : Core) : Counted k k := rfl

theorem Counted.trans {k m n : Core} (first : Counted k m) (second : Counted m n) : Counted k n := by
  unfold Counted at *
  rw [second, first]

theorem Counted.tile {k m : Core} (counted : Counted k m) (u : Nat) : Machine.tile m u = Machine.tile k u := by
  rw [counted]
  rfl

theorem Counted.eng {k m : Core} (counted : Counted k m) (u o : Nat) : Machine.eng m u o = Machine.eng k u o := by
  rw [counted]
  rfl

theorem Counted.fresh {k m : Core} (counted : Counted k m) : m.fresh = k.fresh := by rw [counted]

theorem Counted.work {k m : Core} (t e : Nat) (counted : Counted k m) : EngineWork t e k m where
  frame := by rw [counted]
  tiles u _ := counted.tile u
  engs o _ := counted.eng t o
  own := by rw [counted.tile]

theorem tbump_counted (k : Core) (t off n : Nat) : Counted k (tbump k t off n) := by
  unfold tbump bump
  split
  · rfl
  · split <;> rfl

theorem countExc_counted (k : Core) (t : Nat) (c : Exc) : Counted k (countExc k t c) :=
  (((tbump_counted ..).trans (tbump_counted ..)).trans (tbump_counted ..)).trans (tbump_counted ..)

theorem unitStall_counted (k : Core) (t n : Nat) : Counted { k with fresh := k.fresh + 1 } (unitStall k t n) := tbump_counted ..

theorem unitStall_work (k : Core) (t e n : Nat) : EngineWork t e k (unitStall k t n) :=
  EngineWork.trans (m := { k with fresh := k.fresh + 1 }) ⟨rfl, fun _ _ => rfl, fun _ _ => rfl, rfl⟩ ((unitStall_counted ..).work t e)

theorem eng_of_memKept {t : Nat} {k m : Core} (kept : MemKept t k m) (o : Nat) : Machine.eng m t o = Machine.eng k t o := by
  rw [Machine.eng, kept.own]
  rfl

theorem work_of_memKept {t : Nat} {k m : Core} (e : Nat) (kept : MemKept t k m) : EngineWork t e k m where
  frame := by rw [kept.frame]
  tiles := kept.others
  engs o _ := eng_of_memKept kept o
  own := by rw [kept.own]

/-! ## The instructions start (R165, R166, R169, R180) -/

section Starts
variable {k : Core} {t e : Nat} {i : TIns}

theorem engOf_lt (named : engOf k t i = some e) : e < 4 := by
  simp only [engOf] at named
  split at named
  · have listed := List.mem_of_getElem? named
    have bound := (List.mem_filter.mp listed).1
    simpa using bound
  · cases named

theorem eng_takeIns (k : Core) (t u : Nat) (i : TIns) (o : Nat) : eng (takeIns k t u i) t o = eng k t o := by
  rw [eng, (takeIns_tile k t u i : tile _ t = _)]
  rfl

theorem tmLine_takeIns (k : Core) (t u : Nat) (i : TIns) (v l : Nat) : tmLine (takeIns k t u i) v l = tmLine k v l := by
  rw [tmLine, takeIns_mem, tmLine]

theorem tmAnyBad_takeIns (k : Core) (t u : Nat) (i : TIns) (v n l : Nat) : tmAnyBad (takeIns k t u i) v n l = tmAnyBad k v n l := by
  simp only [tmAnyBad, tmBad, takeIns_mem]

variable (named : engOf k t i = some e)
include named

theorem stageFree_eng : stageFree k t e i =
    if i.op = 0x01 then !loadBusy (eng k t e) else !(eng k t e).run.any (if i.op = 0x02 then feeding else draining) := by
  have small := engOf_lt named
  have ve : e ≠ uVe := by unfold uVe; omega
  have ap : e ≠ uAp := by unfold uAp; omega
  have cf : e ≠ uCf := by unfold uCf; omega
  have dm : e ≠ uDm := by unfold uDm; omega
  simp only [stageFree, if_neg ve, if_neg ap, if_neg cf, if_neg dm]
  rfl

variable (take : canTake k t e i = true) (ok : hitchOk k t e i = true)
include take ok

theorem mxLoads_starts (op : i.op = 0x01) (ready : (eng k t e).noEmpty = false)
    (idle : (eng k t e).run.all (fun r => r.ins.op != 0x01 || r.done) = true) : mxLoads k t i =
      if (eng k t e).s0.st = 0 ∨ (eng k t e).s1.st = 0 then
        modEng (takeIns k t e i) t e fun _ =>
          { (eng k t e).modReg (decide ((eng k t e).s0.st ≠ 0)) (fun _ =>
              { st := 1, fmt := i.fa 14 12, bad := tmAnyBad k t (i.fb 14 0) (i.fa 22 16 * actLines (i.fa 14 12)), lines := weightLines k t i }) with
            run := (eng k t e).run ++ [{ ins := i, reg := decide ((eng k t e).s0.st ≠ 0) }] }
      else tileFail (takeIns k t e i) t i.widx rWrongState (eng k t e).arg := by
  have free : stageFree k t e i = true := by
    rw [stageFree_eng named, if_pos op, loadBusy, Bool.not_eq_true', ← Bool.not_eq_true, List.any_eq_true]
    rintro ⟨r, mem, busy⟩
    have done := List.all_eq_true.mp idle r mem
    simp_all
  have weights : weightLines (takeIns k t e i) t i = weightLines k t i := by simp only [weightLines, tmLine_takeIns]
  have tag : ((eng k t e).s0.st != 0) = decide ((eng k t e).s0.st ≠ 0) := by simp [bne, Bool.beq_eq_decide_eq]
  simp only [mxLoads, mxRun, named, Engine.regWait, if_pos op, ready, Bool.false_and, Bool.false_eq_true, if_false]
  rw [unitRun_starts _ take free ok]
  by_cases empty : (eng k t e).s0.st = 0 ∨ (eng k t e).s1.st = 0
  · have found : ((eng k t e).s0.st == 0 || (eng k t e).s1.st == 0) = true := by simpa using empty
    simp only [found, Bool.not_true, Bool.false_eq_true, if_false, if_pos empty, tag, weights, tmAnyBad_takeIns]
    refine modEng_congr ?_
    rw [eng_takeIns]
  · have none : ((eng k t e).s0.st == 0 || (eng k t e).s1.st == 0) = false := by simpa using empty
    simp only [none, Bool.not_false, if_true, if_neg empty]

theorem mxPass_starts (op : i.op = 0x02) {tag : Bool} (reg : (eng k t e).passReg i = .use tag) (idle : (eng k t e).run.any feeding = false)
    (pairs : fmtPairs (i.fa 14 12) ((eng k t e).sreg tag).fmt = true) : mxPass k t i = modEng (takeIns k t e i) t e fun _ =>
      { (if i.fa 11 11 = 1 then (eng k t e).takeTag tag else eng k t e) with
        run := (if i.fa 11 11 = 1 then (eng k t e).takeTag tag else eng k t e).run ++ [{ ins := i, reg := tag }] } := by
  have free : stageFree k t e i = true := by
    rw [stageFree_eng named, if_neg (by omega), if_pos op, idle]
    rfl
  simp only [mxPass, mxRun, named, Engine.regWait, op, reg]
  rw [if_neg (by simp), unitRun_starts _ take free ok]
  simp only [pairs, Bool.not_true, Bool.false_eq_true, if_false]
  refine modEng_congr ?_
  rw [eng_takeIns]

theorem mxDrain_starts (op : i.op = 0x83) (idle : (eng k t e).run.any draining = false) : mxDrain k t i =
    modEng (takeIns k t e i) t e fun _ => { eng k t e with run := (eng k t e).run ++ [{ ins := i }] } := by
  have free : stageFree k t e i = true := by
    rw [stageFree_eng named, if_neg (by omega), if_neg (by omega), idle]
    rfl
  simp only [mxDrain, mxRun, named]
  rw [unitRun_starts _ take free ok]
  refine modEng_congr ?_
  rw [eng_takeIns]

end Starts

theorem takeTag_facts (g : Engine) (tag : Bool) : let v := g.takeTag tag
    v.sreg tag = { g.sreg tag with st := 3 } ∧
      v.sreg (!tag) = (if (g.sreg (!tag)).st = 3 then (if g.inGrid (!tag) then { g.sreg (!tag) with st := 4 } else {}) else g.sreg (!tag)) ∧
      v = { g with s0 := v.s0, s1 := v.s1 } := by
  cases tag <;> simp only [Engine.takeTag, Engine.modReg, Engine.sreg, Bool.not_true, Bool.not_false, if_true, Bool.false_eq_true, if_false] <;>
    split <;> simp

/-! ## Values do not depend on the exceptions counted before (R159, R193) -/

section Values
variable (f : Fmt) (x y : Machine.Num) (c : Exc)

theorem mulExact_value : (mulExact x y c).1 = (mulExact x y {}).1 := by
  cases x <;> cases y <;> simp only [mulExact] <;> split <;> rfl

theorem addExact_value : (addExact x y c).1 = (addExact x y {}).1 := by
  cases x <;> cases y <;> simp only [addExact] <;> split <;> rfl

theorem flushed_value (neg : Bool) (m : Nat) (e : Int) : (flushed f neg m e c).1 = (flushed f neg m e {}).1 := by
  simp only [flushed]
  split <;> rfl

theorem roundArith_flushed (neg : Bool) (m : Nat) (e : Int) : (roundArith f (.fin neg m e) c).1 =
    if magGt (f.roundMag m e).1 (f.roundMag m e).2 f.top.1 f.top.2 then .inf neg else (flushed f neg (f.roundMag m e).1 (f.roundMag m e).2 c).1 := by
  simp only [roundArith]
  split
  · rfl
  · split
    · split <;> rfl
    · rfl

theorem roundArith_value : (roundArith f x c).1 = (roundArith f x {}).1 := by
  cases x with
  | fin neg m e => rw [roundArith_flushed, roundArith_flushed, flushed_value]
  | nan => rfl
  | inf neg => rfl

theorem mulR_value : (mulR f x y c).1 = (mulR f x y {}).1 := by
  rw [mulR, mulR, roundArith_value, mulExact_value, ← roundArith_value]

theorem addR_value : (addR f x y c).1 = (addR f x y {}).1 := by
  rw [addR, addR, roundArith_value, addExact_value, ← roundArith_value]

theorem convert_value : (convert f x c).1 = (convert f x {}).1 := by
  cases x with
  | nan =>
    simp only [convert]
    split <;> rfl
  | inf neg =>
    simp only [convert]
    split <;> rfl
  | fin neg m e =>
    simp only [convert]
    split
    · split <;> rfl
    · split
      · rfl
      · split <;> rfl

/-- A stage of a drained element that its word asks for. -/
def stageIf (b : Prop) [Decidable b] (g : Machine.Num → Exc → Machine.Num × Exc) (p : Machine.Num × Exc) : Machine.Num × Exc :=
  if b then g p.1 p.2 else p

theorem stageIf_value {b : Prop} [Decidable b] {g : Machine.Num → Exc → Machine.Num × Exc} {p q : Machine.Num × Exc}
    (pure : ∀ x c, (g x c).1 = (g x {}).1) (same : p.1 = q.1) : (stageIf b g p).1 = (stageIf b g q).1 := by
  unfold stageIf
  split
  · rw [pure, same, ← pure]
  · exact same

/-- A drained element scaled and biased, before its conversion. -/
def drainStages (k : Core) (t : Nat) (i : TIns) (m j v : Nat) (c : Exc) : Machine.Num × Exc :=
  stageIf (i.fa 17 17 = 1) (fun y => addR .fp32 y (f32 (tmElem k t (i.fx 46 32) 32 j)))
    (stageIf (i.fa 16 16 = 1) (fun y => mulR .fp32 y (f32 (tmElem k t (i.fx 30 16) 32 m)))
      (stageIf (i.fa 15 15 = 1) (fun y => mulR .fp32 y (f32 (tmElem k t (i.fx 14 0) 32 j))) (f32 v, c)))

theorem drainStages_value (k : Core) (t : Nat) (i : TIns) (m j v : Nat) : (drainStages k t i m j v c).1 = (drainStages k t i m j v {}).1 :=
  stageIf_value (fun x c => addR_value .fp32 x _ c)
    (stageIf_value (fun x c => mulR_value .fp32 x _ c) (stageIf_value (fun x c => mulR_value .fp32 x _ c) rfl))

theorem drainElem_stages (k : Core) (t : Nat) (i : TIns) (m j v : Nat) : drainElem k t i m j v c =
    let p := drainStages k t i m j v c
    let q := if Fmt.ofCode (i.fa 14 12) = .fp32 then p else convert (Fmt.ofCode (i.fa 14 12)) p.1 p.2
    ((Fmt.ofCode (i.fa 14 12)).encode q.1, q.2) := rfl

theorem drainElem_value (k : Core) (t : Nat) (i : TIns) (m j v : Nat) : (drainElem k t i m j v c).1 = (drainElem k t i m j v {}).1 := by
  rw [drainElem_stages, drainElem_stages]
  dsimp only
  split
  · rw [drainStages_value]
  · rw [convert_value, drainStages_value, ← convert_value _ _ (drainStages k t i m j v {}).2]

end Values

/-! ## Waves (R157 to R162, R177) -/

theorem length_updFirst (r : MxRun) (f : MxRun → MxRun) (l : List MxRun) : (updFirst r f l).length = l.length := by
  induction l with
  | nil => rfl
  | cons x l ih =>
    rw [updFirst]
    split
    · rfl
    · rw [List.length_cons, ih, List.length_cons]

theorem mem_modEng (k : Core) (t e : Nat) (f : Engine → Engine) : (tile (modEng k t e f) t).mem = (tile k t).mem := by
  rw [modEng, tile_modTile_same]

/-- The wave of a pass's next row. -/
def nextWave (g : Engine) (r : MxRun) (lines : List Line) (bad : Bool) : Wave :=
  { row := r.ins.ostart + r.next, acc := r.ins.fa 15 15 == 1, tag := r.reg, bad := bad || (g.sreg r.reg).bad
    sums := (waveSums (r.ins.fa 14 12) (g.sreg r.reg) (joinLines lines) {}).1 }

theorem sendWave_eq (k : Core) (t e : Nat) (r : MxRun) (lines : List Line) (bad : Bool) : ∃ c, sendWave k t e r lines bad =
    countExc (modEng k t e fun g => { g with
      waves := g.waves ++ [nextWave (eng k t e) r lines bad], tag := r.reg,
      run := updFirst r (fun x => { x with next := x.next + 1, emptyDue := r.ins.fa 14 12 == 0 }) g.run }) t c := by
  refine ⟨Exc.upTo {} (bad || ((eng k t e).sreg r.reg).bad) (waveSums (r.ins.fa 14 12) ((eng k t e).sreg r.reg) (joinLines lines) {}).2, ?_⟩
  simp only [sendWave, modRun, modEng_twice, Function.comp_def]
  rfl

/-- A wave sent changes its engine alone. -/
theorem sendWave_facts (k : Core) (t e : Nat) (r : MxRun) (lines : List Line) (bad : Bool) : let m := sendWave k t e r lines bad
    EngineWork t e k m ∧ m.fresh = k.fresh ∧ (tile m t).mem = (tile k t).mem ∧ (eng m t e).acc = (eng k t e).acc ∧
      (eng m t e).waves = (eng k t e).waves ++ [nextWave (eng k t e) r lines bad] := by
  dsimp only
  obtain ⟨c, sent⟩ := sendWave_eq k t e r lines bad
  generalize made : (fun g : Engine => { g with
      waves := g.waves ++ [nextWave (eng k t e) r lines bad], tag := r.reg,
      run := updFirst r (fun x => { x with next := x.next + 1, emptyDue := r.ins.fa 14 12 == 0 }) g.run }) = f at sent
  have counted := countExc_counted (modEng k t e f) t c
  have engine := (counted.eng t e).trans (eng_modEng_same k t e f)
  have work := (modEng_work k t e f).trans (counted.work t e)
  have mem := (congrArg Tile.mem (counted.tile t)).trans (mem_modEng k t e f)
  have fresh := counted.fresh
  rw [← sent] at engine work mem fresh
  rw [← made] at engine
  refine ⟨work, fresh, mem, ?_, ?_⟩ <;> rw [engine]

section Issue
variable {k : Core} {t e : Nat} {r : MxRun} (phase : (tile k t).phase = 2) (next : (eng k t e).run.find? feeding = some r)
  (due : r.emptyDue = false) (memory : bits r.ins.a.toNat 16 16 = 0) (free : drainOwes (eng k t e).run r (r.ins.ostart + r.next) = false)
include phase next due memory free

theorem mxWaveIssue_eq : mxWaveIssue k t e =
    let k1 := modEng k t e fun g => { g with acc := min ((eng k t e).acc + rein k t) 16 }
    if min ((eng k t e).acc + rein k t) 16 < 16 then tbump k1 t (oTileStall t (16 + e)) 1
    else issueSlot (tbump (modEng k1 t e fun g => { g with acc := min ((eng k t e).acc + rein k t) 16 - 16 }) t (oMeCount t e 0) 1) t e r := by
  have source : r.ins.fa 16 16 = 0 := memory
  simp only [mxWaveIssue, phase, ne_eq, not_true_eq_false, if_false, eng_modEng_same, next, due, free, source]
  rfl

theorem mxWaveIssue_stalls (early : (eng k t e).acc + rein k t < 16) : mxWaveIssue k t e =
    tbump (modEng k t e fun _ => { eng k t e with acc := (eng k t e).acc + rein k t }) t (oTileStall t (16 + e)) 1 := by
  have gathered : min ((eng k t e).acc + rein k t) 16 = (eng k t e).acc + rein k t := Nat.min_eq_left (Nat.le_of_lt early)
  rw [mxWaveIssue_eq phase next due memory free, gathered]
  exact (if_pos early).trans (congrArg (fun m => tbump m t _ 1) (modEng_congr rfl))

/-- A row of tile memory whose rein has let it gather 16 goes out. -/
theorem mxWaveIssue_sends (full : 16 ≤ (eng k t e).acc + rein k t) :
    let l := actLines (bits r.ins.a.toNat 14 12)
    let n := bits r.ins.b.toNat 14 0 + r.next * l
    let m := mxWaveIssue k t e
    EngineWork t e k m ∧ m.fresh = k.fresh ∧ (tile m t).mem = (tile k t).mem ∧ (eng m t e).acc = min ((eng k t e).acc + rein k t) 16 - 16 ∧
      (eng m t e).waves = (eng k t e).waves ++ [nextWave (eng k t e) r ((upFrom n l).map (tmLine k t)) (tmAnyBad k t n l)] := by
  have source : r.ins.fa 16 16 = 0 := memory
  dsimp only
  rw [mxWaveIssue_eq phase next due memory free]
  dsimp only
  rw [if_neg (by omega), modEng_twice]
  generalize made : ((fun g : Engine => { g with acc := min ((eng k t e).acc + rein k t) 16 - 16 }) ∘
    fun g : Engine => { g with acc := min ((eng k t e).acc + rein k t) 16 }) = f
  have counted := tbump_counted (modEng k t e f) t (oMeCount t e 0) 1
  have work := (modEng_work k t e f).trans (counted.work t e)
  have engine := (counted.eng t e).trans (eng_modEng_same k t e f)
  have fresh : _ = k.fresh := counted.fresh
  have mem := (congrArg Tile.mem (counted.tile t)).trans (mem_modEng k t e f)
  generalize tbump (modEng k t e f) t (oMeCount t e 0) 1 = k1 at work engine fresh mem ⊢
  have issued : issueSlot k1 t e r = sendWave k1 t e r ((upFrom (bits r.ins.b.toNat 14 0 + r.next * actLines (bits r.ins.a.toNat 14 12))
      (actLines (bits r.ins.a.toNat 14 12))).map (tmLine k t))
      (tmAnyBad k t (bits r.ins.b.toNat 14 0 + r.next * actLines (bits r.ins.a.toNat 14 12)) (actLines (bits r.ins.a.toNat 14 12))) := by
    simp only [issueSlot, due, source, Bool.false_eq_true, if_false, if_true, tmAnyBad, tmBad, tmLine, mem]
    rfl
  rw [issued]
  obtain ⟨sent, freshSent, memSent, acc, waves⟩ := sendWave_facts k1 t e r ((upFrom (bits r.ins.b.toNat 14 0 +
      r.next * actLines (bits r.ins.a.toNat 14 12)) (actLines (bits r.ins.a.toNat 14 12))).map (tmLine k t))
    (tmAnyBad k t (bits r.ins.b.toNat 14 0 + r.next * actLines (bits r.ins.a.toNat 14 12)) (actLines (bits r.ins.a.toNat 14 12)))
  rw [engine, ← made] at acc waves
  exact ⟨work.trans sent, freshSent.trans fresh, memSent.trans mem, acc, waves⟩

end Issue

/-! ## The Output Accumulator Buffer (R168) -/

/-- The row the OAB holds once a wave has been written or accumulated. -/
def oabRowOf (g : Engine) (w : Wave) : OabRow :=
  let old := mget { vals := List.replicate 64 0 } g.oab w.row
  if w.acc then ⟨w.bad || old.bad, (oabAdd old.vals w.sums {}).1⟩ else ⟨w.bad, w.sums⟩

/-- An engine's work followed by a counter is that work. -/
theorem counted_modEng (k : Core) (t e : Nat) (f : Engine → Engine) {m : Core} (counted : Counted (modEng k t e f) m) :
    EngineWork t e k m ∧ m.fresh = k.fresh ∧ (tile m t).mem = (tile k t).mem ∧ eng m t e = f (eng k t e) :=
  ⟨(modEng_work k t e f).trans (counted.work t e), counted.fresh, (congrArg Tile.mem (counted.tile t)).trans (mem_modEng k t e f),
    (counted.eng t e).trans (eng_modEng_same k t e f)⟩

theorem modRun_facts (k : Core) (t e : Nat) (r : MxRun) (f : MxRun → MxRun) : let m := modRun k t e r f
    EngineWork t e k m ∧ m.fresh = k.fresh ∧ (tile m t).mem = (tile k t).mem ∧
      eng m t e = { eng k t e with run := updFirst r f (eng k t e).run } :=
  counted_modEng k t e (fun g => { g with run := updFirst r f g.run }) (m := modRun k t e r f) (.refl _)

section Oab
variable {k : Core} {t e : Nat} {w : Wave} {rest : List Wave} {r : MxRun}

/-- The oldest wave's row is written or accumulated. -/
theorem oabRowWrite_row (oldest : (eng k t e).waves = w :: rest) :
    ∃ c, let k1 := countExc (modEng k t e fun g => { g with waves := rest, oab := mput g.oab w.row (oabRowOf (eng k t e) w) }) t c
      ∀ r, (eng k1 t e).run.find? (fun r => r.ins.op == 0x02 && decide (r.wrote < r.ins.mxRows)) = some r →
        let k2 := modRun k1 t e r (fun x => { x with wrote := x.wrote + 1, done := decide (x.ins.mxRows ≤ x.wrote + 1) })
        oabRowWrite k t e = retireMx k2 t e (eng k2 t e).run.length := by
  cases acc : w.acc
  · refine ⟨Exc.upTo {} w.bad {}, fun r pass => ?_⟩
    simp only [oabRowOf, acc, Bool.false_eq_true, if_false] at pass ⊢
    simp only [oabRowWrite, oldest, acc, Bool.false_and, Bool.or_false, Bool.false_eq_true, if_false, pass]
  · refine ⟨Exc.upTo {} (w.bad || (mget { vals := List.replicate 64 0 } (eng k t e).oab w.row).bad)
      (oabAdd (mget { vals := List.replicate 64 0 } (eng k t e).oab w.row).vals w.sums {}).2, fun r pass => ?_⟩
    simp only [oabRowOf, acc, if_true] at pass ⊢
    simp only [oabRowWrite, oldest, acc, Bool.true_and, if_true, pass]

theorem oabRowWrite_writes (oldest : (eng k t e).waves = w :: rest)
    (pass : (eng k t e).run.find? (fun r => r.ins.op == 0x02 && decide (r.wrote < r.ins.mxRows)) = some r) :
    ∃ m, oabRowWrite k t e = retireMx m t e (eng k t e).run.length ∧ EngineWork t e k m ∧ m.fresh = k.fresh ∧ (tile m t).mem = (tile k t).mem ∧
      eng m t e = { eng k t e with
        waves := rest, oab := mput (eng k t e).oab w.row (oabRowOf (eng k t e) w)
        run := updFirst r (fun x => { x with wrote := x.wrote + 1, done := decide (x.ins.mxRows ≤ x.wrote + 1) }) (eng k t e).run } := by
  obtain ⟨c, row⟩ := oabRowWrite_row oldest
  obtain ⟨work, fresh, mem, engine⟩ := counted_modEng k t e _ (countExc_counted
    (modEng k t e fun g => { g with waves := rest, oab := mput g.oab w.row (oabRowOf (eng k t e) w) }) t c)
  dsimp only at row
  generalize countExc (modEng k t e fun g => { g with waves := rest, oab := mput g.oab w.row (oabRowOf (eng k t e) w) }) t c = k1
    at row work fresh mem engine
  have runs : (eng k1 t e).run = (eng k t e).run := by rw [engine]
  obtain ⟨workRun, freshRun, memRun, engineRun⟩ := modRun_facts k1 t e r fun x => { x with wrote := x.wrote + 1, done := decide (x.ins.mxRows ≤ x.wrote + 1) }
  have made := row r (by rw [runs, pass])
  rw [engineRun] at made
  simp only [length_updFirst, runs] at made
  refine ⟨_, made, work.trans workRun, freshRun.trans fresh, memRun.trans mem, ?_⟩
  rw [engineRun, engine]

end Oab

/-! ## Drains (R169 to R171) -/

theorem fmtBits_row (f : Nat) {y : Nat} (small : y < 64) : fmtBits f * y + fmtBits f ≤ 512 * outLines f ∧
    y * fmtBits f % 8 + fmtBits f ≤ 8 * cdiv (fmtBits f) 8 ∧ cdiv (fmtBits f) 8 * 8 < fmtBits f + 8 := by
  unfold fmtBits outLines cdiv
  split
  · omega
  · split
    · rw [if_neg (by omega)]
      omega
    · split
      · omega
      · omega

/-- The elements a drain writes for a row. -/
def drainOut (k : Core) (t : Nat) (r : MxRun) (vals : List Nat) : List Nat × Exc :=
  vals.zipIdx.foldl (fun a x => (a.1 ++ [(drainElem k t r.ins r.next x.2 x.1 a.2).1], (drainElem k t r.ins r.next x.2 x.1 a.2).2)) ([], {})

theorem drainOut_values (k : Core) (t : Nat) (r : MxRun) (vals : List Nat) :
    (drainOut k t r vals).1 = vals.zipIdx.map fun x => (drainElem k t r.ins r.next x.2 x.1 {}).1 := by
  suffices run : ∀ (l : List (Nat × Nat)) (a : List Nat × Exc),
      (l.foldl (fun a x => (a.1 ++ [(drainElem k t r.ins r.next x.2 x.1 a.2).1], (drainElem k t r.ins r.next x.2 x.1 a.2).2)) a).1 =
        a.1 ++ l.map fun x => (drainElem k t r.ins r.next x.2 x.1 {}).1 from run _ _
  intro l
  induction l with
  | nil => exact fun a => (List.append_nil _).symm
  | cons x l ih =>
    intro a
    rw [List.foldl_cons, ih, List.map_cons, drainElem_value, List.append_assoc, List.singleton_append]

section Drain
variable {k : Core} {t e : Nat} {r : MxRun}

/-- The OAB row a drain reads next. -/
def drainedRow (g : Engine) (r : MxRun) : OabRow := mget { vals := List.replicate 64 0 } g.oab (r.ins.ostart + r.next)

/-- The first line a drain writes next. -/
def drainedLine (r : MxRun) : Nat := bits r.ins.b.toNat 14 0 + r.next * bits r.ins.x.toNat 63 48

/-- What a drain that has read a row leaves of the OAB. -/
def drainedOab (g : Engine) (r : MxRun) : SMap OabRow := if bits r.ins.a.toNat 11 11 = 1 then mdel g.oab (r.ins.ostart + r.next) else g.oab

theorem freeRow_facts (k : Core) (t e : Nat) (r : MxRun) :
    let m := if bits r.ins.a.toNat 11 11 = 1 then modEng k t e (fun g => { g with oab := mdel g.oab (r.ins.ostart + r.next) }) else k
    EngineWork t e k m ∧ m.fresh = k.fresh ∧ (tile m t).mem = (tile k t).mem ∧
      eng m t e = { eng k t e with oab := drainedOab (eng k t e) r } := by
  dsimp only
  unfold drainedOab
  split
  · exact counted_modEng k t e _ (.refl _)
  · exact ⟨.refl t e k, rfl, rfl, rfl⟩

theorem drainRowWrite_eq (drain : (eng k t e).run.find? draining = some r) (free : passOwes (eng k t e).run r (r.ins.ostart + r.next) = false) :
    ∃ c bad, let f := bits r.ins.a.toNat 14 12
      let k1 := countExc (tmPutRow (unitStall k t 21) t (drainedLine r) (outLines f)
        (packElems (fmtBits f) (drainOut k t r (drainedRow (eng k t e) r).vals).1) bad) t c
      let k2 := if bits r.ins.a.toNat 11 11 = 1 then modEng k1 t e (fun g => { g with oab := mdel g.oab (r.ins.ostart + r.next) }) else k1
      let k3 := modRun k2 t e r (fun x => { x with next := x.next + 1, done := decide (x.ins.mxRows ≤ x.next + 1) })
      drainRowWrite k t e = retireMx k3 t e (eng k3 t e).run.length := by
  refine ⟨Exc.upTo {} ((drainedRow (eng k t e) r).bad || drainScaleBad k t r.ins) (drainOut k t r (drainedRow (eng k t e) r).vals).2,
    (drainedRow (eng k t e) r).bad || drainScaleBad k t r.ins, ?_⟩
  simp only [drainRowWrite, drain, free, Bool.false_eq_true, if_false]
  rfl

/-- A row the drain may read lands in tile memory, and nothing beside it is written. -/
theorem drainRowWrite_writes (drain : (eng k t e).run.find? draining = some r)
    (free : passOwes (eng k t e).run r (r.ins.ostart + r.next) = false) :
    let f := bits r.ins.a.toNat 14 12
    ∃ m, drainRowWrite k t e = retireMx m t e (eng k t e).run.length ∧ EngineWork t e k m ∧ m.fresh = k.fresh + 1 ∧
      (∀ y, y < 64 → y < (drainedRow (eng k t e) r).vals.length → tmElem m t (drainedLine r) (fmtBits f) y =
        (drainElem k t r.ins r.next y ((drainedRow (eng k t e) r).vals.getD y 0) {}).1 % 2 ^ fmtBits f) ∧
      (∀ l, l < drainedLine r ∨ drainedLine r + outLines f ≤ l → tmLine m t l = tmLine k t l ∧ tmBad m t l = tmBad k t l) ∧
      eng m t e = { eng k t e with
        oab := drainedOab (eng k t e) r
        run := updFirst r (fun x => { x with next := x.next + 1, done := decide (x.ins.mxRows ≤ x.next + 1) }) (eng k t e).run } := by
  obtain ⟨c, bad, made⟩ := drainRowWrite_eq drain free
  dsimp only at made ⊢
  generalize hf : bits r.ins.a.toNat 14 12 = f at made ⊢
  have stall := unitStall_work k t e 21
  have stallFresh : (unitStall k t 21).fresh = k.fresh + 1 := (unitStall_counted k t 21).fresh
  have stallTile := (unitStall_counted k t 21).tile t
  obtain ⟨kept, written, same⟩ := tmPutRow_facts (unitStall k t 21) t (drainedLine r) (outLines f)
    (packElems (fmtBits f) (drainOut k t r (drainedRow (eng k t e) r).vals).1) bad
  generalize tmPutRow (unitStall k t 21) t (drainedLine r) (outLines f)
    (packElems (fmtBits f) (drainOut k t r (drainedRow (eng k t e) r).vals).1) bad = k0 at made kept written same
  have counted := countExc_counted k0 t c
  generalize countExc k0 t c = k1 at made counted
  obtain ⟨freed, freedFresh, freedMem, freedEng⟩ := freeRow_facts k1 t e r
  generalize (if bits r.ins.a.toNat 11 11 = 1 then modEng k1 t e (fun g => { g with oab := mdel g.oab (r.ins.ostart + r.next) }) else k1) = k2
    at made freed freedFresh freedMem freedEng
  obtain ⟨run, runFresh, runMem, runEng⟩ := modRun_facts k2 t e r fun x => { x with next := x.next + 1, done := decide (x.ins.mxRows ≤ x.next + 1) }
  have engine : eng k1 t e = eng k t e := by rw [counted.eng, eng_of_memKept kept, eng, stallTile, eng]; rfl
  have mem : (tile (modRun k2 t e r fun x => { x with next := x.next + 1, done := decide (x.ins.mxRows ≤ x.next + 1) }) t).mem = (tile k0 t).mem := by
    rw [runMem, freedMem, counted.tile]
  have start : (tile (unitStall k t 21) t).mem = (tile k t).mem := congrArg Tile.mem stallTile
  rw [freedEng, engine] at runEng
  rw [runEng] at made
  simp only [length_updFirst] at made
  refine ⟨_, made, (((stall.trans (work_of_memKept e kept)).trans (counted.work t e)).trans freed).trans run, ?_, fun y small listed => ?_,
    fun l outside => ?_, runEng⟩
  · rw [runFresh, freedFresh, counted.fresh, kept.frame]
    exact stallFresh
  · obtain ⟨inside, fits, narrow⟩ := fmtBits_row f small
    have values := drainOut_values k t r (drainedRow (eng k t e) r).vals
    have elem := tmElem_packed (m := k0) (t := t) (a := drainedLine r) (out := (drainOut k t r (drainedRow (eng k t e) r).vals).1) inside fits narrow
      (by rw [values]; simpa using listed) fun l inLines => (written l inLines).1
    have value : (drainOut k t r (drainedRow (eng k t e) r).vals).1[y]'(by rw [values]; simpa using listed) =
        (drainElem k t r.ins r.next y ((drainedRow (eng k t e) r).vals.getD y 0) {}).1 := by
      simp [values, List.getD, listed]
    rw [← value, ← elem, tmElem, mem, tmElem]
  · simp only [tmLine, tmBad, mem]
    obtain ⟨line, poison⟩ := same l outside
    simp only [tmLine, tmBad, start] at line poison
    exact ⟨line, poison⟩

end Drain

/-! ## Registers (R164, R174) -/

theorem mxLoadArmed_arms {k : Core} {t e : Nat} {r : MxRun} (load : (eng k t e).run.find? (fun r => r.ins.op == 0x01 && !r.done) = some r) :
    mxLoadArmed k t e = retireMx (modEng k t e fun _ =>
      { (eng k t e).modReg r.reg (fun q => { q with st := 2, order := (eng k t e).armed + 1 }) with
        armed := (eng k t e).armed + 1, run := updFirst r (fun x => { x with done := true }) (eng k t e).run })
      t e (updFirst r (fun x => { x with done := true }) (eng k t e).run).length := by
  simp only [mxLoadArmed, load, eng_modEng_same]
  exact congrArg (fun m => retireMx m t e _) (modEng_congr rfl)

theorem mxRegisterEmpty_empties {k : Core} {t e : Nat} (trailing : (eng k t e).s0.st = 4) : mxRegisterEmpty k t e = modEng k t e fun _ =>
    { eng k t e with s0 := {}, waves := (eng k t e).waves.map (fun w => if w.tag == false then { w with left := true } else w) } := by
  simp only [mxRegisterEmpty, trailing, if_true]
  exact modEng_congr rfl

theorem mxRegisterEmpty_idle {k : Core} {t e : Nat} (first : (eng k t e).s0.st ≠ 4) (second : (eng k t e).s1.st ≠ 4) : mxRegisterEmpty k t e = k := by
  simp only [mxRegisterEmpty, if_neg first, if_neg second]

/-! ## The matrix instructions and events -/

/-- Work of one engine that draws n free values. -/
theorem EngineWork.only {k m : Core} {t e n : Nat} (work : EngineWork t e k m) (fresh : m.fresh = k.fresh + n) :
    (∀ u, u ≠ t → tile m u = tile k u) ∧ (∀ o, o ≠ e → eng m t o = eng k t o) ∧
      tile m t = { tile k t with engines := (tile m t).engines, mem := (tile m t).mem } ∧
        m = { k with tiles := m.tiles, ctr := m.ctr, fresh := k.fresh + n } :=
  ⟨work.tiles, work.engs, work.own, by rw [← fresh]; exact work.frame⟩

/-- Settles O50: an instruction that nothing holds starts on its engine; an event changes its engine, and a drain its rows. -/
theorem matrixInstructionsComplete : Obligations.MatrixInstructionsComplete := by
  unfold Obligations.MatrixInstructionsComplete
  constructor
  · intro h a b c x s e k t g f load pass drain put now
    have loads {m : Core} (made : mxLoads k t load = m) : exec (.mxLoads h a b c) s = .next (s.finish (tsRun m t)) := by rw [← made]; rfl
    have passes {m : Core} (made : mxPass k t pass = m) : exec (.mxPass h a b c) s = .next (s.finish (tsRun m t)) := by rw [← made]; rfl
    have drains {m : Core} (made : mxDrain k t drain = m) : exec (.mxDrain h a b c x) s = .next (s.finish (tsRun m t)) := by rw [← made]; rfl
    refine ⟨fun ⟨named, take, ok⟩ empty idle => loads ?_, fun ⟨named, take, ok⟩ full0 full1 trail0 trail1 idle => loads ?_,
      fun ⟨named, take, ok⟩ keep idle tag reg pairs => passes ?_, fun ⟨named, take, ok⟩ takes idle tag reg pairs => ?_,
      fun ⟨named, take, ok⟩ idle => drains (mxDrain_starts named take ok rfl idle)⟩
    · have ready : g.noEmpty = false := by
        rcases empty with none | none
        · simp [Engine.noEmpty, none]
        · simp [Engine.noEmpty, none]
      have lines : weightLines k t load = (upFrom (bits b.toNat 14 0) (bits a.toNat 22 16 * actLines f)).map (tmLine k t) ++
          List.replicate (64 * actLines f - bits a.toNat 22 16 * actLines f) 0 := by
        rw [map_upFrom_add]
        rfl
      rw [mxLoads_starts named take ok rfl ready idle, if_pos empty, lines]
      rfl
    · have ready : g.noEmpty = false := by simp [Engine.noEmpty, trail0, trail1]
      rw [mxLoads_starts named take ok rfl ready idle, if_neg (not_or.mpr ⟨full0, full1⟩)]
      rfl
    · have plain : pass.fa 11 11 ≠ 1 := by
        rw [show pass.fa 11 11 = 0 from keep]
        omega
      rw [mxPass_starts named take ok rfl ((if_neg plain).trans reg) idle pairs, if_neg plain]
    · have taken : pass.fa 11 11 = 1 := takes
      obtain ⟨current, other, frame⟩ := takeTag_facts g tag
      refine ⟨{ g.takeTag tag with run := g.run ++ [{ ins := pass, reg := tag }] }, passes ?_, current, other, ?_⟩
      · have runs : (g.takeTag tag).run = g.run := by rw [frame]
        rw [mxPass_starts named take ok rfl ((if_pos taken).trans reg) idle pairs, if_pos taken, runs]
      · rw [frame]
  · intro tl en s k t e g put only
    have armed {m : Core} (made : mxLoadArmed k t e = m) : exec (.mxLoadArmed tl en) s = .next (s.finish (tsRun m t)) := by rw [← made]; rfl
    have issue {m : Core} (made : mxWaveIssue k t e = m) : exec (.mxWaveIssue tl en) s = .next (s.finish (tsRun m t)) := by rw [← made]; rfl
    have write {m : Core} (made : oabRowWrite k t e = m) : exec (.oabRowWrite tl en) s = .next (s.finish (tsRun m t)) := by rw [← made]; rfl
    have drain {m : Core} (made : drainRowWrite k t e = m) : exec (.drainRowWrite tl en) s = .next (s.finish (tsRun m t)) := by rw [← made]; rfl
    have empties {m : Core} (made : mxRegisterEmpty k t e = m) : exec (.mxRegisterEmpty tl en) s = .next (s.finish (tsRun m t)) := by
      rw [← made]
      rfl
    refine ⟨fun r load => armed (mxLoadArmed_arms load), fun r phase next due memory free full => ?_,
      fun r phase next due memory free early => issue (mxWaveIssue_stalls phase next due memory free early),
      fun w rest r oldest pass => ?_, fun r next free => ?_, fun trailing => empties (mxRegisterEmpty_empties trailing),
      fun first second => empties (mxRegisterEmpty_idle first second)⟩
    · obtain ⟨work, fresh, mem, acc, waves⟩ := mxWaveIssue_sends phase next due memory free full
      exact ⟨mxWaveIssue k t e, issue rfl, acc, ⟨_, waves, rfl, rfl, rfl, rfl⟩, mem, work.only fresh⟩
    · obtain ⟨m, made, work, fresh, mem, engine⟩ := oabRowWrite_writes oldest pass
      exact ⟨m, write made, engine, mem, work.only fresh⟩
    · obtain ⟨m, made, work, fresh, elems, same, engine⟩ := drainRowWrite_writes next free
      exact ⟨m, drain made, elems, same, engine, work.only fresh⟩

end Sys2Proof.Proofs.MatrixEngines
end

section
/-! PROOFS. Convolution feeds and the attention pipeline: what an instruction leaves alone, and how it ends (R227 to R236, R250 to R276). -/

namespace Sys2Proof.Proofs.Attention
open Sys2Proof.Machine Sys2Proof.Laws Sys2Proof.Proofs.Reads Sys2Proof.Proofs.Counters Sys2Proof.Proofs.LineErrors Sys2Proof.Proofs.MemoryLines
open Sys2Proof.Proofs.TileSequencer Sys2Proof.Proofs.HitchCounters Sys2Proof.Proofs.Moves Sys2Proof.Proofs.TileRows Sys2Proof.Proofs.MatrixEngines
open Sys2Proof.Proofs.Acceptance Sys2Proof.Proofs.Grants

/-! ## Rows of elements in tile memory -/

/-- m is k but for lines lo to hi of tile t's memory. -/
structure RowsKept (t lo hi : Nat) (k m : Core) : Prop where
  kept : MemKept t k m
  lines : ∀ l, l < lo ∨ hi ≤ l → tmLine m t l = tmLine k t l ∧ tmBad m t l = tmBad k t l

theorem RowsKept.refl (t lo hi : Nat) (k : Core) : RowsKept t lo hi k k := ⟨.refl t k, fun _ _ => ⟨rfl, rfl⟩⟩

theorem RowsKept.trans {t lo hi : Nat} {k m n : Core} (first : RowsKept t lo hi k m) (second : RowsKept t lo hi m n) : RowsKept t lo hi k n where
  kept := first.kept.trans second.kept
  lines l outside := ⟨(second.lines l outside).1.trans (first.lines l outside).1, (second.lines l outside).2.trans (first.lines l outside).2⟩

theorem RowsKept.wider {t lo hi lo' hi' : Nat} {k m : Core} (rows : RowsKept t lo hi k m) (low : lo' ≤ lo) (high : hi ≤ hi') :
    RowsKept t lo' hi' k m := ⟨rows.kept, fun l outside => rows.lines l (by omega)⟩

theorem RowsKept.foldl {α : Type} {t lo hi : Nat} {f : Core → α → Core} (step : ∀ k x, RowsKept t lo hi k (f k x)) (l : List α) (k : Core) :
    RowsKept t lo hi k (l.foldl f k) := by
  induction l generalizing k with
  | nil => exact .refl t lo hi k
  | cons x l ih => exact (step k x).trans (ih (f k x))

theorem tmPut_rows (k : Core) (t n : Nat) (v : Line) (p : Bool) : RowsKept t n (n + 1) k (tmPut k t n v p) where
  kept := tmPut_kept ..
  lines l outside := by
    have ne : l ≠ n := by omega
    simp only [tmLine, tmBad, tmPut, tile_modTile_same, line_putLine_ne _ _ _ _ ne, lineBad_putLine_ne _ _ _ _ ne, and_self]

theorem lineBad_setBads_outside {m : Mem} (p : Bool) {w n l : Nat} (outside : w + n ≤ 8 * l ∨ 8 * l + 8 ≤ w) :
    (m.setBads p w n).lineBad l = m.lineBad l := by
  rw [Bool.eq_iff_iff, lineBad_iff, lineBad_iff]
  refine exists_congr fun x => and_congr_left fun inside => ?_
  cases p with
  | true =>
    rw [mem_setBads_bad]
    exact ⟨fun either => either.resolve_right (by omega), .inl⟩
  | false =>
    rw [mem_setBads_clear]
    exact ⟨And.left, fun listed => ⟨listed, by omega⟩⟩

/-- Bytes stored in one line change that line alone. -/
theorem tmPutBytes_rows (k : Core) (t a : Nat) (l : List Byte) (p : Bool) (fits : l.length ≤ 64) :
    RowsKept t a (a + 1) k (tmPutBytes k t (64 * a) l p) := by
  unfold tmPutBytes
  split
  · exact .refl ..
  · next some_ =>
    have pos : 0 < l.length := List.length_pos_iff.mpr fun none => some_ (by simp [none])
    refine ⟨⟨rfl, by rw [tile_modTile_same], fun u other => tile_modTile_ne _ other⟩, fun n outside => ?_⟩
    simp only [tmLine, tmBad, tile_modTile_same]
    constructor
    · exact line_congr fun i low high => by rw [byte_setBads, byte_putBytes_ne _ _ _ (by omega)]
    · rw [lineBad_setBads_outside p (by omega), Mem.lineBad, putBytes_bad, Mem.lineBad]

theorem fmtBits_per (f : Nat) : fmtBits f * (512 / fmtBits f) = 512 ∧ 0 < 512 / fmtBits f := by
  unfold fmtBits
  split
  · omega
  · split
    · omega
    · split <;> omega

theorem putRow_rows (k : Core) (t f a fuel : Nat) (l : List (Nat × Bool)) :
    RowsKept t a (a + cdiv l.length (512 / fmtBits f)) k (putRow k t f a fuel l) := by
  obtain ⟨whole, pos⟩ := fmtBits_per f
  induction fuel generalizing k a l with
  | zero => exact .refl ..
  | succ fuel ih =>
    simp only [putRow]
    split
    · exact .refl ..
    · next some_ =>
      have listed : 0 < l.length := List.length_pos_iff.mpr fun none => some_ (by simp [none])
      generalize 512 / fmtBits f = per at whole pos ih ⊢
      have first : 1 ≤ cdiv l.length per := (Nat.le_div_iff_mul_le pos).mpr (by omega)
      have rest : 1 + cdiv (l.drop per).length per ≤ cdiv l.length per := by
        rw [List.length_drop, cdiv, cdiv]
        by_cases short : l.length ≤ per
        · rw [Nat.sub_eq_zero_of_le short, Nat.zero_add, Nat.div_eq_of_lt (show per - 1 < per by omega)]
          exact first
        · rw [Nat.add_comm 1, ← Nat.add_div_right _ pos]
          exact Nat.div_le_div_right (by omega)
      have bytes : (leBytes (cdiv ((l.take per).length * fmtBits f) 8) (packElems (fmtBits f) ((l.take per).map Prod.fst))).length ≤ 64 := by
        rw [length_leBytes, cdiv]
        have taken : (l.take per).length * fmtBits f ≤ 512 := by
          rw [← whole, Nat.mul_comm]
          exact Nat.mul_le_mul_left _ (List.length_take_le ..)
        omega
      exact ((tmPutBytes_rows k t a _ _ bytes).wider (Nat.le_refl a) (by omega)).trans ((ih _ _ _).wider (by omega) (by omega))

theorem mapExc_length {α β : Type} (f : α → Exc → β × Exc) (l : List α) (c : Exc) : (mapExc f l c).1.length = l.length := by
  induction l generalizing c with
  | nil => rfl
  | cons x l ih => simp only [mapExc, List.length_cons, ih]

/-! ## Rows of the attention pipeline (R257, R258, R276) -/

/-- A state row of dh values, dh a whole number of lines, ends with the line of its maximum and sum. -/
theorem putState_rows (k : Core) (t a : Nat) (s : RowSt) (whole : s.o.length % 16 = 0) :
    RowsKept t a (a + stateLines s.o.length) k (putState k t a s) := by
  have row := putRow_rows k t 6 a (s.o.map fun x => ((w32 (if s.bad then .nan else x)).toNat, s.pois)).length
    (s.o.map fun x => ((w32 (if s.bad then .nan else x)).toNat, s.pois))
  have lines : cdiv s.o.length 16 = s.o.length / 16 := by
    rw [cdiv]
    omega
  have size : stateLines s.o.length = s.o.length / 16 + 1 := rfl
  rw [List.length_map, show 512 / fmtBits 6 = 16 from rfl, lines] at row
  have last (m : Core) (v : Line) : RowsKept t a (a + stateLines s.o.length) m (tmPut m t (a + s.o.length / 16) v s.pois) :=
    (tmPut_rows m t (a + s.o.length / 16) v s.pois).wider (by omega) (by omega)
  simp only [putState, List.length_map]
  exact (row.wider (Nat.le_refl a) (by omega)).trans (last _ _)

/-- The line of a state row's maximum begins with it. -/
theorem putState_max (k : Core) (t a : Nat) (s : RowSt) : tmElem (putState k t a s) t (a + s.o.length / 16) 32 0 = (w32 s.m).toNat := by
  have line : tmLine (putState k t a s) t (a + s.o.length / 16) =
      BitVec.ofNat 512 ((w32 s.m).toNat + (w32 (if s.bad then .nan else s.l)).toNat * 2 ^ 32) := by
    simp only [putState, tmLine, tmPut, tile_modTile_same, line_putLine_same]
  have row := tmElem_row (k := putState k t a s) (t := t) (n := a + s.o.length / 16) (w := 32) (i := 0) (l := 1) (by norm_num) (by norm_num [cdiv])
    (by norm_num [cdiv])
  have low (x y : Nat) (small : x < 2 ^ 32) : elemAt ((BitVec.ofNat 512 (x + y * 2 ^ 32)).toNat) 32 0 = x := by
    rw [BitVec.toNat_ofNat, elemAt_mod (by norm_num), elemAt, Nat.mul_zero, pow_zero, Nat.div_one, Nat.add_mul_mod_self_right, Nat.mod_eq_of_lt small]
  have single : (upFrom (a + s.o.length / 16) 1).map (tmLine (putState k t a s) t) = [tmLine (putState k t a s) t (a + s.o.length / 16)] := rfl
  rw [row, single, joinLines, joinLines, Nat.mul_zero, Nat.add_zero, line]
  exact low _ _ (w32 s.m).isLt

theorem putFinal_row (k : Core) (t a f : Nat) (s : RowSt) (c : Exc) : ∃ (o : List Nat) (c1 : Exc), o.length = s.o.length ∧
    putFinal k t a f s c = (putRow k t f a o.length (o.map fun v => (v, s.pois)), c1) := by
  simp only [putFinal]
  split
  · exact ⟨_, _, mapExc_length .., rfl⟩
  · split
    · exact ⟨_, _, List.length_map .., rfl⟩
    · exact ⟨_, _, mapExc_length .., rfl⟩

/-- A finished row in a format of whole lines. -/
theorem putFinal_rows (k : Core) (t a f : Nat) (s : RowSt) (c : Exc) (whole : s.o.length * fmtBits f % 512 = 0) :
    RowsKept t a (a + atOutLines s.o.length f) k (putFinal k t a f s c).1 := by
  obtain ⟨per, pos⟩ := fmtBits_per f
  obtain ⟨o, c1, size, made⟩ := putFinal_row k t a f s c
  have row := putRow_rows k t f a o.length (o.map fun v => (v, s.pois))
  have lines : cdiv s.o.length (512 / fmtBits f) = atOutLines s.o.length f := by
    have count : atOutLines s.o.length f * (512 / fmtBits f) = s.o.length := by
      have exact_ : atOutLines s.o.length f * 512 = s.o.length * fmtBits f := by
        rw [atOutLines]
        omega
      have width : 0 < fmtBits f := Nat.pos_of_ne_zero fun zero => by simp [zero] at per
      refine Nat.eq_of_mul_eq_mul_right width ?_
      rw [← exact_, Nat.mul_assoc, Nat.mul_comm (512 / fmtBits f), per]
    generalize 512 / fmtBits f = n at count pos
    generalize atOutLines s.o.length f = m at count
    rw [← count, cdiv, Nat.add_sub_assoc pos, Nat.mul_comm m, Nat.mul_add_div pos, Nat.div_eq_of_lt (by omega), Nat.add_zero]
  rw [List.length_map, size, lines] at row
  rw [made]
  rw [size]
  exact row

theorem putAtRow_rows (k : Core) (t a f : Nat) (fin : Bool) (s : RowSt) (c : Exc) {dh : Nat} (size : s.o.length = dh) (state : dh % 16 = 0)
    (whole : fin = true → dh * fmtBits f % 512 = 0) :
    RowsKept t a (a + if fin then atOutLines dh f else stateLines dh) k (putAtRow k t a f fin s c).1 := by
  subst size
  cases fin with
  | true => exact putFinal_rows k t a f s c (whole rfl)
  | false => exact putState_rows k t a s state

/-! ## AT.MERGE (R276) -/

section Merge
variable {k : Core} {t : Nat} {i : TIns}

theorem mergeStates_length (dh : Nat) (ss : List RowSt) (c : Exc) : (mergeStates dh ss c).1.o.length = dh :=
  (mapExc_length ..).trans (length_upFrom ..)

/-- The states a merged row takes. -/
def mergeSets (k : Core) (t : Nat) (i : TIns) (r : Nat) : List RowSt :=
  (upFrom 0 (i.fc 22 16)).map fun j => readState k t (i.fa 14 0 + j * i.fx 15 0 + r * stateLines (64 * 2 ^ i.fa 23 22)) (64 * 2 ^ i.fa 23 22)

/-- One row of a merge. -/
def mergeRow (t : Nat) (i : TIns) (x : Core × Exc) (r : Nat) : Core × Exc :=
  let p := mergeStates (64 * 2 ^ i.fa 23 22) (mergeSets x.1 t i r) x.2
  let q := putAtRow x.1 t (i.fb 14 0 + r * atPitch i (64 * 2 ^ i.fa 23 22)) (i.fa 20 18) i.fin p.1 p.2
  (q.1, x.2.upTo p.1.pois q.2)

theorem atMerge_starts (take : canTake k t uAp i = true) (ok : hitchOk k t uAp i = true) (free : (tile k t).ap = none) : atMerge k t i =
    let x := (upFrom 0 (i.fc 11 0)).foldl (mergeRow t i) (takeIns k t uAp i, {})
    retireIns (countExc x.1 t x.2) t i := by
  have stage : stageFree k t uAp i = true := by simp [stageFree, uAp, uVe, free]
  rw [atMerge, unitRun_starts _ take stage ok]
  rfl

/-- The output formats of a finished row fill whole lines. -/
theorem merge_whole (take : canTake k t uAp i = true) (cls : i.cls = 8) (op : i.op = 0x83) (fin : i.fin = true) :
    64 * 2 ^ i.fa 23 22 * fmtBits (i.fa 20 18) % 512 = 0 := by
  have ok := limits_of_canTake take (cRange 82 (i.fa 21 21 == 1 && !([0, 1, 2, 6].contains (i.fa 20 18)))) (by
    simp [tileLimits, cls, atChks, op])
  have listed : i.fa 20 18 ∈ [0, 1, 2, 6] := by
    simp only [TIns.fin] at fin
    simp only [cRange, fin, Bool.true_and, Bool.not_eq_false', List.contains_iff_mem] at ok
    exact ok
  have eight : fmtBits (i.fa 20 18) % 8 = 0 := by
    simp only [List.mem_cons, List.not_mem_nil, or_false] at listed
    rcases listed with same | same | same | same <;> rw [same] <;> rfl
  obtain ⟨n, width⟩ := Nat.dvd_of_mod_eq_zero eight
  rw [width, show 64 * 2 ^ i.fa 23 22 * (8 * n) = 512 * (2 ^ i.fa 23 22 * n) by ring, Nat.mul_mod_right]

variable (whole : i.fin = true → 64 * 2 ^ i.fa 23 22 * fmtBits (i.fa 20 18) % 512 = 0)
include whole

theorem mergeRow_rows (x : Core × Exc) {r rows : Nat} (inside : r < rows) :
    RowsKept t (i.fb 14 0) (i.fb 14 0 + rows * atPitch i (64 * 2 ^ i.fa 23 22)) x.1 (mergeRow t i x r).1 := by
  have row := putAtRow_rows x.1 t (i.fb 14 0 + r * atPitch i (64 * 2 ^ i.fa 23 22)) (i.fa 20 18) i.fin
    (mergeStates (64 * 2 ^ i.fa 23 22) (mergeSets x.1 t i r) x.2).1 (mergeStates (64 * 2 ^ i.fa 23 22) (mergeSets x.1 t i r) x.2).2
    (mergeStates_length ..) (by omega) whole
  have next : (r + 1) * atPitch i (64 * 2 ^ i.fa 23 22) ≤ rows * atPitch i (64 * 2 ^ i.fa 23 22) := Nat.mul_le_mul_right _ inside
  rw [Nat.succ_mul] at next
  refine row.wider (by omega) ?_
  have pitch : (if i.fin = true then atOutLines (64 * 2 ^ i.fa 23 22) (i.fa 20 18) else stateLines (64 * 2 ^ i.fa 23 22)) =
      atPitch i (64 * 2 ^ i.fa 23 22) := rfl
  rw [pitch]
  omega

theorem mergeRows_rows {rows : Nat} (l : List Nat) (inside : ∀ r ∈ l, r < rows) (x : Core × Exc) :
    RowsKept t (i.fb 14 0) (i.fb 14 0 + rows * atPitch i (64 * 2 ^ i.fa 23 22)) x.1 (l.foldl (mergeRow t i) x).1 := by
  induction l generalizing x with
  | nil => exact .refl ..
  | cons r l ih =>
    exact (mergeRow_rows whole x (inside r List.mem_cons_self)).trans (ih (fun r mem => inside r (List.mem_cons_of_mem _ mem)) _)

omit whole in
/-- A state row merged alone begins its last line with the largest of the sets' maxima. -/
theorem mergeRow_max (x : Core × Exc) (state : i.fin = false) : tmElem (mergeRow t i x 0).1 t (i.fb 14 0 + 64 * 2 ^ i.fa 23 22 / 16) 32 0 =
    (w32 ((mergeSets x.1 t i 0).foldl (fun v q => maxN v q.m) (.inf true))).toNat := by
  have max := putState_max x.1 t (i.fb 14 0 + 0 * atPitch i (64 * 2 ^ i.fa 23 22))
    (mergeStates (64 * 2 ^ i.fa 23 22) (mergeSets x.1 t i 0) x.2).1
  rw [mergeStates_length, Nat.zero_mul, Nat.add_zero] at max
  simp only [mergeRow, state, putAtRow, Bool.false_eq_true, if_false, Nat.zero_mul, Nat.add_zero]
  exact max

end Merge

/-! ## What the entries of a length table leave alone (R251 to R262) -/

/-- m stores nothing that k does not. -/
structure Quiet (k m : Core) : Prop where
  dram : m.dram = k.dram
  stg : m.stg = k.stg
  objs : m.objs = k.objs
  pools : m.pools = k.pools
  mem : ∀ u, (tile m u).mem = (tile k u).mem
  pages : ∀ q, (seq m q).pages = (seq k q).pages

theorem Quiet.refl (k : Core) : Quiet k k := ⟨rfl, rfl, rfl, rfl, fun _ => rfl, fun _ => rfl⟩

theorem Quiet.trans {k m n : Core} (first : Quiet k m) (second : Quiet m n) : Quiet k n :=
  ⟨second.dram.trans first.dram, second.stg.trans first.stg, second.objs.trans first.objs, second.pools.trans first.pools,
    fun u => (second.mem u).trans (first.mem u), fun q => (second.pages q).trans (first.pages q)⟩

theorem quiet_of_readied {k m : Core} (readied : Readied k m) : Quiet k m where
  dram := by rw [readied.frame]
  stg := by rw [readied.frame]
  objs := by rw [readied.frame]
  pools := by rw [readied.frame]
  mem u := congrArg Tile.mem (readied.tiles u)
  pages q := by
    rw [readied.frame]
    rfl

theorem quiet_of_counted {k m : Core} (counted : Counted k m) : Quiet k m where
  dram := by rw [counted]
  stg := by rw [counted]
  objs := by rw [counted]
  pools := by rw [counted]
  mem u := congrArg Tile.mem (counted.tile u)
  pages q := by
    rw [counted]
    rfl

theorem bump_counted (k : Core) (off n : Nat) : Counted k (bump k off n) := by
  unfold bump
  split <;> rfl

theorem notePlace_quiet (k : Core) (p l n : Nat) : Quiet k (notePlace k p l n) := by
  unfold notePlace
  split
  · exact quiet_of_readied (noteStgReads_readied ..)
  · exact .refl k

theorem takeIns_quiet (k : Core) (t u : Nat) (i : TIns) : Quiet k (takeIns k t u i) where
  dram := by rw [takeIns_frame]
  stg := takeIns_stg ..
  objs := by rw [takeIns_frame]
  pools := by rw [takeIns_frame]
  mem v := takeIns_mem ..
  pages q := by
    rw [takeIns_frame]
    rfl

theorem errRecord_quiet (k : Core) (e : ErrRec) : Quiet k (errRecord k e) :=
  ⟨by simp, by simp, by simp, by simp, fun u => by simp [tile], fun q => by simp [seq]⟩

theorem modSeq_quiet (k : Core) (s : Nat) {f : Seq → Seq} (same : ∀ q, (f q).pages = q.pages) : Quiet k (modSeq k s f) := by
  refine ⟨rfl, rfl, rfl, rfl, fun _ => rfl, fun q => ?_⟩
  rw [seq, modSeq, mget_mmod]
  split
  · next own => rw [same, own, seq]
  · rfl

theorem seqFault_quiet (k : Core) (t : Nat) (i : TIns) (s b code : Nat) (mismatch : Bool) : Quiet k (seqFault k t i s b code mismatch) := by
  have first := quiet_of_counted (bump_counted k (oAtCount t 3) 1)
  have counted : Quiet k (if mismatch = true then bump (bump k (oAtCount t 3) 1) (oAtCount t 4) 1 else bump k (oAtCount t 3) 1) := by
    split
    · exact first.trans (quiet_of_counted (bump_counted ..))
    · exact first
  exact (counted.trans (errRecord_quiet ..)).trans (modSeq_quiet _ _ fun _ => rfl)

theorem Quiet.foldl {α : Type} {f : Core → α → Core} (step : ∀ k x, Quiet k (f k x)) (l : List α) (k : Core) : Quiet k (l.foldl f k) := by
  induction l generalizing k with
  | nil => exact .refl k
  | cons x l ih => exact (step k x).trans (ih (f k x))

theorem countWalk_quiet (k : Core) (t : Nat) (i : TIns) (src : KvSrc) (ms : MSet) (w : List (Nat × Bool)) : Quiet k (countWalk k t i src ms w) := by
  have counted (x y : Nat) : Quiet k (tbump (tbump k t (oAtCount t 0) x) t (oAtCount t 1) y) :=
    quiet_of_counted ((tbump_counted ..).trans (tbump_counted ..))
  simp only [countWalk]
  split
  · refine (counted _ _).trans (Quiet.foldl (fun k x => ?_) _ _)
    split
    · exact (notePlace_quiet ..).trans (notePlace_quiet ..)
    · exact .refl k
  · exact counted _ _

/-- m stores nothing outside tile t's memory that k does not. -/
structure RunKept (t : Nat) (k m : Core) : Prop where
  dram : m.dram = k.dram
  stg : m.stg = k.stg
  objs : m.objs = k.objs
  pools : m.pools = k.pools
  mem : ∀ u, u ≠ t → (tile m u).mem = (tile k u).mem
  pages : ∀ q, (seq m q).pages = (seq k q).pages

theorem Quiet.runKept {k m : Core} (t : Nat) (quiet : Quiet k m) : RunKept t k m :=
  ⟨quiet.dram, quiet.stg, quiet.objs, quiet.pools, fun u _ => quiet.mem u, quiet.pages⟩

theorem RunKept.trans {t : Nat} {k m n : Core} (first : RunKept t k m) (second : RunKept t m n) : RunKept t k n :=
  ⟨second.dram.trans first.dram, second.stg.trans first.stg, second.objs.trans first.objs, second.pools.trans first.pools,
    fun u other => (second.mem u other).trans (first.mem u other), fun q => (second.pages q).trans (first.pages q)⟩

theorem runKept_of_mem {t : Nat} {k m : Core} (kept : MemKept t k m) : RunKept t k m where
  dram := by rw [kept.frame]
  stg := by rw [kept.frame]
  objs := by rw [kept.frame]
  pools := by rw [kept.frame]
  mem u other := congrArg Tile.mem (kept.others u other)
  pages q := by
    rw [kept.frame]
    rfl

/-! ## The entries of an AT.RUN (R251 to R258) -/

theorem atEntries_go {R : Core → Core → Prop} (same : ∀ k, R k k) (chain : ∀ {k m n}, R k m → R m n → R k n)
    {f : Core → Nat → Exc → Nat → AtRes} (step : ∀ {k : Core} {b c n k1 b1 c1}, f k b c n = .go k1 b1 c1 → R k k1) {m : Nat} {k k2 : Core} {b n b2 : Nat}
    {c c2 : Exc} (works : atEntries f k b c n m = .go k2 b2 c2) : R k k2 := by
  induction m generalizing k b c n with
  | zero =>
    cases works
    exact same _
  | succ m ih =>
    simp only [atEntries] at works
    split at works
    · next k1 b1 c1 first => exact chain (step first) (ih works)
    · next other => exact step works

theorem putRow_mem (k : Core) (t f a fuel : Nat) (l : List (Nat × Bool)) : MemKept t k (putRow k t f a fuel l) := (putRow_rows k t f a fuel l).kept

theorem putAtRow_mem (k : Core) (t a f : Nat) (fin : Bool) (s : RowSt) (c : Exc) : MemKept t k (putAtRow k t a f fin s c).1 := by
  cases fin with
  | true =>
    obtain ⟨o, c1, -, made⟩ := putFinal_row k t a f s c
    rw [putAtRow, if_pos rfl, made]
    exact putRow_mem ..
  | false => exact (putRow_mem ..).trans (tmPut_kept ..)

theorem runRow_mem (t : Nat) (i : TIns) (e : LtEnt) (src : KvSrc) (ms : MSet) (base : Nat) (x : Core × Exc) (r : Nat) :
    MemKept t x.1 (runRow t i e src ms base x r).1 := putAtRow_mem ..

theorem runRows_mem (t : Nat) (i : TIns) (e : LtEnt) (src : KvSrc) (ms : MSet) (base : Nat) (l : List Nat) (x : Core × Exc) :
    MemKept t x.1 (l.foldl (runRow t i e src ms base) x).1 := by
  induction l generalizing x with
  | nil => exact .refl ..
  | cons r l ih => exact (runRow_mem t i e src ms base x r).trans (ih _)

theorem zeroRows_mem (k : Core) (t : Nat) (i : TIns) (e : LtEnt) (base l : Nat) : MemKept t k (zeroRows k t i e base l) := by
  unfold zeroRows
  generalize upFrom (i.fb 14 0 + base * l) (entryRows i e * l) = ns
  induction ns generalizing k with
  | nil => exact .refl ..
  | cons n ns ih => exact (tmPut_kept ..).trans (ih _)

theorem entryStart_quiet (k : Core) (n p l : Nat) : Quiet k (if n % 2 = 0 then notePlace k p l 1 else k) := by
  split
  · exact notePlace_quiet ..
  · exact .refl k

theorem go_of_fail {p : Prop} [Decidable p] {y : AtRes} {k k1 : Core} {r a b : Nat} {c : Exc}
    (made : (if p then .fail k r a else y) = .go k1 b c) : y = .go k1 b c := by
  split at made
  · cases made
  · exact made

theorem go_of_wait {p : Prop} [Decidable p] {y : AtRes} {k1 : Core} {b : Nat} {c : Exc}
    (made : (if p then .wait else y) = .go k1 b c) : y = .go k1 b c := by
  split at made
  · cases made
  · exact made

theorem runEntry_kept {t : Nat} {i : TIns} {k k1 : Core} {b n b1 : Nat} {c c1 : Exc} (works : runEntry t i k b c n = .go k1 b1 c1) :
    RunKept t k k1 := by
  have start := entryStart_quiet k n (i.fx 31 0) (i.fx 63 32 + n / 2)
  simp only [runEntry] at works
  generalize (if n % 2 = 0 then notePlace k (i.fx 31 0) (i.fx 63 32 + n / 2) 1 else k) = k0 at works start
  split at works
  · cases works
    exact start.runKept t
  · split at works
    · cases works
    · replace works := go_of_fail (go_of_fail (go_of_fail works))
      have walk (src : KvSrc) (ms : MSet) (w : List (Nat × Bool)) (p l : Nat) (b : Bool) :
          Quiet k (countWalk (if b = true then notePlace k0 p l 1 else k0) t i src ms w) := by
        refine Quiet.trans ?_ (countWalk_quiet ..)
        split
        · exact start.trans (notePlace_quiet ..)
        · exact start
      split at works
      · cases works
        exact (((walk ..).trans (seqFault_quiet ..)).runKept t).trans (runKept_of_mem (zeroRows_mem ..))
      · replace works := go_of_wait works
        cases works
        exact ((walk ..).runKept t).trans (runKept_of_mem (runRows_mem t i _ _ _ _ _ (_, c)))

/-! ## The entries of an AT.KVPUT (R260) -/

/-- m stores nothing in tile or staging memory that k does not. -/
structure PutKept (k m : Core) : Prop where
  stg : m.stg = k.stg
  mem : ∀ u, (tile m u).mem = (tile k u).mem
  pages : ∀ q, (seq m q).pages = (seq k q).pages

theorem PutKept.refl (k : Core) : PutKept k k := ⟨rfl, fun _ => rfl, fun _ => rfl⟩

theorem PutKept.trans {k m n : Core} (first : PutKept k m) (second : PutKept m n) : PutKept k n :=
  ⟨second.stg.trans first.stg, fun u => (second.mem u).trans (first.mem u), fun q => (second.pages q).trans (first.pages q)⟩

theorem PutKept.foldl {α : Type} {f : Core → α → Core} (step : ∀ k x, PutKept k (f k x)) (l : List α) (k : Core) : PutKept k (l.foldl f k) := by
  induction l generalizing k with
  | nil => exact .refl k
  | cons x l ih => exact (step k x).trans (ih (f k x))

theorem Quiet.putKept {k m : Core} (quiet : Quiet k m) : PutKept k m := ⟨quiet.stg, quiet.mem, quiet.pages⟩

theorem putObjLine_putKept (k : Core) (h l : Nat) (v : Line) (bad : Bool) : PutKept k (putObjLine k h l v bad) := by
  simp only [putObjLine]
  split <;> exact ⟨rfl, fun _ => rfl, fun _ => rfl⟩

theorem noteWrite_putKept (k : Core) (h l n : Nat) : PutKept k (noteWrite k h l n) := by
  simp only [noteWrite]
  split <;> exact ⟨rfl, fun _ => rfl, fun _ => rfl⟩

theorem writeObj_putKept (k : Core) (h l : Nat) (vs : List (Line × Bool)) : PutKept k (writeObj k h l vs) :=
  (PutKept.foldl (fun _ _ => putObjLine_putKept ..) _ k).trans (noteWrite_putKept ..)

theorem mirrorPage_putKept (k : Core) (s page off : Nat) (ls : List (Line × Bool)) : PutKept k (mirrorPage k s page off ls) := by
  simp only [mirrorPage, mirrorLines]
  split
  · split
    · split <;> exact ⟨rfl, fun _ => rfl, fun _ => rfl⟩
    · exact .refl k
  · exact .refl k

theorem putToken_putKept (k : Core) (t : Nat) (i : TIns) (ms : MSet) (s h page pl pos r : Nat) (bad : Bool) :
    PutKept k (putToken k t i ms s h page pl pos r bad) :=
  PutKept.foldl (fun _ _ => (((writeObj_putKept ..).trans (mirrorPage_putKept ..)).trans (writeObj_putKept ..)).trans (mirrorPage_putKept ..)) _ k

theorem putEntryRows_kept {t : Nat} {i : TIns} {k k1 : Core} {b n b1 : Nat} {c c1 : Exc} (works : putEntryRows t i k b c n = .go k1 b1 c1) :
    PutKept k k1 := by
  have start := (entryStart_quiet k n (i.fx 31 0) (i.fx 63 32 + n / 2)).putKept
  simp only [putEntryRows] at works
  generalize (if n % 2 = 0 then notePlace k (i.fx 31 0) (i.fx 63 32 + n / 2) 1 else k) = k0 at works start
  split at works
  · cases works
    exact start
  · split at works
    · cases works
    · split at works
      · cases works
      · cases works
        split
        · exact start.trans (PutKept.foldl (fun _ _ => putToken_putKept ..) _ _)
        · exact (start.trans (PutKept.foldl (fun _ _ => putToken_putKept ..) _ _)).trans (seqFault_quiet ..).putKept

/-! ## The Conv Feeder (R233, R234) -/

section Feeder
variable {k : Core} {t : Nat} {i : TIns} (take : canTake k t uCf i = true) (ok : hitchOk k t uCf i = true) (free : (tile k t).feed = none)
include take ok free

omit take ok in
theorem stageFree_cf (i : TIns) : stageFree k t uCf i = true := by simp [stageFree, uVe, uAp, uCf, free]

theorem cvSetup_starts : cvSetup k t i =
    retireIns (putTile (takeIns k t uCf i) t { tile (takeIns k t uCf i) t with cf := some i }) t i := by
  rw [cvSetup, unitRun_starts _ take (stageFree_cf free i) ok, modTile_eq_put rfl]

omit take ok free in
theorem takeIns_cf (k : Core) (t u : Nat) (i : TIns) : (tile (takeIns k t u i) t).cf = (tile k t).cf := by
  rw [(takeIns_tile k t u i : tile _ t = _)]

omit take ok free in
theorem feedFault_takeIns (q : TIns) : feedFault (takeIns k t uCf i) t q i = feedFault k t q i := by
  rw [takeIns_frame]
  rfl

theorem cvFeed_starts {q : TIns} (map : (tile k t).cf = some q) (sound : feedFault k t q i = none) : cvFeed k t i =
    veRun (putTile (takeIns k t uCf i) t { tile (takeIns k t uCf i) t with feed := some { ins := i } }) t := by
  rw [cvFeed, unitRun_starts _ take (stageFree_cf free i) ok]
  conv_lhs => simp only [takeIns_cf, map, feedFault_takeIns, sound]
  rw [modTile_eq_put rfl]

theorem cvFeed_fails {q : TIns} {e : Nat} (map : (tile k t).cf = some q) (fault : feedFault k t q i = some e) :
    cvFeed k t i = tileFail (takeIns k t uCf i) t i.widx rOverrun e := by
  rw [cvFeed, unitRun_starts _ take (stageFree_cf free i) ok]
  simp only [takeIns_cf, map, feedFault_takeIns, fault]

theorem cvFeed_unmapped (map : (tile k t).cf = none) : cvFeed k t i = tileFail (takeIns k t uCf i) t i.widx rWrongState 0 := by
  rw [cvFeed, unitRun_starts _ take (stageFree_cf free i) ok]
  simp only [takeIns_cf, map]

end Feeder

/-! ## Instructions that work through a length table (R250, R251) -/

section Table
variable {k : Core} {t : Nat} {i : TIns} {f : TIns → Core → Nat → Exc → Nat → AtRes}

theorem atGo_go {k2 : Core} {b : Nat} {e : Exc} (works : atEntries (f i) k 0 {} 0 (i.fc 13 0) = .go k2 b e) :
    atGo k t i f = retireIns (countExc (atWaits k2 t) t e) t i := by simp only [atGo, works]

theorem atGo_fail {k2 : Core} {r g : Nat} (works : atEntries (f i) k 0 {} 0 (i.fc 13 0) = .fail k2 r g) :
    atGo k t i f = tileFail (atWaits k2 t) t i.widx r g := by simp only [atGo, works]

theorem atGo_wait (works : atEntries (f i) k 0 {} 0 (i.fc 13 0) = .wait) : atGo k t i f = atHold k t i := by simp only [atGo, works]

theorem atTable_held {v : ApRun} (held : (tile k t).ap = some v) (runs : runsIns k t i = true) (plain : v.ins.plain = i) :
    atTable k t i f = atGo k t v.ins f := by simp [atTable, held, runs, plain]

theorem atTable_starts (take : canTake k t uAp i = true) (ok : hitchOk k t uAp i = true) (free : (tile k t).ap = none)
    (table : ∀ e ∈ placeChks k t 128 160 ((heldIns k t uAp i).fx 31 0) ⟨(heldIns k t uAp i).fx 63 32, 0, 1, cdiv ((heldIns k t uAp i).fc 13 0) 2⟩,
      e.bad = false) : atTable k t i f = atGo (takeIns k t uAp i) t (heldIns k t uAp i) f := by
  have stage : stageFree k t uAp i = true := by simp [stageFree, uAp, uVe, free]
  have checks (p : Nat) (e : Ext) : placeChks (takeIns k t uAp i) t 128 160 p e = placeChks k t 128 160 p e := by
    rw [takeIns_frame]
    rfl
  simp only [atTable, free]
  rw [unitRun_starts _ take stage ok]
  simp only [checks, firstBad_eq_none table]

end Table

theorem readState_takeIns (k : Core) (t u : Nat) (i : TIns) (a dh : Nat) : readState (takeIns k t u i) t a dh = readState k t a dh := by
  simp only [readState, rowVals, tmElem, tmAnyBad, tmBad, takeIns_mem]

/-- The sets a single merged row takes are those of the state the instruction was taken in. -/
theorem mergeSets_takeIns (k : Core) (t u : Nat) (i : TIns) : mergeSets (takeIns k t u i) t i 0 =
    (upFrom 0 (i.fc 22 16)).map fun j => readState k t (i.fa 14 0 + j * i.fx 15 0) (64 * 2 ^ i.fa 23 22) := by
  simp only [mergeSets, readState_takeIns, Nat.zero_mul, Nat.add_zero]

theorem tmElem_counted {k m : Core} (counted : Counted k m) (t n w i : Nat) : tmElem m t n w i = tmElem k t n w i := by
  rw [tmElem, counted.tile, tmElem]

/-- Settles O52: a feed by what its map says; a length table by how its entries end; a merge by its rows. -/
theorem convolutionAndAttentionComplete : Obligations.ConvolutionAndAttentionComplete := by
  unfold Obligations.ConvolutionAndAttentionComplete
  constructor
  · intro h a b c x s k t setup feed now k1 put
    have setups {m : Core} (made : cvSetup k t setup = m) : exec (.cvSetup h a b c x) s = .next (s.finish (tsRun m t)) := by rw [← made]; rfl
    have feeds {m : Core} (made : cvFeed k t feed = m) : exec (.cvFeed h a b c) s = .next (s.finish (tsRun m t)) := by rw [← made]; rfl
    exact ⟨fun ⟨take, ok, free⟩ => setups (cvSetup_starts take ok free),
      fun ⟨take, ok, free⟩ q map sound => feeds (cvFeed_starts take ok free map sound),
      fun ⟨take, ok, free⟩ q e map fault => feeds (cvFeed_fails take ok free map fault),
      fun ⟨take, ok, free⟩ map => feeds (cvFeed_unmapped take ok free map)⟩
  · intro h a b c x s k t run put merge now table k1 j rows row works ends
    have merges {m : Core} (made : atMerge k t merge = m) : exec (.atMerge h a b c x) s = .next (s.finish (tsRun m t)) := by rw [← made]; rfl
    have fields (i : TIns) (kind : i = run ∨ i = put) (ready : now i) : (j i).plain = i := by
      rcases kind with rfl | rfl <;> exact heldIns_plain ready.1 rfl
    have rowOf (i : TIns) (kind : i = run ∨ i = put) {m : Core} (made : atTable k t i (fun y => if i.op = 0x81 then runEntry t y else putEntryRows t y) = m) :
        ends i m := by
      rw [← made]
      rcases kind with rfl | rfl <;> rfl
    have starts (i : TIns) (kind : i = run ∨ i = put) (ready : now i) (sound : table) {m : Core}
        (made : atGo (k1 i) t (j i) (fun y => if i.op = 0x81 then runEntry t y else putEntryRows t y) = m) : ends i m := by
      have plain := fields i kind ready
      obtain ⟨take, ok, free⟩ := ready
      have ext : (heldIns k t uAp i).x = x ∧ (heldIns k t uAp i).c = c := by
        rcases kind with rfl | rfl <;> exact ⟨congrArg TIns.x plain, congrArg TIns.c plain⟩
      refine rowOf i kind ((atTable_starts take ok free ?_).trans made)
      simp only [TIns.fx, TIns.fc, ext]
      exact sound
    have count (i : TIns) (kind : i = run ∨ i = put) (ready : now i) : (j i).fc 13 0 = bits c.toNat 13 0 := by
      have plain := fields i kind ready
      rcases kind with rfl | rfl <;> exact congrArg (fun y => TIns.fc y 13 0) plain
    have worked (i : TIns) (kind : i = run ∨ i = put) (ready : now i) {r : AtRes} (made : works i = r) :
        atEntries ((fun y => if i.op = 0x81 then runEntry t y else putEntryRows t y) (j i)) (k1 i) 0 {} 0 ((j i).fc 13 0) = r := by
      rw [count i kind ready]
      exact made
    have retires (i : TIns) (kind : i = run ∨ i = put) (ready : now i) (m : Core) : retireIns m t (j i) = retireIns m t i := by
      have agree : j i = { i with tval := (j i).tval } := eq_of_plain (fields i kind ready)
      rw [agree]
      rfl
    refine ⟨fun i k2 r g kind ready sound made => starts i kind ready sound ?_, fun i kind ready sound made => starts i kind ready sound ?_,
      fun i v kind held runs plain => rowOf i kind (atTable_held held runs plain), fun ready sound k2 n e made => ?_,
      fun ready sound k2 n e made => ?_, fun ready => ?_⟩
    · have index : (j i).widx = h.widx.toNat := by
        have plain := fields i kind ready
        rcases kind with rfl | rfl <;> exact congrArg TIns.widx plain
      rw [atGo_fail (worked i kind ready made), index]
    · exact atGo_wait (worked i kind ready made)
    · obtain ⟨dram, stg, objs, pools, mem, pages⟩ := (takeIns_quiet k t uAp run).runKept t |>.trans
        (atEntries_go (R := RunKept t) (fun k => (Quiet.refl k).runKept t) RunKept.trans (fun entry => runEntry_kept entry) made)
      refine ⟨starts run (.inl rfl) ready sound ?_, dram, stg, objs, pools, mem, pages⟩
      rw [atGo_go (worked run (.inl rfl) ready made), retires run (.inl rfl) ready]
    · obtain ⟨stg, mem, pages⟩ := (takeIns_quiet k t uAp put).putKept.trans
        (atEntries_go (R := PutKept) PutKept.refl PutKept.trans (fun entry => putEntryRows_kept entry) made)
      refine ⟨starts put (.inr rfl) ready sound ?_, stg, mem, pages⟩
      rw [atGo_go (worked put (.inr rfl) ready made), retires put (.inr rfl) ready]
    · obtain ⟨take, ok, free⟩ := ready
      have whole := merge_whole take rfl rfl
      have inside : ∀ r ∈ upFrom 0 (merge.fc 11 0), r < merge.fc 11 0 := fun r mem => by simpa using mem
      have rowsKept := mergeRows_rows (t := t) whole (upFrom 0 (merge.fc 11 0)) inside (takeIns k t uAp merge, {})
      have max : bits c.toNat 11 0 = 1 → bits a.toNat 21 21 = 0 → tmElem ((upFrom 0 (merge.fc 11 0)).foldl (mergeRow t merge) (takeIns k t uAp merge, {})).1 t
          (merge.fb 14 0 + 64 * 2 ^ merge.fa 23 22 / 16) 32 0 =
          (w32 ((mergeSets (takeIns k t uAp merge) t merge 0).foldl (fun v q => maxN v q.m) (.inf true))).toNat := by
        intro single state
        have one : merge.fc 11 0 = 1 := single
        have unfinished : merge.fin = false := by
          rw [TIns.fin, show merge.fa 21 21 = 0 from state]
          rfl
        rw [one]
        exact mergeRow_max _ unfinished
      rw [mergeSets_takeIns] at max
      generalize made : (upFrom 0 (merge.fc 11 0)).foldl (mergeRow t merge) (takeIns k t uAp merge, {}) = r at rowsKept max
      have counted := countExc_counted r.1 t r.2
      refine ⟨countExc r.1 t r.2, merges ?_, fun l outside => ?_, fun single state => ?_, fun u other => ?_, ?_⟩
      · rw [atMerge_starts take ok free, made]
      · obtain ⟨line, bad⟩ := rowsKept.lines l outside
        rw [tmLine, tmBad, counted.tile]
        exact ⟨line.trans (by rw [tmLine, takeIns_mem, tmLine]), bad.trans (by rw [tmBad, takeIns_mem, tmBad])⟩
      · exact (tmElem_counted counted ..).trans (max single state)
      · rw [counted.tile, rowsKept.kept.others u other]
        exact takeIns_tile_ne uAp merge other
      · rw [counted, rowsKept.kept.frame]
        dsimp only
        rw [takeIns_frame]

end Sys2Proof.Proofs.Attention
end

section
/-! PROOFS. HALTED (R60). What the device does with records, objects and pages, and what fails with a tile, keeps the device state and whether an
exit is under way: one lemma for each function, in the order of the model. -/

namespace Sys2Proof.Proofs.HaltedStays
open Sys2Proof.Machine Sys2Proof.Laws Sys2Proof.Proofs.Reads Sys2Proof.Proofs.ReadFrames

/-- The device state, and whether an exit from HOLD or GRAZE is under way, are as before. -/
@[simp] abbrev StateKept (k t : Core) : Prop := t.glb.st = k.glb.st ∧ t.pst.waking = k.pst.waking

theorem StateKept.foldl {α : Type} {f : Core → α → Core} (step : ∀ k x, StateKept k (f k x)) (l : List α) (k : Core) : StateKept k (l.foldl f k) := by
  simpa [StateKept] using foldl_fixes (g := fun k => (k.glb.st, k.pst.waking)) (fun k x => by simp [step k x]) l k

@[simp] theorem ite_st (c : Prop) [Decidable c] (a b : Core) :
    (if c then a else b).glb.st = if c then a.glb.st else b.glb.st := apply_ite (·.glb.st) c a b

@[simp] theorem ite_waking (c : Prop) [Decidable c] (a b : Core) : (if c then a else b).pst.waking = if c then a.pst.waking else b.pst.waking :=
  apply_ite (·.pst.waking) c a b

@[simp] theorem foldl_st {α : Type} {f : Core → α → Core} (step : ∀ k x, (f k x).glb.st = k.glb.st) (l : List α) (k : Core) :
    (l.foldl f k).glb.st = k.glb.st := foldl_fixes (g := fun k => k.glb.st) step l k

@[simp] theorem foldl_waking {α : Type} {f : Core → α → Core} (step : ∀ k x, (f k x).pst.waking = k.pst.waking) (l : List α) (k : Core) :
    (l.foldl f k).pst.waking = k.pst.waking := foldl_fixes (g := fun k => k.pst.waking) step l k

theorem foldl_stateKept_of {α β : Type} (core : β → Core) {f : β → α → β} (step : ∀ r x, StateKept (core r) (core (f r x))) (l : List α) (r : β) :
    StateKept (core r) (core (l.foldl f r)) := by
  induction l generalizing r with
  | nil => simp
  | cons x l ih =>
    have first := step r x
    have rest := ih (f r x)
    simp_all

theorem stateKept_of_readFrame {k t : Core} (read : ReadFrame k t) : StateKept k t := by
  have parts := read.parts
  simp_all

/-- The core that opening a place answers has kept the device state. -/
@[simp] def wayKept (k : Core) : Way → Prop
  | .lost _ => True
  | .wait t => StateKept k t
  | .go t => StateKept k t

theorem wayKept_of_readFrame {k : Core} {w : Way} (read : Way.kept k w) : wayKept k w := by
  cases w with
  | lost h => trivial
  | wait t => exact stateKept_of_readFrame read
  | go t => exact stateKept_of_readFrame read

/-- The core that reading an object answers has kept the device state. -/
@[simp] def fetchedKept (k : Core) : Fetched → Prop
  | .lost _ => True
  | .wait t => StateKept k t
  | .lines t _ => StateKept k t

theorem fetchedKept_of_readFrame {k : Core} {w : Fetched} (read : Fetched.kept k w) : fetchedKept k w := by
  cases w with
  | lost h => trivial
  | wait t => exact stateKept_of_readFrame read
  | lines t l => exact stateKept_of_readFrame read

/-- The core that an attention entry answers has kept the device state. -/
@[simp] def atResKept (k : Core) : AtRes → Prop
  | .wait => True
  | .go t _ _ => StateKept k t
  | .fail t _ _ => StateKept k t

/-- A fold whose steps keep a halted device's state keeps it. -/
theorem foldl_halted {α : Type} {f : Core → α → Core} (step : ∀ k x, k.glb.st = .halted → StateKept k (f k x)) (l : List α) {k : Core}
    (halted : k.glb.st = .halted) : StateKept k (l.foldl f k) := by
  induction l generalizing k with
  | nil => simp
  | cons x l ih =>
    have first := step k x halted
    have rest := ih (k := f k x) (first.1.trans halted)
    simp_all

theorem StateKept.trans {k m t : Core} (first : StateKept k m) (last : StateKept m t) : StateKept k t :=
  ⟨last.1.trans first.1, last.2.trans first.2⟩

/-! ### Shared operations -/

@[simp] theorem drawNat_eq (k : Core) : drawNat k = (Config.freeNat k.fresh, { k with fresh := k.fresh + 1 }) := rfl

@[simp] theorem drawWord_eq (k : Core) : drawWord k = (Config.freeWord k.fresh, { k with fresh := k.fresh + 1 }) := rfl

@[simp] theorem drawLine_eq (k : Core) : drawLine k = (Config.freeLine k.fresh, { k with fresh := k.fresh + 1 }) := rfl

@[simp] theorem aerReport_stateKept (k : Core) (h : AerHdr) : StateKept k (aerReport k h) := by simp [aerReport]

@[simp] theorem hostFlush_stateKept (k : Core) : StateKept k (hostFlush k) := by simp [hostFlush]

@[simp] theorem corrected_stateKept (k : Core) (source inst : Nat) (e : ErrRec) : StateKept k (corrected k source inst e) := by
  simp only [corrected]; split <;> simp

/-! ### Frames on the fabric -/

@[simp] theorem sendOn_stateKept (k : Core) (p : Nat) (f : Frame) : StateKept k (sendOn k p f) := by simp [sendOn]

@[simp] theorem routeVia_stateKept (ok : Nat → Bool) (k : Core) (f : Frame) : StateKept k (routeVia ok k f) := by unfold routeVia; split <;> simp

@[simp] theorem routeFrame_stateKept (k : Core) (f : Frame) : StateKept k (routeFrame k f) := routeVia_stateKept _ k f

@[simp] theorem routeChan_stateKept (k : Core) (c : Nat) (f : Frame) : StateKept k (routeChan k c f) := routeVia_stateKept _ k f

@[simp] theorem mirrorLines_stateKept (k : Core) (kind : Nat) (tag : W64) (body : List Byte) (ls : List (Line × Bool)) :
    StateKept k (mirrorLines k kind tag body ls) := by
  simp only [mirrorLines]; (repeat' split) <;> simp

@[simp] theorem mirrorSend_stateKept (k : Core) (kind : Nat) (tag : W64) (body : List Byte) (lines : List Line) :
    StateKept k (mirrorSend k kind tag body lines) := by
  simp [mirrorSend]

/-! ### System memory and tables -/

@[simp] theorem sysTake_stateKept (k : Core) (n : Nat) : StateKept k (sysTake k n) := by simp [sysTake]

@[simp] theorem sysGive_stateKept (k : Core) (n : Nat) : StateKept k (sysGive k n) := by simp [sysGive]

@[simp] theorem takeFrame_stateKept (k : Core) : StateKept k (takeFrame k).2 := by simp [takeFrame]

@[simp] theorem openIndex_stateKept (k : Core) (s x : Nat) : StateKept k (openIndex k s x) := by simp [openIndex]

@[simp] theorem openSegment_stateKept (k : Core) (s g : Nat) : StateKept k (Machine.openSegment k s g) := by
  simp [Machine.openSegment]

@[simp] theorem takePin_stateKept (k : Core) (h : Nat) : StateKept k (takePin k h) := by simp [takePin]

@[simp] theorem addRef_stateKept (k : Core) (h : Nat) : StateKept k (addRef k h) := by simp [addRef]

/-! ### Delivery of records -/

@[simp] theorem endPause_stateKept (k : Core) (s reason arg : Nat) : StateKept k (endPause k s reason arg) := by unfold endPause; split <;> simp

@[simp] theorem ringCommit_stateKept (k : Core) (s r : Nat) (rec : List Byte) : StateKept k (ringCommit k s r rec) := by simp [ringCommit]

@[simp] theorem commit_stateKept (k : Core) (s : Nat) (d : Deliv) : StateKept k (commit k s d) := by simp only [commit]; (repeat' split) <;> simp

@[simp] theorem deliver_stateKept (k : Core) (s : Nat) (d : Deliv) : StateKept k (deliver k s d) := by simp [deliver]

@[simp] theorem abandonPrompt_stateKept (k : Core) (s : Nat) : StateKept k (abandonPrompt k s) := by simp [abandonPrompt]

@[simp] theorem releasePrompt_stateKept (k : Core) (s : Nat) : StateKept k (releasePrompt k s) := by simp [releasePrompt]

@[simp] theorem failSeq_stateKept (k : Core) (s reason : Nat) : StateKept k (failSeq k s reason) := by simp [failSeq]

@[simp] theorem writeWaiting_stateKept (k : Core) (s : Nat) : StateKept k (writeWaiting k s) := by unfold writeWaiting; split <;> simp

/-! ### Objects: ends, pins and moves -/

@[simp] theorem orphanReads_stateKept (k : Core) (h : Nat) : StateKept k (orphanReads k h) := by simp [orphanReads]

@[simp] theorem endObj_stateKept (k : Core) (op h reason arg : Nat) : StateKept k (endObj k op h reason arg) :=
  .foldl (fun k f => by simp) _ k

@[simp] theorem writeGranules_stateKept (k : Core) (h : Nat) (l : List Nat) : StateKept k (writeGranules k h l) :=
  stateKept_of_readFrame (writeGranules_readFrame k h l)

@[simp] theorem stopEviction_stateKept (k : Core) (h : Nat) : StateKept k (stopEviction k h) := by
  simp [stopEviction]

@[simp] theorem promote_stateKept (k : Core) (h : Nat) : StateKept k (promote k h) :=
  stateKept_of_readFrame (promote_readFrame k h)

@[simp] theorem promoteOrDrop_stateKept (k : Core) (h : Nat) (limit : Option Nat) : StateKept k (promoteOrDrop k h limit) := by simp [promoteOrDrop]

@[simp] theorem noteWrite_stateKept (k : Core) (h line n : Nat) : StateKept k (noteWrite k h line n) := by simp [noteWrite]

/-! ### Object data -/

@[simp] theorem putCopyLine_stateKept (k : Core) (h l : Nat) (v : Line) (bad : Bool) : StateKept k (putCopyLine k h l v bad) := by simp [putCopyLine]

@[simp] theorem putObjLine_stateKept (k : Core) (h l : Nat) (v : Line) (bad : Bool) : StateKept k (putObjLine k h l v bad) := by simp [putObjLine]

@[simp] theorem loadPxLast_stateKept (k : Core) (px v : Nat) : StateKept k (loadPxLast k px v) := by
  unfold loadPxLast; split <;> simp

@[simp] theorem startRecovery_stateKept (k : Core) (h : Nat) (ls : List Nat) : StateKept k (startRecovery k h ls) :=
  stateKept_of_readFrame (startRecovery_readFrame k h ls)

@[simp] theorem reportBlock_stateKept (k : Core) (px h n check : Nat) : StateKept k (reportBlock k px h n check) := by simp [reportBlock]

@[simp] theorem stallObj_stateKept (k : Core) (w : Reader) (d n : Nat) : StateKept k (stallObj k w d n) :=
  stateKept_of_readFrame (stallObj_readFrame k w d n)

@[simp] theorem stallSpace_stateKept (k : Core) (w : Reader) (d h : Nat) : StateKept k (stallSpace k w d h) :=
  stateKept_of_readFrame (stallSpace_readFrame k w d h)

@[simp] theorem checkOrphans_stateKept (k : Core) (h : Nat) : StateKept k (checkOrphans k h) := by
  unfold checkOrphans
  dsimp only
  split
  · simp
  · exact .foldl (fun k n => by (repeat' split) <;> simp) _ k

@[simp] theorem abandonReads_stateKept (k : Core) (ts : List Nat) : StateKept k (abandonReads k ts) := by simp [abandonReads]

@[simp] theorem dropGot_stateKept (k : Core) (w : Reader) : StateKept k (dropGot k w) := by simp [dropGot]

@[simp] theorem writeObj_stateKept (k : Core) (h l : Nat) (vs : List (Line × Bool)) : StateKept k (writeObj k h l vs) := by
  simp [writeObj]

/-! ### Page tables -/

@[simp] theorem modHdr_stateKept (k : Core) (p page : Nat) (f : PageHdr → PageHdr) : StateKept k (modHdr k p page f) := by simp [modHdr]

@[simp] theorem returnPages_stateKept (k : Core) (d n : Nat) : StateKept k (returnPages k d n) := by simp [returnPages]

@[simp] theorem putEntry_stateKept (k : Core) (s e : Nat) (v : W64) : StateKept k (putEntry k s e v) := by simp [putEntry]

@[simp] theorem retireEdit_stateKept (k : Core) (d : Edit) (reason arg : Nat) : StateKept k (retireEdit k d reason arg) := by
  simp only [retireEdit]; (repeat' split) <;> simp

/-! ### Tiles and what fails with them -/

@[simp] theorem modEng_stateKept (k : Core) (t e : Nat) (f : Engine → Engine) : StateKept k (modEng k t e f) := by simp [modEng]

@[simp] theorem tbump_stateKept (k : Core) (t off n : Nat) : StateKept k (tbump k t off n) := by simp [tbump]

@[simp] theorem countExc_stateKept (k : Core) (t : Nat) (c : Exc) : StateKept k (countExc k t c) := by simp [countExc]

@[simp] theorem unitStall_stateKept (k : Core) (t n : Nat) : StateKept k (unitStall k t n) := by simp [unitStall]

@[simp] theorem bridgeStall_stateKept (k : Core) (d : Nat) : StateKept k (bridgeStall k d) := by simp [bridgeStall]

@[simp] theorem tmPut_stateKept (k : Core) (t n : Nat) (v : Line) (p : Bool) : StateKept k (tmPut k t n v p) := by simp [tmPut]

@[simp] theorem chargeEnergy_stateKept (k : Core) (u : UStep) (e : Nat) : StateKept k (chargeEnergy k u e) := by simp [chargeEnergy]

@[simp] theorem halveHot_stateKept (k : Core) (d n : Nat) : StateKept k (halveHot k d n) := by simp [halveHot]

@[simp] theorem abandonStep_stateKept (k : Core) (d : Nat) : StateKept k (abandonStep k d) := by unfold abandonStep; split <;> simp

@[simp] theorem dropPending_stateKept (k : Core) (m arg : Nat) : StateKept k (dropPending k m arg) := by simp [dropPending]

@[simp] theorem msetFree_stateKept (k : Core) (m : Nat) : StateKept k (msetFree k m) := by simp only [msetFree]; (repeat' split) <;> simp

@[simp] theorem freeFailed_stateKept (k : Core) (m : Nat) : StateKept k (freeFailed k m) := by simp [freeFailed]

@[simp] theorem msetFail_stateKept (k : Core) (m reason : Nat) : StateKept k (msetFail k m reason) := by
  simp only [msetFail]; (repeat' split) <;> simp

@[simp] theorem tileFail_stateKept (k : Core) (t widx reason arg : Nat) : StateKept k (tileFail k t widx reason arg) := by
  simp only [tileFail]; split <;> simp

@[simp] theorem hitchSet_stateKept (k : Core) (t c v : Nat) : StateKept k (hitchSet k t c v) := by simp [hitchSet]

@[simp] theorem hitchAdd_stateKept (k : Core) (t c n : Nat) (by_ : Nat × Nat) : StateKept k (hitchAdd k t c n by_) := by simp [hitchAdd]

@[simp] theorem takeIns_stateKept (k : Core) (t u : Nat) (i : TIns) : StateKept k (takeIns k t u i) := by unfold takeIns; split <;> simp

@[simp] theorem unitRun_stateKept {f : Core → Core} (kept : ∀ k, StateKept k (f k)) (k : Core) (t u : Nat) (i : TIns) :
    StateKept k (unitRun k t u i f) := by
  unfold unitRun
  (repeat' split) <;> simp [kept]

@[simp] theorem retireIns_stateKept (k : Core) (t : Nat) (i : TIns) : StateKept k (retireIns k t i) := by simp [retireIns]

end Sys2Proof.Proofs.HaltedStays
end

section
/-! PROOFS. HALTED (R60). The units of a tile keep the device state and whether an exit is under way. -/

namespace Sys2Proof.Proofs.HaltedStays
open Sys2Proof.Machine Sys2Proof.Laws Sys2Proof.Proofs.Reads Sys2Proof.Proofs.ReadFrames

/-! ### Convolution feeders -/

@[simp] theorem feedPut_stateKept (k : Core) (t : Nat) (s i : TIns) (n : Nat) : StateKept k (feedPut k t s i n) := by
  unfold feedPut
  split
  · simp
  · exact .foldl (fun k e => by split <;> simp) _ k

@[simp] theorem cfPlace_stateKept (k : Core) (t n : Nat) : StateKept k (cfPlace k t n) := by
  induction n generalizing k with
  | zero => simp [cfPlace]
  | succ n ih => simp only [cfPlace]; (repeat' split) <;> simp [ih]

@[simp] theorem cfRun_stateKept (k : Core) (t : Nat) : StateKept k (cfRun k t) := by simp [cfRun]

/-! ### Matrix engines -/

@[simp] theorem tmPutRow_stateKept (k : Core) (t a n x : Nat) (p : Bool) : StateKept k (tmPutRow k t a n x p) := by simp [tmPutRow]

@[simp] theorem modRun_stateKept (k : Core) (t e : Nat) (r : MxRun) (f : MxRun → MxRun) : StateKept k (modRun k t e r f) := by simp [modRun]

@[simp] theorem retireMx_stateKept (k : Core) (t e n : Nat) : StateKept k (retireMx k t e n) := by
  induction n generalizing k with
  | zero => simp [retireMx]
  | succ n ih => simp only [retireMx]; (repeat' split) <;> simp [ih]

@[simp] theorem mxRun_stateKept {f : Nat → Core} {k : Core} (kept : ∀ e, StateKept k (f e)) (t : Nat) (i : TIns) : StateKept k (mxRun k t i f) := by
  unfold mxRun
  (repeat' split) <;> simp [kept]

@[simp] theorem mxLoads_stateKept (k : Core) (t : Nat) (i : TIns) : StateKept k (mxLoads k t i) := by simp [mxLoads]

@[simp] theorem mxLoadArmed_stateKept (k : Core) (t e : Nat) : StateKept k (mxLoadArmed k t e) := by unfold mxLoadArmed; split <;> simp

@[simp] theorem mxPass_stateKept (k : Core) (t : Nat) (i : TIns) : StateKept k (mxPass k t i) := by
  refine mxRun_stateKept (fun e => ?_) t i
  dsimp only
  split
  · simp
  · exact unitRun_stateKept (fun k => by (repeat' split) <;> simp) ..

@[simp] theorem sendWave_stateKept (k : Core) (t e : Nat) (r : MxRun) (lines : List Line) (bad : Bool) :
    StateKept k (sendWave k t e r lines bad) := by
  simp [sendWave]

@[simp] theorem issueSlot_stateKept (k : Core) (t e : Nat) (r : MxRun) : StateKept k (issueSlot k t e r) := by
  simp only [issueSlot]; (repeat' split) <;> simp

@[simp] theorem mxWaveIssue_stateKept (k : Core) (t e : Nat) : StateKept k (mxWaveIssue k t e) := by simp only [mxWaveIssue]; (repeat' split) <;> simp

@[simp] theorem oabRowWrite_stateKept (k : Core) (t e : Nat) : StateKept k (oabRowWrite k t e) := by
  unfold oabRowWrite
  dsimp only
  (repeat' split) <;> simp

@[simp] theorem mxRegisterEmpty_stateKept (k : Core) (t e : Nat) : StateKept k (mxRegisterEmpty k t e) := by simp [mxRegisterEmpty]

@[simp] theorem mxDrain_stateKept (k : Core) (t : Nat) (i : TIns) : StateKept k (mxDrain k t i) := by simp [mxDrain]

@[simp] theorem drainRowWrite_stateKept (k : Core) (t e : Nat) : StateKept k (drainRowWrite k t e) := by
  unfold drainRowWrite
  dsimp only
  (repeat' split) <;> simp

/-! ### Vector engines -/

@[simp] theorem tmPutBytes_stateKept (k : Core) (t addr : Nat) (l : List Byte) (p : Bool) : StateKept k (tmPutBytes k t addr l p) := by
  simp [tmPutBytes]

@[simp] theorem putRow_stateKept (k : Core) (t f a n : Nat) (l : List (Nat × Bool)) : StateKept k (putRow k t f a n l) := by
  induction n generalizing k a l with
  | zero => simp [putRow]
  | succ n ih => simp only [putRow]; split <;> simp [ih]

@[simp] theorem vxRow_stateKept (t : Nat) (i : TIns) (s : Core × Exc) (r : Nat) : StateKept s.1 (vxRow t i s r).1 := by simp [vxRow]

@[simp] theorem vxRows_stateKept {f : Core × Exc → Nat → Core × Exc} (kept : ∀ s r, StateKept s.1 (f s r).1) (k : Core) (t : Nat) (i : TIns) :
    StateKept k (vxRows k t i f) := by
  have rows := foldl_stateKept_of Prod.fst kept (upFrom 0 i.vRows) (k, {})
  simp_all [vxRows]

@[simp] theorem putRowValues_stateKept (k : Core) (t a : Nat) (l : List (Machine.Num × Bool)) : StateKept k (putRowValues k t a l) := by
  induction k, a, l using putRowValues.induct (t := t) <;> simp_all [putRowValues]

@[simp] theorem vxReduce_stateKept (k : Core) (t : Nat) (i : TIns) : StateKept k (vxReduce k t i) := by simp [vxReduce]

@[simp] theorem vxMaxabs_stateKept (k : Core) (t : Nat) (i : TIns) : StateKept k (vxMaxabs k t i) := by simp [vxMaxabs]

@[simp] theorem normRow_stateKept (t : Nat) (i : TIns) (s : Core × Exc) (r : Nat) : StateKept s.1 (normRow t i s r).1 := by
  unfold normRow
  dsimp only
  exact putRow_stateKept ..

@[simp] theorem softmaxRow_stateKept (t : Nat) (i : TIns) (s : Core × Exc) (r : Nat) : StateKept s.1 (softmaxRow t i s r).1 := by
  exact putRow_stateKept _ _ _ _ _ _

@[simp] theorem whiskRow_stateKept (t : Nat) (i : TIns) (s : Core × Exc) (r : Nat) : StateKept s.1 (whiskRow t i s r).1 := by
  exact putRow_stateKept _ _ _ _ _ _

@[simp] theorem putBlock_stateKept (k : Core) (t a : Nat) (b : CBlock) (p : Bool) : StateKept k (putBlock k t a b p) := by simp [putBlock]

@[simp] theorem sampleRow_stateKept (t : Nat) (i : TIns) (s : Core × Exc) (r : Nat) : StateKept s.1 (sampleRow t i s r).1 := by
  unfold sampleRow
  dsimp only
  split
  · exact putBlock_stateKept ..
  · exact tmPutBytes_stateKept ..

@[simp] theorem vxRun_stateKept {f : Core → Core} (kept : ∀ k, StateKept k (f k)) (k : Core) (t : Nat) (i : TIns) : StateKept k (vxRun k t i f) :=
  unitRun_stateKept (fun k => by simp [kept]) ..

@[simp] theorem vxMap_stateKept (k : Core) (t : Nat) (i : TIns) : StateKept k (vxMap k t i) := by simp [vxMap]

@[simp] theorem winRow_stateKept (k : Core) (t : Nat) (w : WinRun) : StateKept k (winRow k t w) := by simp [winRow]

@[simp] theorem vePump_stateKept (k : Core) (t n : Nat) : StateKept k (vePump k t n) := by
  induction n generalizing k with
  | zero => simp [vePump]
  | succ n ih => simp only [vePump]; (repeat' split) <;> simp [ih]

@[simp] theorem veRun_stateKept (k : Core) (t : Nat) : StateKept k (veRun k t) := by simp [veRun]

@[simp] theorem vxWindow_stateKept (k : Core) (t : Nat) (i : TIns) : StateKept k (vxWindow k t i) :=
  unitRun_stateKept (fun k => by (repeat' split) <;> simp) ..

/-! ### Convolution instructions -/

@[simp] theorem cvSetup_stateKept (k : Core) (t : Nat) (i : TIns) : StateKept k (cvSetup k t i) := by simp [cvSetup]

@[simp] theorem cvFeed_stateKept (k : Core) (t : Nat) (i : TIns) : StateKept k (cvFeed k t i) :=
  unitRun_stateKept (fun k => by (repeat' split) <;> simp) ..

/-! ### Staging slots -/

@[simp] theorem freeSlot_stateKept (k : Core) (c s : Nat) : StateKept k (freeSlot k c s) := by simp only [freeSlot]; split <;> simp

@[simp] theorem noteStgReads_stateKept (k : Core) (die line n : Nat) : StateKept k (noteStgReads k die line n) := by
  unfold noteStgReads
  exact .foldl (fun k c => .foldl (fun k s => by split <;> simp) _ k) _ k

/-! ### Data Movers -/

@[simp] theorem prefetchLayers_stateKept (k : Core) (d lo hi : Nat) (l : List SchedEnt) : StateKept k (prefetchLayers k d lo hi l) := by
  unfold prefetchLayers
  exact .foldl (fun k e => by dsimp only; split <;> simp) _ k

@[simp] theorem noteOne_stateKept (k : Core) (d h : Nat) : StateKept k (noteOne k d h) := by simp only [noteOne]; (repeat' split) <;> simp

@[simp] theorem noteObjRead_stateKept (k : Core) (d h : Nat) : StateKept k (noteObjRead k d h) := by simp [noteObjRead]

@[simp] theorem takeLines_stateKept (k : Core) (w : Reader) (h l n : Nat) : StateKept k (takeLines k w h l n).1 :=
  stateKept_of_readFrame (takeLines_readFrame k w h l n)

@[simp] theorem readRows_stateKept (k : Core) (w : Reader) (h len : Nat) (ss : List Nat) : StateKept k (readRows k w h len ss).1 := by
  induction ss generalizing k with
  | nil => simp [readRows]
  | cons s r ih => simp [readRows, ih]

@[simp] theorem dmRead_stateKept (k : Core) (w : Reader) (i : TIns) : StateKept k (dmRead k w i).1 := by
  unfold dmRead
  dsimp only
  split
  · simp
  · exact .foldl (fun k s => by simp) _ k
  · simp

@[simp] theorem putPlaceRow_stateKept (k : Core) (p line : Nat) (l : List (Line × Bool)) : StateKept k (putPlaceRow k p line l) := by
  unfold putPlaceRow; split <;> simp

@[simp] theorem putRows_stateKept (k : Core) (p : Nat) (e : Ext) (rows : List (List (Line × Bool))) : StateKept k (putRows k p e rows) := by
  simp [putRows]

@[simp] theorem portStall_stateKept (k : Core) (q : Nat) : StateKept k (portStall k q) := by simp [portStall]

@[simp] theorem sendRows_stateKept (k : Core) (c tag : Nat) (e : Ext) (rows : List (List (Line × Bool))) : StateKept k (sendRows k c tag e rows) := by
  simp only [sendRows]; split <;> simp

@[simp] theorem remoteSignal_stateKept (k : Core) (t u c n widx : Nat) (sender : Option Nat) : StateKept k (remoteSignal k t u c n widx sender) := by
  simp [remoteSignal]

@[simp] theorem dmRetire_stateKept (k : Core) (t : Nat) (i : TIns) : StateKept k (dmRetire k t i) := by simp [dmRetire]

@[simp] theorem dmSend_stateKept (k : Core) (t : Nat) (i : TIns) (rows : List (List (Line × Bool))) : StateKept k (dmSend k t i rows) := by
  simp [dmSend]

@[simp] theorem dmWaits_stateKept (k : Core) (t : Nat) (i : TIns) : StateKept k (dmWaits k t i) := by simp [dmWaits]

@[simp] theorem dmFree_stateKept (k : Core) (t : Nat) : StateKept k (dmFree k t) := by simp [dmFree]

@[simp] theorem dmHold_stateKept (k : Core) (t : Nat) (i : TIns) : StateKept k (dmHold k t i) := by simp [dmHold]

theorem openRows_stateKept (k : Core) (w : Reader) (d h len : Nat) (ss : List Nat) : wayKept k (openRows k w d h len ss) := by
  induction ss generalizing k with
  | nil => simp [openRows]
  | cons s r ih =>
    have both := wayKept_of_readFrame (openBoth_readFrame k w d h s len)
    simp only [openRows]
    split
    · rename_i k1 opened
      rw [opened] at both
      have held := stateKept_of_readFrame (holdRead_readFrame k1 w h s len)
      split
      · simp_all
      · rename_i k2 goes
        have rest := ih k2
        generalize openRows k2 w d h len r = way at rest ⊢
        cases way <;> simp_all
    · exact both

theorem openWrite_stateKept (k : Core) (w : Reader) (d h : Nat) (ls : List Nat) : wayKept k (openWrite k w d h ls) := by
  unfold openWrite
  dsimp only
  (repeat' split) <;> simp

theorem dmOpenSrc_stateKept (k : Core) (w : Reader) (t : Nat) (i : TIns) : wayKept k (dmOpenSrc k w t i) := by
  unfold dmOpenSrc
  split
  · have rows := openRows_stateKept (noteObjRead k (domOfTile k t) (plIndex i.a.toNat % 2 ^ 24)) w (domOfTile k t) (plIndex i.a.toNat % 2 ^ 24)
      i.srcExt.len i.srcExt.starts
    dsimp only
    generalize openRows _ _ _ _ _ _ = way at rows ⊢
    cases way <;> simp_all
  · simp

theorem dmOpenDest_stateKept (k : Core) (w : Reader) (t : Nat) (i : TIns) : wayKept k (dmOpenDest k w t i) := by
  unfold dmOpenDest
  dsimp only
  split
  · exact openWrite_stateKept ..
  · split
    · simp only [wayKept]; split <;> simp
    · simp
  · simp

@[simp] theorem dmMove_stateKept (k : Core) (t : Nat) (j : TIns) : StateKept k (dmMove k t j) := by
  have src := dmOpenSrc_stateKept k { tile := some t } t j
  unfold dmMove
  dsimp only
  split
  · simp
  · simp_all
  · rename_i k1 opened
    have dest := dmOpenDest_stateKept k1 { tile := some t } t j
    rw [opened] at src
    split
    · simp_all
    · simp_all
    · rename_i k2 opened2
      rw [opened2] at dest
      (repeat' split) <;> simp_all

@[simp] theorem dmStart_stateKept (k : Core) (t : Nat) (i : TIns) : StateKept k (dmStart k t i) := by
  unfold dmStart
  split
  · split <;> simp
  · exact unitRun_stateKept (fun k => by dsimp only; split <;> simp) ..

/-! ### Attention -/

@[simp] theorem notePlace_stateKept (k : Core) (p l n : Nat) : StateKept k (notePlace k p l n) := by simp [notePlace]

@[simp] theorem putState_stateKept (k : Core) (t a : Nat) (s : RowSt) : StateKept k (putState k t a s) := by simp [putState]

@[simp] theorem putFinal_stateKept (k : Core) (t a f : Nat) (s : RowSt) (c : Exc) : StateKept k (putFinal k t a f s c).1 := by
  exact putRow_stateKept _ _ _ _ _ _

@[simp] theorem putAtRow_stateKept (k : Core) (t a f : Nat) (fin : Bool) (s : RowSt) (c : Exc) : StateKept k (putAtRow k t a f fin s c).1 := by
  unfold putAtRow; split <;> simp

@[simp] theorem seqFault_stateKept (k : Core) (t : Nat) (i : TIns) (s b code : Nat) (mismatch : Bool) :
    StateKept k (seqFault k t i s b code mismatch) := by
  simp [seqFault]

@[simp] theorem zeroRows_stateKept (k : Core) (t : Nat) (i : TIns) (e : LtEnt) (base l : Nat) : StateKept k (zeroRows k t i e base l) := by
  simp [zeroRows]

@[simp] theorem runRow_stateKept (t : Nat) (i : TIns) (e : LtEnt) (src : KvSrc) (ms : MSet) (base : Nat) (x : Core × Exc) (r : Nat) :
    StateKept x.1 (runRow t i e src ms base x r).1 := by
  exact putAtRow_stateKept _ _ _ _ _ _ _

@[simp] theorem countWalk_stateKept (k : Core) (t : Nat) (i : TIns) (src : KvSrc) (ms : MSet) (w : List (Nat × Bool)) :
    StateKept k (countWalk k t i src ms w) := by
  unfold countWalk; split <;> simp

theorem runEntry_kept (t : Nat) (i : TIns) (k : Core) (base : Nat) (c : Exc) (n : Nat) : atResKept k (runEntry t i k base c n) := by
  have placed : StateKept k (if n % 2 = 0 then notePlace k (i.fx 31 0) (i.fx 63 32 + n / 2) 1 else k) := by split <;> simp
  have rows (e : LtEnt) (src : KvSrc) (ms : MSet) (l : List Nat) (x : Core × Exc) : StateKept x.1 (l.foldl (runRow t i e src ms base) x).1 :=
    foldl_stateKept_of Prod.fst (fun x r => runRow_stateKept ..) l x
  unfold runEntry
  dsimp only
  generalize (if n % 2 = 0 then notePlace k (i.fx 31 0) (i.fx 63 32 + n / 2) 1 else k) = m at placed ⊢
  (repeat' split) <;> simp_all

@[simp] theorem atHold_stateKept (k : Core) (t : Nat) (i : TIns) : StateKept k (atHold k t i) := by simp [atHold]

@[simp] theorem atWaits_stateKept (k : Core) (t : Nat) : StateKept k (atWaits k t) := by simp [atWaits]

theorem atEntries_kept {f : Core → Nat → Exc → Nat → AtRes} (kept : ∀ k b c n, atResKept k (f k b c n)) (k : Core) (base : Nat) (c : Exc)
    (n m : Nat) :
    atResKept k (atEntries f k base c n m) := by
  induction m generalizing k base c n with
  | zero => simp [atEntries]
  | succ m ih =>
    have first := kept k base c n
    simp only [atEntries]
    split
    · rename_i k1 b1 c1 went
      have rest := ih k1 b1 c1 (n + 1)
      rw [went] at first
      generalize atEntries f k1 b1 c1 (n + 1) m = r at rest ⊢
      cases r <;> simp_all
    · exact first

theorem atGo_stateKept {f : TIns → Core → Nat → Exc → Nat → AtRes} (kept : ∀ i k b c n, atResKept k (f i k b c n)) (k : Core) (t : Nat) (i : TIns) :
    StateKept k (atGo k t i f) := by
  have went := atEntries_kept (kept i) k 0 {} 0 (i.fc 13 0)
  unfold atGo
  split <;> simp_all

theorem atTable_stateKept {f : TIns → Core → Nat → Exc → Nat → AtRes} (kept : ∀ i k b c n, atResKept k (f i k b c n)) (k : Core) (t : Nat)
    (i : TIns) :
    StateKept k (atTable k t i f) := by
  unfold atTable
  split
  · split
    · exact atGo_stateKept kept ..
    · simp
  · refine unitRun_stateKept (fun k => ?_) ..
    dsimp only
    split
    · simp
    · exact atGo_stateKept kept ..

@[simp] theorem atRun_stateKept (k : Core) (t : Nat) (i : TIns) : StateKept k (atRun k t i) := atTable_stateKept (runEntry_kept t) k t i

@[simp] theorem mirrorPage_stateKept (k : Core) (s page off : Nat) (ls : List (Line × Bool)) : StateKept k (mirrorPage k s page off ls) := by
  simp [mirrorPage]

@[simp] theorem putToken_stateKept (k : Core) (t : Nat) (i : TIns) (ms : MSet) (s h page pl pos r : Nat) (bad : Bool) :
    StateKept k (putToken k t i ms s h page pl pos r bad) := by
  simp [putToken]

theorem putEntryRows_kept (t : Nat) (i : TIns) (k : Core) (base : Nat) (c : Exc) (n : Nat) : atResKept k (putEntryRows t i k base c n) := by
  have placed : StateKept k (if n % 2 = 0 then notePlace k (i.fx 31 0) (i.fx 63 32 + n / 2) 1 else k) := by split <;> simp
  unfold putEntryRows
  dsimp only
  generalize (if n % 2 = 0 then notePlace k (i.fx 31 0) (i.fx 63 32 + n / 2) 1 else k) = m at placed ⊢
  have put (g : Core → Nat → Core) (kept : ∀ k x, StateKept k (g k x)) (l : List Nat) (k : Core) : StateKept k (l.foldl g k) := .foldl kept l k
  (repeat' split) <;> simp_all

@[simp] theorem atKvput_stateKept (k : Core) (t : Nat) (i : TIns) : StateKept k (atKvput k t i) := atTable_stateKept (putEntryRows_kept t) k t i

@[simp] theorem atMerge_stateKept (k : Core) (t : Nat) (i : TIns) : StateKept k (atMerge k t i) := by
  refine unitRun_stateKept (fun k => ?_) ..
  have rows := foldl_stateKept_of Prod.fst (f := fun (x : Core × Exc) r =>
    let ss := (upFrom 0 (i.fc 22 16)).map (fun j =>
      readState x.1 t (i.fa 14 0 + j * i.fx 15 0 + r * stateLines (64 * 2 ^ i.fa 23 22)) (64 * 2 ^ i.fa 23 22))
    let (s, c1) := mergeStates (64 * 2 ^ i.fa 23 22) ss x.2
    let (k1, c2) := putAtRow x.1 t (i.fb 14 0 + r * atPitch i (64 * 2 ^ i.fa 23 22)) (i.fa 20 18) i.fin s c1
    (k1, x.2.upTo s.pois c2)) (fun x r => putAtRow_stateKept ..) (upFrom 0 (i.fc 11 0)) (k, {})
  simp_all

/-! ### Tile Sequencers and hitches -/

@[simp] theorem enqueue_stateKept (k : Core) (t u : Nat) (i : TIns) : StateKept k (enqueue k t u i) := by simp [enqueue]

theorem tsDispatch_stateKept {k m : Core} {t : Nat} (run : tsDispatch k t = some m) : StateKept k m := by
  unfold tsDispatch at run
  dsimp only at run
  (repeat' split at run) <;> simp at run <;> subst m <;> simp

@[simp] theorem tsLoop_stateKept (t : Nat) (k : Core) (n : Nat) : StateKept k (tsLoop t k n) := by
  induction n generalizing k with
  | zero => simp [tsLoop]
  | succ n ih =>
    simp only [tsLoop]
    split
    · simp
    · have opened : StateKept k (if (tile k t).fenced then modTile k t (fun q => { q with fenced := false }) else k) := by split <;> simp
      generalize (if (tile k t).fenced then modTile k t (fun q => { q with fenced := false }) else k) = m at opened ⊢
      split
      · exact opened
      · rename_i n run
        have := tsDispatch_stateKept run
        split <;> simp_all

@[simp] theorem tsRun_stateKept (k : Core) (t : Nat) : StateKept k (tsRun k t) := by simp [tsRun]

@[simp] theorem onTile_stateKept {f : Core → Core} (kept : ∀ k, StateKept k (f k)) (k : Core) (t : Nat) : StateKept k (onTile k t f) := by
  simp [onTile, kept k]

@[simp] theorem programFetchReturn_stateKept (k : Core) (t : Nat) : StateKept k (programFetchReturn k t) := by simp [programFetchReturn]

@[simp] theorem setTsReg_stateKept (k : Core) (t n : Nat) (v : W32) : StateKept k (setTsReg k t n v) := by simp [setTsReg]

@[simp] theorem setPc_stateKept (k : Core) (t n : Nat) : StateKept k (setPc k t n) := by simp [setPc]

@[simp] theorem tsExec_stateKept {f : Core → Core} (kept : ∀ k, StateKept k (f k)) (k : Core) (t : Nat) (i : TIns) :
    StateKept k (tsExec k t i f) := by
  unfold tsExec
  split <;> simp [kept]

@[simp] theorem tsetEffect_stateKept (t : Nat) (i : TIns) (k : Core) : StateKept k (tsetEffect t i k) := by simp [tsetEffect]

@[simp] theorem taddEffect_stateKept (t : Nat) (i : TIns) (k : Core) : StateKept k (taddEffect t i k) := by simp [taddEffect]

@[simp] theorem tloadEffect_stateKept (t : Nat) (i : TIns) (k : Core) : StateKept k (tloadEffect t i k) := by simp [tloadEffect]

@[simp] theorem jumpEffect_stateKept (t : Nat) (i : TIns) (k : Core) : StateKept k (jumpEffect t i k) := by simp [jumpEffect]

@[simp] theorem branchEffect_stateKept (t : Nat) (i : TIns) (k : Core) : StateKept k (branchEffect t i k) := by simp [branchEffect]

@[simp] theorem loopEffect_stateKept (t : Nat) (i : TIns) (k : Core) : StateKept k (loopEffect t i k) := by simp [loopEffect]

@[simp] theorem endEffect_stateKept (t : Nat) (i : TIns) (k : Core) : StateKept k (endEffect t i k) := by simp [endEffect]

@[simp] theorem hxEnd_stateKept (k : Core) (t : Nat) (i : TIns) : StateKept k (hxEnd k t i) := by simp [hxEnd]

@[simp] theorem tsEffect_stateKept (t : Nat) (i : TIns) (k : Core) : StateKept k (tsEffect t i k) := by unfold tsEffect; split <;> simp

@[simp] theorem hxSet_stateKept (k : Core) (t : Nat) (i : TIns) : StateKept k (hxSet k t i) := by simp [hxSet]

@[simp] theorem hxAdd_stateKept (k : Core) (t : Nat) (i : TIns) : StateKept k (hxAdd k t i) :=
  onTile_stateKept (fun k => unitRun_stateKept (fun k => by dsimp only; (repeat' split) <;> simp) ..) ..

@[simp] theorem heldAdd_stateKept (k : Core) (t c n : Nat) : StateKept k (heldAdd k t c n) := by simp [heldAdd]

@[simp] theorem earlyAdd_stateKept (k : Core) (t c n : Nat) : StateKept k (earlyAdd k t c n) := by simp [earlyAdd]

@[simp] theorem remoteIncrementArrive_stateKept (k : Core) (t c n : Nat) : StateKept k (remoteIncrementArrive k t c n) := by
  unfold remoteIncrementArrive
  dsimp only
  split
  · simp
  · rename_i x _
    have added : StateKept k (if (tile k t).phase = 1 then earlyAdd { k with incs := k.incs.erase x } t c n
        else hitchAdd { k with incs := k.incs.erase x } t c n (x.src, x.widx)) := by split <;> simp
    generalize (if (tile k t).phase = 1 then earlyAdd { k with incs := k.incs.erase x } t c n
        else hitchAdd { k with incs := k.incs.erase x } t c n (x.src, x.widx)) = m at added ⊢
    (repeat' split) <;> simp_all

@[simp] theorem startTile_stateKept (k : Core) (t : Nat) : StateKept k (startTile k t) := by simp only [startTile]; split <;> simp

@[simp] theorem releaseTile_stateKept (k : Core) (x : Nat × Bool) : StateKept k (releaseTile k x) := by
  simp only [releaseTile]; (repeat' split) <;> simp

@[simp] theorem releaseGroup_stateKept (k : Core) (d : Nat) : StateKept k (releaseGroup k d) := by simp [releaseGroup]

@[simp] theorem addGates_stateKept (k : Core) (d : Nat) (l : List (Nat × Bool)) : StateKept k (addGates k d l) := by simp [addGates]

@[simp] theorem hxBarrier_stateKept (k : Core) (t : Nat) (i : TIns) : StateKept k (hxBarrier k t i) :=
  unitRun_stateKept (fun k => by dsimp only; (repeat' split) <;> simp) ..

end Sys2Proof.Proofs.HaltedStays
end

section
/-! PROOFS. HALTED (R60). Model sets, power, mirroring and the fabric keep the device state and whether an exit is under way; a fatal fault does in
HALTED. -/

namespace Sys2Proof.Proofs.HaltedStays
open Sys2Proof.Machine Sys2Proof.Laws Sys2Proof.Proofs.Reads Sys2Proof.Proofs.ReadFrames

/-! ### Measurement registers -/

@[simp] theorem extendMreg_stateKept (k : Core) (i : Nat) (d : List Byte) : StateKept k (extendMreg k i d) := by simp [extendMreg]

@[simp] theorem zeroMreg_stateKept (k : Core) (i : Nat) : StateKept k (zeroMreg k i) := by simp [zeroMreg]

/-! ### Model sets -/

@[simp] theorem loadFail_stateKept (k : Core) (m reason arg bitPos : Nat) : StateKept k (loadFail k m reason arg bitPos) := by
  unfold loadFail; split <;> simp

@[simp] theorem loadReady_stateKept (k : Core) (m : Nat) : StateKept k (loadReady k m) := by simp only [loadReady]; (repeat' split) <;> simp

@[simp] theorem loadProgram_stateKept (k : Core) (m : Nat) (ls : List (Line × Bool)) : StateKept k (loadProgram k m ls) := by
  simp only [loadProgram]; (repeat' split) <;> simp

@[simp] theorem loadManifest_stateKept (k : Core) (m h : Nat) : StateKept k (loadManifest k m h) := by
  simp only [loadManifest]; (repeat' split) <;> simp

@[simp] theorem loadRest_stateKept (k : Core) (m : Nat) : StateKept k (loadRest k m) := by
  unfold loadRest
  dsimp only
  have read := fetchedKept_of_readFrame (readObj_readFrame k (loadReader k m) (mset' k m).dom (mset' k m).prog (mset' k m).pline
    (16 + cdiv (mset' k m).pwords 4))
  (repeat' split) <;> simp_all

@[simp] theorem loadGoOn_stateKept (k : Core) (m : Nat) : StateKept k (loadGoOn k m) := by unfold loadGoOn; split <;> simp

@[simp] theorem loadsGoOn_stateKept (k : Core) : StateKept k (loadsGoOn k) := by simp [loadsGoOn]

/-! ### Power -/

@[simp] theorem sendReport_stateKept (k : Core) (mw : Nat) : StateKept k (sendReport k mw) := by unfold sendReport; split <;> simp

@[simp] theorem powerChange_stateKept {f : Core → Core} (kept : ∀ k, StateKept k (f k)) (k : Core) : StateKept k (powerChange k f) := by
  simp [powerChange, kept k]

@[simp] theorem takeGrant_stateKept (k : Core) (b : List Byte) (src : Option Nat) : StateKept k (takeGrant k b src) := by simp [takeGrant]

@[simp] theorem leaseExpiry_stateKept (k : Core) : StateKept k (leaseExpiry k) := by unfold leaseExpiry; split <;> simp

@[simp] theorem reportPeriod_stateKept (k : Core) (mw : Nat) : StateKept k (reportPeriod k mw) := by unfold reportPeriod; split <;> simp

@[simp] theorem thermDemand_stateKept (k : Core) (on : Bool) : StateKept k (thermDemand k on) := by simp [thermDemand]

@[simp] theorem windowRatio_stateKept (k : Core) (e m : Nat) : StateKept k (windowRatio k e m).2 := by
  unfold windowRatio; split <;> [split; skip] <;> simp

@[simp] theorem estimatorWindow_stateKept (k : Core) (e m : Nat) : StateKept k (estimatorWindow k e m) := by simp [estimatorWindow]

@[simp] theorem thermalLaw_stateKept (k : Core) (c : Nat) : StateKept k (thermalLaw k c) := by simp [thermalLaw]

/-! ### Lost objects -/

@[simp] theorem lostFor_stateKept (k : Core) (h reason : Nat) : StateKept k (lostFor k h reason) := by
  unfold lostFor
  dsimp only
  split
  · simp
  · simp

@[simp] theorem markLost_stateKept (k : Core) (h : Nat) : StateKept k (markLost k h) := by simp [markLost]

/-! ### Fatal faults -/

@[simp] theorem floodDown_stateKept (k : Core) (but : Option Nat) (body : List Byte) : StateKept k (floodDown k but body) := by simp [floodDown]

@[simp] theorem failStop_halted {k : Core} (halted : k.glb.st = .halted) (reason source inst arg : Nat) :
    StateKept k (failStop k reason source inst arg) := by
  simp [failStop, halted]

theorem stepWatchdog_halted {k : Core} (halted : k.glb.st = .halted) (d : Nat) : StateKept k (stepWatchdog k d) := by
  unfold stepWatchdog
  split
  · exact failStop_halted halted ..
  · simp

/-! ### Maintenance work -/

@[simp] theorem hwBegin_stateKept (k : Core) (kind inst : Nat) : StateKept k (hwBegin k kind inst) := by
  obtain ⟨m, made⟩ := StackReach.hwBegin_maint k kind inst
  simp [made]

/-! ### Mirroring -/

@[simp] theorem endJoin_stateKept (k : Core) (reason arg : Nat) : StateKept k (endJoin k reason arg) := by unfold endJoin; split <;> simp

@[simp] theorem joinDone_stateKept (k : Core) : StateKept k (joinDone k) := by simp [joinDone]

@[simp] theorem dropStandby_stateKept (k : Core) (s : Nat) : StateKept k (dropStandby k s) := by simp [dropStandby]

@[simp] theorem dropTokens_stateKept (k : Core) (s : Nat) : StateKept k (dropTokens k s) := by simp [dropTokens]

theorem applySeq_stateKept {k m : Core} {f : Frame} (run : applySeq k f = some m) : StateKept k m := by
  unfold applySeq at run
  dsimp only at run
  (repeat' split at run) <;> simp at run <;> subst m <;> simp

theorem applyAcct_stateKept {k m : Core} {f : Frame} (run : applyAcct k f = some m) : StateKept k m := by
  unfold applyAcct at run
  dsimp only at run
  (repeat' split at run) <;> simp at run <;> subst m <;> simp

theorem applyMap_stateKept {k m : Core} {f : Frame} (run : applyMap k f = some m) : StateKept k m := by
  unfold applyMap at run
  dsimp only at run
  split at run
  · simp at run
  · simp only [Option.some.injEq] at run
    subst m
    exact .foldl (fun k i => by split <;> simp) _ k

theorem applyPage_stateKept {k m : Core} {f : Frame} (run : applyPage k f = some m) : StateKept k m := by
  unfold applyPage at run
  dsimp only at run
  (repeat' split at run) <;> simp at run <;> subst m <;> simp

theorem applyMirror_stateKept {k m : Core} {f : Frame} (run : applyMirror k f = some m) : StateKept k m := by
  unfold applyMirror at run
  dsimp only at run
  (repeat' split at run)
  · exact applySeq_stateKept run
  · exact applyAcct_stateKept run
  · exact applyMap_stateKept run
  · exact applyPage_stateKept run
  all_goals simp at run
  all_goals subst m
  all_goals simp

@[simp] theorem writeReady_stateKept (k : Core) : StateKept k (writeReady k) := by simp [writeReady]

@[simp] theorem freeImages_stateKept (k : Core) : StateKept k (freeImages k) := by simp [freeImages]

@[simp] theorem endPairing_stateKept (k : Core) : StateKept k (endPairing k) := by simp [endPairing]

@[simp] theorem diverge_stateKept (k : Core) (arg : Nat) : StateKept k (diverge k arg) := by simp [diverge]

@[simp] theorem deliverHeld_stateKept (k : Core) (r : Nat × List Byte) : StateKept k (deliverHeld k r) := by simp only [deliverHeld]; split <;> simp

@[simp] theorem takeover_stateKept (k : Core) : StateKept k (takeover k) := by simp [takeover]

@[simp] theorem applyEarly_stateKept (k : Core) (n : Nat) : StateKept k (applyEarly k n) := by
  induction n generalizing k with
  | zero => simp [applyEarly]
  | succ n ih =>
    simp only [applyEarly]
    (repeat' split)
    · simp
    · simp
    · rename_i m run
      have := applyMirror_stateKept run
      simp_all

@[simp] theorem takeMirror_stateKept (k : Core) (p : Nat) (f : Frame) : StateKept k (takeMirror k p f) := by simp [takeMirror]

@[simp] theorem takeMirrorAck_stateKept (k : Core) (f : Frame) : StateKept k (takeMirrorAck k f) := by
  simp only [takeMirrorAck]; (repeat' split) <;> simp

/-! ### The fabric -/

@[simp] theorem sendCtl_stateKept (k : Core) (n s sub : Nat) (off : Nat) (lines : List Line) : StateKept k (sendCtl k n s sub off lines) := by
  simp [sendCtl]

@[simp] theorem endSession_stateKept (k : Core) (s : Nat) (v : Session) (reason arg : Nat) (payload : List Byte) :
    StateKept k (endSession k s v reason arg payload) := by
  simp only [endSession]; split <;> simp

@[simp] theorem recvFails_stateKept (k : Core) (s : Nat) (v : Session) (reason arg : Nat) : StateKept k (recvFails k s v reason arg) := by
  simp [recvFails]

@[simp] theorem recvDone_stateKept (k : Core) (s : Nat) (v : Session) : StateKept k (recvDone k s v) := by simp [recvDone]

@[simp] theorem readerCheck_stateKept (k : Core) (s : Nat) : StateKept k (readerCheck k s) := by unfold readerCheck; split <;> simp

@[simp] theorem sendShard_stateKept (k : Core) (s : Nat) (v : Session) (dest i : Nat) (ls : List (Line × Bool)) :
    StateKept k (sendShard k s v dest i ls) := by
  simp [sendShard]

@[simp] theorem bcastGo_stateKept (k : Core) (s n : Nat) : StateKept k (bcastGo k s n) := by
  induction n generalizing k with
  | zero => simp [bcastGo]
  | succ n ih =>
    simp only [bcastGo]
    split
    · simp
    next v _ =>
      split
      · simp
      · split
        · simp [ih]
        next h _ =>
          have opened := wayKept_of_readFrame (openAt_readFrame k v.reads 4 h.handle (upFrom h.first h.lines) (64 * h.first) (64 * h.lines))
          split <;> simp_all

@[simp] theorem bcastStart_stateKept (k : Core) (s : Nat) (v : Session) : StateKept k (bcastStart k s v) := by simp [bcastStart]

@[simp] theorem takeJoin_stateKept (k : Core) (f : Frame) : StateKept k (takeJoin k f) := by simp only [takeJoin]; split <;> simp

@[simp] theorem askAgain_stateKept (k : Core) (s : Nat) (v : Session) (n : Nat) (is : List Nat) : StateKept k (askAgain k s v n is) := by
  unfold askAgain; split <;> simp

@[simp] theorem takeBitmap_stateKept (k : Core) (f : Frame) : StateKept k (takeBitmap k f) := by simp only [takeBitmap]; split <;> simp

@[simp] theorem takeDone_stateKept (k : Core) (f : Frame) : StateKept k (takeDone k f) := by simp only [takeDone]; (repeat' split) <;> simp

@[simp] theorem sendBitmap_stateKept (k : Core) (s : Nat) (v : Session) : StateKept k (sendBitmap k s v) := by simp only [sendBitmap]; split <;> simp

@[simp] theorem takeEnd_stateKept (k : Core) (f : Frame) : StateKept k (takeEnd k f) := by simp only [takeEnd]; split <;> simp

@[simp] theorem putShard_stateKept (k : Core) (h : Shard) (f : Frame) : StateKept k (putShard k h f) := by simp [putShard]

@[simp] theorem shardEnd_stateKept (k : Core) (s i : Nat) (v : Session) (h : Shard) (uni : Bool) : StateKept k (shardEnd k s i v h uni) := by
  simp [shardEnd]

@[simp] theorem takeShard_stateKept (k : Core) (f : Frame) (uni : Bool) : StateKept k (takeShard k f uni) := by
  simp only [takeShard]; (repeat' split) <;> simp

@[simp] theorem forwardBcast_stateKept (k : Core) (p : Nat) (f : Frame) : StateKept k (forwardBcast k p f) := by unfold forwardBcast; split <;> simp

@[simp] theorem failPeers_stateKept (k : Core) (n : Nat) : StateKept k (failPeers k n) := by
  unfold failPeers
  exact .foldl (fun k t => by (repeat' split) <;> simp) _ k

@[simp] theorem failSessions_stateKept (k : Core) (n : Nat) : StateKept k (failSessions k n) := by
  unfold failSessions
  exact .foldl (fun k e => by (repeat' split) <;> simp) _ k

@[simp] theorem nodeLost_stateKept (k : Core) (n : Nat) : StateKept k (nodeLost k n) := by simp [nodeLost]

@[simp] theorem putData_stateKept (k : Core) (ch : Chan) (f : Frame) : StateKept k (putData k ch f) := by simp [putData]

@[simp] theorem signalArrival_stateKept (k : Core) (ch : Chan) : StateKept k (signalArrival k ch) := by simp [signalArrival]

@[simp] theorem takeData_stateKept (k : Core) (f : Frame) : StateKept k (takeData k f) := by simp [takeData]

@[simp] theorem takeAck_stateKept (k : Core) (f : Frame) : StateKept k (takeAck k f) := by
  unfold takeAck
  (repeat' split) <;> simp

@[simp] theorem takeNack_stateKept (k : Core) (f : Frame) : StateKept k (takeNack k f) := by simp only [takeNack]; (repeat' split) <;> simp

@[simp] theorem takeCredit_stateKept (k : Core) (f : Frame) : StateKept k (takeCredit k f) := by unfold takeCredit; split <;> simp

@[simp] theorem seenInc_stateKept (k : Core) (n : Nat) (inc : W32) : StateKept k (seenInc k n inc) := by simp [seenInc]

@[simp] theorem takePing_stateKept (k : Core) (f : Frame) : StateKept k (takePing k f) := by simp [takePing]

@[simp] theorem takePong_stateKept (k : Core) (f : Frame) : StateKept k (takePong k f) := by simp [takePong]

@[simp] theorem takeDown_stateKept (k : Core) (p : Nat) (f : Frame) : StateKept k (takeDown k p f) := by simp [takeDown]

@[simp] theorem serveFrame_stateKept (k : Core) (p : Nat) (f : Frame) : StateKept k (serveFrame k p f) := by simp [serveFrame]

@[simp] theorem forwardFrame_stateKept (k : Core) (f : Frame) : StateKept k (forwardFrame k f) := by simp [forwardFrame]

@[simp] theorem frameIn_stateKept (k : Core) (p : Nat) (f : Frame) : StateKept k (frameIn k p f) := by simp [frameIn]

@[simp] theorem frameHeld_stateKept (k : Core) (p : Nat) (f : Frame) : StateKept k (frameHeld k p f) := by
  unfold frameHeld
  dsimp only
  (repeat' split) <;> simp

@[simp] theorem arrive_stateKept (ok : Bool) (k : Core) (p : Nat) (f : Frame) : StateKept k (arrive ok k p f) := by
  unfold arrive
  (repeat' split) <;> simp

@[simp] theorem closeChan_stateKept (k : Core) (c : Nat) : StateKept k (closeChan k c) := by simp [closeChan]

end Sys2Proof.Proofs.HaltedStays
end

section
/-! PROOFS. HALTED (R60). The stacks, the flash, the debug port, the pins, a partition reset, the aperture and the feed ports keep the device state
and whether an exit is under way, some of them in HALTED alone. -/

namespace Sys2Proof.Proofs.HaltedStays
open Sys2Proof.Machine Sys2Proof.Laws Sys2Proof.Proofs.Reads Sys2Proof.Proofs.ReadFrames

/-! ### Device-memory stacks -/

@[simp] theorem modPc_stateKept (k : Core) (s c : Nat) (f : Pc → Pc) : StateKept k (modPc k s c f) := by simp [modPc]

@[simp] theorem startMigration_stateKept (k : Core) (s sl : Nat) : StateKept k (startMigration k s sl) := by simp [startMigration]

@[simp] theorem retireSlice_stateKept (k : Core) (s sl : Nat) : StateKept k (retireSlice k s sl) := by simp [retireSlice]

@[simp] theorem nextTraining_stateKept (k : Core) (s : Nat) : StateKept k (nextTraining k s) := by
  unfold nextTraining
  dsimp only
  (repeat' split) <;> simp

@[simp] theorem migrationComplete_stateKept (k : Core) (s : Nat) : StateKept k (migrationComplete k s) := by
  simp only [migrationComplete]; (repeat' split) <;> simp

@[simp] theorem stackCorrected_stateKept (k : Core) (s : Nat) : StateKept k (stackCorrected k s) := by simp [stackCorrected]

@[simp] theorem ceLimit_stateKept (k : Core) (s sl : Nat) : StateKept k (ceLimit k s sl) := by simp [ceLimit]

@[simp] theorem correctedLine_stateKept (k : Core) (s a : Nat) : StateKept k (correctedLine k s a) := by simp [correctedLine]

@[simp] theorem damagedLine_stateKept (k : Core) (h l : Nat) : StateKept k (damagedLine k h l) := by simp [damagedLine]

@[simp] theorem uncorrectableLine_halted {k : Core} (halted : k.glb.st = .halted) (s a : Nat) : StateKept k (uncorrectableLine k s a) := by
  unfold uncorrectableLine
  dsimp only
  split
  · simp [halted]
  · (repeat' split) <;> simp [halted]

@[simp] theorem miscorrect_stateKept (k : Core) (s a : Nat) : StateKept k (miscorrect k s a) := by simp [miscorrect]

@[simp] theorem decodeLine_halted {k : Core} (halted : k.glb.st = .halted) (s a n : Nat) : StateKept k (decodeLine k s a n) := by
  unfold decodeLine
  simp only [drawBool]
  (repeat' split) <;> simp [halted]

@[simp] theorem lfsrOf_stateKept (k : Core) (s c : Nat) : StateKept k (lfsrOf k s c).2 := by
  unfold lfsrOf; split <;> simp

@[simp] theorem activate_stateKept (k : Core) (s c b r : Nat) : StateKept k (activate k s c b r) := by simp [activate]

@[simp] theorem neighbourRefresh_stateKept (k : Core) (s c : Nat) : StateKept k (neighbourRefresh k s c) := by unfold neighbourRefresh; split <;> simp

@[simp] theorem refresh_stateKept (k : Core) (s c : Nat) : StateKept k (refresh k s c) := by simp [refresh]

@[simp] theorem openFrame_stateKept (k : Core) (s : Nat) (p : Place) : StateKept k (openFrame k s p) := by simp [openFrame]

@[simp] theorem dramLine_stateKept (k : Core) (s a : Nat) : StateKept k (dramLine k s a).2 := by
  unfold dramLine; split <;> simp

@[simp] theorem transfer_stateKept (k : Core) (s : Nat) (r : DramReq) (p : Place) : StateKept k (transfer k s r p).2 := by
  simp [transfer]

@[simp] theorem parityRetry_stateKept (k : Core) (s : Nat) (e : ReadErrors) : StateKept k (parityRetry k s e) := by simp [parityRetry]

@[simp] theorem serve_halted {k : Core} (halted : k.glb.st = .halted) (s c : Nat) (r : DramReq) (e : ReadErrors) : StateKept k (serve k s c r e) := by
  unfold serve
  dsimp only
  (repeat' split) <;> simp [halted]

@[simp] theorem pcCommand_halted {k : Core} (halted : k.glb.st = .halted) (s c : Nat) (y : DramCycle) : StateKept k (pcCommand k s c y) := by
  unfold pcCommand
  dsimp only
  (repeat' split) <;> simp [halted]

@[simp] theorem fillSlots_stateKept (k : Core) (s : Nat) : StateKept k (fillSlots k s) := by simp [fillSlots]

@[simp] theorem takeRequests_stateKept (k : Core) (s dclks : Nat) (l : List DramReq) : StateKept k (takeRequests k s dclks l) := by
  simp [takeRequests]

@[simp] theorem countWaits_stateKept (k : Core) (s dclks : Nat) : StateKept k (countWaits k s dclks) := by
  simp only [countWaits]; (repeat' split) <;> simp

theorem dramRequest_halted {k : Core} (halted : k.glb.st = .halted) (s : Nat) (l : List DramReq) (c : Nat) (y : DramCycle) :
    StateKept k (dramRequest k s l c y) := by
  unfold dramRequest
  dsimp only
  split <;> simp [halted]

theorem migrationFrame_halted {k : Core} (halted : k.glb.st = .halted) (s : Nat) (errs : List Nat) : StateKept k (migrationFrame k s errs) := by
  have decoded (a : Nat) (l : List (Nat × Nat)) {k : Core} (halted : k.glb.st = .halted) :
      StateKept k (l.foldl (fun k e => if (stk k s).frozen then k else decodeLine k s (a + 64 * e.2) e.1) k) :=
    foldl_halted (fun k e halted => by split <;> simp [halted]) l halted
  unfold migrationFrame
  dsimp only
  (repeat' split) <;> simp [decoded, halted]

@[simp] theorem refreshDue_stateKept (k : Core) (s c : Nat) : StateKept k (refreshDue k s c) := by simp [refreshDue]

@[simp] theorem retrain_stateKept (k : Core) (s c : Nat) : StateKept k (retrain k s c) := by simp [retrain]

@[simp] theorem takeTemp_stateKept (k : Core) (s t : Nat) : StateKept k (takeTemp k s t) := by simp [takeTemp]

@[simp] theorem tempTriggers_stateKept (k : Core) (s : Nat) : StateKept k (tempTriggers k s) := by simp [tempTriggers]

@[simp] theorem retrainStart_stateKept (k : Core) (s c : Nat) : StateKept k (retrainStart k s c) := by simp [retrainStart]

@[simp] theorem retrainDone_stateKept (k : Core) (s c : Nat) (ok : Bool) : StateKept k (retrainDone k s c ok) := by simp [retrainDone]

/-! ### Flash -/

@[simp] theorem markCw_stateKept (k : Core) (s l page cw : Nat) (p : Bool) : StateKept k (markCw k s l page cw p) := by simp [markCw]

@[simp] theorem suspendOp_stateKept (k : Core) (s : Nat) : StateKept k (suspendOp k s) := by simp only [suspendOp]; (repeat' split) <;> simp

@[simp] theorem flsFetch_stateKept (k : Core) (s n : Nat) : StateKept k (flsFetch k s n) := by simp [flsFetch]

@[simp] theorem flashOpResume_stateKept (k : Core) (s : Nat) : StateKept k (flashOpResume k s) := by simp [flashOpResume]

@[simp] theorem flashRead_stateKept (k : Core) (s l page cw errs : Nat) : StateKept k (flashRead k s l page cw errs) := by simp [flashRead]

@[simp] theorem countRetry_stateKept (k : Core) (s n : Nat) : StateKept k (countRetry k s n) := by simp [countRetry]

@[simp] theorem cwRecord_stateKept (k : Core) (s f : Nat) : StateKept k (cwRecord k s f) := by simp [cwRecord]

@[simp] theorem flashReadRetry_stateKept (k : Core) (s l page cw : Nat) (errs : List Nat) : StateKept k (flashReadRetry k s l page cw errs) := by
  unfold flashReadRetry
  dsimp only
  (repeat' split) <;> simp

theorem codeRegionFetch_halted {k : Core} (halted : k.glb.st = .halted) (a : Nat) (taken : Bool) (retries : Nat) :
    StateKept k (codeRegionFetch k a taken retries) := by
  unfold codeRegionFetch
  extract_lets l hit again read code filled
  have readKept : StateKept k read := by
    unfold read again
    (repeat' split) <;> simp
  have filledKept : StateKept k filled := by
    unfold filled
    split <;> simpa using readKept
  split
  · simp
  · split
    · exact readKept.trans (failStop_halted (readKept.1.trans halted) ..)
    · simp only [drawNat_eq]; (repeat' split) <;> simpa using filledKept

/-! ### The Security Core and the debug port -/

@[simp] theorem burnFuse_stateKept (k : Core) (w : FuseWrite) : StateKept k (burnFuse k w) := by simp [burnFuse]

@[simp] theorem setFwSlot_stateKept (k : Core) (b : Bool) (s : FwSlot) : StateKept k (setFwSlot k b s) := by simp [setFwSlot]

@[simp] theorem bootMeasure_stateKept (k : Core) (b fallback recovered : Bool) : StateKept k (bootMeasure k b fallback recovered) := by
  simp [bootMeasure]

@[simp] theorem setTap_stateKept (k : Core) (n : Nat) : StateKept k (setTap k n) := by simp [setTap]

@[simp] theorem dbgChallenge_stateKept (k : Core) (r : BitVec 256) : StateKept k (dbgChallenge k r) := by simp [dbgChallenge]

@[simp] theorem dbgUnlock_stateKept (k : Core) (level : Nat) (pk sig : List Byte) : StateKept k (dbgUnlock k level pk sig) := by
  simp only [dbgUnlock]; (repeat' split) <;> simp

@[simp] theorem dbgUnlockVerified_stateKept (k : Core) : StateKept k (dbgUnlockVerified k) := by unfold dbgUnlockVerified; split <;> simp

@[simp] theorem dbgLockoutEnd_stateKept (k : Core) : StateKept k (dbgLockoutEnd k) := by simp [dbgLockoutEnd]

@[simp] theorem dbgLock_stateKept (k : Core) : StateKept k (dbgLock k) := by simp [dbgLock]

@[simp] theorem lifeWipe_stateKept (k : Core) : StateKept k (lifeWipe k) := by
  have kept (f : Core → Nat → Fls → Fls) := foldl_fixes (g := fun k => (k.glb.st, k.pst.waking)) (f := fun k s => modFls k s (f k s))
    (fun k s => by simp) (upFrom 0 4) k
  simpa [lifeWipe, -foldl_st, -foldl_waking] using kept fun _ _ f => (upFrom 0 57344).foldl (fun f l =>
    { f.setPunit (f.phys l) (fun p => { p with ecount := p.ecount + 1 }) with lunits := [] }) f

@[simp] theorem bootRom_stateKept (k : Core) (b : BootReads) : StateKept k (bootRom k b) := by
  have marked : StateKept k (if k.lifeMarker = k.sec.lc then k else lifeWipe k) := by split <;> simp
  unfold bootRom
  dsimp only
  generalize (if k.lifeMarker = k.sec.lc then k else lifeWipe k) = m at marked ⊢
  (repeat' split) <;> simp_all [stopStartup]

@[simp] theorem dbgRecover_stateKept (k : Core) (h img : List Byte) : StateKept k (dbgRecover k h img) := by
  unfold dbgRecover; (repeat' split) <;> simp

@[simp] theorem dbgFuseProgram_stateKept (k : Core) (w : FuseWrite) : StateKept k (dbgFuseProgram k w) := by simp [dbgFuseProgram]

theorem bistEntry_halted {k : Core} (halted : k.glb.st = .halted) : StateKept k (bistEntry k) := by
  unfold bistEntry
  split
  · simp [failStop_halted, halted]
  · simp

@[simp] theorem eraseKey_stateKept (k : Core) (c : Nat) : StateKept k (eraseKey k c) := by
  unfold eraseKey
  split
  · simp
  · exact StateKept.trans (by simp) (StateKept.foldl (fun k h => by simp) (ctxObjs k c) _)

/-! ### Pins, resets and the SMBus -/

@[simp] theorem vaonIn_stateKept (k : Core) (straps : BitVec 2) : StateKept k (vaonIn k straps) := by simp [vaonIn]

@[simp] theorem setSysref_stateKept (k : Core) (on : Bool) : StateKept k (setSysref k on) := by simp [setSysref]

@[simp] theorem rootPllLock_stateKept (k : Core) : StateKept k (rootPllLock k) := by
  unfold rootPllLock; (repeat' split) <;> simp

@[simp] theorem pllLockTimeout_stateKept (k : Core) : StateKept k (pllLockTimeout k) := by simp [pllLockTimeout]

theorem resetRelease_halted {k : Core} (halted : k.glb.st = .halted) (f : Fuses) (b : BootReads) : StateKept k (resetRelease f b k) := by
  unfold resetRelease
  simp [halted]

@[simp] theorem linkTrained_stateKept (k : Core) (lanes speed : Nat) (flit : Bool) : StateKept k (linkTrained k lanes speed flit) := by
  simp [linkTrained]

@[simp] theorem msixKick_stateKept (k : Core) : StateKept k (msixKick k) := by simp [msixKick]

@[simp] theorem configRequest_stateKept (k : Core) (r : CfgReq) : StateKept k (configRequest k r) := by simp [configRequest]

@[simp] theorem thermNAssert_stateKept (k : Core) (c : Nat) : StateKept k (thermNAssert k c) := by simp [thermNAssert]

@[simp] theorem thermNRelease_stateKept (k : Core) (c : Nat) : StateKept k (thermNRelease k c) := by simp [thermNRelease]

@[simp] theorem thermNDemand_stateKept (k : Core) (on : Bool) : StateKept k (thermNDemand k on) := by simp [thermNDemand]

theorem thermalShutdown_halted {k : Core} (halted : k.glb.st = .halted) (c : Nat) : StateKept k (thermalShutdown k c) := by
  unfold thermalShutdown
  (repeat' split) <;> simp [halted]

@[simp] theorem smbAnswer_stateKept (k : Core) (cmd : Nat) (l : List Byte) (pec : Bool) : StateKept k (smbAnswer k cmd l pec) := by simp [smbAnswer]

@[simp] theorem smbReadGrade_stateKept (f : Fuses) (pec : Bool) (k : Core) : StateKept k (smbReadGrade f pec k) := by simp [smbReadGrade]

@[simp] theorem smbReadSetPoints_stateKept (f : Fuses) (pec : Bool) (k : Core) : StateKept k (smbReadSetPoints f pec k) := by simp [smbReadSetPoints]

@[simp] theorem smbReadStatus_stateKept (k : Core) (pec : Bool) : StateKept k (smbReadStatus k pec) := by simp [smbReadStatus]

@[simp] theorem smbWriteStatus_stateKept (k : Core) (v : Byte) (pec : Pec) : StateKept k (smbWriteStatus k v pec) := by simp [smbWriteStatus]

@[simp] theorem smbGrant_stateKept (k : Core) (b : List Byte) (pec : Pec) : StateKept k (smbGrant k b pec) := by simp [smbGrant]

@[simp] theorem smbReport_stateKept (k : Core) : StateKept k (smbReport k) := by simp [smbReport]

@[simp] theorem smbusTimeout_stateKept (k : Core) : StateKept k (smbusTimeout k) := by simp [smbusTimeout]

/-! ### Partition reset -/

@[simp] theorem settleObj_stateKept (k : Core) (h : Nat) : StateKept k (settleObj k h) := by
  unfold settleObj
  simp

@[simp] theorem settleObjs_stateKept (k : Core) (p : Nat) : StateKept k (settleObjs k p) := by simp [settleObjs]

@[simp] theorem settleSet_stateKept (k : Core) (m : Nat) : StateKept k (settleSet k m) := by simp only [settleSet]; (repeat' split) <;> simp

@[simp] theorem clearPages_stateKept (k : Core) (s : Nat) : StateKept k (clearPages k s) := by simp [clearPages]

@[simp] theorem settleEdits_stateKept (k : Core) (p : Nat) : StateKept k (settleEdits k p) := by simp [settleEdits]

@[simp] theorem settlePool_stateKept (k : Core) (p : Nat) : StateKept k (settlePool k p) := by simp [settlePool]

@[simp] theorem settleStores_stateKept (k : Core) (p : Nat) : StateKept k (settleStores k p) := by simp [settleStores]

@[simp] theorem settleFabric_stateKept (k : Core) (p : Nat) : StateKept k (settleFabric k p) := by simp [settleFabric]

@[simp] theorem partWipe_stateKept (k : Core) (p : Nat) : StateKept k (partWipe k p) := by
  refine StateKept.trans (m := (domTiles k p).foldl (fun k t => modTile k t (fun q => { q.stopped with
    mem := Mem.empty, ctrs := [], held := [], regs := [], soft := softStart k, owner := none })) k) (.foldl (fun k t => by simp) _ k) ?_
  exact StateKept.trans (by simp [wipeQuarterStg]) (StateKept.foldl (fun k s => by split <;> simp) [2 * p, 2 * p + 1] _)

@[simp] theorem partitionResetDone_stateKept (k : Core) (p : Nat) : StateKept k (partitionResetDone k p) := by
  have erased (l : List Nat) (k : Core) : StateKept k (l.foldl eraseKey k) := .foldl (fun k c => by simp) l k
  have settled (l : List Nat) (k : Core) : StateKept k (l.foldl settlePool k) := .foldl (fun k c => by simp) l k
  unfold partitionResetDone
  split <;> simp [erased, settled]

/-! ### The aperture -/

@[simp] theorem apRefuse_stateKept (k : Core) (q : ApReq) : StateKept k (apRefuse k q) := by simp [apRefuse]

@[simp] theorem apRead_stateKept (k : Core) (q : ApReq) : StateKept k (apRead k q) := by simp [apRead]

@[simp] theorem apWriteLine_stateKept (q : ApReq) (b : List Byte) (k : Core) (l : Nat) : StateKept k (apWriteLine q b k l) := by
  unfold apWriteLine
  dsimp only
  (repeat' split) <;> simp

@[simp] theorem apServe_stateKept (k : Core) (q : ApReq) : StateKept k (apServe k q) := by simp only [apServe]; (repeat' split) <;> simp

@[simp] theorem apHold_stateKept (k : Core) (q : ApReq) : StateKept k (apHold k q) := by simp [apHold]

@[simp] theorem apAccess_stateKept (k : Core) (q : ApReq) : StateKept k (apAccess k q) := by simp [apAccess]

@[simp] theorem apRetry_stateKept (k : Core) : StateKept k (apRetry k) := by simp [apRetry]

@[simp] theorem bar4Read_stateKept (k : Core) (x n : Nat) : StateKept k (bar4Read k x n) := by simp [bar4Read]

@[simp] theorem bar4Write_stateKept (k : Core) (x : Nat) (b : List Byte) (w : WriteAttr) : StateKept k (bar4Write k x b w) := by simp [bar4Write]

/-! ### Power states -/

@[simp] theorem unlessHeld_stateKept {f : Core → Core} {k : Core} (kept : StateKept k (f k)) : StateKept k (unlessHeld f k) := by
  unfold unlessHeld; split
  · simp
  · exact kept

@[simp] theorem wakeNAssert_stateKept (k : Core) (n : Nat) : StateKept k (wakeNAssert k n) := by simp [wakeNAssert]

/-! ### Feed ports -/

theorem bar2FeedWrite_halted {k : Core} (halted : k.glb.st = .halted) (a : Nat) (b : List Byte) : StateKept k (bar2FeedWrite k a b) := by
  unfold bar2FeedWrite
  split
  · simp
  · simp [ctlServed, halted]

@[simp] theorem portShut_stateKept (k : Core) (n : Nat) : StateKept k (portShut k n) := by simp [portShut]

@[simp] theorem feedPortClosed_stateKept (k : Core) (n : Nat) : StateKept k (feedPortClosed k n) := by simp [feedPortClosed]

@[simp] theorem msixTimeTrigger_stateKept (k : Core) (r : PacedRing) : StateKept k (msixTimeTrigger k r) := by
  unfold msixTimeTrigger; split <;> split <;> simp

@[simp] theorem coalesceExpiry_stateKept (k : Core) (n : Nat) : StateKept k (coalesceExpiry k n) := by simp [coalesceExpiry]

/-! ### Host accesses -/

@[simp] theorem badAccess_stateKept (k : Core) (read : Bool) (off n : Nat) : StateKept k (badAccess k read off n) := by simp [badAccess]

/-! ### Debug accesses -/

@[simp] theorem dbgTapReset_stateKept (k : Core) (n : Nat) : StateKept k (dbgTapReset k n) := by simp [dbgTapReset]

@[simp] theorem dbgBypass_stateKept (k : Core) : StateKept k (dbgBypass k) := by simp [dbgBypass]

@[simp] theorem dbgIdcode_stateKept (k : Core) : StateKept k (dbgIdcode k) := by simp [dbgIdcode]

@[simp] theorem dbgRead_stateKept (k : Core) (x : DbgTarget) : StateKept k (dbgRead k x) := by simp only [dbgRead]; (repeat' split) <;> simp

@[simp] theorem dbgTsHalt_stateKept (k : Core) (t : Nat) : StateKept k (dbgTsHalt k t) := by simp [dbgTsHalt]

@[simp] theorem tsStep_stateKept (k : Core) (t : Nat) : StateKept k (tsStep k t) := by
  have dispatched (m : Core) : StateKept m ((tsDispatch m t).getD m) := by
    cases run : tsDispatch m t with
    | none => simp
    | some n => simpa using tsDispatch_stateKept run
  unfold tsStep
  dsimp only
  (repeat' split) <;> simp [dispatched]

@[simp] theorem dbgTsStep_stateKept (k : Core) (t : Nat) : StateKept k (dbgTsStep k t) := by simp [dbgTsStep]

/-! ### Rows -/

@[simp] theorem onlyIf_stateKept {f : Core → Core} {k : Core} (kept : StateKept k (f k)) (p : Core → Bool) : StateKept k (onlyIf p f k) := by
  unfold onlyIf; split
  · exact kept
  · simp

@[simp] theorem unitEvent_stateKept {f : Core → Core} (kept : ∀ k, StateKept k (f k)) (k : Core) (t : Nat) :
    StateKept k (unitEvent k t f) := onTile_stateKept kept k t

@[simp] theorem toUnit_stateKept {f : Core → Nat → TIns → Core} (kept : ∀ k t i, StateKept k (f k t i)) (k : Core) (t : Nat) (i : TIns) :
    StateKept k (toUnit f k t i) := onTile_stateKept (fun k => kept k t i) k t

@[simp] theorem atHead_stateKept {f : Nat → TIns → Core → Core} (kept : ∀ t i k, StateKept k (f t i k)) (k : Core) (t : Nat) (i : TIns) :
    StateKept k (atHead f k t i) := tsExec_stateKept (kept t i) k t i

@[simp] theorem retrainRow_stateKept (k : Core) (s c : Nat) : StateKept k (retrainRow k s c) := by simp [retrainRow]

@[simp] theorem stackTempRow_stateKept (k : Core) (s t : Nat) : StateKept k (stackTempRow k s t) := by simp [stackTempRow]

end Sys2Proof.Proofs.HaltedStays
end

section
/-! PROOFS. HALTED (R60): each command in HALTED but a reset of the device or a change of its power leaves the
device there, with no exit under way. -/

namespace Sys2Proof.Proofs.HaltedStays
open Sys2Proof.Machine Sys2Proof.Laws

theorem not_alive {k : Core} (halted : k.glb.st = .halted) : alive k = false := by simp [alive, halted]

section
variable {k : Core} (halted : k.glb.st = .halted)
include halted

/-! Commands that find the device not serving change nothing. -/

theorem whenAlive_idle (f : Core → Core) : whenAlive f k = k := by simp [whenAlive, not_alive halted]

theorem ctlExec_idle (sp : CtlSpec) (h : CtlHdr) (a b c : W32) (x : W128) : ctlExec sp h a b c x k = k := by simp [ctlExec, ctlServed, halted]

theorem heldExec_idle (sp : CtlSpec) (h : CtlHdr) (a b c : W32) (x : W128) : heldExec sp h a b c x k = k := by
  simp [heldExec, unlessHeld, ctlExec_idle halted]

theorem onPorts_idle (f : Core → Core) : onlyIf portsServe f k = k := by simp [onlyIf, portsServe, halted]

theorem onBar0_idle (f : Core → Core) : onlyIf bar0Served f k = k := by simp [onlyIf, bar0Served, halted]

theorem bar0Write_idle (off : Nat) (v mask : W64) : bar0Write k off v mask = k := by simp [bar0Write, bar0Served, halted]

theorem msixUnmask_idle (n : Nat) : msixUnmask k n = k := bar0Write_idle halted ..

theorem clrRow_idle (off : Nat) (v : W64) : clrRow k off v = k := by
  unfold clrRow
  split
  · exact bar0Write_idle halted ..
  · rfl

theorem glbPartReset_idle (bits : Nat) : glbPartReset k bits = k := by
  have started (l : List Nat) : l.foldl partResetStart k = k := List.foldlRecOn (motive := (· = k)) l partResetStart rfl
    fun t same p _ => by simp [same, partResetStart, halted]
  exact started _

theorem glbEnable_idle : glbEnable k = k := by simp [glbEnable, halted]

theorem startupComplete_idle : startupComplete k = k := by simp [startupComplete, halted]

theorem consistencyCheckDone_idle (inc : W32) : consistencyCheckDone k inc = k := by simp [consistencyCheckDone, halted]

theorem feedTake_idle (n : Nat) : feedTake k n = k := by simp [feedTake, ctlServed, halted]

theorem entryCommit_idle (cclk : W32) : entryCommit k cclk = k := by
  unfold entryCommit
  split <;> simp [halted]

theorem entryRefused_idle (stop : EntryStop) : entryRefused k stop = k := by simp [entryRefused, halted]

theorem grazeSample_idle (r : GrazeReadings) : grazeSample k r = k := by simp [grazeSample, halted]

theorem bootRomComplete_idle (sramOk : Bool) (journalOk : BitVec 4) : bootRomComplete k sramOk journalOk = k := by simp [bootRomComplete, halted]

theorem hbmTrainingDone_idle (trained : BitVec 8) (wipeOk : Bool) : hbmTrainingDone k trained wipeOk = k := by simp [hbmTrainingDone, halted]

theorem portRetryTimer_idle (p : Nat) : portRetryTimer k p = k := by simp [portRetryTimer, portsServe, halted]

theorem powerWake_idle (n : Nat) : powerWake k n = k := by simp [powerWake, pstateOf, halted]

theorem registerWrite_halted (off : Nat) (eight : Bool) (v : W64) : StateKept k (registerWrite k off eight v) := by
  unfold registerWrite
  (repeat' split) <;> simp [bar0Write_idle halted]

end

theorem powerExitComplete_idle {k : Core} (waking : k.pst.waking = false) (imageOk : Bool) : powerExitComplete k imageOk = k := by
  simp [powerExitComplete, waking]

/-- The device is in HALTED and no exit is under way. -/
def Halted (k : Core) : Prop := k.glb.st = .halted ∧ k.pst.waking = false

theorem Halted.after {k t : Core} (kept : StateKept k t) (halted : Halted k) : Halted t := ⟨kept.1.trans halted.1, kept.2.trans halted.2⟩

theorem finish_halted {s : State} {k : Core} (halted : Halted k) : Halted (s.finish k).core := by
  have idle : StateKept k (followUps k) := by
    simp only [followUps, not_alive halted.1, Bool.false_eq_true, if_false]
    split
    · simp
    · exact apRetry_stateKept k
  have followed := halted.after idle
  have untold : tellTwin s.core (followUps k) = followUps k := by simp [tellTwin, not_alive followed.1]
  simpa [State.finish, untold, Halted] using followed

/-- The outcome of a command that keeps the device state: what it leaves, followed by what the device does of itself or by nothing. -/
def Rests (s : State) (o : Host.Outcome State Fault Refusal) : Prop :=
  ∃ k, StateKept s.core k ∧ (o = .next (s.finish k) ∨ o = .next { s with core := k })

variable {s : State} {k : Core}

theorem rests_core (kept : StateKept s.core k) : Rests s (.next (s.finish k)) := ⟨k, kept, .inl rfl⟩

theorem rests_plain (kept : StateKept s.core k) : Rests s (.next { s with core := k }) := ⟨k, kept, .inr rfl⟩

theorem idle_core (same : k = s.core) : Rests s (.next (s.finish k)) := rests_core (by simp [same])

theorem idle_plain (same : k = s.core) : Rests s (.next { s with core := k }) := rests_plain (by simp [same])

theorem Rests.halted {t : State} {o : Host.Outcome State Fault Refusal} (rests : Rests s o) (halted : Halted s.core) (ran : o = .next t) :
    Halted t.core := by
  obtain ⟨k, kept, made | made⟩ := rests
  · obtain rfl : s.finish k = t := by simpa [made] using ran
    exact finish_halted (halted.after kept)
  · obtain rfl : { s with core := k } = t := by simpa [made] using ran
    exact halted.after kept

theorem vxRowsRow_stateKept {row : Nat → TIns → Core × Exc → Nat → Core × Exc} (kept : ∀ t i s r, StateKept s.1 (row t i s r).1) (k : Core)
    (t : Nat) (i : TIns) :
    StateKept k (vxRowsRow row k t i) :=
  toUnit_stateKept (fun k t i => vxRun_stateKept (fun k => vxRows_stateKept (kept t i) k t i) k t i) k t i

theorem exec_rests (c : Instr) (running : resets c = false) (halted : Halted s.core) : Rests s (exec c s) := by
  cases c
  case pwrgoodRise | pwrgoodFall | railTrip | resetNLow | perstNLow | pcieHotReset | functionLevelReset | vaonOutOfRegulation =>
    simp [resets] at running
  case pwrStepTarget | pwrLimit | pwrQuery | pwrEnter | pwrWake | sysNop | sysQuery | sysRingOpen | sysRingClose | sysCtxOpen | sysCtxClose
    | seqOpen | seqPrompt | seqStart | seqPause | seqResume | seqCancel | seqClose | seqStop | seqPrio | seqQuery | ptPoolOpen | ptPoolClose
    | ptPoolStat | ptBind | ptRead | ptEdit | acctOpen | acctSet | acctGrant | acctClose | acctStat | msetLoad | msetSwap | msetDrain | msetQuery =>
    exact idle_core (ctlExec_idle halted.1 ..)
  case fabRoute | fabChanOpen | fabChanClose | fabBcastSend | fabBcastRecv | fabTwinJoin | fabTwinLeave | fabFailrec | fabNodeQuery | objAlloc
    | objPromote | objEvict | objPin | objUnpin | objClean | objFree | objQuery | objSched | objFlErase | objFlQuery | objFlStore | secExtend
    | secFwStage | secFwActivate | secFwAbort | secFwCommit | secLcAdvance | secQuote | secCtxKey | maintTest | maintScrub | maintStop | maintQuery =>
    exact idle_core (heldExec_idle halted.1 ..)
  case bcastTimeout | dramZeroComplete | fetchComplete | evictionComplete | flashEraseDone | flashPageProgrammed | objCleanComplete
    | recoveryLineDone | flashScrubPage | quoteSigned | fieldTestVerified | fieldTestDone | pageEditPrepared | stepBoundary | idleBoundaryTimer
    | gateGroupRelease | pageCopyDone | waitingRecordWrite | stepRetire | dramScrubFrame => exact idle_core (whenAlive_idle halted.1 _)
  case fastPeriod | slowPeriod | dividerApply | complianceInterval | droopFire | droopHoldEnd | softStartRise =>
    exact idle_plain (whenAlive_idle halted.1 _)
  case linkSilence | linkResend | e2eTimeout | hostReadCompletion | completionTimeout | ctxKeyReadDone => exact idle_core (onPorts_idle halted.1 _)
  case portTrainingDone => exact idle_plain (onPorts_idle halted.1 _)
  case feedPortOpen | feedCqHeadWrite | feedDrHeadWrite | errRingEnable | errRingDisable | errRingHeadWrite =>
    exact idle_plain (bar0Write_idle halted.1 ..)
  case tileStallClr | tileMeClr | tileNumClr | tileVcClr | tileAtClr | pciStallClr | glbBrClr | schdClr | schdObjClr | memClr | flsClr | fabClr
    | pwrClr | secClr | errClr | pxClr => exact idle_plain (clrRow_idle halted.1 ..)
  case frameForward | fabData | fabAck | fabNack | fabCredit | fabBcast | bcastJoin | bcastEnd | bcastBitmap | bcastDone | fabMirror | fabMirrorAck
    | fabGrant | fabPing | fabPong | fabDeviceDown => exact rests_core (arrive_stateKept ..)
  case dmCopy | dmStride | dmTrans | dmFill => exact rests_core (toUnit_stateKept (fun k t i => unlessHeld_stateKept (dmStart_stateKept k t i)) ..)
  case hxEnd => exact rests_core (hxEnd_stateKept ..)
  case hxSet => exact rests_core (hxSet_stateKept ..)
  case hxAdd => exact rests_core (hxAdd_stateKept ..)
  case hxBarrier => exact rests_core (hxBarrier_stateKept ..)
  case hxTset => exact rests_core (atHead_stateKept tsetEffect_stateKept ..)
  case hxTadd => exact rests_core (atHead_stateKept taddEffect_stateKept ..)
  case hxTload => exact rests_core (atHead_stateKept tloadEffect_stateKept ..)
  case hxJump => exact rests_core (atHead_stateKept jumpEffect_stateKept ..)
  case hxBranch => exact rests_core (atHead_stateKept branchEffect_stateKept ..)
  case hxLoop => exact rests_core (atHead_stateKept loopEffect_stateKept ..)
  case mxLoads => exact rests_core (toUnit_stateKept mxLoads_stateKept ..)
  case mxPass => exact rests_core (toUnit_stateKept mxPass_stateKept ..)
  case mxDrain => exact rests_core (toUnit_stateKept mxDrain_stateKept ..)
  case vxAdd | vxMul | vxFma | vxMax | vxMin | vxCvt | vxFunc => exact rests_core (toUnit_stateKept vxMap_stateKept ..)
  case vxReduce => exact rests_core (toUnit_stateKept (fun k t i => vxRun_stateKept (fun k => vxReduce_stateKept k t i) k t i) ..)
  case vxMaxabs => exact rests_core (toUnit_stateKept (fun k t i => vxRun_stateKept (fun k => vxMaxabs_stateKept k t i) k t i) ..)
  case vxNorm => exact rests_core (vxRowsRow_stateKept normRow_stateKept ..)
  case vxSoftmax => exact rests_core (vxRowsRow_stateKept softmaxRow_stateKept ..)
  case vxSample => exact rests_core (vxRowsRow_stateKept sampleRow_stateKept ..)
  case vxWhisk => exact rests_core (vxRowsRow_stateKept whiskRow_stateKept ..)
  case vxWindow => exact rests_core (toUnit_stateKept vxWindow_stateKept ..)
  case cvSetup => exact rests_core (toUnit_stateKept cvSetup_stateKept ..)
  case cvFeed => exact rests_core (toUnit_stateKept cvFeed_stateKept ..)
  case atRun => exact rests_core (toUnit_stateKept atRun_stateKept ..)
  case atKvput => exact rests_core (toUnit_stateKept atKvput_stateKept ..)
  case atMerge => exact rests_core (toUnit_stateKept atMerge_stateKept ..)
  case dbgTapReset => exact rests_plain (dbgTapReset_stateKept ..)
  case dbgBypass => exact rests_plain (dbgBypass_stateKept ..)
  case dbgIdcode => exact rests_plain (dbgIdcode_stateKept ..)
  case dbgChallenge => exact rests_plain (dbgChallenge_stateKept ..)
  case dbgUnlock => exact rests_plain (dbgUnlock_stateKept ..)
  case dbgUnlockVerified => exact rests_plain (dbgUnlockVerified_stateKept ..)
  case dbgLockoutEnd => exact rests_plain (dbgLockoutEnd_stateKept ..)
  case dbgLock => exact rests_plain (dbgLock_stateKept ..)
  case dbgRecover => exact rests_plain (dbgRecover_stateKept ..)
  case dbgRead => exact rests_plain (dbgRead_stateKept ..)
  case dbgTsHalt => exact rests_plain (dbgTsHalt_stateKept ..)
  case bistEntry => exact rests_plain (bistEntry_halted halted.1 ..)
  case portRetryTimer => exact idle_plain (portRetryTimer_idle halted.1 ..)
  case bar0BadAccess => exact rests_plain (badAccess_stateKept ..)
  case bar2FeedWrite => exact rests_plain (bar2FeedWrite_halted halted.1 ..)
  case bar4Read => exact rests_plain (bar4Read_stateKept ..)
  case msixUnmask => exact idle_plain (msixUnmask_idle halted.1 ..)
  case msixTimeTrigger => exact rests_plain (msixTimeTrigger_stateKept ..)
  case writebackCoalesceExpiry => exact rests_plain (coalesceExpiry_stateKept ..)
  case glbEnable => exact idle_plain (glbEnable_idle halted.1)
  case consistencyCheckDone => exact idle_plain (consistencyCheckDone_idle halted.1 ..)
  case feedPortClose => exact idle_plain (onBar0_idle halted.1 _)
  case feedPortClosed => exact rests_plain (feedPortClosed_stateKept ..)
  case estimatorWindow => exact rests_plain (onlyIf_stateKept (estimatorWindow_stateKept ..) _)
  case thermalLaw => exact rests_plain (onlyIf_stateKept (thermalLaw_stateKept ..) _)
  case leaseExpiry => exact rests_plain (onlyIf_stateKept (leaseExpiry_stateKept ..) _)
  case reportPeriod => exact rests_plain (onlyIf_stateKept (reportPeriod_stateKept ..) _)
  case entryCommit => exact idle_plain (entryCommit_idle halted.1 ..)
  case powerWake => exact idle_plain (powerWake_idle halted.1 ..)
  case grazeSample => exact idle_plain (grazeSample_idle halted.1 ..)
  case vaonInRegulation => exact rests_plain (vaonIn_stateKept ..)
  case rootPllLock => exact rests_plain (rootPllLock_stateKept ..)
  case pllLockTimeout => exact rests_plain (pllLockTimeout_stateKept ..)
  case resetRelease => exact rests_plain (resetRelease_halted halted.1 ..)
  case bootRomComplete => exact idle_plain (bootRomComplete_idle halted.1 ..)
  case hbmTrainingDone => exact idle_plain (hbmTrainingDone_idle halted.1 ..)
  case startupComplete => exact idle_plain (startupComplete_idle halted.1)
  case pcieLinkTrained => exact rests_plain (linkTrained_stateKept ..)
  case pcieConfigRequest => exact rests_plain (configRequest_stateKept ..)
  case thermNAssert => exact rests_plain (thermNAssert_stateKept ..)
  case thermNRelease => exact rests_plain (thermNRelease_stateKept ..)
  case thermNDemandStart => exact rests_plain (thermNDemand_stateKept ..)
  case thermNDemandEnd => exact rests_plain (thermNDemand_stateKept ..)
  case thermalShutdown => exact rests_plain (thermalShutdown_halted halted.1 ..)
  case wakeNAssert => exact rests_plain (wakeNAssert_stateKept ..)
  case smbReadGrade => exact rests_plain (smbReadGrade_stateKept ..)
  case smbReadSetPoints => exact rests_plain (smbReadSetPoints_stateKept ..)
  case smbReadAonStatus => exact rests_plain (smbReadStatus_stateKept ..)
  case smbWriteAonStatus => exact rests_plain (smbWriteStatus_stateKept ..)
  case smbGrant => exact rests_plain (smbGrant_stateKept ..)
  case smbReport => exact rests_plain (smbReport_stateKept ..)
  case sysrefLoss => exact rests_plain (setSysref_stateKept ..)
  case sysrefReturn => exact rests_plain (setSysref_stateKept ..)
  case smbusTimeout => exact rests_plain (smbusTimeout_stateKept ..)
  case refreshDue => exact rests_plain (onlyIf_stateKept (refreshDue_stateKept ..) _)
  case stackTempRead => exact rests_plain (onlyIf_stateKept (f := fun k => stackTempRow k _ _) (stackTempRow_stateKept ..) _)
  case dbgTsStep => exact rests_core (dbgTsStep_stateKept ..)
  case dbgFuseProgram => exact rests_core (dbgFuseProgram_stateKept ..)
  case bar4Write => exact rests_core (bar4Write_stateKept ..)
  case glbPartReset => exact idle_core (glbPartReset_idle halted.1 ..)
  case partitionResetDone => exact rests_core (partitionResetDone_stateKept ..)
  case registerWrite => exact rests_core (registerWrite_halted halted.1 ..)
  case feedTake => exact idle_core (feedTake_idle halted.1 ..)
  case flashRead => exact rests_core (onlyIf_stateKept (flashRead_stateKept ..) _)
  case flashReadRetry => exact rests_core (onlyIf_stateKept (flashReadRetry_stateKept ..) _)
  case flashOpResume => exact rests_core (onlyIf_stateKept (flashOpResume_stateKept ..) _)
  case codeRegionFetch => exact rests_core (codeRegionFetch_halted halted.1 ..)
  case entryRefused => exact idle_core (entryRefused_idle halted.1 ..)
  case powerExitComplete => exact idle_core (powerExitComplete_idle halted.2 _)
  case stepWatchdog => exact rests_core (stepWatchdog_halted halted.1 ..)
  case dramRequest => exact rests_core (onlyIf_stateKept (f := fun k => dramRequest k _ _ _ _) (dramRequest_halted halted.1 ..) _)
  case migrationFrame => exact rests_core (onlyIf_stateKept (f := fun k => migrationFrame k _ _) (migrationFrame_halted halted.1 ..) _)
  case migrationComplete => exact rests_core (onlyIf_stateKept (migrationComplete_stateKept ..) _)
  case retrainStart => exact rests_core (onlyIf_stateKept (retrainRow_stateKept ..) _)
  case retrainDone => exact rests_core (onlyIf_stateKept (retrainDone_stateKept ..) _)
  case remoteIncrementArrive => exact rests_core (remoteIncrementArrive_stateKept ..)
  case programFetchReturn => exact rests_core (programFetchReturn_stateKept ..)
  case mxLoadArmed => exact rests_core (unitEvent_stateKept (fun k => mxLoadArmed_stateKept k _ _) ..)
  case mxWaveIssue => exact rests_core (unitEvent_stateKept (fun k => mxWaveIssue_stateKept k _ _) ..)
  case oabRowWrite => exact rests_core (unitEvent_stateKept (fun k => oabRowWrite_stateKept k _ _) ..)
  case mxRegisterEmpty => exact rests_core (unitEvent_stateKept (fun k => mxRegisterEmpty_stateKept k _ _) ..)
  case drainRowWrite => exact rests_core (unitEvent_stateKept (fun k => drainRowWrite_stateKept k _ _) ..)

/-- Settles O60: in HALTED only a reset of the device or a change of its power leads to another state. -/
theorem haltedIsLeftOnlyByReset : Obligations.HaltedIsLeftOnlyByReset := by
  intro s t halted waking running ran
  unfold step at ran
  split at ran
  · obtain rfl : s = t := by simpa using ran
    exact ⟨halted, waking⟩
  · rename_i c rest front
    exact (exec_rests (s := { s with pending := rest }) c (running c (by simp [front])) ⟨halted, waking⟩).halted ⟨halted, waking⟩ ran

end Sys2Proof.Proofs.HaltedStays
end
